-- ==== Sys2Proof/Word.lean ====
section
/-! DEFINITION. The word and byte types of the SB-240's frames and image (chapter 8, section 8.2; chapter 10,
section 10.1): a block is a list of 16-bit words, a frame a list of 8-bit bytes. -/

namespace Sys2Proof

/-- One word of a request block, of a reply block or of the stored image: 16 bits. -/
abbrev Word := BitVec 16

/-- One byte of the serial line: 8 bits. -/
abbrev Byte := BitVec 8

/-- A request or reply block: words in the order they stand in the frame. -/
abbrev Block := List Word

end Sys2Proof
end

