-- ==== Sys2Proof/Syntax.lean ====
section
/-! DEFINITION. The commands of the block: one constructor per row of spec/opcode_table.json. A request row
carries the request's block (its words as they stand in the frame), so that every length and every value a host
can send is a command; an event row carries what the world decides about the event (a read that came back whole,
the unit, the bed or the train concerned, the bytes that arrived). -/

namespace Sys2Proof

/-- The two bytes that abandon a frame in assembly (R159): one with a missing stop bit, and a length byte above
64. -/
inductive BadByte where
  | missingStop
  | length (n : Byte)
  deriving DecidableEq, Repr

/-- The commands, one for each row of the table of operations and events, in the table's order. -/
inductive Instr where
  -- restarts and the restore (chapter 10)
  | powerOn
  | external
  | supplyDip
  | restartRequest
  | restoreReadDone (readOk : Bool)
  -- the serial line (chapter 8)
  | frameReceived (bytes : List Byte)
  | frameAbandoned (why : BadByte)
  | interByteTimeout
  | replySent
  -- requests of the message link and of link supervision
  | stationReport (blk : Block)
  | linkStatus (blk : Block)
  | eventDrain (blk : Block)
  | supervisionSet (blk : Block)
  | resume (blk : Block)
  | restart (blk : Block)
  -- requests of chapter 1
  | clockSet (blk : Block)
  | clockTrim (blk : Block)
  | clockRead (blk : Block)
  | curveWrite (blk : Block)
  | curveRead (blk : Block)
  | curveClear (blk : Block)
  -- requests of chapters 2 and 4
  | accountOpen (blk : Block)
  | accountAmend (blk : Block)
  | accountSuspend (blk : Block)
  | accountResume (blk : Block)
  | accountClose (blk : Block)
  | accountAdjust (blk : Block)
  | accountRead (blk : Block)
  | transfer (blk : Block)
  | sbaRead (blk : Block)
  | settlementRead (blk : Block)
  | allocationRead (blk : Block)
  -- requests of chapter 3
  | nominate (blk : Block)
  | cancel (blk : Block)
  | bookRead (blk : Block)
  | scheduleRead (blk : Block)
  | bookStatistics (blk : Block)
  -- requests of chapter 5
  | siteSet (blk : Block)
  | flowRead (blk : Block)
  -- requests of chapter 6
  | unitSet (blk : Block)
  | unitDisable (blk : Block)
  | unitEnable (blk : Block)
  | unitRead (blk : Block)
  | rosterSet (blk : Block)
  -- requests of chapter 7
  | trainSet (blk : Block)
  | trainServiceOut (blk : Block)
  | trainServiceIn (blk : Block)
  | trainRead (blk : Block)
  -- requests of chapter 10
  | storeRead (blk : Block)
  | storeLoad (blk : Block)
  | storeLoadEnd (blk : Block)
  | storeInitialize (blk : Block)
  -- events of time and of the plant
  | reportGap
  | gasClockSecond
  | hourBoundary
  | settlementCompletion
  | commitEnd (whole : Bool)
  | rampStep
  | turnaroundExpiry
  | schedulerSecond
  | startStampAged (unit : Fin 6)
  | warmUpExpiry (unit : Fin 6)
  | hotHoldExpiry (unit : Fin 6)
  | warmHoldExpiry (unit : Fin 6)
  | recoveryIntervalExpiry (unit : Fin 6)
  | attemptsReset (unit : Fin 6)
  | dryingSecond
  | heatingEnd (bed : Fin 4)
  | coolingEnd (bed : Fin 4)
  | maskExpiry (train : Fin 2)
  | offSpec (train : Fin 2)
  | onSpec (train : Fin 2)
  | statisticsSecond
  | fallbackEntered
  | requestSyncByte
  | supervisionTimerSecond
  deriving DecidableEq, Repr

end Sys2Proof
end

