-- ==== Sys2Proof/Decode.lean ====
section
/-! DEFINITION. The command a word spells by the bits of spec/opcode_table.json. The table gives no row any bits
(98_reader.md: n_rows_with_fixed 0, n_rows_unread 76), so no word spells a command: commands arrive as requests
in frames, on pins and from the elapsed-time base. -/

namespace Sys2Proof

/-- The command a word of the table spells: none, since no row of the table has bits. -/
def decodeTableWord (_nbits _w : Nat) : Option Instr := none

end Sys2Proof
end

