-- ==== Sys2Proof/Config.lean ====
section
/-! DEFINITION. The free values: what the manual leaves to the world or does not state. Each is an opaque
constant, so that nothing can be proved of its value and every statement holds whatever it is. The log entry that
introduces each is named beside it. -/

namespace Sys2Proof

/-- Which of several orders the world takes when blocks act on one instant and the manual fixes no order (R62,
R107, R115, R142, R164, R167). Read at a counter of State (log entry 2). -/
opaque Config.worldOrder : Nat → Nat

/-- The value of a curve that is unwritten; R16 states a value for a written curve only (log entry 9). -/
opaque Config.unwrittenCurve : Int → Word

/-- The room term and the rate term of the hourly limit of a slot that is EMPTY; R32 states them for any slot
that is not EMPTY (log entry 10). Arguments: slot, hour, and whether the direction is withdrawal. -/
opaque Config.emptySlotRoom : Nat → Nat → Bool → Nat
opaque Config.emptySlotRate : Nat → Nat → Bool → Nat

/-- The words a copy that holds no whole image returns to STORE READ: copy index, word index (R179: "its words
are returned as they stand"; log entry 6). -/
opaque Config.copyWord : Nat → Nat → Word

/-- The words of a copy that was found whole at its commit and failed both reads of a restore: the failure, by a counter of
State, and the word index (R179; log entry 40). -/
opaque Config.failedWord : Nat → Nat → Word

/-- The codes of the clock states in the reply of CLOCK READ (log entry 11). -/
opaque Config.clockUnsetCode : Word
opaque Config.clockRunningCode : Word

/-- The codes of the SBA alert states in the reply of SBA READ (log entry 11). -/
opaque Config.alertArmedCode : Word
opaque Config.alertRaisedCode : Word

/-- The codes of the slot states in the replies of ACCOUNT READ and ACCOUNT SUSPEND (log entry 11). -/
opaque Config.slotEmptyCode : Word
opaque Config.slotOpenCode : Word
opaque Config.slotSuspendedCode : Word
opaque Config.slotClosingCode : Word

/-- The codes of the link modes in the reply of LINK STATUS (log entry 11). -/
opaque Config.linkNormalCode : Word
opaque Config.linkFallbackCode : Word

/-- The codes of the phase a unit's phase timer serves, in the reply of UNIT READ (log entry 11). -/
opaque Config.phaseNoneCode : Word
opaque Config.phaseWarmUpCode : Word
opaque Config.phaseHotHoldCode : Word
opaque Config.phaseWarmHoldCode : Word
opaque Config.phaseRecoveryCode : Word

/-- What a reply carries in a field whose object is not there: the fuel curve of an unconfigured unit, the
capacity curve of an unconfigured train, the age of the oldest stamp of an empty start list, the old and new S of
no step cut (log entry 12). -/
opaque Config.noFuelCurve : Word
opaque Config.noCapacityCurve : Word
opaque Config.noStampAge : Word
opaque Config.noCutOld : BitVec 32
opaque Config.noCutNew : BitVec 32

/-- What a reply carries where the quotient it names has a divisor of 0, or does not fit its word: the load
permille of a unit of capacity 0, a permille above 65,535, the day of an hour beyond gas day 65,535 (log entry 12). -/
opaque Config.noLoadPermille : Word
opaque Config.widePermille : Nat → Word
opaque Config.wideDay : Nat → Word

/-- Whether SCHEDULE READ shows an hour before U as confirmed while the clock is UNSET, when there is no current
hour to be at or after (log entry 28). -/
opaque Config.confirmedWhileUnset : Nat → Bool

end Sys2Proof
end

