-- ==== Sys2Proof/Machine/State.lean ====
section
/-! DEFINITION. The state of the SB-240, block by block, as plain data, and the state right after a restart.
Quantities of gas are exact (`Nat` or `Int`, in kWh, kW or kilowatt-seconds), since the manual forms them exactly
(introduction, "Arithmetic"); bit vectors stand only for what software reads as words and for counters that wrap.
Lines, permits and flags that a rule makes a function of another state (R100, R114, R143, R168) have no field of
their own: Machine/Flags.lean computes them. -/

namespace Sys2Proof.Machine

/-! ### Why a command could stop -/

/-- Faults: none. Every command of the table has an effect in every state, so no meaning raises a fault; the type
is empty (safe: a run never stops here). -/
inductive Fault where
  deriving DecidableEq, Repr

/-- Refusals of the model. -/
inductive Refusal where
  /-- Raised by an arm of `exec` whose command has no meaning yet, and by nothing else (safe: the run stops). No
  arm raises it. -/
  | notModelled (mnemonic : String)
  deriving DecidableEq, Repr

/-! ### Chapter 1: clock, meter, curves -/

/-- The clock state (R1). -/
inductive ClockState where
  | unset
  | running
  deriving DecidableEq, Repr

/-- The gas clock (section 1.1.1). `hour` is the absolute hour index. -/
structure Clock where
  state : ClockState
  hour : Nat
  sec : Nat
  hourEnd : Nat
  trim : Int
  lastSettled : Nat
  deriving DecidableEq, Repr

/-- The baselines and the baseline-valid flag, as the meter intake holds them and as the store image does. -/
structure Baselines where
  forward : Nat
  reverse : Nat
  valid : Bool
  deriving DecidableEq, Repr

/-- The meter intake (section 1.2). Stamps are whole seconds of `State.elapsed`; `kept` is the copy of the
baselines that the intake keeps at each hour boundary for the commit (R175). -/
structure Meter where
  base : Baselines
  kept : Baselines
  lastAccepted : Option Nat
  bucket : Int
  refusals : Nat
  lastReport : Nat
  gap : Bool
  deriving DecidableEq, Repr

/-- A point of a curve (R15). -/
structure CurvePoint where
  x : Int
  y : Nat
  deriving DecidableEq, Repr

/-- A curve: its points in order, or no point where it is unwritten (R15). -/
abbrev Curve := List CurvePoint

/-! ### Chapter 5: the site settings -/

/-- The site settings that SITE SET replaces whole, in the order of the table of section 5.6. -/
structure Site where
  injRight : Nat
  wdrRight : Nat
  upRate : Nat
  downRate : Nat
  fallbackRate : Nat
  turnHold : Nat
  lead : Nat
  tolerance : Nat
  alertLimit : Nat
  startFraction : Nat
  stopFraction : Nat
  startLimit : Nat
  minimumRun : Nat
  coldWarmUp : Nat
  warmWarmUp : Nat
  hotWarmUp : Nat
  hotHold : Nat
  warmHold : Nat
  overloadLimit : Nat
  rotation : Bool
  deriving DecidableEq, Repr

/-- The default-image values of the site settings (section 5.6). -/
def Site.default : Site where
  injRight := 0
  wdrRight := 0
  upRate := 2000
  downRate := 4000
  fallbackRate := 8000
  turnHold := 900
  lead := 2
  tolerance := 5000
  alertLimit := 1000000000
  startFraction := 950
  stopFraction := 850
  startLimit := 3
  minimumRun := 1800
  coldWarmUp := 600
  warmWarmUp := 240
  hotWarmUp := 30
  hotHold := 1800
  warmHold := 14400
  overloadLimit := 5
  rotation := false

/-! ### Chapter 2: accounts -/

/-- The state of a shipper record (section 2.1). A slot that holds no record is EMPTY. -/
inductive AccountState where
  | opened
  | suspended
  | closing
  deriving DecidableEq, Repr

/-- A shipper record (section 2.1). A ratchet curve id that is absent is `none`. -/
structure Account where
  shipper : Nat
  state : AccountState
  inventory : Int
  spaceRight : Nat
  injRight : Nat
  wdrRight : Nat
  injCurve : Option (Fin 16)
  wdrCurve : Option (Fin 16)
  emptyClamp : Bool
  fullClamp : Bool
  deriving DecidableEq, Repr

/-- The SBA alert state (R38). -/
inductive Alert where
  | armed
  | raised
  deriving DecidableEq, Repr

/-- A queued title transfer (section 2.4). -/
structure Transfer where
  arrival : BitVec 32
  source : Nat
  destination : Nat
  quantity : Nat
  deriving DecidableEq, Repr

/-- The account table: 24 slots (EMPTY is `none`), the SBA and its alert, the balance totals record, the pending
transfer list and the transfer arrival counter (chapter 2). -/
structure Accounts where
  slots : Vector (Option Account) 24
  sba : Int
  alert : Alert
  opening : Int
  booked : Int
  charged : Int
  transfers : List Transfer
  nextTransfer : BitVec 32
  deriving DecidableEq, Repr

/-! ### Chapter 3: book and schedule -/

/-- The direction of a nomination or of a schedule record. -/
inductive Direction where
  | inject
  | withdraw
  deriving DecidableEq, Repr

/-- The class of a nomination or of a schedule record. -/
inductive Class where
  | firm
  | interruptible
  deriving DecidableEq, Repr

/-- A book entry (section 3.1). It holds the hours `next` through `last`. -/
structure Entry where
  arrival : BitVec 32
  slot : Fin 24
  shipper : Nat
  dir : Direction
  cls : Class
  first : Nat
  last : Nat
  next : Nat
  quantity : Nat
  deriving DecidableEq, Repr

/-- The six counts that the statistics keep for each kind (R66). -/
structure KindCounts where
  accepted : Nat
  superseded : Nat
  cancelled : Nat
  confirmedFull : Nat
  curtailed : Nat
  rejected : Nat
  deriving DecidableEq, Repr

/-- The book statistics (section 3.8). `filter` 0 is any shipper. The kinds stand in the order of the reply: FIRM
injection, INTERRUPTIBLE injection, FIRM withdrawal, INTERRUPTIBLE withdrawal. -/
structure Stats where
  filter : Nat
  threshold : Nat
  counts : Vector KindCounts 4
  occupancy : Nat
  high : Nat
  atThreshold : Nat
  rises : Nat
  deriving DecidableEq, Repr

/-- The nomination book (chapter 3). -/
structure Book where
  entries : List Entry
  nextArrival : BitVec 32
  confirmedThrough : Nat
  stats : Stats
  deriving DecidableEq, Repr

/-- The state of a schedule record (section 3.4). -/
inductive RecordState where
  | confirmed
  | curtailed
  | rejected
  deriving DecidableEq, Repr

/-- Why a record's confirmed quantity is below its requested quantity (section 3.4). -/
inductive Reason where
  | shipperLimit
  | inventory
  | suspended
  | capacity
  deriving DecidableEq, Repr

/-- A schedule record (section 3.4). -/
structure SchedRec where
  hour : Nat
  slot : Fin 24
  dir : Direction
  cls : Class
  requested : Nat
  confirmed : Nat
  state : RecordState
  reason : Option Reason
  recuts : Nat
  deriving DecidableEq, Repr

/-! ### Chapter 4: settlement -/

/-- What the settlement in flight took at its intake (R73): present exactly while the engine is SETTLING. -/
structure Intake where
  hour : Nat
  qb : Int
  fc : Nat
  fd : Nat
  records : List SchedRec
  deriving DecidableEq, Repr

/-- A site-hour record of the settlement history (R85). -/
structure SiteHour where
  hour : Nat
  qb : Int
  fc : Nat
  fd : Nat
  net : Int
  deviation : Int
  tolerancePart : Int
  uncoveredPart : Int
  unassigned : Int
  clampTotal : Int
  sbaAfter : Int
  deriving DecidableEq, Repr

/-- A last-allocation record (R86). -/
structure AllocRec where
  hour : Nat
  net : Int
  allocation : Int
  charge : Int
  clamp : Int
  deriving DecidableEq, Repr

/-- The settlement engine: IDLE is `inFlight = none` (chapter 4). -/
structure Settlement where
  inFlight : Option Intake
  history : List SiteHour
  alloc : Vector (Option AllocRec) 24
  deriving DecidableEq, Repr

/-! ### Chapter 5: the flow controller -/

/-- The direction states (section 5.4). -/
inductive FlowDir where
  | hold
  | injecting
  | withdrawing
  | turnaround
  deriving DecidableEq, Repr

/-- The flow controller (chapter 5). `lastDir` unknown is `none`; `lastCut` is the last step cut, old S and new S. -/
structure Flow where
  tRaw : Int
  t : Int
  setpoint : Int
  dir : FlowDir
  lastDir : Option Direction
  timer : Nat
  lastCut : Option (Int × Int)
  cInj : Nat
  cWdr : Nat
  deriving DecidableEq, Repr

/-! ### Chapter 6: compressor duty -/

/-- The unit states (section 6.2). -/
inductive UnitState where
  | disabled
  | cold
  | warm
  | hot
  | starting
  | loaded
  | tripped
  | lockedOut
  deriving DecidableEq, Repr

/-- A unit's configuration, set by UNIT SET (section 6.1). -/
structure UnitCfg where
  capacity : Nat
  curve : Option (Fin 16)
  keepEngine : Bool
  keepAux : Bool
  policy : Nat
  deriving DecidableEq, Repr

/-- The configuration of an unconfigured unit: capacity 0 and no fuel curve (R112); the other fields are the
model's choice (log entry 4). -/
def UnitCfg.unconfigured : UnitCfg := ⟨0, none, false, false, 0⟩

/-- The engine feedback a report gives (R123). -/
inductive Feedback where
  | stopped
  | running
  | fault
  deriving DecidableEq, Repr

/-- Why a unit last tripped (section 6.1). -/
inductive TripCause where
  | feedback
  | noRun
  | overload
  deriving DecidableEq, Repr

/-- A unit record (section 6.1). The recent start list holds each stamp as its age in elapsed seconds, oldest
first (log entry 8). The ready flag is a view of `state` (R114). -/
structure CUnit where
  configured : Bool
  cfg : UnitCfg
  state : UnitState
  runSeconds : Nat
  startTotal : Nat
  attempts : Nat
  startAges : List Nat
  limitNoted : Bool
  phaseTimer : Nat
  loadedSeconds : Nat
  overload : Nat
  noRun : Nat
  feedback : Feedback
  load : Nat
  tripCause : Option TripCause
  deriving DecidableEq, Repr

/-- The unit of the default image: unconfigured and DISABLED, its counts 0 (R113). -/
def CUnit.unconfigured : CUnit where
  configured := false
  cfg := UnitCfg.unconfigured
  state := .disabled
  runSeconds := 0
  startTotal := 0
  attempts := 0
  startAges := []
  limitNoted := false
  phaseTimer := 0
  loadedSeconds := 0
  overload := 0
  noRun := 0
  feedback := .stopped
  load := 0
  tripCause := none

/-- The duty scheduler (chapter 6). `dInj` and `k` are the demand and the committed capacity as at the last
evaluation, which UNIT READ returns (R136). -/
structure Duty where
  units : Vector CUnit 6
  roster : Vector (Fin 6) 6
  fuel : Nat
  declared : Nat
  ready : Nat
  dInj : Nat
  k : Nat
  deriving DecidableEq, Repr

/-! ### Chapter 7: gas drying -/

/-- The train states (section 7.1). -/
inductive TrainState where
  | out
  | standby
  | online
  | offSpec
  deriving DecidableEq, Repr

/-- The bed states (section 7.1). -/
inductive BedState where
  | ready
  | adsorbing
  | heating
  | cooling
  deriving DecidableEq, Repr

/-- A bed record: its load in units of 1/3,600 mg (section 7.1). -/
structure Bed where
  state : BedState
  load : Nat
  timer : Nat
  deriving DecidableEq, Repr

/-- A train's configuration, set by TRAIN SET, in its order (section 7.1, R156). -/
structure TrainCfg where
  nominal : Nat
  degradedFactor : Nat
  curve : Option (Fin 16)
  swapPoint : Nat
  heating : Nat
  cooling : Nat
  regenRate : Nat
  recycleRate : Nat
  spec : Int
  warn : Int
  excursionDelay : Nat
  recoveryDelay : Nat
  maskChoice : Nat
  deriving DecidableEq, Repr

/-- The configuration of an unconfigured train: nominal capacity 0 and no capacity curve (R137), the defaults of
section 7.1 where it gives them, and 0 for the rest (log entry 4). -/
def TrainCfg.unconfigured : TrainCfg where
  nominal := 0
  degradedFactor := 500
  curve := none
  swapPoint := 900
  heating := 0
  cooling := 0
  regenRate := 0
  recycleRate := 0
  spec := -80
  warn := -120
  excursionDelay := 120
  recoveryDelay := 300
  maskChoice := 180

/-- A train record with its two beds (section 7.1): `lo` is the lower-indexed bed, `hi` its partner. A stopped
excursion or recovery timer is `none`. The DIVERT line is a view of `state` (R143). -/
structure Train where
  configured : Bool
  cfg : TrainCfg
  service : Bool
  state : TrainState
  degraded : Bool
  deferred : Bool
  armed : Bool
  water : Nat
  temp : Int
  dew : Int
  bedCap : Nat
  share : Nat
  excursion : Option Nat
  recovery : Option Nat
  mask : Nat
  lo : Bed
  hi : Bed
  deriving DecidableEq, Repr

/-- A READY bed with load 0. -/
def Bed.fresh : Bed := ⟨.ready, 0, 0⟩

/-- The train of the default image (R139). -/
def Train.unconfigured : Train where
  configured := false
  cfg := TrainCfg.unconfigured
  service := false
  state := .out
  degraded := false
  deferred := false
  armed := true
  water := 0
  temp := 0
  dew := -600
  bedCap := 0
  share := 0
  excursion := none
  recovery := none
  mask := 0
  lo := Bed.fresh
  hi := Bed.fresh

/-- The drying supervisor: train A is index 0 with beds 0 and 1, train B index 1 with beds 2 and 3 (chapter 7). -/
structure Drying where
  trains : Vector Train 2
  gas : Nat
  capacity : Nat
  deriving DecidableEq, Repr

/-! ### Chapter 8: the link and the event queue -/

/-- The restart causes (chapter 8, state table; R177). -/
inductive Cause where
  | powerOn
  | external
  | supplyDip
  | restartRequest
  deriving DecidableEq, Repr

/-- The status codes (section 8.3). -/
inductive Status where
  | ok
  | unknownRequest
  | badLength
  | range
  | state
  | busy
  | fallback
  | unrestored
  | clockUnset
  | late
  | noRoom
  | unknownShipper
  deriving DecidableEq, Repr

/-- The receiver states (R159). -/
inductive Receiver where
  | hunting
  | assembling
  deriving DecidableEq, Repr

/-- A valid request frame: code, tag, the frame counter value stamped on it, and its block. -/
structure Frame where
  code : Byte
  tag : Byte
  stamp : BitVec 4
  block : Block
  deriving DecidableEq, Repr

/-- A reply on TXD (section 8.2). -/
structure Reply where
  code : Byte
  tag : Byte
  status : Status
  linkByte : Byte
  block : Block
  deriving DecidableEq, Repr

/-- The link controller (chapter 8). `reply` is the reply built last and not yet sent whole; `restartDue` is set
from the moment RESTART is taken until the restart it asks for (R182). -/
structure Link where
  receiver : Receiver
  buffer : List Byte
  inHand : Option Frame
  holding : Option Frame
  counter : BitVec 4
  errors : Nat
  overruns : Nat
  cause : Cause
  reply : Option Reply
  restartDue : Bool
  deriving DecidableEq, Repr

/-- The kinds of event (section 8.8). -/
inductive EventKind where
  | clockGap
  | scheduleDiscarded
  | baselineSeated
  | meterImplausible
  | meterRebased
  | reportGap
  | transferDone
  | transferFailed
  | slotReleased
  | sbaLimit
  | superseded
  | completed
  | recut
  | clampEmpty
  | clampFull
  | hourSettled
  | stepCut
  | directionChanged
  | turnaroundBegin
  | unitStarted
  | unitReady
  | unitStopped
  | unitTripped
  | unitLockedOut
  | unitRecovery
  | startLimit
  | dayRolled
  | bedSwap
  | bedSwapDeferred
  | trainDegraded
  | offSpec
  | onSpec
  | dewWarning
  | fallbackEntered
  | fallbackExited
  | commitDone
  | commitFailed
  | storeUnrestored
  | restarted
  deriving DecidableEq, Repr

/-- A gas time: absolute hour index and seconds into the hour. -/
structure GasTime where
  hour : Nat
  sec : Nat
  deriving DecidableEq, Repr

/-- An entry of the event queue (section 8.7). -/
structure Event where
  seq : Word
  time : Option GasTime
  kind : EventKind
  subject : Option Nat
  value : Option Int
  deriving DecidableEq, Repr

/-- The block that raises an event, of the fourteen of the introduction ("Raised in", section 8.8). -/
inductive EventSource where
  | gasClock
  | meterIntake
  | accountTable
  | nominationBook
  | schedule
  | settlementEngine
  | flowController
  | dutyScheduler
  | dryingSupervisor
  | supervisionTimer
  | accountStore
  | eventQueue
  deriving DecidableEq, Repr

/-- The event queue (section 8.7). ATTN is a view of `entries` (R167). `gathering` is the model's own: it is set while the
events of a response of several blocks are gathered to be put in the order the world takes, and clear whenever no command
runs (log entry 2). -/
structure EventQueue where
  entries : List Event
  nextSeq : Word
  overwrites : Nat
  gathering : Bool
  deriving DecidableEq, Repr

/-! ### Chapter 9: supervision -/

/-- The link mode (chapter 9). -/
inductive LinkMode where
  | normal
  | fallback
  deriving DecidableEq, Repr

/-- The supervision timer (chapter 9): stopped is `none`. `loaded` is the timeout last loaded, the figure that
FALLBACK_ENTERED carries when it expires (R171). -/
structure Supervision where
  mode : Nat
  timeout : Nat
  linkMode : LinkMode
  timer : Option Nat
  loaded : Nat
  firstFrame : Bool
  deriving DecidableEq, Repr

/-! ### Chapter 10: the account store -/

/-- What the image stores of a unit's state (section 10.1): DISABLED, LOCKED_OUT or other. -/
inductive StoredUnitState where
  | disabled
  | lockedOut
  | other
  deriving DecidableEq, Repr

/-- A unit record of the image. -/
structure UnitImage where
  configured : Bool
  cfg : UnitCfg
  state : StoredUnitState
  runSeconds : Nat
  startTotal : Nat
  attempts : Nat
  deriving DecidableEq, Repr

/-- A bed record of the image. -/
structure BedImage where
  state : BedState
  load : Nat
  deriving DecidableEq, Repr

/-- A train record of the image, with its two beds. -/
structure TrainImage where
  configured : Bool
  cfg : TrainCfg
  service : Bool
  lo : BedImage
  hi : BedImage
  deriving DecidableEq, Repr

/-- The contents of an image, section by section (section 10.1). -/
structure Image where
  slots : Vector (Option Account) 24
  sba : Int
  opening : Int
  booked : Int
  charged : Int
  transfers : List Transfer
  nextTransfer : BitVec 32
  curves : Vector Curve 16
  site : Site
  units : Vector UnitImage 6
  roster : Vector (Fin 6) 6
  trains : Vector TrainImage 2
  entries : List Entry
  nextArrival : BitVec 32
  confirmedThrough : Nat
  schedule : List SchedRec
  base : Baselines
  lastSettled : Nat
  supMode : Nat
  supTimeout : Nat
  deriving DecidableEq, Repr

/-- One copy of the nonvolatile store: an image whose CRC holds, with its commit number; an image that a commit found whole
and both reads of a restore did not (R177), with the counter value that names its words as they then stand (log entry 40); or
words that are no whole image (never written, or torn by a failed or abandoned commit). -/
inductive Copy where
  | whole (number : BitVec 32) (image : Image)
  | failed (number : BitVec 32) (image : Image) (failure : Nat)
  | notWhole
  deriving DecidableEq, Repr

/-- The store states (section 10): RESTORING with whether the first read has failed (R177), IDLE, or COMMITTING
with the commit number and the snapshot being written (R176). -/
inductive StorePhase where
  | restoring (firstFailed : Bool)
  | idle
  | committing (number : BitVec 32) (image : Image)
  deriving DecidableEq, Repr

/-- The account store. `mark` is the current-copy mark; `buffer` holds the load buffer's bytes, high byte of each
word first, in the canonical form of Machine/Ops.lean (an unlisted byte is 0). -/
structure Store where
  copies : Vector Copy 2
  mark : Fin 2
  held : BitVec 32
  phase : StorePhase
  unrestored : Bool
  buffer : List Host.Cell
  deriving DecidableEq, Repr

/-! ### The whole part -/

/-- The state of the part. `pending` is the queue of commands not yet taken, first in first out; `world` counts
the choices the world has made, of orders where the manual fixes none (log entry 2) and of the words of a failed copy
(log entry 40); `elapsed` is elapsed time in whole seconds since the part started (chapter 1). -/
structure State where
  pending : List Instr
  world : Nat
  elapsed : Nat
  clock : Clock
  meter : Meter
  curves : Vector Curve 16
  site : Site
  acct : Accounts
  book : Book
  sched : List SchedRec
  settle : Settlement
  flow : Flow
  duty : Duty
  dry : Drying
  link : Link
  evq : EventQueue
  sup : Supervision
  store : Store
  deriving DecidableEq, Repr

/-! ### Named updates: one per field -/

def State.setPending (s : State) (x : List Instr) : State := { s with pending := x }
def State.setWorld (s : State) (x : Nat) : State := { s with world := x }
def State.setElapsed (s : State) (x : Nat) : State := { s with elapsed := x }
def State.setClock (s : State) (x : Clock) : State := { s with clock := x }
def State.setMeter (s : State) (x : Meter) : State := { s with meter := x }
def State.setCurves (s : State) (x : Vector Curve 16) : State := { s with curves := x }
def State.setSite (s : State) (x : Site) : State := { s with site := x }
def State.setAcct (s : State) (x : Accounts) : State := { s with acct := x }
def State.setBook (s : State) (x : Book) : State := { s with book := x }
def State.setSched (s : State) (x : List SchedRec) : State := { s with sched := x }
def State.setSettle (s : State) (x : Settlement) : State := { s with settle := x }
def State.setFlow (s : State) (x : Flow) : State := { s with flow := x }
def State.setDuty (s : State) (x : Duty) : State := { s with duty := x }
def State.setDry (s : State) (x : Drying) : State := { s with dry := x }
def State.setLink (s : State) (x : Link) : State := { s with link := x }
def State.setEvq (s : State) (x : EventQueue) : State := { s with evq := x }
def State.setSup (s : State) (x : Supervision) : State := { s with sup := x }
def State.setStore (s : State) (x : Store) : State := { s with store := x }

/-! ### Reset -/

/-- The counts of one kind, all 0. -/
def KindCounts.zero : KindCounts := ⟨0, 0, 0, 0, 0, 0⟩

/-- The statistics after a restart (R65): all 0, any shipper, threshold 256. -/
def Stats.cleared (filter threshold : Nat) : Stats :=
  ⟨filter, threshold, Vector.replicate 4 KindCounts.zero, 0, 0, 0, 0⟩

/-- The roster of the default image: 0 to 5 in order (R113). -/
def defaultRoster : Vector (Fin 6) 6 := ⟨#[0, 1, 2, 3, 4, 5], rfl⟩

/-- The part right after supply is applied (R177 with cause POWER_ON): the store is RESTORING, the event queue
holds its RESTARTED entry (R167), the link has its restart values (R166), and every block holds its restart and
default-image values (R1, R9, R22, R42, R51, R69, R92, R113, R139, R170; log entry 3 on what the blocks hold
until the restore ends; log entry 5 on the copies). -/
def State.reset : State where
  pending := []
  world := 0
  elapsed := 0
  clock := ⟨.unset, 0, 0, 3600, 0, 0⟩
  meter := ⟨⟨0, 0, false⟩, ⟨0, 0, false⟩, none, 0, 0, 0, false⟩
  curves := Vector.replicate 16 []
  site := Site.default
  acct := ⟨Vector.replicate 24 none, 0, .armed, 0, 0, 0, [], 0⟩
  book := ⟨[], 0, 0, Stats.cleared 0 256⟩
  sched := []
  settle := ⟨none, [], Vector.replicate 24 none⟩
  flow := ⟨0, 0, 0, .hold, none, 0, none, 0, 0⟩
  duty := ⟨Vector.replicate 6 CUnit.unconfigured, defaultRoster, 0, 0, 0, 0, 0⟩
  dry := ⟨Vector.replicate 2 Train.unconfigured, 0, 0⟩
  link := ⟨.hunting, [], none, none, 0, 0, 0, .powerOn, none, false⟩
  evq := ⟨[⟨0, none, .restarted, none, some 1⟩], 1, 0, false⟩
  sup := ⟨0, 60, .normal, none, 0, false⟩
  store := ⟨Vector.replicate 2 .notWhole, 0, 0, .restoring false, false, []⟩

end Sys2Proof.Machine
end

