-- ==== Sys2Proof/Machine/Ops.lean ====
section
/-! DEFINITION. Operations that every block shares: vectors of fixed length, saturating counters, the event queue
(R167), the order the world takes where the manual fixes none, the load buffer's bytes, curve evaluation (R16) and
the pro-rata divider (R19). -/

namespace Sys2Proof.Machine

/-! ### Vectors and counters -/

/-- A vector with `f` applied to every element. -/
def mapVec {α β : Type} {n : Nat} (f : α → β) (v : Vector α n) : Vector β n :=
  ⟨(v.toList.map f).toArray, by simp⟩

/-- A vector with the element at `i` replaced. -/
def setVec {α : Type} {n : Nat} (v : Vector α n) (i : Fin n) (x : α) : Vector α n :=
  v.set i.val x i.isLt

/-- A count raised by one that stops at its stated maximum ("saturating", introduction). -/
def satSucc (top n : Nat) : Nat := min (n + 1) top

/-- A count raised by `k` that stops at its stated maximum. -/
def satAdd (top n k : Nat) : Nat := min (n + k) top

/-- The last absolute hour index: hour 23 of gas day 65,535 (section 1.1.1). -/
def lastHour : Nat := 1572863

/-! ### Events -/

/-- The gas time an event raised now takes: none while the clock is UNSET (R1, R167). -/
def gasTime (s : State) : Option GasTime :=
  match s.clock.state with
  | .unset => none
  | .running => some ⟨s.clock.hour, s.clock.sec⟩

/-- Appending an entry: it takes the next sequence number, and at 64 entries the oldest is removed first and the
overwrite count rises, stopping at 65,535 (R167). While a response is gathered nothing is removed: the entries go to the
queue proper at its end. -/
def EventQueue.push (q : EventQueue) (time : Option GasTime) (kind : EventKind) (subject : Option Nat)
    (value : Option Int) : EventQueue :=
  let e : Event := ⟨q.nextSeq, time, kind, subject, value⟩
  if q.gathering || decide (q.entries.length < 64) then
    { q with entries := q.entries ++ [e], nextSeq := q.nextSeq + 1 }
  else
    { q with entries := q.entries.tail ++ [e], nextSeq := q.nextSeq + 1, overwrites := satSucc 65535 q.overwrites }

/-- A block raises an event (R167). -/
def raise (kind : EventKind) (subject : Option Nat) (value : Option Int) (s : State) : State :=
  s.setEvq (s.evq.push (gasTime s) kind subject value)

/-! ### The order the world takes -/

/-- `x` put at every place of a list, the front first. -/
def insertEach {α : Type} (x : α) : List α → List (List α)
  | [] => [[x]]
  | y :: ys => (x :: y :: ys) :: (insertEach x ys).map (y :: ·)

/-- The orders of a list, the list as it stands first. -/
def orders {α : Type} : List α → List (List α)
  | [] => [[]]
  | x :: xs => (orders xs).flatMap (insertEach x)

/-- Actions taken one after the other. -/
def inOrder (fs : List (State → State)) (s : State) : State := fs.foldl (fun t f => f t) s

/-- One instant that may go several ways, `f` or one of `gs`. Where every way leaves the same state, that is the state; where
they differ, the world takes one of them, which one being a free value (log entry 2): the way taken begins with the counter
of such choices moved on, so that a choice within it is another one. -/
def oneOf (f : State → State) (gs : List (State → State)) (s : State) : State :=
  let r := f s
  if gs.all (fun g => decide (g s = r)) then r
  else
    let ways := f :: gs
    (ways.getD (Config.worldOrder s.world % ways.length) f) (s.setWorld (s.world + 1))

/-- Actions of different blocks at one instant, in one of their orders (R167, R62; log entry 2). -/
def inAnyOrder (fs : List (State → State)) (s : State) : State :=
  match fs with
  | [] => s
  | [f] => f s
  | _ => oneOf (inOrder fs) ((orders fs).map inOrder) s

/-! ### The order of the events of different blocks (R167) -/

/-- The block that raises a kind of event (section 8.8). -/
def EventKind.source : EventKind → EventSource
  | .clockGap | .scheduleDiscarded => .gasClock
  | .baselineSeated | .meterImplausible | .meterRebased | .reportGap => .meterIntake
  | .transferDone | .transferFailed | .slotReleased | .sbaLimit => .accountTable
  | .superseded | .completed => .nominationBook
  | .recut => .schedule
  | .clampEmpty | .clampFull | .hourSettled => .settlementEngine
  | .stepCut | .directionChanged | .turnaroundBegin => .flowController
  | .unitStarted | .unitReady | .unitStopped | .unitTripped | .unitLockedOut | .unitRecovery | .startLimit
  | .dayRolled => .dutyScheduler
  | .bedSwap | .bedSwapDeferred | .trainDegraded | .offSpec | .onSpec | .dewWarning => .dryingSupervisor
  | .fallbackEntered | .fallbackExited => .supervisionTimer
  | .commitDone | .commitFailed | .storeUnrestored => .accountStore
  | .restarted => .eventQueue

/-- The blocks that raised a run of events, each once, by their first event. -/
def sourcesOf (es : List Event) : List EventSource :=
  es.foldl (fun l e => if l.contains e.kind.source then l else l ++ [e.kind.source]) []

/-- A run of events put in an order the world takes, and its counter after: at every place the world names the block whose
next event stands there, so that the events of one block keep their order. Where the events left are all of one block there
is nothing to take. At most `fuel` events are placed. -/
def interleave : Nat → List Event → Nat → List Event × Nat
  | 0, es, n => (es, n)
  | fuel + 1, es, n =>
    let blocks := sourcesOf es
    if blocks.length ≤ 1 then (es, n)
    else
      let next (e : Event) : Bool := blocks[Config.worldOrder n % blocks.length]? == some e.kind.source
      let rest := interleave fuel (es.eraseP next) (n + 1)
      ((es.find? next).toList ++ rest.1, rest.2)

/-- A run of events appended in its order, each as its block raised it. -/
def appendEvents (es : List Event) (q : EventQueue) : EventQueue :=
  es.foldl (fun q e => q.push e.time e.kind e.subject e.value) q

/-- A response `f` in which several blocks may raise events: these are gathered, and appended in the order the world
delivers them, the events of one block in the order it raised them (R167; log entry 2). -/
def gathered (f : State → State) (s : State) : State :=
  let t := f (s.setEvq { s.evq with entries := [], gathering := true })
  let r := interleave t.evq.entries.length t.evq.entries t.world
  (t.setEvq (appendEvents r.1 s.evq)).setWorld r.2

/-! ### The load buffer's bytes -/

/-- What a byte address reads as: 0 where nothing is listed (R175, R180: "blocks never written hold zero
words"). -/
def readByte (a : Nat) : List Host.Cell → Byte
  | [] => 0
  | (b, x) :: rest => if b = a then x else readByte a rest

/-- A byte written at an address. Addresses stay strictly rising, and a byte of value 0 is not listed. -/
def writeByte (a : Nat) (x : Byte) : List Host.Cell → List Host.Cell
  | [] => if x = 0 then [] else [(a, x)]
  | (b, y) :: rest =>
    if a < b then (if x = 0 then (b, y) :: rest else (a, x) :: (b, y) :: rest)
    else if a = b then (if x = 0 then rest else (a, x) :: rest)
    else (b, y) :: writeByte a x rest

/-- Addresses strictly rising from `low`, below `top`, and no entry equal to what an unlisted address reads as. -/
def cellsWf (low top : Nat) : List Host.Cell → Bool
  | [] => true
  | (a, x) :: rest => decide (low ≤ a) && decide (a < top) && (x != 0) && cellsWf (a + 1) top rest

/-- How many bytes an image has: 12,288 words (section 10.1). -/
def imageBytes : Nat := 24576

/-- The canonical form of the load buffer. -/
def bufferWf (m : List Host.Cell) : Bool := cellsWf 0 imageBytes m

/-- The word at word index `i` of the buffer: high byte first (section 8.2). -/
def readWord (i : Nat) (m : List Host.Cell) : Word :=
  (readByte (2 * i) m).append (readByte (2 * i + 1) m)

/-- A word written at word index `i`: high byte first. -/
def writeWord (i : Nat) (w : Word) (m : List Host.Cell) : List Host.Cell :=
  writeByte (2 * i + 1) (w.extractLsb' 0 8) (writeByte (2 * i) (w.extractLsb' 8 8) m)

/-- Words written from word index `i` on. -/
def writeWords (i : Nat) : List Word → List Host.Cell → List Host.Cell
  | [], m => m
  | w :: ws, m => writeWords (i + 1) ws (writeWord i w m)

/-! ### The CRC of frames and of the image (section 8.2) -/

/-- One step of the generator x^16 + x^12 + x^5 + 1, most significant bit first. -/
def crcBit (c : Word) : Word := if c.msb then (c <<< 1) ^^^ 0x1021#16 else c <<< 1

/-- One byte taken into the CRC register. -/
def crcByte (c : Word) (b : Byte) : Word :=
  (List.range 8).foldl (fun c _ => crcBit c) (c ^^^ (b.append (0 : Byte)))

/-- The CRC of a run of bytes: the register starts at all ones, no reflection, no final inversion. -/
def crc (bytes : List Byte) : Word := bytes.foldl crcByte 0xFFFF#16

/-- The bytes of a word, high byte first. -/
def wordBytes (w : Word) : List Byte := [w.extractLsb' 8 8, w.extractLsb' 0 8]

/-- The bytes of a run of words, each high byte first. -/
def blockBytes (ws : List Word) : List Byte := ws.flatMap wordBytes

/-! ### Curves (R15, R16) -/

/-- The value of a written curve at or beyond its point `p`, with `rest` the points after it. -/
def curveFrom (p : CurvePoint) : List CurvePoint → Int → Nat
  | [], _ => p.y
  | q :: rest, x =>
    if x < q.x then ((p.y : Int) + ((q.y : Int) - p.y) * (x - p.x) / (q.x - p.x)).toNat
    else curveFrom q rest x

/-- The value of a curve at `x` (R16); of an unwritten curve the manual states none (log entry 9). -/
def evalCurve (c : Curve) (x : Int) : Nat :=
  match c with
  | [] => (Config.unwrittenCurve x).toNat
  | p :: rest => if x ≤ p.x then p.y else curveFrom p rest x

/-- Whether a curve is written (R15). -/
def curveWritten (s : State) (i : Fin 16) : Bool := !(s.curves[i]).isEmpty

/-- Whether a curve is referenced (R15). -/
def curveReferenced (s : State) (i : Fin 16) : Bool :=
  s.acct.slots.toList.any (fun o => match o with
    | none => false
    | some a => a.injCurve == some i || a.wdrCurve == some i)
  || s.duty.units.toList.any (fun u => u.cfg.curve == some i)
  || s.dry.trains.toList.any (fun t => t.cfg.curve == some i)

/-! ### The pro-rata divider (R19) -/

/-- A participant of a division: the index of its account table slot, its weight, its cap or none, its running total,
and whether it is open. -/
structure Participant where
  index : Nat
  weight : Nat
  cap : Option Nat
  total : Nat
  isOpen : Bool
  deriving DecidableEq, Repr

/-- A participant as a division begins. -/
def Participant.start (index weight : Nat) (cap : Option Nat) : Participant := ⟨index, weight, cap, 0, true⟩

/-- W: the sum of the weights of the open participants (step 1). -/
def openWeight (ps : List Participant) : Nat := (ps.map (fun p => if p.isOpen then p.weight else 0)).sum

/-- s_i before the units (step 2). -/
def quotientOf (a w : Nat) (p : Participant) : Nat := if p.isOpen then a * p.weight / w else 0

/-- r_i (step 2). -/
def remainderOf (a w : Nat) (p : Participant) : Nat := if p.isOpen then a * p.weight % w else 0

/-- Whether participant `q`, at place `j` of the list, stands before participant `p`, at place `i`, in descending order
of remainder, equal remainders in ascending slot index (step 3). Participants of one index, which no rule forms, stand in
the order of the list. -/
def standsBefore (a w : Nat) (q : Participant) (j : Nat) (p : Participant) (i : Nat) : Bool :=
  decide (remainderOf a w p < remainderOf a w q)
  || (decide (remainderOf a w p = remainderOf a w q)
      && (decide (q.index < p.index) || (decide (q.index = p.index) && decide (j < i))))

/-- How many open participants stand before participant `p`, at place `i` of the list (step 3). -/
def aheadOf (a w : Nat) (ps : List Participant) (i : Nat) (p : Participant) : Nat :=
  (ps.zipIdx.filter (fun (q, j) => q.isOpen && standsBefore a w q j p i)).length

/-- Steps 2 to 4: the quotients and the units added to the running totals of the open participants. -/
def dealRound (a : Nat) (ps : List Participant) : List Participant :=
  let w := openWeight ps
  let left := a - (ps.map (quotientOf a w)).sum
  ps.zipIdx.map (fun (p, i) =>
    if p.isOpen then
      { p with total := p.total + quotientOf a w p + (if aheadOf a w ps i p < left then 1 else 0) }
    else p)

/-- The excess of an open participant whose total exceeds its cap (step 5). -/
def excessOf (p : Participant) : Nat :=
  match p.cap with
  | none => 0
  | some c => if p.isOpen && decide (c < p.total) then p.total - c else 0

/-- Step 5: a participant over its cap is set to the cap and closed. -/
def closeOver (p : Participant) : Participant :=
  match p.cap with
  | none => p
  | some c => if p.isOpen && decide (c < p.total) then { p with total := c, isOpen := false } else p

/-- The rounds of the divider, at most `fuel` of them: the participants at the end and the uncovered amount. -/
def divideRounds : Nat → Nat → List Participant → List Participant × Nat
  | 0, a, ps => (ps, a)
  | fuel + 1, a, ps =>
    if openWeight ps = 0 then (ps, a)
    else
      let dealt := dealRound a ps
      let excess := (dealt.map excessOf).sum
      let closed := dealt.map closeOver
      if excess = 0 then (closed, 0) else divideRounds fuel excess closed

/-- A division's result: the shares, aligned with the participants, and the uncovered amount. -/
structure Division where
  shares : List Nat
  uncovered : Nat
  deriving DecidableEq, Repr

/-- The pro-rata divider (R19). It ends after at most one more round than there are participants (R20). -/
def divide (a : Nat) (ps : List Participant) : Division :=
  let r := divideRounds (ps.length + 1) a ps
  ⟨r.1.map (·.total), r.2⟩

end Sys2Proof.Machine
end

