-- ==== Sys2Proof/Machine/Operands.lean ====
section
/-! DEFINITION. The fields of request and reply blocks (section 8.2): words stand high byte first, a field of
several words high word first, signed fields in two's complement. A field beyond the end of a block reads 0; every
request checks the length of its block before it reads a field. -/

namespace Sys2Proof.Machine

/-! ### Reading a block -/

/-- Word `i` of a block, unsigned. -/
def fieldW (b : Block) (i : Nat) : Nat := (b.getD i 0).toNat

/-- A two-word field from word `i` on, unsigned. -/
def field2 (b : Block) (i : Nat) : Nat := fieldW b i * 65536 + fieldW b (i + 1)

/-- A three-word field from word `i` on, unsigned. -/
def field3 (b : Block) (i : Nat) : Nat := field2 b i * 65536 + fieldW b (i + 2)

/-- A four-word field from word `i` on, unsigned. -/
def field4 (b : Block) (i : Nat) : Nat := field3 b i * 65536 + fieldW b (i + 3)

/-- An unsigned figure of `bits` bits read in two's complement. -/
def signed (bits n : Nat) : Int := if n < 2 ^ (bits - 1) then (n : Int) else (n : Int) - 2 ^ bits

/-- Word `i` of a block, signed. -/
def fieldI (b : Block) (i : Nat) : Int := signed 16 (fieldW b i)

/-- A two-word field, signed. -/
def fieldI2 (b : Block) (i : Nat) : Int := signed 32 (field2 b i)

/-- A three-word field, signed. -/
def fieldI3 (b : Block) (i : Nat) : Int := signed 48 (field3 b i)

/-- A four-word field, signed. -/
def fieldI4 (b : Block) (i : Nat) : Int := signed 64 (field4 b i)

/-- A gas hour given as day and hour of the day: its absolute hour index (introduction, "Gas time"). -/
def fieldHour (b : Block) (i : Nat) : Nat := fieldW b i * 24 + fieldW b (i + 1)

/-- A curve id as a record carries it: absent (65,535), a curve of the table, or neither. -/
inductive CurveField where
  | absent
  | curve (i : Fin 16)
  | bad
  deriving DecidableEq, Repr

/-- Word `i` read as a curve id: 65,535 stands for absent (section 2.1). -/
def fieldCurve (b : Block) (i : Nat) : CurveField :=
  let n := fieldW b i
  if h : n < 16 then .curve ⟨n, h⟩ else if n = 65535 then .absent else .bad

/-- The curve a ratchet field names, where it names one. -/
def CurveField.id : CurveField → Option (Fin 16)
  | .curve i => some i
  | _ => none

/-- Word `i` read as an index below `n`. -/
def fieldFin (n : Nat) (b : Block) (i : Nat) : Option (Fin n) :=
  if h : fieldW b i < n then some ⟨fieldW b i, h⟩ else none

/-- A direction code: 0 INJECT, 1 WITHDRAW (section 3.1). -/
def directionOf : Nat → Option Direction
  | 0 => some .inject
  | 1 => some .withdraw
  | _ => none

/-- A class code: 0 FIRM, 1 INTERRUPTIBLE (section 3.1). -/
def classOf : Nat → Option Class
  | 0 => some .firm
  | 1 => some .interruptible
  | _ => none

/-! ### Building a block -/

/-- One word, unsigned. -/
def out1 (n : Nat) : Block := [BitVec.ofNat 16 n]

/-- Two words, unsigned. -/
def out2 (n : Nat) : Block := [BitVec.ofNat 16 (n / 65536), BitVec.ofNat 16 n]

/-- Three words, unsigned. -/
def out3 (n : Nat) : Block := BitVec.ofNat 16 (n / 65536 / 65536) :: out2 n

/-- Four words, unsigned. -/
def out4 (n : Nat) : Block := BitVec.ofNat 16 (n / 65536 / 65536 / 65536) :: out3 n

/-- The two's complement of a figure in `bits` bits. -/
def twos (bits : Nat) (i : Int) : Nat := (i % 2 ^ bits).toNat

/-- One word, signed. -/
def outI (i : Int) : Block := out1 (twos 16 i)

/-- Two words, signed. -/
def outI2 (i : Int) : Block := out2 (twos 32 i)

/-- Three words, signed. -/
def outI3 (i : Int) : Block := out3 (twos 48 i)

/-- Four words, signed. -/
def outI4 (i : Int) : Block := out4 (twos 64 i)

/-- A flag as a word: 1 set, 0 clear. -/
def outFlag (b : Bool) : Block := out1 (if b then 1 else 0)

/-- A word of flags: bit 0 is the first flag named in the reading rule, and so on upward (section 8.4). -/
def outFlags (bs : List Bool) : Block := out1 (bs.foldr (fun b n => 2 * n + (if b then 1 else 0)) 0)

/-- An absolute hour index as gas day and hour. A day beyond 65,535 does not fit its word (log entry 12). -/
def outHour (h : Nat) : Block :=
  (if h / 24 < 65536 then BitVec.ofNat 16 (h / 24) else Config.wideDay (h / 24)) :: out1 (h % 24)

/-- An absent ratchet curve id reads 65,535 (section 2.1). -/
def outRatchet : Option (Fin 16) → Block
  | none => out1 65535
  | some i => out1 i.val

/-- A curve id of a configuration; of an unconfigured record it is the word given. -/
def outCurve (absent : Word) : Option (Fin 16) → Block
  | none => [absent]
  | some i => out1 i.val

/-- A timer's seconds left: a stopped timer reads 65,535 (section 8.4). -/
def outTimer : Option Nat → Block
  | none => out1 65535
  | some n => out1 n

/-- The direction code of a nomination or record. -/
def Direction.code : Direction → Nat
  | .inject => 0
  | .withdraw => 1

/-- The class code of a nomination or record. -/
def Class.code : Class → Nat
  | .firm => 0
  | .interruptible => 1

/-- The state code of a schedule record (section 3.4). -/
def RecordState.code : RecordState → Nat
  | .confirmed => 0
  | .curtailed => 1
  | .rejected => 2

/-- The reason code of a schedule record (section 3.4): absent 0. -/
def reasonCode : Option Reason → Nat
  | none => 0
  | some .shipperLimit => 1
  | some .inventory => 2
  | some .suspended => 3
  | some .capacity => 4

/-- The code of a direction state (chapter 5). -/
def FlowDir.code : FlowDir → Nat
  | .hold => 0
  | .injecting => 1
  | .withdrawing => 2
  | .turnaround => 3

/-- The code of the last direction (chapter 5): unknown 0, INJECT 1, WITHDRAW 2. -/
def lastDirCode : Option Direction → Nat
  | none => 0
  | some .inject => 1
  | some .withdraw => 2

/-- The code of a unit state (section 6.1). -/
def UnitState.code : UnitState → Nat
  | .disabled => 0
  | .cold => 1
  | .warm => 2
  | .hot => 3
  | .starting => 4
  | .loaded => 5
  | .tripped => 6
  | .lockedOut => 7

/-- The code of the engine feedback (section 6.1). -/
def Feedback.code : Feedback → Nat
  | .stopped => 0
  | .running => 1
  | .fault => 2

/-- The code of the last trip cause (section 6.1): none 0. -/
def tripCode : Option TripCause → Nat
  | none => 0
  | some .feedback => 1
  | some .noRun => 2
  | some .overload => 3

/-- The code of a train state (section 7.1). -/
def TrainState.code : TrainState → Nat
  | .out => 0
  | .standby => 1
  | .online => 2
  | .offSpec => 3

/-- The code of a bed state (section 7.1). -/
def BedState.code : BedState → Nat
  | .ready => 0
  | .adsorbing => 1
  | .heating => 2
  | .cooling => 3

/-- The code of an event kind (section 8.8). -/
def EventKind.code : EventKind → Nat
  | .clockGap => 1
  | .scheduleDiscarded => 2
  | .baselineSeated => 3
  | .meterImplausible => 4
  | .meterRebased => 5
  | .reportGap => 6
  | .transferDone => 7
  | .transferFailed => 8
  | .slotReleased => 9
  | .sbaLimit => 10
  | .superseded => 11
  | .completed => 12
  | .recut => 13
  | .clampEmpty => 14
  | .clampFull => 15
  | .hourSettled => 16
  | .stepCut => 17
  | .directionChanged => 18
  | .turnaroundBegin => 19
  | .unitStarted => 20
  | .unitReady => 21
  | .unitStopped => 22
  | .unitTripped => 23
  | .unitLockedOut => 24
  | .unitRecovery => 25
  | .startLimit => 26
  | .dayRolled => 27
  | .bedSwap => 28
  | .bedSwapDeferred => 29
  | .trainDegraded => 30
  | .offSpec => 31
  | .onSpec => 32
  | .dewWarning => 33
  | .fallbackEntered => 34
  | .fallbackExited => 35
  | .commitDone => 36
  | .commitFailed => 37
  | .storeUnrestored => 38
  | .restarted => 39

/-- The code of a status (section 8.3). -/
def Status.code : Status → Nat
  | .ok => 0
  | .unknownRequest => 1
  | .badLength => 2
  | .range => 3
  | .state => 4
  | .busy => 5
  | .fallback => 6
  | .unrestored => 7
  | .clockUnset => 8
  | .late => 9
  | .noRoom => 10
  | .unknownShipper => 11

/-- The code of a restart cause (R177). -/
def Cause.code : Cause → Nat
  | .powerOn => 1
  | .external => 2
  | .supplyDip => 3
  | .restartRequest => 4

/-- The site settings in the layout of SITE SET and FLOW READ (section 8.4). -/
def outSite (g : Site) : Block :=
  out2 g.injRight ++ out2 g.wdrRight ++ out2 g.upRate ++ out2 g.downRate ++ out2 g.fallbackRate
  ++ out1 g.turnHold ++ out1 g.lead ++ out2 g.tolerance ++ out3 g.alertLimit
  ++ out1 g.startFraction ++ out1 g.stopFraction ++ out1 g.startLimit ++ out1 g.minimumRun
  ++ out1 g.coldWarmUp ++ out1 g.warmWarmUp ++ out1 g.hotWarmUp ++ out1 g.hotHold ++ out2 g.warmHold
  ++ out1 g.overloadLimit ++ outFlag g.rotation

/-- The site settings a SITE SET block carries (section 8.4). -/
def siteOf (b : Block) : Site where
  injRight := field2 b 0
  wdrRight := field2 b 2
  upRate := field2 b 4
  downRate := field2 b 6
  fallbackRate := field2 b 8
  turnHold := fieldW b 10
  lead := fieldW b 11
  tolerance := field2 b 12
  alertLimit := field3 b 14
  startFraction := fieldW b 17
  stopFraction := fieldW b 18
  startLimit := fieldW b 19
  minimumRun := fieldW b 20
  coldWarmUp := fieldW b 21
  warmWarmUp := fieldW b 22
  hotWarmUp := fieldW b 23
  hotHold := fieldW b 24
  warmHold := field2 b 25
  overloadLimit := fieldW b 27
  rotation := fieldW b 28 == 1

/-- The configuration of a train in the order of TRAIN SET (R156, R158). -/
def outTrainCfg (absent : Word) (c : TrainCfg) : Block :=
  out2 c.nominal ++ out1 c.degradedFactor ++ outCurve absent c.curve ++ out1 c.swapPoint ++ out1 c.heating
  ++ out1 c.cooling ++ out2 c.regenRate ++ out2 c.recycleRate ++ outI c.spec ++ outI c.warn
  ++ out1 c.excursionDelay ++ out1 c.recoveryDelay ++ out1 c.maskChoice

/-- The configuration that 16 words from word `i` on carry, in the order of TRAIN SET. -/
def trainCfgOf (b : Block) (i : Nat) : TrainCfg where
  nominal := field2 b i
  degradedFactor := fieldW b (i + 2)
  curve := fieldFin 16 b (i + 3)
  swapPoint := fieldW b (i + 4)
  heating := fieldW b (i + 5)
  cooling := fieldW b (i + 6)
  regenRate := field2 b (i + 7)
  recycleRate := field2 b (i + 9)
  spec := fieldI b (i + 11)
  warn := fieldI b (i + 12)
  excursionDelay := fieldW b (i + 13)
  recoveryDelay := fieldW b (i + 14)
  maskChoice := fieldW b (i + 15)

end Sys2Proof.Machine
end

