-- ==== Sys2Proof/Machine/Flags.lean ====
section
/-! DEFINITION. The lines and flags that are views of other state: the permits (R100, R114), DIVERT (R143), ATTN
(R167), the permit word of the report's reply (section 8.5), the link byte (section 8.2), and the flag words of the
reading requests (section 8.4). Beside them the checks every request begins with, and how a request is answered
(R162, R163). -/

namespace Sys2Proof.Machine

/-! ### Modes -/

/-- The settlement engine is SETTLING (R70). -/
def settling (s : State) : Bool := s.settle.inFlight.isSome

/-- The clock is UNSET. -/
def clockIsUnset (s : State) : Bool := s.clock.state == .unset

/-- The link mode is FALLBACK. -/
def inFallback (s : State) : Bool := s.sup.linkMode == .fallback

/-- The part is in UNRESTORED mode. -/
def isUnrestored (s : State) : Bool := s.store.unrestored

/-- The store state is RESTORING (R177). -/
def restoring (s : State) : Bool :=
  match s.store.phase with
  | .restoring _ => true
  | _ => false

/-- The store state is COMMITTING (R176). -/
def committing (s : State) : Bool :=
  match s.store.phase with
  | .committing _ _ => true
  | _ => false

/-! ### Lines -/

/-- INJ_PERMIT is on exactly while the direction state is INJECTING (R100). -/
def injPermit (s : State) : Bool := s.flow.dir == .injecting

/-- WDR_PERMIT is on exactly while the direction state is WITHDRAWING (R100). -/
def wdrPermit (s : State) : Bool := s.flow.dir == .withdrawing

/-- A unit's RUN_PERMIT is on while it is HOT, STARTING or LOADED (R114). -/
def UnitState.runs : UnitState → Bool
  | .hot | .starting | .loaded => true
  | _ => false

/-- RUN_PERMITn. -/
def runPermit (s : State) (n : Fin 6) : Bool := (s.duty.units[n]).state.runs

/-- A unit's ready flag is set while it is LOADED (R114). -/
def CUnit.readyFlag (u : CUnit) : Bool := u.state == .loaded

/-- A train's DIVERT line is on exactly while it is OFF_SPEC (R143). -/
def divert (s : State) (t : Fin 2) : Bool := (s.dry.trains[t]).state == .offSpec

/-- ATTN is asserted exactly while the event queue holds an entry (R167). -/
def attention (s : State) : Bool := !s.evq.entries.isEmpty

/-- The permit word of the report's reply (section 8.5). -/
def permitWord (s : State) : Block :=
  outFlags ([injPermit s, wdrPermit s] ++ (List.finRange 6).map (runPermit s)
    ++ (List.finRange 2).map (divert s))

/-! ### The ramp goal (R97) -/

/-- The ramp goal G. -/
def goal (f : Flow) : Int :=
  match f.dir with
  | .hold => 0
  | .turnaround => 0
  | .injecting => max f.t 0
  | .withdrawing => min f.t 0

/-- The RAMPING flag: S differs from G. -/
def ramping (f : Flow) : Bool := f.setpoint != goal f

/-! ### Flag words and the link byte -/

/-- The flags of FLOW READ (section 8.4). -/
def flowFlags (s : State) : Block :=
  outFlags [ramping s.flow, clockIsUnset s, isUnrestored s, inFallback s, injPermit s, wdrPermit s,
    s.flow.lastCut.isSome]

/-- The flags of UNIT READ (section 8.4). -/
def unitFlags (u : CUnit) : Block := outFlags [u.readyFlag, u.state.runs]

/-- The flags of TRAIN READ (section 8.4). -/
def trainFlags (t : Train) : Block :=
  outFlags [t.service, t.degraded, t.deferred, t.armed, t.state == .offSpec]

/-- The state flags of LINK STATUS (section 8.4). -/
def stateFlags (s : State) : Block :=
  outFlags [settling s, committing s, clockIsUnset s, isUnrestored s, inFallback s]

/-- The link byte (section 8.2): the counter value stamped on the request answered, then SETTLING, CLOCK_UNSET,
UNRESTORED and FALLBACK. -/
def linkByte (stamp : BitVec 4) (s : State) : Byte :=
  stamp.append (BitVec.ofNat 4 (
    (if settling s then 8 else 0) + (if clockIsUnset s then 4 else 0)
    + (if isUnrestored s then 2 else 0) + (if inFallback s then 1 else 0)))

/-! ### Answering a request -/

/-- What a request comes to: its status, the output block, and the part afterwards. -/
structure Answer where
  status : Status
  out : Block
  after : State

/-- A request that is refused leaves the part as it was and has no output block (R162). -/
def refuse (st : Status) (s : State) : Answer := ⟨st, [], s⟩

/-- A request that is taken. -/
def taken (out : Block) (s : State) : Answer := ⟨.ok, out, s⟩

/-- The checks of a rule in their order: the first that fails gives the status (R163). -/
def firstFailure : List (Bool × Status) → Option Status
  | [] => none
  | (holds, st) :: rest => if holds then firstFailure rest else some st

/-- A request that applies its checks in order and, where all hold, is taken with its effect. -/
def checked (checks : List (Bool × Status)) (s : State) (effect : Answer) : Answer :=
  match firstFailure checks with
  | some st => refuse st s
  | none => effect

/-- The leading checks of a request that changes the plan or the configuration: length, UNRESTORED, FALLBACK. -/
def modeChecks (lengthOk : Bool) (s : State) : List (Bool × Status) :=
  [(lengthOk, .badLength), (!isUnrestored s, .unrestored), (!inFallback s, .fallback)]

/-- The leading checks of the requests a settlement in flight also holds off (R23, R71). -/
def settledChecks (lengthOk : Bool) (s : State) : List (Bool × Status) :=
  modeChecks lengthOk s ++ [(!settling s, .busy)]

/-- The reply to a request: the four flags of its link byte are read when it is built, after the request's own
effect (R162). -/
def reply (code tag : Byte) (stamp : BitVec 4) (a : Answer) : State :=
  a.after.setLink { a.after.link with reply := some ⟨code, tag, a.status, linkByte stamp a.after, a.out⟩ }

/-- While the power-on restore is in progress every request is answered BUSY (R163). -/
def unlessRestoring (request : State → Answer) (s : State) : Answer :=
  if restoring s then refuse .busy s else request s

/-- A request row of the table: the request of that code is dispatched and answered. The row stands for the
dispatch alone, with tag 0 and the counter as it stands; the effects of its frame are FRAME_RECEIVED's (log entry
13). -/
def serve (code : Byte) (request : State → Answer) (s : State) : State :=
  reply code 0 s.link.counter (unlessRestoring request s)

end Sys2Proof.Machine
end

