-- ==== Sys2Proof/Machine/Schedule.lean ====
section
/-! DEFINITION. The schedule (sections 3.4 to 3.6): its order (R50), the net of an hour (R52), the site stage that cuts an excess
over the declared capacities (R56), and the recut of later hours on a fall of a declared capacity (R61). -/

namespace Sys2Proof.Machine

/-! ### The order of the schedule (R50) -/

/-- A record's place in the schedule: by hour, then slot index, then direction with INJECT first, then class with FIRM
first (R50). -/
def SchedRec.rank (r : SchedRec) : Nat := ((r.hour * 24 + r.slot.val) * 2 + r.dir.code) * 2 + r.cls.code

/-- A record put in a run of records in order of rank, before those of its own rank. -/
def insertByRank (r : SchedRec) : List SchedRec → List SchedRec
  | [] => [r]
  | q :: qs => if r.rank ≤ q.rank then r :: q :: qs else q :: insertByRank r qs

/-- A run of records in schedule order (R50). -/
def orderedSchedule (rs : List SchedRec) : List SchedRec := rs.foldr insertByRank []

/-! ### Nets -/

/-- A quantity signed by its direction: positive into storage. -/
def Direction.sign (d : Direction) (q : Nat) : Int :=
  match d with
  | .inject => (q : Int)
  | .withdraw => -(q : Int)

/-- The net of a run of records: injections less withdrawals. -/
def netOf (rs : List SchedRec) : Int := (rs.map (fun r => r.dir.sign r.confirmed)).sum

/-- The net confirmed quantity of an hour (R52). -/
def netConfirmed (rs : List SchedRec) (h : Nat) : Int := netOf (rs.filter (fun r => r.hour == h))

/-- The state of a record from its requested and confirmed quantities (section 3.4). -/
def recordState (requested confirmed : Nat) : RecordState :=
  if confirmed = requested then .confirmed else if 0 < confirmed then .curtailed else .rejected

/-! ### The site stage (R56) -/

/-- The participants of one round: the records of the direction and class with a confirmed quantity above 0, each
with its confirmed quantity as weight and cap. The other records stand with weight 0 and receive nothing (R20). -/
def cutParticipants (d : Direction) (c : Class) (rs : List SchedRec) : List Participant :=
  rs.map (fun r => if r.dir = d ∧ r.cls = c then Participant.start r.slot.val r.confirmed (some r.confirmed)
    else Participant.start r.slot.val 0 (some 0))

/-- An excess cut from one direction: interruptible first, then firm with what is left uncovered. -/
def cutShares (d : Direction) (excess : Nat) (rs : List SchedRec) : List Nat :=
  let soft := divide excess (cutParticipants d .interruptible rs)
  let hard := divide soft.uncovered (cutParticipants d .firm rs)
  List.zipWith (· + ·) soft.shares hard.shares

/-- What the site stage cuts from each record of an hour, against the declared injection capacity `ci` and the
declared withdrawal capacity `cw`. -/
def siteShares (ci cw : Nat) (rs : List SchedRec) : List Nat :=
  let n := netOf rs
  if (ci : Int) < n then cutShares .inject (n - ci).toNat rs
  else if (cw : Int) < -n then cutShares .withdraw (-n - cw).toNat rs
  else rs.map (fun _ => 0)

/-- A record cut by a share of the site stage: CAPACITY is its reason unless it has one (R56). -/
def SchedRec.cutBy (r : SchedRec) (share : Nat) : SchedRec :=
  if share = 0 then r
  else
    { r with
      confirmed := r.confirmed - share
      state := recordState r.requested (r.confirmed - share)
      reason := match r.reason with
        | none => some .capacity
        | some x => some x }

/-- A record cut by a recut: its recut count rises, stopping at 255 (R61). -/
def SchedRec.recutBy (r : SchedRec) (share : Nat) : SchedRec :=
  if share = 0 then r else { r.cutBy share with recuts := satSucc 255 r.recuts }

/-! ### Recut (R61) -/

/-- An hour put in a list in ascending order, once. -/
def insertHour (h : Nat) : List Nat → List Nat
  | [] => [h]
  | k :: ks => if h < k then h :: k :: ks else if h = k then k :: ks else k :: insertHour h ks

/-- The hours of a run of records, ascending, each once. -/
def hoursOf (rs : List SchedRec) : List Nat := rs.foldl (fun hs r => insertHour r.hour hs) []

/-- Shares dealt out to the records of hour `h`, in their order. -/
def recutHourRecords (h : Nat) : List SchedRec → List Nat → List SchedRec
  | [], _ => []
  | r :: rs, shares =>
    if r.hour = h then
      match shares with
      | [] => r :: recutHourRecords h rs []
      | x :: xs => r.recutBy x :: recutHourRecords h rs xs
    else r :: recutHourRecords h rs shares

/-- The recut of one hour against the present declared capacities. Where a record is cut, a RECUT event is raised
with the hour's absolute index. -/
def recutHour (h : Nat) (s : State) : State :=
  let shares := siteShares s.duty.declared s.dry.capacity (s.sched.filter (fun r => r.hour == h))
  if shares.all (· == 0) then s
  else raise .recut none (some (h : Int)) (s.setSched (recutHourRecords h s.sched shares))

/-- Whether recut covers a record: an hour later than the current hour (R61), and every record while the clock is
UNSET, when there is no current hour (R60). So while the clock is UNSET the records of an hour whose settlement is in
flight are covered too, although R72 says that hour is not recut; the settlement's own inputs stay as it took them (log
entry 36). -/
def recutCovers (s : State) (r : SchedRec) : Bool :=
  match s.clock.state with
  | .unset => true
  | .running => decide (s.clock.hour < r.hour)

/-- The recut on a fall of a declared capacity: every covered hour that has records, ascending. -/
def recut (s : State) : State :=
  (hoursOf (s.sched.filter (recutCovers s))).foldl (fun t h => recutHour h t) s

end Sys2Proof.Machine
end

