-- ==== Sys2Proof/Machine/DryingCore.lean ====
section
/-! DEFINITION. The parts of the drying supervisor that the flow controller's change of direction needs (R141,
R142, R144, R152 to R155): contributions, flow shares, the dew-point assessment, and the trains' following of the
direction. An operation that changes a train's contribution takes the operation that hands the figure on as an
argument; Machine/Flow.lean supplies it. -/

namespace Sys2Proof.Machine

/-- What re-forms the withdrawal capacity and hands it on. -/
abbrev Hand : Type := State → State

/-- A train record replaced. -/
def putTrain (t : Fin 2) (x : Train) (s : State) : State :=
  s.setDry { s.dry with trains := setVec s.dry.trains t x }

/-- A train's contribution: its nominal capacity, scaled by its degraded factor and rounded down while DEGRADED
(R142). -/
def Train.contribution (t : Train) : Nat :=
  if t.degraded then t.cfg.nominal * t.cfg.degradedFactor / 1000 else t.cfg.nominal

/-- Whether a train counts in the withdrawal capacity: STANDBY or ONLINE (R142, R143). -/
def Train.inService (t : Train) : Bool := t.state == .standby || t.state == .online

/-- The withdrawal capacity the supervisor forms (R142). -/
def withdrawalCapacity (s : State) : Nat :=
  min (s.dry.trains.toList.map (fun t => if t.inService then t.contribution else 0)).sum s.site.wdrRight

/-! ### Flow shares (R144) -/

/-- An ONLINE train's weight: its contribution; any other train's is 0. -/
def Train.weight (t : Train) : Nat := if t.state == .online then t.contribution else 0

/-- An ONLINE train's share before the kilowatts the rounding leaves. -/
def onlineShare (f w : Nat) (t : Train) : Nat := if t.state == .online then f * t.weight / w else 0

/-- The shares of trains A and B. -/
def flowShares (s : State) : Nat × Nat :=
  let f := s.flow.setpoint.natAbs
  let a := s.dry.trains[0]
  let b := s.dry.trains[1]
  let w := a.weight + b.weight
  let qa := onlineShare f w a
  let qb := onlineShare f w b
  let left := if w = 0 then 0 else f - (qa + qb)
  let recycle (t : Train) (q : Nat) : Nat :=
    if t.state == .offSpec && s.flow.dir == .withdrawing then t.cfg.recycleRate else q
  if a.state == .online then (recycle a (qa + left), recycle b qb)
  else if b.state == .online then (recycle a qa, recycle b (qb + left))
  else (recycle a qa, recycle b qb)

/-- The shares re-formed (R144). -/
def reshare (s : State) : State :=
  let x := flowShares s
  let a := s.dry.trains[0]
  let b := s.dry.trains[1]
  s.setDry { s.dry with trains := setVec (setVec s.dry.trains 0 { a with share := x.1 }) 1 { b with share := x.2 } }

/-! ### The dew point (R152 to R155) -/

/-- R154: the warning, raised once while the dew point stays at or above the warn level. -/
def dewWarning (t : Fin 2) (s : State) : State :=
  let x := s.dry.trains[t]
  if x.dew < x.cfg.warn then putTrain t { x with armed := true } s
  else if x.armed then raise .dewWarning (some t.val) (some x.dew) (putTrain t { x with armed := false } s)
  else s

/-- R153: the excursion is taken. The train enters OFF_SPEC with DIVERT on, the capacity falls, and OFF_SPEC is raised. -/
def takeExcursion (hand : Hand) (t : Fin 2) (s : State) : State :=
  let x := s.dry.trains[t]
  raise .offSpec (some t.val) (some x.dew)
    (hand (reshare (putTrain t { x with state := .offSpec, excursion := none } s)))

/-- R153 at an assessment in ONLINE: the dew point against the spec. -/
def assessSpec (hand : Hand) (t : Fin 2) (s : State) : State :=
  let x := s.dry.trains[t]
  if x.cfg.spec < x.dew then
    match x.excursion with
    | some _ => s
    | none =>
      if x.cfg.excursionDelay = 0 then takeExcursion hand t s
      else putTrain t { x with excursion := some x.cfg.excursionDelay } s
  else putTrain t { x with excursion := none } s

/-- An assessment of a train that is ONLINE with its mask run out: R153, then R154. -/
def assessOnline (hand : Hand) (t : Fin 2) (s : State) : State :=
  let x := s.dry.trains[t]
  if x.state == .online && x.mask == 0 then dewWarning t (assessSpec hand t s) else s

/-- A mask loaded with the train's choice; a choice above 0 stops both dew-point timers (R152). R153 says that the excursion
timer is stopped "at each loading of the mask", which takes in a choice of 0. That a choice of 0 stops neither timer, as R152
has it, is the model's choice (log entry 55). -/
def Train.masked (x : Train) : Train :=
  if x.cfg.maskChoice = 0 then { x with mask := 0 }
  else { x with mask := x.cfg.maskChoice, excursion := none, recovery := none }

/-- R155: the recovery is taken. The train enters ONLINE or STANDBY by the direction, DIVERT goes off, the mask is
loaded (a choice of 0 assesses the train at once, R152), the capacity rises, and ON_SPEC is raised. -/
def takeRecovery (hand : Hand) (t : Fin 2) (s : State) : State :=
  let x := s.dry.trains[t]
  let st : TrainState := if s.flow.dir == .withdrawing then .online else .standby
  let s1 := hand (reshare (putTrain t { x with state := st, recovery := none }.masked s))
  let s2 := raise .onSpec (some t.val) (some x.dew) s1
  if x.cfg.maskChoice = 0 then assessOnline hand t s2 else s2

/-- R155 at an assessment in OFF_SPEC: the dew point against the warn level. -/
def assessRecovery (hand : Hand) (t : Fin 2) (s : State) : State :=
  let x := s.dry.trains[t]
  if x.dew < x.cfg.warn then
    match x.recovery with
    | some _ => s
    | none =>
      if x.cfg.recoveryDelay = 0 then takeRecovery hand t s
      else putTrain t { x with recovery := some x.cfg.recoveryDelay } s
  else putTrain t { x with recovery := none } s

/-- An assessment of a train that is OFF_SPEC with its mask run out: R154, then R155. -/
def assessOffSpec (hand : Hand) (t : Fin 2) (s : State) : State :=
  let x := s.dry.trains[t]
  if x.state == .offSpec && x.mask == 0 then assessRecovery hand t (dewWarning t s) else s

/-- The dew point assessed, as R152 says when: the train is ONLINE or OFF_SPEC and its mask timer is 0. One
assessment judges the train in the state it finds it in. -/
def assess (hand : Hand) (t : Fin 2) (s : State) : State :=
  match (s.dry.trains[t]).state with
  | .online => assessOnline hand t s
  | .offSpec => assessOffSpec hand t s
  | _ => s

/-- The mask timer loaded with the mask choice; a choice of 0 assesses the train at once (R152). -/
def loadMask (hand : Hand) (t : Fin 2) (s : State) : State :=
  let x := s.dry.trains[t]
  let s1 := putTrain t x.masked s
  if x.cfg.maskChoice = 0 then assess hand t s1 else s1

/-! ### Following the direction (R141) -/

/-- A train in STANDBY becomes ONLINE while the direction state is WITHDRAWING, and its mask is loaded. What was done for the
other train just before can have ended that direction. -/
def bringOnline (hand : Hand) (t : Fin 2) (s : State) : State :=
  let x := s.dry.trains[t]
  if x.state == .standby && s.flow.dir == .withdrawing then loadMask hand t (reshare (putTrain t { x with state := .online } s)) else s

/-- A train that is ONLINE becomes STANDBY and its excursion timer is stopped. -/
def sendStandby (t : Fin 2) (s : State) : State :=
  let x := s.dry.trains[t]
  if x.state == .online then putTrain t { x with state := .standby, excursion := none } s else s

/-- The trains follow the direction state as it stands (R141), and the shares with them (R144). R141 states no order between
the trains: that train A is brought ONLINE, and assessed where its mask choice is 0, before train B is the model's choice
(log entry 37). -/
def followDirection (hand : Hand) (s : State) : State :=
  if s.flow.dir == .withdrawing then reshare (bringOnline hand 1 (bringOnline hand 0 s))
  else reshare (sendStandby 1 (sendStandby 0 s))

end Sys2Proof.Machine
end

