-- ==== Sys2Proof/Machine/Flow.lean ====
section
/-! DEFINITION. The flow controller (chapter 5): targets (R93 to R96), step cuts (R99), the direction machine (R101
to R105), the hand-over of the two capacities (R95, R115, R142), and the meanings of RAMP_STEP, TURNAROUND_EXPIRY and
FLOW_READ. -/

namespace Sys2Proof.Machine

/-! ### Targets -/

/-- The limited target: T_raw clamped to the range from −C_wdr_live to +C_inj_ready (R96). -/
def limitT (f : Flow) : Flow := { f with t := max (-(f.cWdr : Int)) (min (f.cInj : Int) f.tRaw) }

/-- Whether T_raw is forced to 0 (R94). -/
def targetForced (s : State) : Bool := clockIsUnset s || isUnrestored s || inFallback s

/-- T_raw as R93 forms it: the current hour's net, forced to 0 where R94 says so, capped at the site rights. -/
def rawTarget (s : State) : Int :=
  let net := if targetForced s then 0 else netConfirmed s.sched s.clock.hour
  max (-(s.site.wdrRight : Int)) (min (s.site.injRight : Int) net)

/-! ### The capacities as the drying supervisor hands them on while the direction changes -/

/-- The withdrawal capacity re-formed and handed on while S is 0: a fall recuts the later hours (R61), and the
flow controller takes the figure and recomputes T (R95, R96). No step cut can follow, since S is 0 (R99). -/
def handWithdrawalAtZero (s : State) : State :=
  let c := withdrawalCapacity s
  let s1 := s.setDry { s.dry with capacity := c }
  let s2 := if c < s.dry.capacity then recut s1 else s1
  s2.setFlow (limitT { s2.flow with cWdr := c })

/-! ### The direction machine (R101 to R105) -/

/-- Entry into HOLD, INJECTING or WITHDRAWING: the last direction is set (R104), DIRECTION_CHANGED is raised
(R105), and the change goes to the drying supervisor (R106, R141). -/
def enterDir (d : FlowDir) (s : State) : State :=
  let last : Option Direction :=
    match d with
    | .injecting => some .inject
    | .withdrawing => some .withdraw
    | .hold => s.flow.lastDir
    | .turnaround => s.flow.lastDir
  followDirection handWithdrawalAtZero
    (raise .directionChanged none (some (d.code : Int)) (s.setFlow { s.flow with dir := d, lastDir := last }))

/-- The direction chosen at the end of a turnaround, by the sign of T_raw (R103). -/
def chosenDir (tRaw : Int) : FlowDir :=
  if 0 < tRaw then .injecting else if tRaw < 0 then .withdrawing else .hold

/-- The turnaround timer reaches 0 (R103). -/
def expireTurnaround (s : State) : State :=
  enterDir (chosenDir s.flow.tRaw) (s.setFlow { s.flow with timer := 0 })

/-- Entry into TURNAROUND: the timer takes the hold and TURNAROUND_BEGIN is raised (R105). A hold of 0 expires in
the same response (R103). -/
def enterTurnaround (s : State) : State :=
  let hold := s.site.turnHold
  let s1 := raise .turnaroundBegin none (some (hold : Int))
    (s.setFlow { s.flow with dir := .turnaround, timer := hold })
  let s2 := followDirection handWithdrawalAtZero s1
  if hold = 0 then expireTurnaround s2 else s2

/-- R102: INJECTING or WITHDRAWING ends when S is 0 with T_raw 0 or on the other side. -/
def endAtZero (s : State) : State :=
  let f := s.flow
  match f.dir with
  | .injecting =>
    if f.setpoint = 0 ∧ f.tRaw ≤ 0 then (if f.tRaw = 0 then enterDir .hold s else enterTurnaround s) else s
  | .withdrawing =>
    if f.setpoint = 0 ∧ 0 ≤ f.tRaw then (if f.tRaw = 0 then enterDir .hold s else enterTurnaround s) else s
  | .hold => s
  | .turnaround => s

/-- R101: HOLD assesses T_raw. -/
def assessHold (s : State) : State :=
  let f := s.flow
  if f.tRaw = 0 then s
  else if 0 < f.tRaw ∧ f.lastDir = some .inject then enterDir .injecting s
  else if f.tRaw < 0 ∧ f.lastDir = some .withdraw then enterDir .withdrawing s
  else enterTurnaround s

/-- The direction machine acts on a recomputed T_raw from the state it is in (R101 to R103). -/
def actOnTarget (s : State) : State :=
  match s.flow.dir with
  | .hold => assessHold s
  | .injecting => endAtZero s
  | .withdrawing => endAtZero s
  | .turnaround => s

/-- T_raw recomputed, and T with it (R93, R96). -/
def recomputeTarget (s : State) : State :=
  actOnTarget (s.setFlow (limitT { s.flow with tRaw := rawTarget s }))

/-! ### Step cuts (R99) and the hand-over of capacities (R95) -/

/-- S set at once to a fallen capacity: STEP_CUT is raised and the cut is kept, the shares follow, and a cut to 0
counts as S reaching 0 (R99, R102). -/
def stepCut (s' : Int) (s : State) : State :=
  endAtZero (reshare (raise .stepCut none (some s')
    (s.setFlow { s.flow with setpoint := s', lastCut := some (s.flow.setpoint, s') })))

/-- C_inj_ready received (R95, R96, R99). -/
def receiveInj (c : Nat) (s : State) : State :=
  let s1 := s.setFlow (limitT { s.flow with cInj := c })
  if c < s.flow.cInj ∧ (c : Int) < s.flow.setpoint then stepCut c s1 else s1

/-- C_wdr_live received (R95, R96, R99). -/
def receiveWdr (c : Nat) (s : State) : State :=
  let s1 := s.setFlow (limitT { s.flow with cWdr := c })
  if c < s.flow.cWdr ∧ s.flow.setpoint < -(c : Int) then stepCut (-(c : Int)) s1 else s1

/-- The withdrawal capacity re-formed and handed on (R142): a fall is signalled to the schedule, any change goes to
the flow controller, and the shares follow (R144). The order of the recut and the step cut is the world's (R142). -/
def handWithdrawal (s : State) : State :=
  let c := withdrawalCapacity s
  let s1 := s.setDry { s.dry with capacity := c }
  let signal : List (State → State) := if c < s.dry.capacity then [recut] else []
  let send : List (State → State) := if c = s.flow.cWdr then [] else [receiveWdr c]
  reshare (inAnyOrder (signal ++ send) s1)

/-! ### The ramp (R97, R98) -/

/-- S moved toward G by at most one step (R98). -/
def rampTo (g s step : Int) : Int :=
  if s < g then (if g - s < step then g else s + step)
  else (if s - g < step then g else s - step)

/-- The step of this second: the up-rate when |G| > |S|, else the down-rate, or the fallback rate in FALLBACK. -/
def rampRate (s : State) : Nat :=
  if s.flow.setpoint.natAbs < (goal s.flow).natAbs then s.site.upRate
  else if inFallback s then s.site.fallbackRate else s.site.downRate

/-- The flow controller's second: the ramp step (R98), after which INJECTING or WITHDRAWING may end (R102); in
TURNAROUND the timer falls by one and its expiry is taken (R103). -/
def flowSecond (s : State) : State :=
  match s.flow.dir with
  | .turnaround =>
    if s.flow.timer ≤ 1 then expireTurnaround s else s.setFlow { s.flow with timer := s.flow.timer - 1 }
  | .hold | .injecting | .withdrawing =>
    if ramping s.flow then
      endAtZero (reshare (s.setFlow
        { s.flow with setpoint := rampTo (goal s.flow) s.flow.setpoint (rampRate s) }))
    else s

/-! ### Meanings -/

/-- RAMP_STEP (R98): one elapsed second of the flow controller. -/
def execRampStep (s : State) : Host.Outcome State Fault Refusal := .next (gathered flowSecond s)

/-- TURNAROUND_EXPIRY (R103): the turnaround timer's last second passes; without one to pass there is no expiry
(log entry 14). -/
def execTurnaroundExpiry (s : State) : Host.Outcome State Fault Refusal :=
  .next (if s.flow.dir = .turnaround ∧ s.flow.timer ≤ 1 then gathered expireTurnaround s else s)

/-- The old or new S of the last step cut; of none it is the word given (log entry 12). -/
def outCut (absent : BitVec 32) : Option Int → Block
  | none => out2 absent.toNat
  | some i => outI2 i

/-- The reply of FLOW READ (R111). -/
def flowReadReply (s : State) : Block :=
  let f := s.flow
  out1 f.dir.code ++ out1 (lastDirCode f.lastDir) ++ out1 f.timer
  ++ outI2 f.setpoint ++ outI2 f.t ++ outI2 f.tRaw ++ outI2 (goal f) ++ flowFlags s
  ++ out2 f.cInj ++ out2 f.cWdr
  ++ outCut Config.noCutOld (f.lastCut.map (·.1)) ++ outCut Config.noCutNew (f.lastCut.map (·.2))
  ++ outSite s.site

/-- FLOW READ (R111). -/
def reqFlowRead (b : Block) (s : State) : Answer :=
  checked [(b.length == 0, .badLength)] s (taken (flowReadReply s) s)

/-- FLOW_READ (R111). -/
def execFlowRead (b : Block) (s : State) : Host.Outcome State Fault Refusal :=
  .next (serve 0x39 (reqFlowRead b) s)

end Sys2Proof.Machine
end

