-- ==== Sys2Proof/Machine/Duty.lean ====
section
/-! DEFINITION. The duty scheduler (chapter 6): capacities and demand (R115, R116), the second (R117), start and stop
(R118 to R122), trips and recovery (R123 to R128), the unit requests (R129 to R132, R136), rotation (R133) and fuel
(R134), with the meanings of their rows. -/

namespace Sys2Proof.Machine

/-! ### Capacities and demand -/

/-- Counted in the declared injection capacity: COLD, WARM, HOT, STARTING or LOADED (section 6.2). -/
def UnitState.declares : UnitState → Bool
  | .cold | .warm | .hot | .starting | .loaded => true
  | _ => false

/-- Counted in K: STARTING or LOADED (section 6.2). -/
def UnitState.commits : UnitState → Bool
  | .starting | .loaded => true
  | _ => false

/-- In COLD, WARM or HOT: the states a unit is started from (R118). -/
def UnitState.waits : UnitState → Bool
  | .cold | .warm | .hot => true
  | _ => false

/-- The sum of the capacities of the units in the states `p` picks. -/
def capacitySum (p : UnitState → Bool) (s : State) : Nat :=
  (s.duty.units.toList.map (fun u => if p u.state then u.cfg.capacity else 0)).sum

/-- The declared injection capacity (R115). -/
def declaredInjection (s : State) : Nat := min (capacitySum UnitState.declares s) s.site.injRight

/-- C_inj_ready (R115). -/
def readyInjection (s : State) : Nat := min (capacitySum (· == .loaded) s) s.site.injRight

/-- The committed capacity K, not capped (R116). -/
def committed (s : State) : Nat := capacitySum UnitState.commits s

/-- The injection demand: the larger of T_raw and 0 (R116). -/
def demand (s : State) : Nat := s.flow.tRaw.toNat

/-- Both capacities re-formed and each changed figure handed to its reader (R115): a fall of the declared capacity
recuts the later hours, and C_inj_ready goes to the flow controller. The order of the two is the world's (R115). -/
def handInjection (s : State) : State :=
  let d := declaredInjection s
  let c := readyInjection s
  let s1 := s.setDuty { s.duty with declared := d, ready := c }
  let signal : List (State → State) := if d < s.duty.declared then [recut] else []
  let send : List (State → State) := if c = s.flow.cInj then [] else [receiveInj c]
  inAnyOrder (signal ++ send) s1

/-! ### Unit records -/

/-- A unit is blocked when it waits and its start list holds at least the start limit (R119). -/
def CUnit.blocked (limit : Nat) (u : CUnit) : Bool := u.state.waits && decide (limit ≤ u.startAges.length)

/-- A unit is startable when it waits and its start list holds fewer stamps than the start limit (R118). -/
def CUnit.startable (limit : Nat) (u : CUnit) : Bool := u.state.waits && decide (u.startAges.length < limit)

/-- The start-limit noted flag is cleared when the unit ceases to be blocked (R119). -/
def CUnit.renote (limit : Nat) (u : CUnit) : CUnit := { u with limitNoted := u.limitNoted && u.blocked limit }

/-- A unit record replaced. -/
def putUnit (i : Fin 6) (u : CUnit) (s : State) : State :=
  s.setDuty { s.duty with units := setVec s.duty.units i (u.renote s.site.startLimit) }

/-- The counts a unit loses on leaving LOADED (R121, R123, R130). -/
def CUnit.uncounted (u : CUnit) : CUnit := { u with loadedSeconds := 0, overload := 0, noRun := 0 }

/-! ### Start, warm-up and readiness -/

/-- The origin code of a start (R118): 1 for COLD, 2 for WARM, 3 for HOT. -/
def originCode : UnitState → Nat
  | .warm => 2
  | .hot => 3
  | _ => 1

/-- The warm-up by the state the unit starts from (R120). -/
def warmUp (g : Site) : UnitState → Nat
  | .warm => g.warmWarmUp
  | .hot => g.hotWarmUp
  | _ => g.coldWarmUp

/-- A unit is started (R118). -/
def startUnit (i : Fin 6) (s : State) : State :=
  let u := s.duty.units[i]
  let u1 := { u with
    startAges := u.startAges ++ [0]
    startTotal := satSucc 65535 u.startTotal
    phaseTimer := warmUp s.site u.state
    state := .starting }
  handInjection (raise .unitStarted (some i.val) (some (originCode u.state : Int)) (putUnit i u1 s))

/-- The warm-up ends: the unit enters LOADED (R120). -/
def endWarmUp (i : Fin 6) (s : State) : State :=
  let u := s.duty.units[i]
  let u1 := { u.uncounted with state := .loaded, phaseTimer := 0 }
  handInjection (raise .unitReady (some i.val) (some (u.cfg.capacity : Int)) (putUnit i u1 s))

/-! ### Stop and standby -/

/-- The first state of the standby sequence and the timer loaded with it (R122). -/
def standbyEntry (g : Site) (c : UnitCfg) : UnitState × Nat :=
  if c.keepEngine then (.hot, g.hotHold) else if c.keepAux then (.warm, g.warmHold) else (.cold, 0)

/-- A unit is stopped (R121). -/
def stopUnit (i : Fin 6) (s : State) : State :=
  let u := s.duty.units[i]
  let e := standbyEntry s.site u.cfg
  let u1 := { u.uncounted with state := e.1, phaseTimer := e.2 }
  handInjection (raise .unitStopped (some i.val) (some (e.1.code : Int)) (putUnit i u1 s))

/-- The hot hold ends: WARM with its hold where keep-aux is 1, else COLD (R122). -/
def endHotHold (i : Fin 6) (s : State) : State :=
  let u := s.duty.units[i]
  let u1 := if u.cfg.keepAux then { u with state := .warm, phaseTimer := s.site.warmHold }
    else { u with state := .cold, phaseTimer := 0 }
  handInjection (putUnit i u1 s)

/-- The warm hold ends: COLD (R122). -/
def endWarmHold (i : Fin 6) (s : State) : State :=
  let u := s.duty.units[i]
  handInjection (putUnit i { u with state := .cold, phaseTimer := 0 } s)

/-! ### Trips and recovery -/

/-- Whether a unit has recovery remaining (R127). -/
def CUnit.recoverable (u : CUnit) : Bool :=
  u.cfg.policy == 3 || ((u.cfg.policy == 1 || u.cfg.policy == 2) && decide (u.attempts < 3))

/-- The recovery interval of a policy (section 6.7). -/
def recoveryInterval (policy : Nat) : Nat := if policy = 1 then 300 else 1800

/-- A unit is tripped (R123, R127). That LOCKED_OUT, which has no timed phase, holds the phase timer at 0 is the model's choice
(log entry 49). -/
def tripUnit (cause : TripCause) (i : Fin 6) (s : State) : State :=
  let u := s.duty.units[i]
  let code : Int := tripCode (some cause)
  if u.recoverable then
    let u1 := { u.uncounted with
      state := .tripped, phaseTimer := recoveryInterval u.cfg.policy, tripCause := some cause }
    handInjection (raise .unitTripped (some i.val) (some code) (putUnit i u1 s))
  else
    let u1 := { u.uncounted with state := .lockedOut, phaseTimer := 0, tripCause := some cause }
    handInjection (raise .unitLockedOut (some i.val) (some (u.attempts : Int))
      (raise .unitTripped (some i.val) (some code) (putUnit i u1 s)))

/-- The recovery interval ends: COLD with the attempts used raised (R128). -/
def endRecovery (i : Fin 6) (s : State) : State :=
  let u := s.duty.units[i]
  let n := satSucc 255 u.attempts
  handInjection (raise .unitRecovery (some i.val) (some (n : Int))
    (putUnit i { u with state := .cold, phaseTimer := 0, attempts := n } s))

/-! ### The unit part of a report (R123 to R126) -/

/-- The feedback a report word gives: 2 or more is fault (R123). -/
def feedbackOf : Nat → Feedback
  | 0 => .stopped
  | 1 => .running
  | _ => .fault

/-- The values a unit takes from a report: feedback, and the load clamped to 0 to twice the capacity (R123). -/
def CUnit.takeReport (u : CUnit) (feedback : Nat) (load : Int) : CUnit :=
  { u with feedback := feedbackOf feedback, load := min load.toNat (2 * u.cfg.capacity) }

/-- The counts of the no-run and overload tests after a report, for a unit in LOADED (R125, R126). A report with
feedback fault is neither stopped nor running, and leaves the no-run count. -/
def noRunAfter (u : CUnit) : Nat :=
  match u.feedback with
  | .stopped => min (u.noRun + 1) 3
  | .running => 0
  | .fault => u.noRun

/-- The overload count after a report: raised above capacity × 1,100 / 1,000, compared exactly, else 0 (R126). -/
def overloadAfter (u : CUnit) : Nat :=
  if u.cfg.capacity * 1100 < u.load * 1000 then min (u.overload + 1) 15 else 0

/-- One unit's part of a report: the values taken, then the feedback test, the no-run test and the overload test,
the first that trips ending the assessment (R123). -/
def reportUnit (i : Fin 6) (feedback : Nat) (load : Int) (s : State) : State :=
  let u := (s.duty.units[i]).takeReport feedback load
  let s1 := putUnit i u s
  if u.state.runs && u.feedback == .fault then tripUnit .feedback i s1
  else if u.state == .loaded then
    let u2 := { u with noRun := noRunAfter u }
    if 3 ≤ u2.noRun then tripUnit .noRun i (putUnit i u2 s1)
    else
      let u3 := { u2 with overload := overloadAfter u2 }
      if s.site.overloadLimit ≤ u3.overload ∧ 0 < u3.overload then tripUnit .overload i (putUnit i u3 s1)
      else putUnit i u3 s1
  else s1

/-- The unit part of a STATION REPORT block: words 6 to 23, three words a unit (section 8.5). -/
def reportUnits (b : Block) (s : State) : State :=
  (List.finRange 6).foldl
    (fun t i => reportUnit i (fieldW b (6 + 3 * i.val)) (fieldI2 b (7 + 3 * i.val)) t) s

/-! ### The scheduler's second (R117) -/

/-- A unit's load permille: floor(held load × 1,000 / capacity) (R134). -/
def CUnit.loadPermille (u : CUnit) : Nat := u.load * 1000 / u.cfg.capacity

/-- The fuel rate of a unit, in kW, by the state it is in (R134). -/
def fuelRate (s : State) (u : CUnit) : Nat :=
  match u.cfg.curve with
  | none => 0
  | some c =>
    if u.configured then
      match u.state with
      | .hot | .starting => evalCurve s.curves[c] 0
      | .loaded => evalCurve s.curves[c] u.loadPermille
      | _ => 0
    else 0

/-- Step 1: fuel accrual. -/
def accrueFuel (s : State) : State :=
  s.setDuty { s.duty with fuel := s.duty.fuel + (s.duty.units.toList.map (fuelRate s)).sum }

/-- Step 2: run seconds and loaded seconds, each stopping at its maximum. -/
def CUnit.counted (u : CUnit) : CUnit :=
  { u with
    runSeconds := if u.state.runs then satSucc 4294967295 u.runSeconds else u.runSeconds
    loadedSeconds := if u.state == .loaded then satSucc 4294967295 u.loadedSeconds else u.loadedSeconds }

/-- Step 3: the start list a second older, without the stamps whose age has reached 3,600 s. -/
def CUnit.aged (u : CUnit) : CUnit :=
  { u with startAges := (u.startAges.map (· + 1)).filter (fun a => decide (a < 3600)) }

/-- Steps 2 and 3 for every unit. -/
def countAndAge (s : State) : State :=
  s.setDuty { s.duty with units := mapVec (fun u => (u.counted.aged).renote s.site.startLimit) s.duty.units }

/-- A phase timer's expiry, by the phase (R120, R122, R128). -/
def phaseExpiry (i : Fin 6) (s : State) : State :=
  match (s.duty.units[i]).state with
  | .starting => endWarmUp i s
  | .hot => endHotHold i s
  | .warm => endWarmHold i s
  | .tripped => endRecovery i s
  | _ => s

/-- Whether a state has a timed phase (section 6.1). -/
def UnitState.timed : UnitState → Bool
  | .starting | .hot | .warm | .tripped => true
  | _ => false

/-- Step 4 for one unit: a phase timer above 0 falls by one, and at 0 its phase expires; a unit LOADED for 3,600 s
has its attempts used returned to 0 (R128). -/
def unitTimer (i : Fin 6) (s : State) : State :=
  let u := s.duty.units[i]
  if u.state.timed && decide (0 < u.phaseTimer) then
    let s1 := putUnit i { u with phaseTimer := u.phaseTimer - 1 } s
    if u.phaseTimer = 1 then phaseExpiry i s1 else s1
  else if u.state == .loaded && decide (3600 ≤ u.loadedSeconds) then putUnit i { u with attempts := 0 } s
  else s

/-- Step 4 for the six units. R117 names no order among them; ascending index is the model's (log entry 37). -/
def unitTimers (s : State) : State := (List.finRange 6).foldl (fun t i => unitTimer i t) s

/-! ### Evaluation: the stop rule and the start rule -/

/-- The unit the stop rule looks at: LOADED and latest in roster order (R121). -/
def stopCandidate (s : State) : Option (Fin 6) :=
  s.duty.roster.toList.reverse.find? (fun i => (s.duty.units[i]).state == .loaded)

/-- The three conditions of the stop rule for unit `u` (R121). -/
def stopHolds (s : State) (u : CUnit) : Bool :=
  decide (s.site.minimumRun ≤ u.loadedSeconds)
  && (decide (demand s = 0)
      || decide ((demand s : Int) * 1000 < ((committed s : Int) - u.cfg.capacity) * s.site.stopFraction))
  && decide (s.flow.setpoint ≤ (s.duty.ready : Int) - u.cfg.capacity)

/-- The demand condition of the start rule: D_inj exceeds K × start fraction / 1000, formed exactly (R118). -/
def startDemand (s : State) : Bool := decide (committed s * s.site.startFraction < demand s * 1000)

/-- No unit is STARTING (R118). -/
def noneStarting (s : State) : Bool := s.duty.units.toList.all (fun u => u.state != .starting)

/-- The blocked units before the first startable unit in a roster, or all of them where none is startable (R119). -/
def blockedAhead (s : State) : List (Fin 6) → List (Fin 6)
  | [] => []
  | i :: rest =>
    let u := s.duty.units[i]
    if u.startable s.site.startLimit then []
    else if u.blocked s.site.startLimit then i :: blockedAhead s rest
    else blockedAhead s rest

/-- START_LIMIT for a blocked unit whose noted flag is clear: the seconds until its oldest stamp leaves (R119). -/
def noteLimit (i : Fin 6) (s : State) : State :=
  let u := s.duty.units[i]
  if u.limitNoted then s
  else
    raise .startLimit (some i.val) (some (3600 - (u.startAges.headD 0 : Int)))
      (putUnit i { u with limitNoted := true } s)

/-- The start rule (R118, R119): START_LIMIT for the blocked units ahead, then the first startable unit started. -/
def startRule (s : State) : State :=
  if startDemand s && noneStarting s then
    let s1 := (blockedAhead s s.duty.roster.toList).foldl (fun t i => noteLimit i t) s
    match s.duty.roster.toList.find? (fun i => (s.duty.units[i]).startable s.site.startLimit) with
    | some i => startUnit i s1
    | none => s1
  else s

/-- Step 5: the stop rule and then the start rule, against the unit states steps 1 to 4 left; the two cannot both
act (R117), so a stop ends the evaluation. D_inj and K are kept as this evaluation formed them, before its own start or
stop (R136; log entry 38). -/
def evaluateDuty (s : State) : State :=
  let s1 := s.setDuty { s.duty with dInj := demand s, k := committed s }
  match stopCandidate s1 with
  | some i => if stopHolds s1 (s1.duty.units[i]) then stopUnit i s1 else startRule s1
  | none => startRule s1

/-- The scheduler's second (R117). -/
def schedulerSecond (s : State) : State := evaluateDuty (unitTimers (countAndAge (accrueFuel s)))

/-! ### Rotation (R133) -/

/-- A unit put in a list in ascending order of run seconds, equal run seconds in ascending index. -/
def insertByRun (s : State) (i : Fin 6) : List (Fin 6) → List (Fin 6)
  | [] => [i]
  | j :: js =>
    if (s.duty.units[i]).runSeconds < (s.duty.units[j]).runSeconds then i :: j :: js
    else j :: insertByRun s i js

/-- Whether the re-sort puts a unit first: neither DISABLED nor LOCKED_OUT. -/
def CUnit.rotates (u : CUnit) : Bool := !(u.state == .disabled || u.state == .lockedOut)

/-- The order of the re-sort. -/
def rotated (s : State) : List (Fin 6) :=
  let inService := (List.finRange 6).filter (fun i => (s.duty.units[i]).rotates)
  let others := (List.finRange 6).filter (fun i => !(s.duty.units[i]).rotates)
  inService.foldl (fun l i => insertByRun s i l) [] ++ others

/-- A roster as a six-digit decimal number, the first in duty order as the leading digit (R133). -/
def rosterDigits (l : List (Fin 6)) : Nat := l.foldl (fun n i => 10 * n + i.val) 0

/-- A roster made of a list of six unit indices; any other list leaves the roster `r`. -/
def rosterOf (l : List (Fin 6)) (r : Vector (Fin 6) 6) : Vector (Fin 6) 6 :=
  if h : l.length = 6 then ⟨l.toArray, by simpa using h⟩ else r

/-- The day boundary delivered to the duty scheduler (R133). -/
def dayBoundary (s : State) : State :=
  if s.site.rotation then
    let l := rotated s
    raise .dayRolled none (some (rosterDigits l : Int)) (s.setDuty { s.duty with roster := rosterOf l s.duty.roster })
  else s

/-! ### The unit requests -/

/-- Whether word `i` names a written curve of 0 to 15. -/
def namesWritten (s : State) (b : Block) (i : Nat) : Bool :=
  match fieldFin 16 b i with
  | some c => curveWritten s c
  | none => false

/-- UNIT SET taken: the configuration is replaced whole and the record becomes configured (R129). That a held load above twice
the new capacity is kept as it stands until the next report is the model's choice (log entry 48). -/
def unitSetEffect (b : Block) (i : Fin 6) (s : State) : Answer :=
  let u := s.duty.units[i]
  let standby := fieldW b 4
  let cfg : UnitCfg := ⟨field2 b 1, fieldFin 16 b 3, standby / 2 == 1, standby % 2 == 1, fieldW b 5⟩
  let s1 := gathered handInjection (putUnit i { u with configured := true, cfg := cfg } s)
  taken (out1 i.val ++ out1 u.state.code) s1

/-- UNIT SET (R129). -/
def reqUnitSet (b : Block) (s : State) : Answer :=
  match firstFailure (modeChecks (b.length == 6) s) with
  | some st => refuse st s
  | none =>
    match fieldFin 6 b 0 with
    | none => refuse .range s
    | some i =>
      checked
        [((s.duty.units[i]).state == .disabled, .state),
         (decide (1 ≤ field2 b 1) && decide (field2 b 1 ≤ 4000000) && decide (fieldW b 4 ≤ 3)
           && decide (fieldW b 5 ≤ 3), .range),
         (namesWritten s b 3, .range)]
        s (unitSetEffect b i s)

/-- The disable action taken, in every state of the unit (R130). R130 abandons a warm-up, hold or recovery interval, and says
no value of the phase timer after it: that DISABLED, which has no timed phase, holds it at 0 is the model's choice (log entry
49). -/
def disableUnit (i : Fin 6) (s : State) : Answer :=
  let u := s.duty.units[i]
  let s1 := if u.state == .disabled then s
    else gathered handInjection (putUnit i { u.uncounted with state := .disabled, phaseTimer := 0 } s)
  taken (out1 u.state.code) s1

/-- The enable action: taken when the unit is DISABLED and configured, else refused STATE (R131). The phase timer of COLD, which
has no timed phase, is held at 0 (log entry 49). -/
def enableUnit (i : Fin 6) (s : State) : Answer :=
  let u := s.duty.units[i]
  if u.state == .disabled && u.configured then
    let u1 := { u with state := .cold, phaseTimer := 0, attempts := 0, overload := 0, noRun := 0, tripCause := none }
    taken (out1 UnitState.cold.code) (gathered handInjection (putUnit i u1 s))
  else refuse .state s

/-- UNIT ENABLE with either action (R130, R131). -/
def reqUnitEnable (b : Block) (s : State) : Answer :=
  match firstFailure (modeChecks (b.length == 2) s) with
  | some st => refuse st s
  | none =>
    match fieldFin 6 b 0, fieldW b 1 with
    | some i, 0 => disableUnit i s
    | some i, 1 => enableUnit i s
    | _, _ => refuse .range s

/-- The indices a ROSTER SET block names. -/
def rosterField (b : Block) : List (Fin 6) := (List.range 6).filterMap (fun i => fieldFin 6 b i)

/-- ROSTER SET (R132). -/
def reqRosterSet (b : Block) (s : State) : Answer :=
  let l := rosterField b
  checked (modeChecks (b.length == 6) s
      ++ [(decide (l.length = 6) && (List.finRange 6).all (fun i => l.contains i), .range)])
    s (taken (l.flatMap (fun i => out1 i.val)) (s.setDuty { s.duty with roster := rosterOf l s.duty.roster }))

/-- The phase a unit's timer serves, as UNIT READ codes it (R136; log entry 11). That a unit in HOT or WARM without a running
timer, its hold setting being 0, serves none is the model's choice (log entry 53). -/
def phaseCode (u : CUnit) : Word :=
  match u.state with
  | .starting => Config.phaseWarmUpCode
  | .hot => if u.phaseTimer = 0 then Config.phaseNoneCode else Config.phaseHotHoldCode
  | .warm => if u.phaseTimer = 0 then Config.phaseNoneCode else Config.phaseWarmHoldCode
  | .tripped => Config.phaseRecoveryCode
  | _ => Config.phaseNoneCode

/-- The reply of UNIT READ (R136, section 8.4). -/
def unitReadReply (i : Fin 6) (s : State) : Block :=
  let u := s.duty.units[i]
  outFlag u.configured ++ out2 u.cfg.capacity ++ outCurve Config.noFuelCurve u.cfg.curve
  ++ out1 ((if u.cfg.keepEngine then 2 else 0) + (if u.cfg.keepAux then 1 else 0)) ++ out1 u.cfg.policy
  ++ out1 u.state.code ++ unitFlags u ++ out2 u.phaseTimer ++ [phaseCode u]
  ++ out2 u.runSeconds ++ out1 u.startTotal ++ out1 u.attempts ++ out1 (tripCode u.tripCause)
  ++ out1 u.startAges.length
  ++ (match u.startAges with
      | [] => [Config.noStampAge]
      | a :: _ => out1 a)
  ++ out2 u.loadedSeconds ++ out1 u.overload ++ out1 u.noRun ++ out1 u.feedback.code ++ out2 u.load
  ++ (if u.cfg.capacity = 0 then [Config.noLoadPermille]
      else if u.loadPermille < 65536 then out1 u.loadPermille else [Config.widePermille u.loadPermille])
  ++ s.duty.roster.toList.flatMap (fun j => out1 j.val)
  ++ out2 s.duty.dInj ++ out2 s.duty.k ++ out2 s.duty.declared ++ out2 s.duty.ready ++ out4 s.duty.fuel

/-- UNIT READ (R136). -/
def reqUnitRead (b : Block) (s : State) : Answer :=
  if b.length = 1 then
    match fieldFin 6 b 0 with
    | some i => taken (unitReadReply i s) s
    | none => refuse .range s
  else refuse .badLength s

/-! ### Meanings -/

/-- SCHEDULER_SECOND (R117). -/
def execSchedulerSecond (s : State) : Host.Outcome State Fault Refusal := .next (gathered schedulerSecond s)

/-- START_STAMP_AGED (R119): the second passes in which a unit's stamps reach an age of 3,600 s; they leave its list
(log entry 14). -/
def execStartStampAged (i : Fin 6) (s : State) : Host.Outcome State Fault Refusal :=
  let u := s.duty.units[i]
  .next (putUnit i { u with startAges := u.startAges.filter (fun a => decide (a + 1 < 3600)) } s)

/-- WARM_UP_EXPIRY (R120): the last second of a STARTING unit's warm-up passes (log entry 14). -/
def execWarmUpExpiry (i : Fin 6) (s : State) : Host.Outcome State Fault Refusal :=
  let u := s.duty.units[i]
  .next (if u.state = .starting ∧ u.phaseTimer ≤ 1 then gathered (endWarmUp i) s else s)

/-- HOT_HOLD_EXPIRY (R122): the last second of a running hot hold passes. A hold of 0 runs no timer (log entry
14). -/
def execHotHoldExpiry (i : Fin 6) (s : State) : Host.Outcome State Fault Refusal :=
  let u := s.duty.units[i]
  .next (if u.state = .hot ∧ u.phaseTimer = 1 then gathered (endHotHold i) s else s)

/-- WARM_HOLD_EXPIRY (R122): the last second of a running warm hold passes (log entry 14). -/
def execWarmHoldExpiry (i : Fin 6) (s : State) : Host.Outcome State Fault Refusal :=
  let u := s.duty.units[i]
  .next (if u.state = .warm ∧ u.phaseTimer = 1 then gathered (endWarmHold i) s else s)

/-- RECOVERY_INTERVAL_EXPIRY (R128): the last second of a TRIPPED unit's recovery interval passes (log entry 14). -/
def execRecoveryIntervalExpiry (i : Fin 6) (s : State) : Host.Outcome State Fault Refusal :=
  let u := s.duty.units[i]
  .next (if u.state = .tripped ∧ u.phaseTimer ≤ 1 then gathered (endRecovery i) s else s)

/-- ATTEMPTS_RESET (R128): a unit LOADED for 3,600 s has its attempts used returned to 0. -/
def execAttemptsReset (i : Fin 6) (s : State) : Host.Outcome State Fault Refusal :=
  let u := s.duty.units[i]
  .next (if u.state = .loaded ∧ 3600 ≤ u.loadedSeconds then putUnit i { u with attempts := 0 } s else s)

/-- UNIT_SET (R129). -/
def execUnitSet (b : Block) (s : State) : Host.Outcome State Fault Refusal := .next (serve 0x40 (reqUnitSet b) s)

/-- UNIT_DISABLE: the request UNIT ENABLE, whose action word 0 disables (R130; log entry 15). -/
def execUnitDisable (b : Block) (s : State) : Host.Outcome State Fault Refusal :=
  .next (serve 0x41 (reqUnitEnable b) s)

/-- UNIT_ENABLE: the request UNIT ENABLE, whose action word 1 enables (R131; log entry 15). -/
def execUnitEnable (b : Block) (s : State) : Host.Outcome State Fault Refusal :=
  .next (serve 0x41 (reqUnitEnable b) s)

/-- UNIT_READ (R136). -/
def execUnitRead (b : Block) (s : State) : Host.Outcome State Fault Refusal := .next (serve 0x42 (reqUnitRead b) s)

/-- ROSTER_SET (R132). -/
def execRosterSet (b : Block) (s : State) : Host.Outcome State Fault Refusal := .next (serve 0x43 (reqRosterSet b) s)

end Sys2Proof.Machine
end

