-- ==== Sys2Proof/Machine/Drying.lean ====
section
/-! DEFINITION. The drying supervisor (chapter 7): bed tests and swaps (R148, R149), regeneration (R150, R151), the
train part of a report (R145), the supervisor's second (R146), the train requests (R140, R156, R158) and the meanings
of their rows. -/

namespace Sys2Proof.Machine

/-! ### Beds -/

/-- The beds of a train: the lower-indexed one and its partner. -/
inductive Side where
  | lo
  | hi
  deriving DecidableEq, Repr

/-- Whether a bed is in HEATING or COOLING. -/
def Bed.regenerates (b : Bed) : Bool := b.state == .heating || b.state == .cooling

/-- The partner of a bed. -/
def Side.partner : Side → Side
  | .lo => .hi
  | .hi => .lo

/-- A train's bed. -/
def Train.bed (x : Train) : Side → Bed
  | .lo => x.lo
  | .hi => x.hi

/-- A train with one of its beds replaced. -/
def Train.setBed (x : Train) (i : Side) (b : Bed) : Train :=
  match i with
  | .lo => { x with lo := b }
  | .hi => { x with hi := b }

/-- The bed index of a train's bed: train A owns beds 0 and 1, train B beds 2 and 3 (section 7.1). -/
def bedIndex (t : Fin 2) : Side → Nat
  | .lo => 2 * t.val
  | .hi => 2 * t.val + 1

/-- The train and the side of a bed index. -/
def bedOwner (i : Fin 4) : Fin 2 × Side :=
  (⟨i.val / 2, by omega⟩, if i.val % 2 = 0 then .lo else .hi)

/-- The bed of a train that is ADSORBING, the lower-indexed one first; R138 allows one. -/
def Train.adsorbing (x : Train) : Option Side :=
  if x.lo.state = .adsorbing then some .lo else if x.hi.state = .adsorbing then some .hi else none

/-- The lowest-indexed READY bed of a train. -/
def Train.readyBed (x : Train) : Option Side :=
  if x.lo.state = .ready then some .lo else if x.hi.state = .ready then some .hi else none

/-- A train's bed capacity in load units: kilograms × 3,600,000,000 (section 7.1). -/
def Train.capUnits (x : Train) : Nat := x.bedCap * 3600000000

/-- The load permille of a bed: 1000 when the capacity is 0 (R148, R158). -/
def bedPermille (x : Train) (b : Bed) : Nat :=
  if x.capUnits = 0 then 1000 else b.load * 1000 / x.capUnits

/-! ### Swap and saturation (R148, R149, R151). `hand` is what re-forms the withdrawal capacity and hands it on: it is
`handWithdrawal`, but for the moves of a restart and an adoption, which hand the figure on once, at their end (R139). -/

/-- The bed `i` swaps with its READY partner (R148): the partner adsorbs, `i` heats, DEGRADED and swap-deferred
clear, the capacity is re-formed, the mask is loaded, and BED_SWAP is raised. -/
def swapBeds (hand : Hand) (t : Fin 2) (i : Side) (s : State) : State :=
  let x := s.dry.trains[t]
  let x1 := (x.setBed i { x.bed i with state := .heating, timer := x.cfg.heating }).setBed i.partner
    ⟨.adsorbing, 0, 0⟩
  let s1 := putTrain t { x1 with degraded := false, deferred := false } s
  let s2 := if x.degraded then hand s1 else s1
  raise .bedSwap (some t.val) (some (bedIndex t i.partner : Int)) (loadMask hand t s2)

/-- The READY bed `i` becomes the adsorbing bed of a train that has none (R151). -/
def takeUpBed (hand : Hand) (t : Fin 2) (i : Side) (s : State) : State :=
  let x := s.dry.trains[t]
  let s1 := putTrain t { x.setBed i ⟨.adsorbing, 0, 0⟩ with degraded := false } s
  let s2 := if x.degraded then hand s1 else s1
  raise .bedSwap (some t.val) (some (bedIndex t i : Int)) (loadMask hand t s2)

/-- A train that is not OUT and has no ADSORBING bed takes its lowest-indexed READY bed (R151). -/
def takeUp (hand : Hand) (t : Fin 2) (s : State) : State :=
  let x := s.dry.trains[t]
  if x.state == .out then s
  else
    match x.adsorbing, x.readyBed with
    | none, some i => takeUpBed hand t i s
    | _, _ => s

/-- The swap-deferred flag set by a test that finds the swap deferred, with one event per deferral (R148). -/
def deferSwap (t : Fin 2) (i : Side) (s : State) : State :=
  let x := s.dry.trains[t]
  if x.deferred then s
  else raise .bedSwapDeferred (some t.val) (some (bedPermille x (x.bed i) : Int))
    (putTrain t { x with deferred := true } s)

/-- The degraded contribution of a train (R149). -/
def Train.degradedContribution (x : Train) : Nat := x.cfg.nominal * x.cfg.degradedFactor / 1000

/-- The saturation test of the ADSORBING bed `i` (R149): DEGRADED is set with TRAIN_DEGRADED, or cleared without an
event when the bed is no longer saturated. -/
def testSaturation (hand : Hand) (t : Fin 2) (i : Side) (s : State) : State :=
  let x := s.dry.trains[t]
  let saturated := decide (x.capUnits ≤ (x.bed i).load)
  if saturated && !x.degraded then
    hand (raise .trainDegraded (some t.val) (some (x.degradedContribution : Int))
      (putTrain t { x with degraded := true } s))
  else if !saturated && x.degraded then hand (putTrain t { x with degraded := false } s)
  else s

/-- Whether a bed has reached its train's swap point, formed exactly (R148). -/
def reachedSwap (x : Train) (b : Bed) : Bool := decide (x.capUnits * x.cfg.swapPoint ≤ b.load * 1000)

/-- A test of the ADSORBING bed against the swap point and against saturation (R148, R149). A swap ends the test:
the bed then adsorbing is new. -/
def bedTest (hand : Hand) (t : Fin 2) (s : State) : State :=
  let x := s.dry.trains[t]
  match x.adsorbing with
  | none => s
  | some i =>
    if reachedSwap x (x.bed i) then
      if (x.bed i.partner).state = .ready then swapBeds hand t i s
      else testSaturation hand t i (deferSwap t i s)
    else testSaturation hand t i (putTrain t { x with deferred := false } s)

/-! ### Regeneration (R150) -/

/-- The HEATING of bed `i` ends: COOLING with the train's cooling time. -/
def endHeating (t : Fin 2) (i : Side) (s : State) : State :=
  let x := s.dry.trains[t]
  putTrain t (x.setBed i { x.bed i with state := .cooling, timer := x.cfg.cooling }) s

/-- The COOLING of bed `i` ends: READY with load 0; its partner is tested against its swap point, and a train that
has no ADSORBING bed takes one (R150, R151). -/
def endCooling (t : Fin 2) (i : Side) (s : State) : State :=
  let x := s.dry.trains[t]
  takeUp handWithdrawal t (bedTest handWithdrawal t (putTrain t (x.setBed i Bed.fresh) s))

/-! ### The train part of a report (R145) -/

/-- A figure clamped to a range. -/
def clampInt (lo hi x : Int) : Int := max lo (min hi x)

/-- The values a train takes from a report, each clamped to its range (R145). -/
def Train.takeReport (x : Train) (water temp dew : Int) : Train :=
  { x with water := (clampInt 0 2000 water).toNat, temp := clampInt (-400) 800 temp, dew := clampInt (-600) 400 dew }

/-- The bed capacity formed from the capacity curve at the held temperature; an unconfigured train's is 0 (R145). -/
def formBedCap (s : State) (x : Train) : Train :=
  { x with bedCap := match x.cfg.curve with
      | none => 0
      | some c => if x.configured then evalCurve s.curves[c] x.temp else 0 }

/-- One train's part of a report: the values taken, the bed capacity formed anew, the bed tests, and the
assessment of the dew point (R145). -/
def reportTrain (t : Fin 2) (water temp dew : Int) (s : State) : State :=
  let x := (s.dry.trains[t]).takeReport water temp dew
  assess handWithdrawal t (bedTest handWithdrawal t (putTrain t (formBedCap s x) s))

/-- The train part of a STATION REPORT block: words 24 to 29 (section 8.5). Train B is tested and assessed as the report
found it (R145): where what was done for train A changed the direction, the change is delivered to train B after its own
part (log entry 42). -/
def reportTrains (b : Block) (s : State) : State :=
  let partB := reportTrain 1 (fieldI b 27) (fieldI b 28) (fieldI b 29)
  let s1 := reportTrain 0 (fieldI b 24) (fieldI b 25) (fieldI b 26) s
  let found := { s.dry.trains[1] with share := (s1.dry.trains[1]).share }
  if s1.dry.trains[1] = found then partB s1
  else followDirection handWithdrawal (sendStandby 1 (partB (putTrain 1 found s1)))

/-! ### The supervisor's second (R146) -/

/-- The regeneration gas a train adds in a second: its rate for each HEATING bed. -/
def Train.regeneration (x : Train) : Nat :=
  (if x.lo.state = .heating then x.cfg.regenRate else 0) + (if x.hi.state = .heating then x.cfg.regenRate else 0)

/-- Step 1: regeneration accrual. -/
def accrueGas (s : State) : State :=
  s.setDry { s.dry with gas := s.dry.gas + (s.dry.trains.toList.map Train.regeneration).sum }

/-- The load of an ADSORBING bed after a second: it gains share × water, and stops at the capacity; a bed at or
above its capacity gains nothing (R147). -/
def loadedBed (x : Train) (b : Bed) : Bed :=
  if b.state = .adsorbing ∧ b.load < x.capUnits then { b with load := min (b.load + x.share * x.water) x.capUnits }
  else b

/-- Step 2: loading. -/
def loadBeds (s : State) : State :=
  s.setDry { s.dry with trains := mapVec (fun x => { x with lo := loadedBed x x.lo, hi := loadedBed x x.hi }) s.dry.trains }

/-- Step 3 for one bed: a phase timer falls by one, and at 0 its phase ends. -/
def bedTimer (t : Fin 2) (i : Side) (s : State) : State :=
  let x := s.dry.trains[t]
  let b := x.bed i
  match b.state with
  | .heating => if b.timer ≤ 1 then endHeating t i s else putTrain t (x.setBed i { b with timer := b.timer - 1 }) s
  | .cooling => if b.timer ≤ 1 then endCooling t i s else putTrain t (x.setBed i { b with timer := b.timer - 1 }) s
  | _ => s

/-- Step 3 for the beds that are HEATING or COOLING as it begins, in index order. A bed that another bed's end sets heating
in this step keeps its full time (R150). -/
def bedTimers (s : State) : State :=
  [((0 : Fin 2), Side.lo), (0, .hi), (1, .lo), (1, .hi)].foldl
    (fun t p => if ((s.dry.trains[p.1]).bed p.2).regenerates then bedTimer p.1 p.2 t else t) s

/-- The mask timer's last second passes: in ONLINE or OFF_SPEC the held dew point is assessed at once (R152). -/
def endMask (t : Fin 2) (s : State) : State :=
  let x := s.dry.trains[t]
  assess handWithdrawal t (putTrain t { x with mask := 0 } s)

/-- Step 5, the mask timer of one train. -/
def maskTimer (t : Fin 2) (s : State) : State :=
  let x := s.dry.trains[t]
  if x.mask = 0 then s
  else if x.mask = 1 then endMask t s
  else putTrain t { x with mask := x.mask - 1 } s

/-- Step 5, the excursion timer of one train. -/
def excursionTimer (t : Fin 2) (s : State) : State :=
  let x := s.dry.trains[t]
  match x.excursion with
  | none => s
  | some n => if n ≤ 1 then takeExcursion handWithdrawal t s else putTrain t { x with excursion := some (n - 1) } s

/-- Step 5, the recovery timer of one train. -/
def recoveryTimer (t : Fin 2) (s : State) : State :=
  let x := s.dry.trains[t]
  match x.recovery with
  | none => s
  | some n => if n ≤ 1 then takeRecovery handWithdrawal t s else putTrain t { x with recovery := some (n - 1) } s

/-- Something done for train A, then for train B; the order is the model's (log entry 37). -/
def bothTrains (f : Fin 2 → State → State) (s : State) : State := f 1 (f 0 s)

/-- The supervisor's second (R146). -/
def dryingSecond (s : State) : State :=
  bothTrains recoveryTimer (bothTrains excursionTimer (bothTrains maskTimer
    (bothTrains (bedTest handWithdrawal) (bedTimers (loadBeds (accrueGas s))))))

/-! ### The train requests -/

/-- Whether every setting of a train but its nominal capacity, its curve and its heating and cooling times lies in its
range (section 7.1). -/
def trainSettingsInRange (c : TrainCfg) : Bool :=
  decide (c.degradedFactor ≤ 1000) && decide (500 ≤ c.swapPoint) && decide (c.swapPoint ≤ 1000)
  && decide (c.regenRate ≤ 200000) && decide (c.recycleRate ≤ 2000000)
  && decide (-600 ≤ c.spec) && decide (c.spec ≤ 400) && decide (-600 ≤ c.warn) && decide (c.warn ≤ 399)
  && decide (c.excursionDelay ≤ 3600) && decide (c.recoveryDelay ≤ 3600)
  && (c.maskChoice == 0 || c.maskChoice == 60 || c.maskChoice == 180 || c.maskChoice == 600)

/-- The range of the heating time (section 7.1). -/
def heatingInRange (n : Nat) : Bool := decide (600 ≤ n) && decide (n ≤ 43200)

/-- The range of the cooling time (section 7.1). -/
def coolingInRange (n : Nat) : Bool := decide (600 ≤ n) && decide (n ≤ 21600)

/-- Whether every setting of a TRAIN SET block lies in its range (section 7.1, R156). -/
def trainCfgInRange (c : TrainCfg) : Bool :=
  decide (1 ≤ c.nominal) && decide (c.nominal ≤ 8000000) && heatingInRange c.heating && coolingInRange c.cooling
  && trainSettingsInRange c

/-- TRAIN SET taken: the configuration is replaced whole, the bed capacity formed at once, and the adsorbing bed
tested (R156). -/
def trainSetEffect (b : Block) (t : Fin 2) (s : State) : Answer :=
  let x := s.dry.trains[t]
  let x1 := formBedCap s { x with configured := true, cfg := trainCfgOf b 1 }
  let s1 := gathered (bedTest handWithdrawal t) (putTrain t x1 s)
  taken (out1 t.val ++ out1 (s1.dry.trains[t]).state.code ++ out1 (s1.dry.trains[t]).bedCap) s1

/-- TRAIN SET (R156). -/
def reqTrainSet (b : Block) (s : State) : Answer :=
  match firstFailure (modeChecks (b.length == 17) s) with
  | some st => refuse st s
  | none =>
    match fieldFin 2 b 0 with
    | none => refuse .range s
    | some t =>
      let c := trainCfgOf b 1
      checked
        [((s.dry.trains[t]).state == .out, .state), (trainCfgInRange c, .range), (decide (c.warn < c.spec), .range),
         (namesWritten s b 4, .range)]
        s (trainSetEffect b t s)

/-- TRAIN SERVICE, out: the train enters OUT in every state (R140). -/
def serviceOut (t : Fin 2) (s : State) : Answer :=
  let x := s.dry.trains[t]
  if x.state == .out then taken (out1 TrainState.out.code) s
  else
    let x1 := { x with state := .out, service := false, share := 0, excursion := none, recovery := none }
    taken (out1 TrainState.out.code) (gathered handWithdrawal (putTrain t x1 s))

/-- A train that enters STANDBY from OUT takes up a bed, follows the direction, and counts in the capacity (R140, R141,
R142, R151). -/
def enterService (t : Fin 2) (s : State) : State :=
  let s1 := takeUp handWithdrawal t s
  handWithdrawal (bringOnline handWithdrawal t s1)

/-- TRAIN SERVICE, in: taken when the train is OUT and configured, else refused STATE (R140). -/
def serviceIn (t : Fin 2) (s : State) : Answer :=
  let x := s.dry.trains[t]
  if x.state == .out && x.configured then
    let s1 := gathered (enterService t) (putTrain t { x with state := .standby, service := true } s)
    taken (out1 (s1.dry.trains[t]).state.code) s1
  else refuse .state s

/-- TRAIN SERVICE with either action (R140). -/
def reqTrainService (b : Block) (s : State) : Answer :=
  match firstFailure (modeChecks (b.length == 2) s) with
  | some st => refuse st s
  | none =>
    match fieldFin 2 b 0, fieldW b 1 with
    | some t, 0 => serviceOut t s
    | some t, 1 => serviceIn t s
    | _, _ => refuse .range s

/-- The load permille of a bed as TRAIN READ gives it (R148, R158; log entry 12 where it does not fit its word). -/
def outBedPermille (x : Train) (b : Bed) : Block :=
  if bedPermille x b < 65536 then out1 (bedPermille x b) else [Config.widePermille (bedPermille x b)]

/-- A bed in the reply of TRAIN READ. Section 7.1 gives the phase timer in HEATING and COOLING only: in READY and ADSORBING it
is held and answered as 0, the model's choice (log entry 47). -/
def outBed (x : Train) (b : Bed) : Block :=
  out1 b.state.code ++ out4 b.load ++ outBedPermille x b ++ out1 b.timer

/-- The reply of TRAIN READ (R158, section 8.4). -/
def trainReadReply (t : Fin 2) (s : State) : Block :=
  let x := s.dry.trains[t]
  let a := s.dry.trains[0]
  let b := s.dry.trains[1]
  outFlag x.configured ++ outTrainCfg Config.noCapacityCurve x.cfg ++ out1 x.state.code ++ trainFlags x
  ++ out1 x.water ++ outI x.temp ++ outI x.dew ++ out1 x.bedCap ++ out2 x.share
  ++ outTimer x.excursion ++ outTimer x.recovery ++ out1 x.mask ++ outBed x x.lo ++ outBed x x.hi
  ++ out2 s.dry.capacity ++ out2 a.contribution ++ out2 b.contribution ++ out2 a.share ++ out2 b.share
  ++ out4 s.dry.gas

/-- TRAIN READ (R158). -/
def reqTrainRead (b : Block) (s : State) : Answer :=
  if b.length = 1 then
    match fieldFin 2 b 0 with
    | some t => taken (trainReadReply t s) s
    | none => refuse .range s
  else refuse .badLength s

/-! ### Meanings -/

/-- DRYING_SECOND (R146). -/
def execDryingSecond (s : State) : Host.Outcome State Fault Refusal := .next (gathered dryingSecond s)

/-- HEATING_END (R150): the last second of a HEATING bed's phase passes (log entry 14). -/
def execHeatingEnd (i : Fin 4) (s : State) : Host.Outcome State Fault Refusal :=
  let o := bedOwner i
  let b := (s.dry.trains[o.1]).bed o.2
  .next (if b.state = .heating ∧ b.timer ≤ 1 then endHeating o.1 o.2 s else s)

/-- COOLING_END (R150): the last second of a COOLING bed's phase passes (log entry 14). -/
def execCoolingEnd (i : Fin 4) (s : State) : Host.Outcome State Fault Refusal :=
  let o := bedOwner i
  let b := (s.dry.trains[o.1]).bed o.2
  .next (if b.state = .cooling ∧ b.timer ≤ 1 then gathered (endCooling o.1 o.2) s else s)

/-- MASK_EXPIRY (R152): the last second of a running mask timer passes (log entry 14). -/
def execMaskExpiry (t : Fin 2) (s : State) : Host.Outcome State Fault Refusal :=
  .next (if (s.dry.trains[t]).mask = 1 then gathered (endMask t) s else s)

/-- Whether a running dew-point timer is in its last second. -/
def lastSecond : Option Nat → Bool
  | none => false
  | some n => decide (n ≤ 1)

/-- OFF_SPEC (R153): the last second of an ONLINE train's running excursion timer passes (log entry 14). -/
def execOffSpec (t : Fin 2) (s : State) : Host.Outcome State Fault Refusal :=
  let x := s.dry.trains[t]
  .next (if x.state = .online ∧ lastSecond x.excursion then gathered (takeExcursion handWithdrawal t) s else s)

/-- ON_SPEC (R155): the last second of an OFF_SPEC train's running recovery timer passes (log entry 14). -/
def execOnSpec (t : Fin 2) (s : State) : Host.Outcome State Fault Refusal :=
  let x := s.dry.trains[t]
  .next (if x.state = .offSpec ∧ lastSecond x.recovery then gathered (takeRecovery handWithdrawal t) s else s)

/-- TRAIN_SET (R156). -/
def execTrainSet (b : Block) (s : State) : Host.Outcome State Fault Refusal := .next (serve 0x48 (reqTrainSet b) s)

/-- TRAIN_SERVICE_OUT: the request TRAIN SERVICE, whose action word 0 takes the train out (R140; log entry 15). -/
def execTrainServiceOut (b : Block) (s : State) : Host.Outcome State Fault Refusal :=
  .next (serve 0x49 (reqTrainService b) s)

/-- TRAIN_SERVICE_IN: the request TRAIN SERVICE, whose action word 1 brings the train in (R140; log entry 15). -/
def execTrainServiceIn (b : Block) (s : State) : Host.Outcome State Fault Refusal :=
  .next (serve 0x49 (reqTrainService b) s)

/-- TRAIN_READ (R158). -/
def execTrainRead (b : Block) (s : State) : Host.Outcome State Fault Refusal := .next (serve 0x4A (reqTrainRead b) s)

end Sys2Proof.Machine
end

