-- ==== Sys2Proof/Machine/Accounts.lean ====
section
/-! DEFINITION. The account table (chapter 2): the SBA and its alert (R37, R38), hourly limits (R31, R32), the account
requests (R23 to R30), transfers (R33, R34), slot release (R35), SBA READ (R40), and the meanings of their rows. -/

namespace Sys2Proof.Machine

/-! ### Slots -/

/-- A slot replaced. -/
def putSlot (i : Fin 24) (a : Option Account) (s : State) : State :=
  s.setAcct { s.acct with slots := setVec s.acct.slots i a }

/-- Whether a slot holds a record of a shipper. -/
def slotHolds (id : Nat) (o : Option Account) : Bool :=
  match o with
  | none => false
  | some a => a.shipper == id

/-- The slot other than EMPTY that holds a shipper id (R23). -/
def findSlot (id : Nat) (s : State) : Option (Fin 24) :=
  (List.finRange 24).find? (fun i => slotHolds id s.acct.slots[i])

/-- The slot and the record of a shipper id. -/
def findShipper (id : Nat) (s : State) : Option (Fin 24 × Account) :=
  match findSlot id s with
  | none => none
  | some i =>
    match s.acct.slots[i] with
    | none => none
    | some a => some (i, a)

/-- The lowest-indexed EMPTY slot (R24). -/
def emptySlot (s : State) : Option (Fin 24) := (List.finRange 24).find? (fun i => (s.acct.slots[i]).isNone)

/-- The sum of all shipper inventories (R39, R40). -/
def inventorySum (slots : Vector (Option Account) 24) : Int :=
  (slots.toList.map (fun o => match o with
    | none => 0
    | some a => a.inventory)).sum

/-! ### The SBA -/

/-- The alert compared with the SBA (R38). -/
def evaluateAlert (s : State) : State :=
  if (s.site.alertLimit : Int) < s.acct.sba.natAbs then
    match s.acct.alert with
    | .armed => raise .sbaLimit none (some s.acct.sba) (s.setAcct { s.acct with alert := .raised })
    | .raised => s
  else s.setAcct { s.acct with alert := .armed }

/-- The SBA changed by `d`, exactly, and the alert evaluated (R37, R38). -/
def addToSba (d : Int) (s : State) : State := evaluateAlert (s.setAcct { s.acct with sba := s.acct.sba + d })

/-! ### Hourly limits -/

/-- The projected inventory of a slot for hour `h`: its inventory and its schedule records from the current hour to
the hour before `h` (R31). -/
def projected (s : State) (i : Fin 24) (a : Account) (h : Nat) : Int :=
  a.inventory + netOf (s.sched.filter (fun r => decide (r.slot = i) && decide (s.clock.hour ≤ r.hour) && decide (r.hour < h)))

/-- The fill fraction: floor(max(P, 0) × 1000 / space right), capped at 1000 (R32). -/
def fillFraction (p : Int) (space : Nat) : Nat := min (p.toNat * 1000 / space) 1000

/-- A ratchet value: the curve at the fill fraction, capped at 1000; 1000 when the curve id is absent (R32). -/
def ratchet (s : State) (c : Option (Fin 16)) (fill : Nat) : Nat :=
  match c with
  | none => 1000
  | some i => min (evalCurve s.curves[i] fill) 1000

/-- The two terms of an hourly limit: the room term and the rate term (R55). -/
structure Limit where
  room : Nat
  rate : Nat
  deriving DecidableEq, Repr

/-- The limit: the smaller of the two terms (R32). -/
def Limit.value (l : Limit) : Nat := min l.room l.rate

/-- The hourly limit of a slot in a direction for hour `h` (R32). Of an EMPTY slot the manual states none (log
entry 10). -/
def hourlyLimit (s : State) (i : Fin 24) (h : Nat) (d : Direction) : Limit :=
  match s.acct.slots[i] with
  | none => ⟨Config.emptySlotRoom i.val h (d == .withdraw), Config.emptySlotRate i.val h (d == .withdraw)⟩
  | some a =>
    let p := projected s i a h
    let fill := fillFraction p a.spaceRight
    match d with
    | .withdraw => ⟨p.toNat, a.wdrRight * ratchet s a.wdrCurve fill / 1000⟩
    | .inject => ⟨((a.spaceRight : Int) - p).toNat, a.injRight * ratchet s a.injCurve fill / 1000⟩

/-! ### The statistics' filtered count (R65, R67); the book's own operations stand in Machine/Book.lean -/

/-- Whether an id passes the statistics filter (R65). -/
def passes (s : State) (id : Nat) : Bool := s.book.stats.filter == 0 || s.book.stats.filter == id

/-- The filtered count: the entries that pass the filter (R65). -/
def filteredCount (s : State) : Nat := (s.book.entries.filter (fun e => passes s e.shipper)).length

/-- A change of the filtered count from `before` noted: a rise to the threshold and the high-water mark (R67). A count
that is as it was is no change, and leaves the mark as a clear left it. -/
def noteCount (before : Nat) (s : State) : State :=
  let st := s.book.stats
  let now := filteredCount s
  s.setBook { s.book with stats := { st with
    rises := if before < st.threshold ∧ st.threshold ≤ now then satSucc 65535 st.rises else st.rises
    high := if now = before then st.high else max st.high now } }

/-- The entries of the book replaced, and the change of the filtered count noted. -/
def setEntries (es : List Entry) (s : State) : State :=
  noteCount (filteredCount s) (s.setBook { s.book with entries := es })

/-! ### Opening and amending (R24, R25) -/

/-- Whether a curve field is absent or names a written curve of 0 to 15 (R24). -/
def ratchetFieldOk (s : State) (f : CurveField) : Bool :=
  match f with
  | .absent => true
  | .curve i => curveWritten s i
  | .bad => false

/-- The ranges of space right, rights and curve ids (R24). -/
def rightsOk (b : Block) (s : State) : Bool :=
  decide (1 ≤ field3 b 1) && decide (field3 b 1 ≤ 999999999999)
  && decide (field2 b 4 ≤ 16000000) && decide (field2 b 6 ≤ 16000000)
  && ratchetFieldOk s (fieldCurve b 8) && ratchetFieldOk s (fieldCurve b 9)

/-- The record an ACCOUNT OPEN block describes (R24). -/
def openedRecord (b : Block) : Account where
  shipper := fieldW b 0
  state := .opened
  inventory := 0
  spaceRight := field3 b 1
  injRight := field2 b 4
  wdrRight := field2 b 6
  injCurve := (fieldCurve b 8).id
  wdrCurve := (fieldCurve b 9).id
  emptyClamp := false
  fullClamp := false

/-- ACCOUNT OPEN (R24). -/
def reqAccountOpen (b : Block) (s : State) : Answer :=
  match firstFailure (settledChecks (b.length == 10) s
      ++ [(decide (1 ≤ fieldW b 0) && decide (fieldW b 0 ≤ 65534) && rightsOk b s, .range),
          ((findSlot (fieldW b 0) s).isNone, .state)]) with
  | some st => refuse st s
  | none =>
    match emptySlot s with
    | none => refuse .noRoom s
    | some i => taken (out1 i.val) (putSlot i (some (openedRecord b)) s)

/-- A record with the space right, rights and curves of an ACCOUNT AMEND block (R25). -/
def Account.amended (a : Account) (b : Block) : Account :=
  { a with
    spaceRight := field3 b 1
    injRight := field2 b 4
    wdrRight := field2 b 6
    injCurve := (fieldCurve b 8).id
    wdrCurve := (fieldCurve b 9).id }

/-- Whether a record is OPEN or SUSPENDED. -/
def Account.trades (a : Account) : Bool := a.state == .opened || a.state == .suspended

/-- ACCOUNT AMEND (R25). -/
def reqAccountAmend (b : Block) (s : State) : Answer :=
  match firstFailure (settledChecks (b.length == 10) s) with
  | some st => refuse st s
  | none =>
    match findShipper (fieldW b 0) s with
    | none => refuse .unknownShipper s
    | some (i, a) =>
      checked [(a.trades, .state), (rightsOk b s, .range), (decide (a.inventory ≤ (field3 b 1 : Int)), .range)] s
        (taken (out1 i.val) (putSlot i (some (a.amended b)) s))

/-! ### Suspending, resuming, closing (R26, R27) -/

/-- The code of a record's state in a reply (log entry 11). -/
def accountStateCode : AccountState → Word
  | .opened => Config.slotOpenCode
  | .suspended => Config.slotSuspendedCode
  | .closing => Config.slotClosingCode

/-- A record moved from the state an action leaves to the one it enters (R26). -/
def moveAccount (i : Fin 24) (a : Account) (source target : AccountState) (s : State) : Answer :=
  if a.state = source then taken [accountStateCode target] (putSlot i (some { a with state := target }) s)
  else refuse .state s

/-- ACCOUNT SUSPEND with either action (R26). -/
def reqAccountSuspend (b : Block) (s : State) : Answer :=
  match firstFailure (settledChecks (b.length == 2) s) with
  | some st => refuse st s
  | none =>
    match findShipper (fieldW b 0) s with
    | none => refuse .unknownShipper s
    | some (i, a) =>
      match fieldW b 1 with
      | 0 => moveAccount i a .opened .suspended s
      | 1 => moveAccount i a .suspended .opened s
      | _ => refuse .range s

/-- The number of a slot's schedule records for hours later than the current hour (R27, R30). While the clock is UNSET, when
R1 holds the current hour at 0 and R60 says that there is none, the hours above 0 count: the model's choice (log entry 43). -/
def laterRecords (s : State) (i : Fin 24) : Nat :=
  (s.sched.filter (fun r => decide (r.slot = i) && decide (s.clock.hour < r.hour))).length

/-- ACCOUNT CLOSE (R27): the record becomes CLOSING and the shipper's book entries are removed, uncounted. An entry carries
a slot and a shipper id, and no rule of R180 asks that the id be the one its slot holds. That "every entry of the shipper" is
every entry of the shipper's slot, whatever id it carries, is the model's choice (log entry 54). -/
def reqAccountClose (b : Block) (s : State) : Answer :=
  match firstFailure (settledChecks (b.length == 1) s ++ [(!clockIsUnset s, .clockUnset)]) with
  | some st => refuse st s
  | none =>
    match findShipper (fieldW b 0) s with
    | none => refuse .unknownShipper s
    | some (i, a) =>
      checked [(a.trades, .state), (a.inventory == 0, .state), (laterRecords s i == 0, .state)] s
        (taken (out1 i.val) (setEntries (s.book.entries.filter (fun e => !decide (e.slot = i)))
          (putSlot i (some { a with state := .closing }) s)))

/-! ### Adjusting and reading (R28 to R30, R40) -/

/-- ACCOUNT ADJUST (R28). -/
def reqAccountAdjust (b : Block) (s : State) : Answer :=
  match firstFailure (settledChecks (b.length == 4) s) with
  | some st => refuse st s
  | none =>
    match findShipper (fieldW b 0) s with
    | none => refuse .unknownShipper s
    | some (i, a) =>
      let q := fieldI3 b 1
      let s1 := addToSba (-q) (putSlot i (some { a with inventory := a.inventory + q }) s)
      checked
        [(a.trades, .state), (decide (q.natAbs ≤ 999999999999), .range),
         (decide (0 ≤ a.inventory + q) && decide (a.inventory + q ≤ a.spaceRight), .range),
         (decide ((s.acct.sba - q).natAbs ≤ 1000000000000000), .range)]
        s (taken (outI3 (a.inventory + q) ++ outI4 (s.acct.sba - q)) s1)

/-- The reply of ACCOUNT READ for a slot that holds a record (R30). -/
def accountReadReply (i : Fin 24) (a : Account) (s : State) : Block :=
  [accountStateCode a.state] ++ out1 a.shipper ++ outI3 a.inventory ++ out3 a.spaceRight ++ out2 a.injRight
  ++ out2 a.wdrRight ++ outRatchet a.injCurve ++ outRatchet a.wdrCurve ++ outFlags [a.emptyClamp, a.fullClamp]
  ++ out1 (laterRecords s i) ++ out1 (s.book.entries.filter (fun e => decide (e.slot = i))).length

/-- ACCOUNT READ (R30): the reply, and both clamp flags cleared (R29). An EMPTY slot reads state EMPTY and zeros. -/
def reqAccountRead (b : Block) (s : State) : Answer :=
  match firstFailure [(b.length == 1, .badLength), (!settling s, .busy)] with
  | some st => refuse st s
  | none =>
    match fieldFin 24 b 0 with
    | none => refuse .range s
    | some i =>
      match s.acct.slots[i] with
      | none => taken (Config.slotEmptyCode :: List.replicate 16 0) s
      | some a => taken (accountReadReply i a s) (putSlot i (some { a with emptyClamp := false, fullClamp := false }) s)

/-- The alert state in the reply of SBA READ (log entry 11). -/
def alertCode : Alert → Word
  | .armed => Config.alertArmedCode
  | .raised => Config.alertRaisedCode

/-- The reply of SBA READ (R40, section 8.4). -/
def sbaReadReply (s : State) : Block :=
  outI4 s.acct.sba ++ out3 s.site.alertLimit ++ [alertCode s.acct.alert] ++ outI4 s.acct.opening
  ++ outI4 s.acct.booked ++ outI4 s.acct.charged ++ outI4 (inventorySum s.acct.slots)
  ++ out1 s.acct.transfers.length ++ out2 s.acct.nextTransfer.toNat

/-- SBA READ (R40). -/
def reqSbaRead (b : Block) (s : State) : Answer :=
  checked [(b.length == 0, .badLength), (!settling s, .busy)] s (taken (sbaReadReply s) s)

/-! ### Transfers (R33, R34) -/

/-- Whether a shipper id's record is not CLOSING. -/
def notClosing (id : Nat) (s : State) : Bool :=
  match findShipper id s with
  | none => false
  | some (_, a) => a.state != .closing

/-- TRANSFER (R33). -/
def reqTransfer (b : Block) (s : State) : Answer :=
  let src := fieldW b 0
  let dst := fieldW b 1
  let q := field3 b 2
  let n := s.acct.nextTransfer
  checked (settledChecks (b.length == 5) s
      ++ [(decide (1 ≤ q) && decide (q ≤ 999999999999) && decide (src ≠ dst), .range),
          ((findShipper src s).isSome && (findShipper dst s).isSome, .unknownShipper),
          (notClosing src s && notClosing dst s, .state),
          (decide (s.acct.transfers.length < 16), .noRoom)])
    s (taken (out2 n.toNat ++ out1 (s.acct.transfers.length + 1))
      (s.setAcct { s.acct with transfers := s.acct.transfers ++ [⟨n, src, dst, q⟩], nextTransfer := n + 1 }))

/-- A transfer dropped with its reason code; the subject is the source slot, or none (R34). -/
def failTransfer (t : Transfer) (code : Nat) (s : State) : State :=
  raise .transferFailed ((findSlot t.source s).map (·.val)) (some (code : Int)) s

/-- A quantity added to the inventory of a slot that holds a record. -/
def addInventory (i : Fin 24) (d : Int) (s : State) : State :=
  match s.acct.slots[i] with
  | none => s
  | some a => putSlot i (some { a with inventory := a.inventory + d }) s

/-- One transfer executed or dropped whole (R34). -/
def executeTransfer (t : Transfer) (s : State) : State :=
  match findShipper t.source s, findShipper t.destination s with
  | some (i, a), some (j, c) =>
    if a.state == .closing || c.state == .closing then failTransfer t 2 s
    else if a.inventory < t.quantity then failTransfer t 3 s
    else if (c.spaceRight : Int) - c.inventory < t.quantity then failTransfer t 4 s
    else
      raise .transferDone (some i.val) (some (t.quantity : Int))
        (addInventory j t.quantity (addInventory i (-(t.quantity : Int)) s))
  | _, _ => failTransfer t 1 s

/-- The pending transfers executed one at a time in list order; the list is empty at the end (R34). -/
def executeTransfers (s : State) : State :=
  (s.acct.transfers.foldl (fun u t => executeTransfer t u) s).setAcct
    { (s.acct.transfers.foldl (fun u t => executeTransfer t u) s).acct with transfers := [] }

/-! ### Slot release (R35) -/

/-- A slot released, where it is CLOSING: its inventory moves to the SBA, SLOT_RELEASED is raised, the slot becomes
EMPTY and its last-allocation record absent, and the alert is evaluated (R35, R38). -/
def releaseSlot (i : Fin 24) (s : State) : State :=
  match s.acct.slots[i] with
  | none => s
  | some a =>
    if a.state = .closing then
      let s1 := putSlot i none s
      let s2 := s1.setSettle { s1.settle with alloc := setVec s1.settle.alloc i none }
      addToSba a.inventory (raise .slotReleased (some i.val) (some a.inventory) s2)
    else s

/-- Every CLOSING slot released, in ascending slot index (R35). -/
def releaseSlots (s : State) : State := (List.finRange 24).foldl (fun t i => releaseSlot i t) s

/-- The account table's work for a settlement completion, as one step (R36). -/
def accountStep (s : State) : State := releaseSlots (executeTransfers s)

/-! ### Meanings -/

/-- ACCOUNT_OPEN (R24). -/
def execAccountOpen (b : Block) (s : State) : Host.Outcome State Fault Refusal := .next (serve 0x20 (reqAccountOpen b) s)

/-- ACCOUNT_AMEND (R25). -/
def execAccountAmend (b : Block) (s : State) : Host.Outcome State Fault Refusal :=
  .next (serve 0x21 (reqAccountAmend b) s)

/-- ACCOUNT_SUSPEND: the request ACCOUNT SUSPEND, whose action word 0 suspends (R26; log entry 15). -/
def execAccountSuspend (b : Block) (s : State) : Host.Outcome State Fault Refusal :=
  .next (serve 0x22 (reqAccountSuspend b) s)

/-- ACCOUNT_RESUME: the request ACCOUNT SUSPEND, whose action word 1 resumes (R26; log entry 15). -/
def execAccountResume (b : Block) (s : State) : Host.Outcome State Fault Refusal :=
  .next (serve 0x22 (reqAccountSuspend b) s)

/-- ACCOUNT_CLOSE (R27). -/
def execAccountClose (b : Block) (s : State) : Host.Outcome State Fault Refusal :=
  .next (serve 0x23 (reqAccountClose b) s)

/-- ACCOUNT_READ (R30). -/
def execAccountRead (b : Block) (s : State) : Host.Outcome State Fault Refusal := .next (serve 0x24 (reqAccountRead b) s)

/-- ACCOUNT_ADJUST (R28). -/
def execAccountAdjust (b : Block) (s : State) : Host.Outcome State Fault Refusal :=
  .next (serve 0x25 (reqAccountAdjust b) s)

/-- TRANSFER (R33). -/
def execTransfer (b : Block) (s : State) : Host.Outcome State Fault Refusal := .next (serve 0x26 (reqTransfer b) s)

/-- SBA_READ (R40). -/
def execSbaRead (b : Block) (s : State) : Host.Outcome State Fault Refusal := .next (serve 0x27 (reqSbaRead b) s)

end Sys2Proof.Machine
end

