-- ==== Sys2Proof/Machine/Book.lean ====
section
/-! DEFINITION. The nomination book and confirmation (chapter 3): removal of hours from a key (R44), NOMINATE (R45 to
R47), CANCEL (R48), confirmation (R53 to R57), the reading requests (R63, R64), the book statistics (R65 to R68), and
the meanings of their rows. Recut stands in Machine/Schedule.lean. -/

namespace Sys2Proof.Machine

/-! ### Keys and the removal of hours (R44) -/

/-- The first unconfirmed hour U (R43). -/
def firstUnconfirmed (s : State) : Nat := s.book.confirmedThrough + 1

/-- An entry holds an hour from its next hour to confirm through its last hour (section 3.1). -/
def Entry.holds (e : Entry) (h : Nat) : Bool := decide (e.next ≤ h) && decide (h ≤ e.last)

/-- Whether an entry has the key of a slot, a direction and a class. -/
def Entry.hasKey (i : Fin 24) (d : Direction) (c : Class) (e : Entry) : Bool :=
  decide (e.slot = i) && decide (e.dir = d) && decide (e.cls = c)

/-- How the hours a to b overlap the hours an entry holds. -/
inductive Overlap where
  | untouched
  | whole
  | front
  | back
  | split
  deriving DecidableEq, Repr

/-- The overlap of the hours `a` to `b` with an entry. -/
def overlap (a b : Nat) (e : Entry) : Overlap :=
  if b < e.next ∨ e.last < a then .untouched
  else if a ≤ e.next then (if e.last ≤ b then .whole else .front)
  else if e.last ≤ b then .back else .split

/-- What the removal of the hours `a` to `b` leaves of an entry, in place. -/
def cutEntry (a b : Nat) (e : Entry) : List Entry :=
  match overlap a b e with
  | .untouched => [e]
  | .whole => []
  | .front => [{ e with first := b + 1, next := b + 1 }]
  | .back => [{ e with last := a - 1 }]
  | .split => [{ e with last := a - 1 }, { e with first := b + 1, next := b + 1 }]

/-- The entries of a key that a removal meets in one way, in book order. -/
def metBy (o : Overlap) (i : Fin 24) (d : Direction) (c : Class) (a b : Nat) (es : List Entry) : List Entry :=
  es.filter (fun e => e.hasKey i d c && overlap a b e == o)

/-- The hours `a` to `b` removed from every entry of a key. -/
def removeHours (i : Fin 24) (d : Direction) (c : Class) (a b : Nat) (es : List Entry) : List Entry :=
  es.flatMap (fun e => if e.hasKey i d c then cutEntry a b e else [e])

/-- The number of hours a removal takes from the entries of a key. -/
def hoursTaken (i : Fin 24) (d : Direction) (c : Class) (a b : Nat) (es : List Entry) : Nat :=
  (es.map (fun e => if e.hasKey i d c then min b e.last + 1 - max a e.next else 0)).sum

/-- The trim of CLOCK SET: every hour before `u` removed from every entry, without an event or a count (R44). The
hours of an entry are at or after 1, so an hour 0 at the start of the run takes nothing more. -/
def trimBefore (u : Nat) (es : List Entry) : List Entry :=
  es.flatMap (fun e => if u = 0 then [e] else cutEntry 0 (u - 1) e)

/-! ### Counting (R66) -/

/-- The place of a kind in the reply of BOOK STATISTICS. -/
def kindIndex : Direction → Class → Fin 4
  | .inject, .firm => 0
  | .inject, .interruptible => 1
  | .withdraw, .firm => 2
  | .withdraw, .interruptible => 3

/-- One count of a kind raised where the shipper id passes the filter. -/
def countKind (f : KindCounts → KindCounts) (id : Nat) (d : Direction) (c : Class) (s : State) : State :=
  if passes s id then
    let st := s.book.stats
    let k := kindIndex d c
    s.setBook { s.book with stats := { st with counts := setVec st.counts k (f st.counts[k]) } }
  else s

/-- The count accepted raised. -/
def KindCounts.addAccepted (k : KindCounts) : KindCounts := { k with accepted := satSucc 65535 k.accepted }

/-- The count superseded raised. -/
def KindCounts.addSuperseded (k : KindCounts) : KindCounts := { k with superseded := satSucc 65535 k.superseded }

/-- The count cancelled raised. -/
def KindCounts.addCancelled (k : KindCounts) : KindCounts := { k with cancelled := satSucc 65535 k.cancelled }

/-- The count of the state a record is made in raised. -/
def KindCounts.addRecord (st : RecordState) (k : KindCounts) : KindCounts :=
  match st with
  | .confirmed => { k with confirmedFull := satSucc 65535 k.confirmedFull }
  | .curtailed => { k with curtailed := satSucc 65535 k.curtailed }
  | .rejected => { k with rejected := satSucc 65535 k.rejected }

/-! ### NOMINATE (R45 to R47) -/

/-- The ranges of a NOMINATE block (R45, check 8). -/
def nominateInRange (b : Block) (s : State) : Bool :=
  decide (fieldW b 4 ≤ 23) && decide (fieldW b 6 ≤ 23) && decide (field2 b 7 ≤ 16000000)
  && decide (fieldHour b 3 ≤ fieldHour b 5) && decide (fieldHour b 5 - fieldHour b 3 + 1 ≤ 24)
  && decide (fieldHour b 5 ≤ s.clock.hour + 36)

/-- The number of entries after a nomination, worked out before anything is changed (R46). -/
def sizeAfterNominate (i : Fin 24) (d : Direction) (c : Class) (a b : Nat) (es : List Entry) : Nat :=
  es.length - (metBy .whole i d c a b es).length + (metBy .split i d c a b es).length + 1

/-- An entry removed whole by supersession: the event and the count (R46, R66). -/
def noteSuperseded (e : Entry) (s : State) : State :=
  countKind KindCounts.addSuperseded e.shipper e.dir e.cls
    (raise .superseded (some e.slot.val) (some (e.arrival.toNat : Int)) s)

/-- The entry a nomination makes. -/
def nominatedEntry (n : BitVec 32) (i : Fin 24) (d : Direction) (c : Class) (b : Block) : Entry where
  arrival := n
  slot := i
  shipper := fieldW b 0
  dir := d
  cls := c
  first := fieldHour b 3
  last := fieldHour b 5
  next := fieldHour b 3
  quantity := field2 b 7

/-- A NOMINATE taken (R46, R47): the key is cut, the new entry appended, the counter raised. Where several entries are removed
whole, R46 states no order of their SUPERSEDED events: book order is the model's (log entry 44). -/
def nominateEffect (i : Fin 24) (d : Direction) (c : Class) (b : Block) (s : State) : Answer :=
  let a := fieldHour b 3
  let z := fieldHour b 5
  let es := s.book.entries
  let n := s.book.nextArrival
  let gone := metBy .whole i d c a z es
  let trimmed := (metBy .front i d c a z es).length + (metBy .back i d c a z es).length
  let s1 := gone.foldl (fun t e => noteSuperseded e t) (setEntries (removeHours i d c a z es) s)
  let s2 := setEntries (s1.book.entries ++ [nominatedEntry n i d c b]) s1
  let s3 := countKind KindCounts.addAccepted (fieldW b 0) d c (s2.setBook { s2.book with nextArrival := n + 1 })
  taken (out2 n.toNat ++ out1 gone.length ++ out1 trimmed ++ out1 (metBy .split i d c a z es).length
    ++ out1 s3.book.entries.length) s3

/-- NOMINATE (R45). -/
def reqNominate (b : Block) (s : State) : Answer :=
  match firstFailure (settledChecks (b.length == 9) s ++ [(!clockIsUnset s, .clockUnset)]) with
  | some st => refuse st s
  | none =>
    match findShipper (fieldW b 0) s with
    | none => refuse .unknownShipper s
    | some (i, a) =>
      match directionOf (fieldW b 1), classOf (fieldW b 2) with
      | some d, some c =>
        checked
          [(a.state == .opened, .state), (nominateInRange b s, .range),
           (decide (firstUnconfirmed s ≤ fieldHour b 3), .late),
           (decide (sizeAfterNominate i d c (fieldHour b 3) (fieldHour b 5) s.book.entries ≤ 256), .noRoom)]
          s (nominateEffect i d c b s)
      | _, _ => checked [(a.state == .opened, .state)] s (refuse .range s)

/-! ### CANCEL (R48) -/

/-- The ranges of a CANCEL block (R48, check 8). -/
def cancelInRange (b : Block) (s : State) : Bool :=
  decide (fieldW b 4 ≤ 23) && decide (fieldW b 6 ≤ 23) && decide (fieldHour b 3 ≤ fieldHour b 5)
  && decide (fieldHour b 5 ≤ s.clock.hour + 36)

/-- The first hour a cancellation applies to: the hours before U are left as they are (R48). -/
def cancelFrom (b : Block) (s : State) : Nat := max (fieldHour b 3) (firstUnconfirmed s)

/-- Room for a split, where one is needed (R48, check 10). -/
def cancelHasRoom (i : Fin 24) (d : Direction) (c : Class) (b : Block) (s : State) : Bool :=
  (metBy .split i d c (cancelFrom b s) (fieldHour b 5) s.book.entries).isEmpty || decide (s.book.entries.length < 256)

/-- A CANCEL taken (R48): no event, each entry removed whole counted as cancelled. -/
def cancelEffect (i : Fin 24) (d : Direction) (c : Class) (b : Block) (s : State) : Answer :=
  let a := cancelFrom b s
  let z := fieldHour b 5
  let es := s.book.entries
  let gone := metBy .whole i d c a z es
  let s1 := gone.foldl (fun t e => countKind KindCounts.addCancelled e.shipper e.dir e.cls t)
    (setEntries (removeHours i d c a z es) s)
  taken (out1 (hoursTaken i d c a z es) ++ out1 gone.length ++ out1 (metBy .split i d c a z es).length
    ++ out1 s1.book.entries.length) s1

/-- CANCEL (R48). -/
def reqCancel (b : Block) (s : State) : Answer :=
  match firstFailure (settledChecks (b.length == 7) s ++ [(!clockIsUnset s, .clockUnset)]) with
  | some st => refuse st s
  | none =>
    match findShipper (fieldW b 0) s with
    | none => refuse .unknownShipper s
    | some (i, a) =>
      match directionOf (fieldW b 1), classOf (fieldW b 2) with
      | some d, some c =>
        checked
          [(a.trades, .state), (cancelInRange b s, .range),
           (decide (firstUnconfirmed s ≤ fieldHour b 5), .late), (cancelHasRoom i d c b s, .noRoom)]
          s (cancelEffect i d c b s)
      | _, _ => checked [(a.trades, .state)] s (refuse .range s)

/-! ### Confirmation (R53 to R57) -/

/-- The entry of a key that holds hour `h`; R41 allows one. -/
def holderOf (s : State) (h : Nat) (i : Fin 24) (d : Direction) (c : Class) : Option Entry :=
  s.book.entries.find? (fun e => e.hasKey i d c && e.holds h)

/-- A bound on a key: the most that is confirmed, and the reason of what is not (R54, R55). -/
structure Bound where
  most : Nat
  reason : Reason
  deriving DecidableEq, Repr

/-- The bound of a limit: SHIPPER_LIMIT when the rate term is at or below the room term, else INVENTORY (R55). -/
def Limit.bound (l : Limit) : Bound := ⟨l.value, if l.rate ≤ l.room then .shipperLimit else .inventory⟩

/-- The bound of a slot and direction for hour `h`: of a SUSPENDED record no limit is asked for (R54). -/
def boundOf (s : State) (h : Nat) (i : Fin 24) (d : Direction) : Bound :=
  match s.acct.slots[i] with
  | none => (hourlyLimit s i h d).bound
  | some a => if a.state = .suspended then ⟨0, .suspended⟩ else (hourlyLimit s i h d).bound

/-- The record of one key at the shipper stage, with `most` the most it may be confirmed at. -/
def stagedRecord (h most : Nat) (why : Reason) (e : Entry) : SchedRec :=
  let q := min e.quantity most
  { hour := h, slot := e.slot, dir := e.dir, cls := e.cls, requested := e.quantity, confirmed := q,
    state := recordState e.quantity q, reason := if q < e.quantity then some why else none, recuts := 0 }

/-- The shipper stage of one slot and direction: firm first, interruptible with what is left (R54). -/
def shipperStage (s : State) (h : Nat) (i : Fin 24) (d : Direction) : List SchedRec :=
  match holderOf s h i d .firm, holderOf s h i d .interruptible with
  | none, none => []
  | some e, none => let l := boundOf s h i d; [stagedRecord h l.most l.reason e]
  | none, some g => let l := boundOf s h i d; [stagedRecord h l.most l.reason g]
  | some e, some g =>
    let l := boundOf s h i d
    let r := stagedRecord h l.most l.reason e
    [r, stagedRecord h (l.most - r.confirmed) l.reason g]

/-- The shipper stage of hour `h`: the slots ascending, injection then withdrawal, so in schedule order. -/
def stagedRecords (s : State) (h : Nat) : List SchedRec :=
  (List.finRange 24).flatMap (fun i => shipperStage s h i .inject ++ shipperStage s h i .withdraw)

/-- The records of hour `h` after both stages (R54 to R57). -/
def confirmedRecords (s : State) (h : Nat) : List SchedRec :=
  let rs := stagedRecords s h
  List.zipWith SchedRec.cutBy rs (siteShares s.duty.declared s.dry.capacity rs)

/-- An entry moved past the hour `h` it holds; it leaves the book where `h` was its last hour (R57). -/
def Entry.past (h : Nat) (e : Entry) : Option Entry :=
  if e.holds h then (if e.last = h then none else some { e with next := h + 1 }) else some e

/-- An entry whose last hour was `h` (R57). -/
def Entry.completedBy (h : Nat) (e : Entry) : Bool := e.holds h && decide (e.last = h)

/-- A record counted by the state it is made in, under the id its slot holds (R65, R66). -/
def countRecord (r : SchedRec) (s : State) : State :=
  match s.acct.slots[r.slot] with
  | none => if s.book.stats.filter = 0 then countKind (KindCounts.addRecord r.state) 0 r.dir r.cls s else s
  | some a => countKind (KindCounts.addRecord r.state) a.shipper r.dir r.cls s

/-- The confirmation of hour `h` (R53): its records made, its entries advanced, COMPLETED raised, the horizon moved,
the records counted (R57). Where several entries are completed, R57 states no order of their events: book order is the
model's (log entry 44). -/
def confirmHour (h : Nat) (s : State) : State :=
  let rs := confirmedRecords s h
  let done := s.book.entries.filter (Entry.completedBy h)
  let s1 := setEntries (s.book.entries.filterMap (Entry.past h)) (s.setSched (s.sched ++ rs))
  let s2 := done.foldl (fun t e => raise .completed (some e.slot.val) (some (e.arrival.toNat : Int)) t) s1
  rs.foldl (fun t r => countRecord r t) (s2.setBook { s2.book with confirmedThrough := h })

/-- The next `n` unconfirmed hours confirmed, one at a time, ascending. -/
def confirmHours : Nat → State → State
  | 0, s => s
  | n + 1, s => confirmHours n (confirmHour (firstUnconfirmed s) s)

/-- Confirmation (R53): every hour from U through the current hour plus the lead, never beyond the last hour of gas
time, and not while the clock is UNSET. The hours run in one go: that nothing falls between two of them is the model's choice
(log entry 51). -/
def confirmation (s : State) : State :=
  match s.clock.state with
  | .unset => s
  | .running => confirmHours (min (s.clock.hour + s.site.lead) lastHour - s.book.confirmedThrough) s

/-! ### The reading requests (R63, R64, R68) -/

/-- An entry in the reply of BOOK READ: 14 words. -/
def outEntry (e : Entry) : Block :=
  out2 e.arrival.toNat ++ out1 e.slot.val ++ out1 e.shipper ++ out1 e.dir.code ++ out1 e.cls.code
  ++ outHour e.first ++ outHour e.last ++ outHour e.next ++ out2 e.quantity

/-- The entries that match a shipper id, or all for id 0 (R63). -/
def matching (id : Nat) (s : State) : List Entry :=
  s.book.entries.filter (fun e => decide (id = 0) || decide (e.shipper = id))

/-- The reply of BOOK READ (R63). -/
def bookReadReply (id position : Nat) (s : State) : Block :=
  let es := matching id s
  let page := (es.drop position).take 4
  out1 es.length ++ outHour (firstUnconfirmed s) ++ out1 page.length ++ page.flatMap outEntry

/-- BOOK READ (R63). -/
def reqBookRead (b : Block) (s : State) : Answer :=
  checked [(b.length == 2, .badLength), (!settling s, .busy), (decide (fieldW b 1 ≤ 255), .range)] s
    (taken (bookReadReply (fieldW b 0) (fieldW b 1) s) s)

/-- A record in the reply of SCHEDULE READ: 10 words. -/
def outRecord (r : SchedRec) : Block :=
  out1 r.slot.val ++ out1 r.dir.code ++ out1 r.cls.code ++ out2 r.requested ++ out2 r.confirmed
  ++ out1 r.state.code ++ out1 (reasonCode r.reason) ++ out1 r.recuts

/-- Whether hour `h` is confirmed: earlier than U and at or after the current hour (R64). While the clock is UNSET
there is no current hour, and the manual does not state the flag of an hour before U (log entry 28). -/
def hourConfirmed (s : State) (h : Nat) : Bool :=
  decide (h < firstUnconfirmed s) && (match s.clock.state with
    | .unset => Config.confirmedWhileUnset h
    | .running => decide (s.clock.hour ≤ h))

/-- The reply of SCHEDULE READ (R64). -/
def scheduleReadReply (h position : Nat) (s : State) : Block :=
  let rs := s.sched.filter (fun r => r.hour == h)
  out1 rs.length ++ outI2 (netConfirmed s.sched h) ++ outFlag (hourConfirmed s h)
  ++ ((rs.drop position).take 6).flatMap outRecord

/-- SCHEDULE READ (R64). -/
def reqScheduleRead (b : Block) (s : State) : Answer :=
  checked
    [(b.length == 3, .badLength), (!settling s, .busy),
     (decide (fieldW b 1 ≤ 23) && decide (fieldW b 2 ≤ 95), .range)]
    s (taken (scheduleReadReply (fieldHour b 0) (fieldW b 2) s) s)

/-- The six counts of a kind in the reply of BOOK STATISTICS. -/
def outKind (k : KindCounts) : Block :=
  out1 k.accepted ++ out1 k.superseded ++ out1 k.cancelled ++ out1 k.confirmedFull ++ out1 k.curtailed
  ++ out1 k.rejected

/-- The reply of BOOK STATISTICS: everything as it stood before the request (R68). -/
def bookStatisticsReply (st : Stats) : Block :=
  out1 st.filter ++ out1 st.threshold ++ st.counts.toList.flatMap outKind ++ out2 st.occupancy ++ out1 st.high
  ++ out2 st.atThreshold ++ out1 st.rises

/-- BOOK STATISTICS (R68): cleared where the filter or the threshold differs or the clear flag is 1, else a plain
read. -/
def reqBookStatistics (b : Block) (s : State) : Answer :=
  let st := s.book.stats
  let filter := fieldW b 0
  let threshold := fieldW b 1
  checked
    [(b.length == 3, .badLength),
     (decide (filter ≠ 65535) && decide (threshold ≤ 256) && decide (fieldW b 2 ≤ 1), .range)]
    s (taken (bookStatisticsReply st)
      (if filter = st.filter ∧ threshold = st.threshold ∧ fieldW b 2 = 0 then s
       else s.setBook { s.book with stats := Stats.cleared filter threshold }))

/-! ### The statistics' second (R67) -/

/-- One elapsed second of the book statistics. -/
def statisticsSecond (s : State) : State :=
  let st := s.book.stats
  let n := filteredCount s
  s.setBook { s.book with stats := { st with
    occupancy := satAdd 4294967295 st.occupancy n
    atThreshold := if st.threshold ≤ n then satSucc 4294967295 st.atThreshold else st.atThreshold
    high := max st.high n } }

/-! ### Meanings -/

/-- NOMINATE (R45 to R47). -/
def execNominate (b : Block) (s : State) : Host.Outcome State Fault Refusal := .next (serve 0x30 (reqNominate b) s)

/-- CANCEL (R48). -/
def execCancel (b : Block) (s : State) : Host.Outcome State Fault Refusal := .next (serve 0x31 (reqCancel b) s)

/-- BOOK_READ (R63). -/
def execBookRead (b : Block) (s : State) : Host.Outcome State Fault Refusal := .next (serve 0x32 (reqBookRead b) s)

/-- SCHEDULE_READ (R64). -/
def execScheduleRead (b : Block) (s : State) : Host.Outcome State Fault Refusal :=
  .next (serve 0x33 (reqScheduleRead b) s)

/-- BOOK_STATISTICS (R68). -/
def execBookStatistics (b : Block) (s : State) : Host.Outcome State Fault Refusal :=
  .next (serve 0x34 (reqBookStatistics b) s)

/-- STATISTICS_SECOND (R67). -/
def execStatisticsSecond (s : State) : Host.Outcome State Fault Refusal := .next (statisticsSecond s)

end Sys2Proof.Machine
end

