-- ==== Sys2Proof/Machine/SiteSettings.lean ====
section
/-! DEFINITION. SITE SET (R58, R109, R110) and the ranges of the site settings (section 5.6), with the meaning of its
row. -/

namespace Sys2Proof.Machine

/-- Whether every setting of the group lies in its range in the table of section 5.6, but for the relation of the
two fractions. -/
def siteInRange (g : Site) : Bool :=
  decide (g.injRight ≤ 16000000) && decide (g.wdrRight ≤ 16000000)
  && decide (1 ≤ g.upRate) && decide (g.upRate ≤ 200000)
  && decide (1 ≤ g.downRate) && decide (g.downRate ≤ 200000)
  && decide (1 ≤ g.fallbackRate) && decide (g.fallbackRate ≤ 400000)
  && decide (g.turnHold ≤ 3600) && decide (1 ≤ g.lead) && decide (g.lead ≤ 4)
  && decide (g.tolerance ≤ 10000000) && decide (g.alertLimit ≤ 100000000000)
  && decide (500 ≤ g.startFraction) && decide (g.startFraction ≤ 1000)
  && decide (300 ≤ g.stopFraction) && decide (g.stopFraction ≤ 950)
  && decide (1 ≤ g.startLimit) && decide (g.startLimit ≤ 6) && decide (g.minimumRun ≤ 7200)
  && decide (60 ≤ g.coldWarmUp) && decide (g.coldWarmUp ≤ 3600)
  && decide (30 ≤ g.warmWarmUp) && decide (g.warmWarmUp ≤ 1800)
  && decide (5 ≤ g.hotWarmUp) && decide (g.hotWarmUp ≤ 600)
  && decide (g.hotHold ≤ 14400) && decide (g.warmHold ≤ 86400)
  && decide (2 ≤ g.overloadLimit) && decide (g.overloadLimit ≤ 15)

/-- The ranges of a block of 29 words, the rotation flag's word among them. -/
def siteBlockInRange (b : Block) : Bool := siteInRange (siteOf b) && decide (fieldW b 28 ≤ 1)

/-- The start-limit noted flags under a new start limit: cleared in a unit that ceases to be blocked (R119). -/
def renoteUnits (s : State) : State :=
  s.setDuty { s.duty with units := mapVec (CUnit.renote s.site.startLimit) s.duty.units }

/-- The group stands and T_raw is recomputed (R110); the other blocks act on the settings that concern them in the
order the world takes, and their events stand in its order (R167). Confirmation runs where the lead rises (R58). It runs
through all its hours in one go: that a fall of a capacity and its recut come before all of them or after all of them, never
between two, though R53 and R62 would allow that, is the model's choice (log entry 51). -/
def applySite (g : Site) (s : State) : State :=
  let lead : List (State → State) := if s.site.lead < g.lead then [confirmation] else []
  gathered (fun t => inAnyOrder ([handInjection, handWithdrawal] ++ lead ++ [evaluateAlert]) (recomputeTarget t))
    (renoteUnits (s.setSite g))

/-- SITE SET (R109). -/
def reqSiteSet (b : Block) (s : State) : Answer :=
  checked (settledChecks (b.length == 29) s
      ++ [(siteBlockInRange b, .range), (decide ((siteOf b).stopFraction < (siteOf b).startFraction), .range)])
    s (taken [] (applySite (siteOf b) s))

/-- SITE_SET (R109, R110). -/
def execSiteSet (b : Block) (s : State) : Host.Outcome State Fault Refusal := .next (serve 0x38 (reqSiteSet b) s)

end Sys2Proof.Machine
end

