-- ==== Sys2Proof/Machine/Image.lean ====
section
/-! DEFINITION. The image of the account store as words (section 10.1): how an image is laid out in 12,288 words, how
the words of a load buffer are read as an image, and when its contents are consistent (R180). The manual gives the
order of the sections and fields and the place of the commit number and the CRC; the section sizes and the codes of
absent records are the model's (log entry 7): every section takes the words its largest contents take, counts stand
before the lists they count, and what is left before the CRC is zero words. So is the place of the fields that no reading
request returns (log entry 50). -/

namespace Sys2Proof.Machine

/-! ### Helpers -/

/-- A block cut or filled with zero words to `n` words. -/
def padTo (n : Nat) (b : Block) : Block := (b ++ List.replicate n 0).take n

/-- The first `k` runs of `n` words. -/
def chunks (n : Nat) : Nat → Block → List Block
  | 0, _ => []
  | k + 1, b => b.take n :: chunks n k (b.drop n)

/-- A list of readings, where every one of them could be read. -/
def allRead {α : Type} : List (Option α) → Option (List α)
  | [] => some []
  | none :: _ => none
  | some x :: rest =>
    match allRead rest with
    | none => none
    | some xs => some (x :: xs)

/-- A list of readings as a vector. -/
def vecRead {α : Type} (n : Nat) (l : List (Option α)) : Option (Vector α n) :=
  match allRead l with
  | none => none
  | some xs => if h : xs.length = n then some ⟨xs.toArray, by simpa using h⟩ else none

/-- A count and the records it counts, at most `most` of them, `n` words each. -/
def listRead {α : Type} (n most : Nat) (read : Block → Option α) (b : Block) : Option (List α) :=
  if fieldW b 0 ≤ most then allRead ((chunks n (fieldW b 0) (b.drop 1)).map read) else none

/-- A flag word. -/
def flagRead (b : Block) (i : Nat) : Option Bool :=
  match fieldW b i with
  | 0 => some false
  | 1 => some true
  | _ => none

/-- A gas hour as day and hour of the day. -/
def hourRead (b : Block) (i : Nat) : Option Nat := if fieldW b (i + 1) ≤ 23 then some (fieldHour b i) else none

/-- A curve id that may be absent. -/
def curveRead (b : Block) (i : Nat) : Option (Option (Fin 16)) :=
  match fieldCurve b i with
  | .absent => some none
  | .curve c => some (some c)
  | .bad => none

/-! ### Accounts -/

/-- The image's code of a record's state; an EMPTY slot is coded 0. -/
def AccountState.imageCode : AccountState → Nat
  | .opened => 1
  | .suspended => 2
  | .closing => 3

/-- A slot in 15 words, in the order of ACCOUNT READ. -/
def slotWords : Option Account → Block
  | none => List.replicate 15 0
  | some a =>
    out1 a.state.imageCode ++ out1 a.shipper ++ outI3 a.inventory ++ out3 a.spaceRight ++ out2 a.injRight
    ++ out2 a.wdrRight ++ outRatchet a.injCurve ++ outRatchet a.wdrCurve ++ outFlags [a.emptyClamp, a.fullClamp]

/-- The state of a record by the image's code. -/
def accountStateRead : Nat → Option AccountState
  | 1 => some .opened
  | 2 => some .suspended
  | 3 => some .closing
  | _ => none

/-- A slot read. Of a slot that is EMPTY the 14 further words are not looked at, the model's choice (log entry 7). -/
def slotRead (b : Block) : Option (Option Account) :=
  if fieldW b 0 = 0 then some none
  else
    match accountStateRead (fieldW b 0), curveRead b 12, curveRead b 13 with
    | some st, some ic, some wc =>
      if fieldW b 14 ≤ 3 then
        some (some ⟨fieldW b 1, st, field3 b 2, field3 b 5, field2 b 8, field2 b 10, ic, wc,
          fieldW b 14 % 2 == 1, fieldW b 14 / 2 == 1⟩)
      else none
    | _, _, _ => none

/-- A transfer in 7 words. No reading request returns a pending transfer: the order of its fields is the model's (log entry
50). -/
def transferWords (t : Transfer) : Block :=
  out2 t.arrival.toNat ++ out1 t.source ++ out1 t.destination ++ out3 t.quantity

/-- A transfer read. -/
def transferRead (b : Block) : Option Transfer :=
  some ⟨BitVec.ofNat 32 (field2 b 0), fieldW b 2, fieldW b 3, field3 b 4⟩

/-- The accounts section: 491 words. -/
def accountsWords (m : Image) : Block :=
  m.slots.toList.flatMap slotWords ++ outI4 m.sba ++ outI4 m.opening ++ outI4 m.booked ++ outI4 m.charged
  ++ padTo 113 (out1 m.transfers.length ++ m.transfers.flatMap transferWords) ++ out2 m.nextTransfer.toNat

/-! ### Curves -/

/-- A curve in 17 words: the point count, then x and y of each point. -/
def curveWords (c : Curve) : Block := padTo 17 (out1 c.length ++ c.flatMap (fun p => outI p.x ++ out1 p.y))

/-- A curve read. -/
def curveTableRead (b : Block) : Option Curve :=
  listRead 2 8 (fun q => some ⟨fieldI q 0, fieldW q 1⟩) b

/-! ### Compressors -/

/-- The image's code of a stored unit state, by the codes of section 6.1; "other" stands as COLD. -/
def StoredUnitState.code : StoredUnitState → Nat
  | .disabled => 0
  | .other => 1
  | .lockedOut => 7

/-- A stored unit state by its code. -/
def storedStateRead : Nat → Option StoredUnitState
  | 0 => some .disabled
  | 7 => some .lockedOut
  | n => if n < 7 then some .other else none

/-- A unit record in 11 words, in the order of UNIT READ. -/
def unitWords (u : UnitImage) : Block :=
  outFlag u.configured ++ out2 u.cfg.capacity ++ outRatchet u.cfg.curve
  ++ out1 ((if u.cfg.keepEngine then 2 else 0) + (if u.cfg.keepAux then 1 else 0)) ++ out1 u.cfg.policy
  ++ out1 u.state.code ++ out2 u.runSeconds ++ out1 u.startTotal ++ out1 u.attempts

/-- A unit record read. -/
def unitRead (b : Block) : Option UnitImage :=
  match flagRead b 0, curveRead b 3, storedStateRead (fieldW b 6) with
  | some f, some c, some st =>
    if fieldW b 4 ≤ 3 then
      some ⟨f, ⟨field2 b 1, c, fieldW b 4 / 2 == 1, fieldW b 4 % 2 == 1, fieldW b 5⟩, st, field2 b 7, fieldW b 9,
        fieldW b 10⟩
    else none
  | _, _, _ => none

/-- The compressors section: 72 words. -/
def compressorWords (m : Image) : Block :=
  m.units.toList.flatMap unitWords ++ m.roster.toList.flatMap (fun i => out1 i.val)

/-! ### Drying -/

/-- A train record in 18 words, in the order of TRAIN READ. -/
def trainWords (t : TrainImage) : Block :=
  outFlag t.configured ++ outTrainCfg 65535#16 t.cfg ++ outFlag t.service

/-- A bed record in 5 words. -/
def bedWords (b : BedImage) : Block := out1 b.state.code ++ out4 b.load

/-- A bed state by its code. -/
def bedStateRead : Nat → Option BedState
  | 0 => some .ready
  | 1 => some .adsorbing
  | 2 => some .heating
  | 3 => some .cooling
  | _ => none

/-- A bed record read. -/
def bedRead (b : Block) : Option BedImage :=
  match bedStateRead (fieldW b 0) with
  | some st => some ⟨st, field4 b 1⟩
  | none => none

/-- A train record read with its two beds' words. -/
def trainRead (b lo hi : Block) : Option TrainImage :=
  match flagRead b 0, curveRead b 4, flagRead b 17, bedRead lo, bedRead hi with
  | some f, some c, some v, some l, some h => some ⟨f, { trainCfgOf b 1 with curve := c }, v, l, h⟩
  | _, _, _, _, _ => none

/-- The drying section: 56 words, the two trains, then the four beds. -/
def dryingWords (m : Image) : Block :=
  m.trains.toList.flatMap trainWords ++ m.trains.toList.flatMap (fun t => bedWords t.lo ++ bedWords t.hi)

/-! ### Book and schedule -/

/-- A book entry read. -/
def entryRead (b : Block) : Option Entry :=
  match fieldFin 24 b 2, directionOf (fieldW b 4), classOf (fieldW b 5), hourRead b 6, hourRead b 8, hourRead b 10 with
  | some i, some d, some c, some f, some l, some n =>
    some ⟨BitVec.ofNat 32 (field2 b 0), i, fieldW b 3, d, c, f, l, n, field2 b 12⟩
  | _, _, _, _, _, _ => none

/-- A schedule record in 12 words: its hour, then the fields of SCHEDULE READ. That request returns no hour: its place, first,
is the model's (log entry 50). -/
def recordWords (r : SchedRec) : Block := outHour r.hour ++ outRecord r

/-- A record's state by its code. -/
def recordStateRead : Nat → Option RecordState
  | 0 => some .confirmed
  | 1 => some .curtailed
  | 2 => some .rejected
  | _ => none

/-- A record's reason by its code. -/
def reasonRead : Nat → Option (Option Reason)
  | 0 => some none
  | 1 => some (some .shipperLimit)
  | 2 => some (some .inventory)
  | 3 => some (some .suspended)
  | 4 => some (some .capacity)
  | _ => none

/-- A schedule record read. -/
def recordRead (b : Block) : Option SchedRec :=
  match hourRead b 0, fieldFin 24 b 2, directionOf (fieldW b 3), classOf (fieldW b 4), recordStateRead (fieldW b 9),
    reasonRead (fieldW b 10) with
  | some h, some i, some d, some c, some st, some why =>
    some ⟨h, i, d, c, field2 b 5, field2 b 7, st, why, fieldW b 11⟩
  | _, _, _, _, _, _ => none

/-- The book and schedule section: 9,350 words. No reading request returns the confirmed-through hour: that it stands as a day
and an hour of the day is the model's (log entry 50). -/
def bookWords (m : Image) : Block :=
  padTo 3585 (out1 m.entries.length ++ m.entries.flatMap outEntry) ++ out2 m.nextArrival.toNat
  ++ outHour m.confirmedThrough ++ padTo 5761 (out1 m.schedule.length ++ m.schedule.flatMap recordWords)

/-! ### The whole image -/

/-- The words between the commit number and the zero words. The baselines, which no reading request returns, take three words
each, as a totalizer does in STATION REPORT (log entry 50). -/
def sectionWords (m : Image) : Block :=
  accountsWords m ++ m.curves.toList.flatMap curveWords ++ outSite m.site ++ compressorWords m ++ dryingWords m
  ++ bookWords m ++ (out3 m.base.forward ++ out3 m.base.reverse ++ outFlag m.base.valid) ++ outHour m.lastSettled
  ++ (out1 m.supMode ++ out1 m.supTimeout)

/-- Words 0 to 12,286: the commit number, the sections, zero words. -/
def imageBody (number : BitVec 32) (m : Image) : Block := padTo 12287 (out2 number.toNat ++ sectionWords m)

/-- An image in its 12,288 words, the CRC last. -/
def imageWords (number : BitVec 32) (m : Image) : Block :=
  let body := imageBody number m
  body ++ [crc (blockBytes body)]

/-- The commit number that the words of an image carry. -/
def numberRead (ws : Block) : BitVec 32 := BitVec.ofNat 32 (field2 ws 0)

/-- The two train records from the words of the drying section. -/
def trainsRead (b : Block) : Option (Vector TrainImage 2) :=
  let bed := fun i => (b.drop (36 + 5 * i)).take 5
  vecRead 2 [trainRead (b.take 18) (bed 0) (bed 1), trainRead ((b.drop 18).take 18) (bed 2) (bed 3)]

/-- The image that 12,288 words hold, where every coded field has one of its codes and every count is in its range.
The words after a list's records and after the last section are not looked at. -/
def imageRead (ws : Block) : Option Image :=
  let a := ws.drop 2
  let c := a.drop 491
  let g := c.drop 272
  let u := g.drop 29
  let d := u.drop 72
  let b := d.drop 56
  let m := b.drop 9350
  match vecRead 24 ((chunks 15 24 a).map slotRead), listRead 7 16 transferRead (a.drop 376),
    vecRead 16 ((chunks 17 16 c).map curveTableRead), vecRead 6 ((chunks 11 6 u).map unitRead),
    vecRead 6 ((List.range 6).map (fun i => fieldFin 6 (u.drop 66) i)), trainsRead d with
  | some slots, some transfers, some curves, some units, some roster, some trains =>
    match listRead 14 256 entryRead b, hourRead b 3587, listRead 12 480 recordRead (b.drop 3589), flagRead m 6,
      hourRead m 7 with
    | some entries, some through, some schedule, some valid, some settled =>
      if fieldW g 28 ≤ 1 then
        some
          { slots := slots, sba := fieldI4 a 360, opening := fieldI4 a 364, booked := fieldI4 a 368,
            charged := fieldI4 a 372, transfers := transfers, nextTransfer := BitVec.ofNat 32 (field2 a 489),
            curves := curves, site := siteOf g, units := units, roster := roster, trains := trains,
            entries := entries, nextArrival := BitVec.ofNat 32 (field2 b 3585), confirmedThrough := through,
            schedule := schedule, base := ⟨field3 m 0, field3 m 3, valid⟩, lastSettled := settled,
            supMode := fieldW m 9, supTimeout := fieldW m 10 }
      else none
    | _, _, _, _, _ => none
  | _, _, _, _, _, _ => none

/-! ### Ranges and consistency (R180) -/

/-- The largest magnitude of a signed four-word figure. -/
def wideMost : Nat := 9223372036854775807

/-- A relation that holds between every two members of a list, the earlier one first. -/
def pairs {α : Type} (r : α → α → Bool) : List α → Bool
  | [] => true
  | x :: xs => xs.all (r x) && pairs r xs

/-- The records of the slots that are not EMPTY. -/
def Image.records (m : Image) : List Account := m.slots.toList.filterMap id

/-- The ranges of a shipper record (section 2.1). -/
def Account.inRange (a : Account) : Bool :=
  decide (1 ≤ a.shipper) && decide (a.shipper ≤ 65534) && decide (1 ≤ a.spaceRight)
  && decide (a.spaceRight ≤ 999999999999) && decide (a.injRight ≤ 16000000) && decide (a.wdrRight ≤ 16000000)

/-- The ranges of a transfer (R33). -/
def Transfer.inRange (t : Transfer) : Bool :=
  decide (1 ≤ t.source) && decide (t.source ≤ 65534) && decide (1 ≤ t.destination) && decide (t.destination ≤ 65534)
  && decide (1 ≤ t.quantity) && decide (t.quantity ≤ 999999999999)

/-- The ranges of a curve: unwritten, or 2 to 8 points with strictly increasing x (R15). -/
def curveInRange (c : Curve) : Bool :=
  c.isEmpty || (decide (2 ≤ c.length) && decide (c.length ≤ 8) && pairs (fun p q => decide (p.x < q.x)) c)

/-- The ranges of a unit record: an unconfigured one has capacity 0, names no curve and is DISABLED (R112). -/
def UnitImage.inRange (u : UnitImage) : Bool :=
  decide (u.cfg.policy ≤ 3) && decide (u.attempts ≤ 255)
  && (if u.configured then decide (1 ≤ u.cfg.capacity) && decide (u.cfg.capacity ≤ 4000000) && u.cfg.curve.isSome
      else decide (u.cfg.capacity = 0) && u.cfg.curve.isNone && u.state == .disabled)

/-- The ranges of a train record: an unconfigured one has nominal capacity 0, names no curve and is OUT (R137), and its
heating and cooling times may be 0, the model's values of a train that none was set for (log entry 4). -/
def TrainImage.inRange (t : TrainImage) : Bool :=
  decide (t.cfg.warn < t.cfg.spec)
  && (if t.configured then trainCfgInRange t.cfg && t.cfg.curve.isSome
      else decide (t.cfg.nominal = 0) && t.cfg.curve.isNone && !t.service && trainSettingsInRange t.cfg
        && (t.cfg.heating == 0 || heatingInRange t.cfg.heating) && (t.cfg.cooling == 0 || coolingInRange t.cfg.cooling))

/-- The ranges of a book entry (section 3.1). -/
def Entry.inRange (e : Entry) : Bool :=
  decide (1 ≤ e.shipper) && decide (e.shipper ≤ 65534) && decide (e.first ≤ e.next) && decide (e.next ≤ e.last)
  && decide (e.quantity ≤ 16000000)

/-- The ranges of a schedule record (section 3.4), but for its confirmed quantity, which R180 names. -/
def SchedRec.inRange (r : SchedRec) : Bool := decide (r.requested ≤ 16000000) && decide (r.recuts ≤ 255)

/-- Every field lies in its stated range. -/
def Image.inRange (m : Image) : Bool :=
  m.records.all Account.inRange && decide (m.sba.natAbs ≤ wideMost) && decide (m.opening.natAbs ≤ 10000000000000000)
  && decide (m.booked.natAbs ≤ wideMost) && decide (0 ≤ m.charged) && decide (m.charged ≤ wideMost)
  && m.transfers.all Transfer.inRange && m.curves.toList.all curveInRange
  && siteInRange m.site && decide (m.site.stopFraction < m.site.startFraction)
  && m.units.toList.all UnitImage.inRange && m.trains.toList.all TrainImage.inRange
  && m.entries.all Entry.inRange && m.schedule.all SchedRec.inRange
  && decide (m.base.forward < 10000000000) && decide (m.base.reverse < 10000000000)
  && decide (m.supMode ≤ 3) && [10, 30, 60, 120].contains m.supTimeout

/-- Whether a curve the image names is written in it; an absent one names none. -/
def Image.written (m : Image) : Option (Fin 16) → Bool
  | none => true
  | some i => !(m.curves[i]).isEmpty

/-- Every curve named by a slot, a configured unit or a configured train is written. -/
def Image.curvesNamed (m : Image) : Bool :=
  m.records.all (fun a => m.written a.injCurve && m.written a.wdrCurve)
  && m.units.toList.all (fun u => !u.configured || m.written u.cfg.curve)
  && m.trains.toList.all (fun t => !t.configured || m.written t.cfg.curve)

/-- Two entries of one key that hold no common hour, or of two keys. -/
def Entry.apart (e f : Entry) : Bool :=
  !(f.hasKey e.slot e.dir e.cls) || decide (e.last < f.next) || decide (f.last < e.next)

/-- Two records of different keys or hours. -/
def SchedRec.apart (r q : SchedRec) : Bool :=
  !(decide (r.hour = q.hour) && decide (r.slot = q.slot) && decide (r.dir = q.dir) && decide (r.cls = q.cls))

/-- The balance of R39. -/
def balances (slots : Vector (Option Account) 24) (sba opening booked charged : Int) : Bool :=
  decide (inventorySum slots + sba = opening + booked - charged)

/-- The consistency of R180, in the order of its list. -/
def Image.consistent (m : Image) : Bool :=
  m.inRange
  && m.records.all (fun a => decide (0 ≤ a.inventory) && decide (a.inventory ≤ a.spaceRight))
  && pairs (fun a c => decide (a.shipper ≠ c.shipper)) m.records
  && balances m.slots m.sba m.opening m.booked m.charged
  && m.curvesNamed
  && (List.finRange 6).all (fun i => m.roster.toList.contains i)
  && pairs Entry.apart m.entries
  && m.entries.all (fun e => m.schedule.all (fun r => !(e.hasKey r.slot r.dir r.cls && e.holds r.hour)))
  && m.schedule.all (fun r => decide (r.confirmed ≤ r.requested))
  && pairs SchedRec.apart m.schedule && decide (m.schedule.length ≤ 480)
  && m.schedule.all (fun r => decide (r.hour ≤ m.confirmedThrough))
  && m.entries.all (fun e => decide (m.confirmedThrough < e.next))

/-! ### The load buffer read as words -/

/-- The bytes from address `a` on, `n` of them, of cells whose addresses rise and are all at or above `a`. -/
def bytesFrom (a : Nat) : Nat → List Host.Cell → List Byte
  | 0, _ => []
  | n + 1, [] => 0 :: bytesFrom (a + 1) n []
  | n + 1, (b, x) :: rest => if b = a then x :: bytesFrom (a + 1) n rest else 0 :: bytesFrom (a + 1) n ((b, x) :: rest)

/-- Bytes as words, high byte first. -/
def wordsOf : List Byte → Block
  | hi :: lo :: rest => hi.append lo :: wordsOf rest
  | _ => []

/-- The 12,288 words of the load buffer. -/
def bufferWords (m : List Host.Cell) : Block := wordsOf (bytesFrom 0 imageBytes m)

/-- The CRC of the load buffer matches its last word (R180, check 5). -/
def crcHolds (ws : Block) : Bool := crc (blockBytes (ws.take 12287)) == ws.getD 12287 0

end Sys2Proof.Machine
end

