-- ==== Sys2Proof/Machine/Store.lean ====
section
/-! DEFINITION. The account store and start-up (chapter 10): the snapshot and the default image, commits (R175,
R176), restarts and the restore (R177), adoption (R42, R51, R69, R92, R113, R139, R170, R180), the store requests
(R179 to R182), and the meanings of their rows. -/

namespace Sys2Proof.Machine

/-! ### Snapshot and default image -/

/-- What the image stores of a unit's state. -/
def UnitState.stored : UnitState → StoredUnitState
  | .disabled => .disabled
  | .lockedOut => .lockedOut
  | _ => .other

/-- A unit record as the image stores it. -/
def CUnit.image (u : CUnit) : UnitImage :=
  ⟨u.configured, u.cfg, u.state.stored, u.runSeconds, u.startTotal, u.attempts⟩

/-- A bed record as the image stores it. -/
def Bed.image (b : Bed) : BedImage := ⟨b.state, b.load⟩

/-- A train record as the image stores it. -/
def Train.image (t : Train) : TrainImage := ⟨t.configured, t.cfg, t.service, t.lo.image, t.hi.image⟩

/-- The snapshot of a commit: the blocks' state at this instant, but for the meter section, which is the copy the
meter intake keeps (R175, R176). -/
def snapshot (s : State) : Image where
  slots := s.acct.slots
  sba := s.acct.sba
  opening := s.acct.opening
  booked := s.acct.booked
  charged := s.acct.charged
  transfers := s.acct.transfers
  nextTransfer := s.acct.nextTransfer
  curves := s.curves
  site := s.site
  units := mapVec CUnit.image s.duty.units
  roster := s.duty.roster
  trains := mapVec Train.image s.dry.trains
  entries := s.book.entries
  nextArrival := s.book.nextArrival
  confirmedThrough := s.book.confirmedThrough
  schedule := s.sched
  base := s.meter.kept
  lastSettled := s.clock.lastSettled
  supMode := s.sup.mode
  supTimeout := s.sup.timeout

/-- The default image (R181): what the blocks hold right after a restart. -/
def Image.default : Image := snapshot State.reset

/-! ### Commits (R175, R176) -/

/-- The other copy. -/
def otherCopy (m : Fin 2) : Fin 2 := if m = 0 then 1 else 0

/-- A commit of a given number begins: the blocks are snapshotted. A commit still in flight is superseded (log entry
18). -/
def beginNumbered (n : BitVec 32) (s : State) : State :=
  s.setStore { s.store with phase := .committing n (snapshot s) }

/-- The hour commit begins, numbered the held number plus one; none while the UNRESTORED flag is set (R176). -/
def beginCommit (s : State) : State := if isUnrestored s then s else beginNumbered (s.store.held + 1) s

/-- The write and its read-back complete (R176): a copy found whole takes the mark and the number; a copy not found
whole leaves both. -/
def endCommit (whole : Bool) (s : State) : State :=
  match s.store.phase with
  | .committing n m =>
    let j := otherCopy s.store.mark
    if whole then
      raise .commitDone none (some (n.toNat : Int)) (s.setStore { s.store with
        copies := setVec s.store.copies j (.whole n m), mark := j, held := n, phase := .idle })
    else
      raise .commitFailed none (some (n.toNat : Int)) (s.setStore { s.store with
        copies := setVec s.store.copies j .notWhole, phase := .idle })
  | _ => s

/-! ### What an image gives the blocks -/

/-- The alert state computed from an SBA and a limit, without an event (R22). -/
def alertOf (sba : Int) (limit : Nat) : Alert := if limit < sba.natAbs then .raised else .armed

/-- The account table takes an image (R22). -/
def acctOf (m : Image) : Accounts :=
  ⟨m.slots, m.sba, alertOf m.sba m.site.alertLimit, m.opening, m.booked, m.charged, m.transfers, m.nextTransfer⟩

/-- The meter intake takes an image (R9, R175); the bucket, the gap watch and the flag stay. -/
def Meter.takeImage (x : Meter) (m : Image) : Meter :=
  { x with base := m.base, kept := m.base, lastAccepted := none, refusals := 0 }

/-- The blocks that take an image's values as they stand: account table, curves, site settings, book (but its
statistics), schedule (in the order of R50), settlement engine (emptied, R69), meter intake, gas clock, and the
supervision settings. -/
def takeImage (m : Image) (s : State) : State :=
  let s1 := ((s.setAcct (acctOf m)).setCurves m.curves).setSite m.site
  let s2 := (s1.setBook { s1.book with
    entries := m.entries, nextArrival := m.nextArrival, confirmedThrough := m.confirmedThrough }).setSched (orderedSchedule m.schedule)
  let s3 := s2.setSettle { s2.settle with history := [], alloc := Vector.replicate 24 none }
  let s4 := (s3.setMeter (s3.meter.takeImage m)).setClock { s3.clock with lastSettled := m.lastSettled }
  s4.setSup { s4.sup with mode := m.supMode, timeout := m.supTimeout }

/-- A unit's state from the image's (R113): every other configured unit is COLD. -/
def UnitImage.mapped (u : UnitImage) : UnitState :=
  match u.state with
  | .disabled => .disabled
  | .lockedOut => .lockedOut
  | .other => if u.configured then .cold else .disabled

/-- A unit record from the image's, its working fields as at a restart, with the start list given (R113). -/
def UnitImage.unit (u : UnitImage) (ages : List Nat) : CUnit where
  configured := u.configured
  cfg := u.cfg
  state := u.mapped
  runSeconds := u.runSeconds
  startTotal := u.startTotal
  attempts := u.attempts
  startAges := ages
  limitNoted := false
  phaseTimer := 0
  loadedSeconds := 0
  overload := 0
  noRun := 0
  feedback := .stopped
  load := 0
  tripCause := none

/-- The duty scheduler takes an image and forms both capacities anew (R113). `ages` says which start list a unit
keeps. -/
def takeUnits (ages : CUnit → List Nat) (m : Image) (s : State) : State :=
  let unit := fun i : Fin 6 => (m.units[i]).unit (ages s.duty.units[i])
  handInjection (s.setDuty { s.duty with
    units := mapVec unit ⟨(List.finRange 6).toArray, rfl⟩, roster := m.roster, fuel := 0 })

/-- A bed from the image's: a phase restored starts again with its full time (R139). In READY and ADSORBING the timer is held
at 0 (log entry 47). -/
def BedImage.bed (c : TrainCfg) (b : BedImage) : Bed :=
  ⟨b.state, b.load, match b.state with
    | .heating => c.heating
    | .cooling => c.cooling
    | _ => 0⟩

/-- A READY bed's load is 0. -/
def Bed.readied (b : Bed) : Bed := if b.state = .ready then Bed.fresh else b

/-- A train's pair put in order (R139): of two ADSORBING beds the higher-indexed one heats, of two beds then
regenerating the higher-indexed one is READY, and every READY bed has load 0. -/
def Train.ordered (x : Train) : Train :=
  let h1 : Bed := if x.lo.state = .adsorbing ∧ x.hi.state = .adsorbing then
    { x.hi with state := .heating, timer := x.cfg.heating } else x.hi
  let h2 : Bed := if x.lo.regenerates && h1.regenerates then { h1 with state := .ready } else h1
  { x with lo := x.lo.readied, hi := h2.readied }

/-- The values a train holds from reports. -/
structure Held where
  water : Nat
  temp : Int
  dew : Int
  deriving DecidableEq, Repr

/-- The held values right after a restart (R139). -/
def Held.restart : Held := ⟨0, 0, -600⟩

/-- The held values a train has. -/
def Train.held (x : Train) : Held := ⟨x.water, x.temp, x.dew⟩

/-- A train record from the image's, its working fields as at a restart but for the held values given, its pair in
order and its bed capacity formed (R139). That an adoption too sets the DEGRADED, swap-deferred and warning armed flags and
the excursion, recovery and mask timers as a restart does is the model's choice (log entry 46). -/
def TrainImage.train (m : Image) (t : TrainImage) (h : Held) : Train :=
  let x : Train :=
    { configured := t.configured, cfg := t.cfg, service := t.service, state := if t.service then .standby else .out,
      degraded := false, deferred := false, armed := true, water := h.water, temp := h.temp, dew := h.dew, bedCap := 0,
      share := 0, excursion := none, recovery := none, mask := 0, lo := t.lo.bed t.cfg, hi := t.hi.bed t.cfg }
  let cap : Nat := match t.cfg.curve with
    | none => 0
    | some c => if t.configured then evalCurve m.curves[c] h.temp else 0
  { x with bedCap := cap }.ordered

/-- The drying supervisor takes an image (R139): each train's record, then its adsorbing bed taken up and tested, then
the withdrawal capacity formed and handed on, and the trains in service follow the direction. -/
def takeTrains (held : Train → Held) (m : Image) (s : State) : State :=
  let train := fun i : Fin 2 => (m.trains[i]).train m (held s.dry.trains[i])
  let s1 := s.setDry { s.dry with trains := mapVec train ⟨(List.finRange 2).toArray, rfl⟩, gas := 0 }
  let s2 := bothTrains (fun t u => bedTest id t (takeUp id t u)) s1
  followDirection handWithdrawal (handWithdrawal s2)

/-! ### Restore (R177) and adoption (R180, R181) -/

/-- The supervision timer armed as the restore ends (R170). -/
def Supervision.armed (x : Supervision) : Supervision :=
  let n : Option Nat :=
    match x.mode with
    | 0 => none
    | 1 => if x.firstFrame then some x.timeout else none
    | 2 => some x.timeout
    | _ => if x.firstFrame then some x.timeout else some 600
  { x with timer := n, loaded := n.getD x.loaded }

/-- The supervision timer set by the mode: stopped in mode 0, the timeout choice in modes 1 to 3 (R170 to R172,
R174). -/
def Supervision.reloaded (x : Supervision) : Supervision :=
  if x.mode = 0 then { x with timer := none } else { x with timer := some x.timeout, loaded := x.timeout }

/-- Every block takes its restored values (R177, step 3), the duty scheduler and the drying supervisor in the order
the world takes, and the supervision timer is armed. -/
def restoreBlocks (m : Image) (s : State) : State :=
  let s1 := gathered (inAnyOrder [takeUnits (fun _ => []) m, takeTrains (fun _ => Held.restart) m]) (takeImage m s)
  s1.setSup s1.sup.armed

/-- The image that a copy was found whole with, and its commit number. -/
def Copy.written : Copy → Option (BitVec 32 × Image)
  | .whole n m => some (n, m)
  | .failed n m _ => some (n, m)
  | .notWhole => none

/-- The marked copy as the second failed check of a restore leaves it: a copy that was whole holds words that fail the check,
which words being the world's (R179; log entry 40). -/
def failMarked (s : State) : State :=
  match s.store.copies[s.store.mark] with
  | .whole n m =>
    (s.setStore { s.store with copies := setVec s.store.copies s.store.mark (.failed n m s.world) }).setWorld (s.world + 1)
  | _ => s

/-- A read of the marked copy completes (R177). It passes where a commit found the copy whole and the read came back whole;
the copy is then whole. -/
def restoreRead (readOk : Bool) (s : State) : State :=
  match s.store.phase with
  | .restoring firstFailed =>
    match (s.store.copies[s.store.mark]).written, readOk with
    | some (n, m), true =>
      let s1 := restoreBlocks m s
      s1.setStore { s1.store with
        copies := setVec s1.store.copies s1.store.mark (.whole n m), phase := .idle, held := n }
    | _, _ =>
      if firstFailed then
        let s1 := failMarked (restoreBlocks Image.default s)
        raise .storeUnrestored none none
          (s1.setStore { s1.store with phase := .idle, held := 0, unrestored := true })
      else s.setStore { s.store with phase := .restoring true }
  | _ => s

/-- An image adopted as the commit `n` (R175, R180, R181): each block takes the image's values, the statistics go on
from the values they hold, the UNRESTORED flag clears, the held number becomes `n` less one, and the commit begins.
The start lists and the held report values are kept (R113, R139). -/
def adopt (n : BitVec 32) (m : Image) (s : State) : State :=
  let s1 := noteCount (filteredCount s) (takeImage m s)
  let s2 := gathered (inAnyOrder [takeUnits (fun u => u.startAges) m, takeTrains Train.held m]) s1
  let s3 := s2.setSup s2.sup.reloaded
  beginNumbered n (s3.setStore { s3.store with held := n - 1, unrestored := false })

/-! ### Restarts (R177) -/

/-- The copies as a restart leaves them: a commit in flight is abandoned (R175, R176), and the copy it was writing is taken
as not whole (log entry 41). -/
def abandonedCopies (x : Store) : Vector Copy 2 :=
  match x.phase with
  | .committing _ _ => setVec x.copies (otherCopy x.mark) .notWhole
  | _ => x.copies

/-- A restart begins with its cause (R177): every block takes its restart values, the event queue holds the RESTARTED
entry alone, the link takes its restart values, and the restore begins. The copies, the mark and the held number are
kept; so are the commands the world still holds. -/
def restartWith (c : Cause) (s : State) : State :=
  { State.reset with
    pending := s.pending
    world := s.world
    link := { State.reset.link with cause := c }
    evq := ⟨[⟨0, none, .restarted, none, some (c.code : Int)⟩], 1, 0, false⟩
    store := { State.reset.store with copies := abandonedCopies s.store, mark := s.store.mark, held := s.store.held } }

/-! ### The store requests -/

/-- 12,288 words whose CRC does not hold: free words, of which the last has its lowest bit inverted where it would hold. -/
def failingWords (word : Nat → Word) : Block :=
  let body := (List.range 12287).map word
  let last := word 12287
  body ++ [if last = crc (blockBytes body) then last ^^^ 1 else last]

/-- The words of a copy: of one that is not whole, as they stand, which fail the check (R179; log entries 6 and 40). -/
def copyWords (i : Fin 2) : Copy → Block
  | .whole n m => imageWords n m
  | .failed _ _ failure => failingWords (Config.failedWord failure)
  | .notWhole => failingWords (Config.copyWord i.val)

/-- The reply of STORE READ: block number, block count, the commit number in the first two words of the marked copy,
and the block's 32 words (R179). Outside UNRESTORED the marked copy is whole, but for the time between an adoption that ended
UNRESTORED and the first commit found whole: the words of the copy that failed its check are answered then too, the model's
choice (log entry 40). -/
def storeReadReply (k : Nat) (s : State) : Block :=
  let ws := copyWords s.store.mark s.store.copies[s.store.mark]
  out1 k ++ out1 384 ++ ws.take 2 ++ (ws.drop (32 * k)).take 32

/-- STORE READ (R179). -/
def reqStoreRead (b : Block) (s : State) : Answer :=
  checked [(b.length == 1, .badLength), (!committing s, .busy), (decide (fieldW b 0 ≤ 383), .range)] s
    (taken (storeReadReply (fieldW b 0) s) s)

/-- STORE LOAD (R180): the 32 words replace a block of the load buffer. -/
def reqStoreLoad (b : Block) (s : State) : Answer :=
  checked
    [(b.length == 33, .badLength), (!inFallback s, .fallback), (!committing s, .busy),
     (decide (fieldW b 0 ≤ 383), .range)]
    s (taken (out1 (fieldW b 0))
      (s.setStore { s.store with buffer := writeWords (32 * fieldW b 0) (b.drop 1) s.store.buffer }))

/-- STORE LOAD END (R180): the buffer's image is adopted at once and the buffer is cleared. -/
def reqStoreLoadEnd (b : Block) (s : State) : Answer :=
  let ws := bufferWords s.store.buffer
  match firstFailure
      [(b.length == 0, .badLength), (!inFallback s, .fallback), (!settling s && !committing s, .busy),
       (clockIsUnset s, .state), (crcHolds ws, .range)] with
  | some st => refuse st s
  | none =>
    match imageRead ws with
    | none => refuse .range s
    | some m =>
      let n := numberRead ws + 1
      checked [(m.consistent, .range)] s
        (taken (out2 n.toNat) (adopt n m (s.setStore { s.store with buffer := [] })))

/-- STORE INITIALIZE (R181): the default image is adopted as commit 1. -/
def reqStoreInitialize (b : Block) (s : State) : Answer :=
  checked
    [(b.length == 0, .badLength), (!inFallback s, .fallback), (!committing s, .busy), (isUnrestored s, .state)]
    s (taken (out2 1) (adopt 1 Image.default s))

/-- RESTART (R182): the restart begins when its reply has been sent whole. -/
def reqRestart (b : Block) (s : State) : Answer :=
  checked [(b.length == 0, .badLength), (!committing s, .busy)] s
    (taken [] (s.setLink { s.link with restartDue := true }))

/-! ### Meanings -/

/-- POWER_ON (R177): supply is applied. -/
def execPowerOn (s : State) : Host.Outcome State Fault Refusal := .next (restartWith .powerOn s)

/-- EXTERNAL (R177): RESET_N is held low. -/
def execExternal (s : State) : Host.Outcome State Fault Refusal := .next (restartWith .external s)

/-- SUPPLY_DIP (R177): VDD falls below the supply monitor's threshold. -/
def execSupplyDip (s : State) : Host.Outcome State Fault Refusal := .next (restartWith .supplyDip s)

/-- RESTART_REQUEST (R182): the restart that a RESTART request asked for begins; without such a request there is none
to begin (log entry 14). Taken while the reply still stands unsent, the row is the reply sent whole and the restart in one
(log entry 39). -/
def execRestartRequest (s : State) : Host.Outcome State Fault Refusal :=
  .next (if s.link.restartDue then restartWith .restartRequest s else s)

/-- RESTORE_READ_DONE (R177). -/
def execRestoreReadDone (readOk : Bool) (s : State) : Host.Outcome State Fault Refusal := .next (restoreRead readOk s)

/-- COMMIT_END (R176). Without a commit in flight there is none to end. -/
def execCommitEnd (whole : Bool) (s : State) : Host.Outcome State Fault Refusal := .next (endCommit whole s)

/-- STORE_READ (R179). -/
def execStoreRead (b : Block) (s : State) : Host.Outcome State Fault Refusal := .next (serve 0x50 (reqStoreRead b) s)

/-- STORE_LOAD (R180). -/
def execStoreLoad (b : Block) (s : State) : Host.Outcome State Fault Refusal := .next (serve 0x51 (reqStoreLoad b) s)

/-- STORE_LOAD_END (R180). -/
def execStoreLoadEnd (b : Block) (s : State) : Host.Outcome State Fault Refusal :=
  .next (serve 0x52 (reqStoreLoadEnd b) s)

/-- STORE_INITIALIZE (R181). -/
def execStoreInitialize (b : Block) (s : State) : Host.Outcome State Fault Refusal :=
  .next (serve 0x53 (reqStoreInitialize b) s)

/-- RESTART (R182). -/
def execRestart (b : Block) (s : State) : Host.Outcome State Fault Refusal := .next (serve 0x06 (reqRestart b) s)

end Sys2Proof.Machine
end

