-- ==== Sys2Proof/Machine/Settlement.lean ====
section
/-! DEFINITION. Hourly settlement (chapter 4): net nominations (R75), deviation (R76 to R79), consumption (R81), posting
(R82 to R84), records and completion (R85 to R88), the two reading requests (R90, R91), and the meanings of their
rows. The intake (R73, R74) stands with the hour boundary in Machine/Clock.lean. -/

namespace Sys2Proof.Machine

/-! ### Net nominations (R75) -/

/-- The net nomination of a slot over the records of the hour: 0 for a slot that is EMPTY. -/
def netNomination (s : State) (rs : List SchedRec) (i : Fin 24) : Int :=
  match s.acct.slots[i] with
  | none => 0
  | some _ => netOf (rs.filter (fun r => decide (r.slot = i)))

/-- The net nominations of the 24 slots. -/
def netNominations (s : State) (rs : List SchedRec) : List Int := (List.finRange 24).map (netNomination s rs)

/-- The participants of a division, `ns` standing in slot order: the slots whose net nomination has the sign of `side`, weighted by its
magnitude, and capped at it where `capped`. The other slots stand with weight 0 and receive nothing (R20). -/
def sideParticipants (side : Int) (capped : Bool) (ns : List Int) : List Participant :=
  ns.zipIdx.map (fun (n, i) =>
    if 0 < n * side then Participant.start i n.natAbs (if capped then some n.natAbs else none)
    else Participant.start i 0 (some 0))

/-! ### Deviation (R76 to R79) -/

/-- What the deviation stage forms: the tolerance part, the uncovered part and the allocations. -/
structure Deviation where
  tolerance : Int
  uncovered : Int
  allocations : List Int
  deriving DecidableEq, Repr

/-- The deviation `d` settled on the net nominations within the tolerance `band`. -/
def deviate (ns : List Int) (d : Int) (band : Nat) : Deviation :=
  if d.natAbs ≤ band then ⟨d, 0, ns⟩
  else
    let tol := d.sign * band
    let rest := d - tol
    let n := ns.sum
    let side := if n = 0 then rest.sign else n.sign
    let r := divide rest.natAbs (sideParticipants side (decide (n ≠ 0) && decide (rest.sign ≠ n.sign)) ns)
    ⟨tol, rest.sign * r.uncovered, List.zipWith (fun n x => n + rest.sign * (x : Int)) ns r.shares⟩

/-! ### Consumption (R81) -/

/-- What the consumption stage forms: each slot's charge, and the fuel and drying gas no slot carries. -/
structure Consumption where
  charges : List Nat
  fuelLeft : Nat
  dryingLeft : Nat
  deriving DecidableEq, Repr

/-- The fuel charge divided among the injecting slots, the drying charge among the withdrawing ones. -/
def consume (ns : List Int) (fc fd : Nat) : Consumption :=
  let a := divide fc (sideParticipants 1 false ns)
  let b := divide fd (sideParticipants (-1) false ns)
  ⟨List.zipWith (· + ·) a.shares b.shares, a.uncovered, b.uncovered⟩

/-! ### Posting (R82 to R84) -/

/-- An SBA entry of the posting; an entry of 0 is no change of the SBA. -/
def postSba (d : Int) (s : State) : State := if d = 0 then s else addToSba d s

/-- The clamp amount of a record that changes by `change`: the would-be inventory below 0, or the excess over the
space right (R83). -/
def Account.clampBy (a : Account) (change : Int) : Int :=
  let v := a.inventory + change
  if v < 0 then v else if (a.spaceRight : Int) < v then v - a.spaceRight else 0

/-- A slot posted with its change (R82, R83). -/
def postSlot (i : Fin 24) (change : Int) (s : State) : State :=
  match s.acct.slots[i] with
  | none => s
  | some a =>
    let k := a.clampBy change
    if k < 0 then
      addToSba k (raise .clampEmpty (some i.val) (some k) (putSlot i (some { a with inventory := 0, emptyClamp := true }) s))
    else if 0 < k then
      addToSba k (raise .clampFull (some i.val) (some k)
        (putSlot i (some { a with inventory := a.spaceRight, fullClamp := true }) s))
    else putSlot i (some { a with inventory := a.inventory + change }) s

/-- The whole posting (R82, R84): the settlement's own SBA entries, the slots in ascending order, the balance
totals. -/
def postHour (k : Intake) (dv : Deviation) (c : Consumption) (changes : List Int) (s : State) : State :=
  let s1 := postSba (-(c.dryingLeft : Int)) (postSba (-(c.fuelLeft : Int)) (postSba dv.uncovered (postSba dv.tolerance s)))
  let s2 := (List.finRange 24).foldl (fun t i => postSlot i (changes.getD i.val 0) t) s1
  s2.setAcct { s2.acct with booked := s2.acct.booked + k.qb, charged := s2.acct.charged + (k.fc : Int) + k.fd }

/-! ### Records and completion (R85 to R88) -/

/-- The clamp amount a slot's posting gives. -/
def clampOf (s : State) (changes : List Int) (i : Fin 24) : Int :=
  match s.acct.slots[i] with
  | none => 0
  | some a => a.clampBy (changes.getD i.val 0)

/-- A site-hour record appended; of 24 the oldest is dropped (R85). -/
def pushHistory (r : SiteHour) (l : List SiteHour) : List SiteHour := (if l.length < 24 then l else l.tail) ++ [r]

/-- Whether a slot held a record of the hour and is not EMPTY (R75, R86). -/
def scheduled (s : State) (k : Intake) (i : Fin 24) : Bool :=
  (s.acct.slots[i]).isSome && k.records.any (fun r => decide (r.slot = i))

/-- The stages of a settlement from net nominations to records (R75 to R87), up to HOUR_SETTLED. -/
def settleHour (k : Intake) (s : State) : State :=
  let ns := netNominations s k.records
  let n := ns.sum
  let dv := deviate ns (k.qb - n) s.site.tolerance
  let c := consume ns k.fc k.fd
  let changes := List.zipWith (fun (a : Int) (x : Nat) => a - x) dv.allocations c.charges
  let clamps := (List.finRange 24).map (clampOf s changes)
  let s1 := postHour k dv c changes s
  let row : SiteHour :=
    { hour := k.hour, qb := k.qb, fc := k.fc, fd := k.fd, net := n, deviation := k.qb - n,
      tolerancePart := dv.tolerance, uncoveredPart := dv.uncovered,
      unassigned := -((c.fuelLeft : Int) + c.dryingLeft), clampTotal := clamps.sum, sbaAfter := s1.acct.sba }
  let alloc := fun i : Fin 24 =>
    if scheduled s k i then
      some ⟨k.hour, ns.getD i.val 0, dv.allocations.getD i.val 0, c.charges.getD i.val 0, clamps.getD i.val 0⟩
    else s1.settle.alloc[i]
  let s2 := s1.setSettle { s1.settle with
    history := pushHistory row s1.settle.history
    alloc := mapVec alloc ⟨(List.finRange 24).toArray, rfl⟩ }
  let s3 := s2.setSched (s2.sched.filter (fun r => !(r.hour == k.hour)))
  raise .hourSettled none (some (k.hour : Int)) (s3.setClock { s3.clock with lastSettled := k.hour })

/-- The completion step (R70): the account table's transfers and releases, the confirmation, the return to IDLE, and
the commit. -/
def completionStep (s : State) : State :=
  let s1 := confirmation (accountStep s)
  beginCommit (s1.setSettle { s1.settle with inFlight := none })

/-- A settlement in flight brought to its end; while the engine is IDLE there is none. -/
def completeSettlement (s : State) : State :=
  match s.settle.inFlight with
  | none => s
  | some k => completionStep (settleHour k s)

/-! ### The reading requests (R90, R91) -/

/-- A site-hour record in the reply of SETTLEMENT READ: 42 words. -/
def outSiteHour (r : SiteHour) : Block :=
  outHour r.hour ++ outI4 r.qb ++ outI4 r.fc ++ outI4 r.fd ++ outI4 r.net ++ outI4 r.deviation
  ++ outI4 r.tolerancePart ++ outI4 r.uncoveredPart ++ outI4 r.unassigned ++ outI4 r.clampTotal ++ outI4 r.sbaAfter

/-- The reply of SETTLEMENT READ: positions count back from the newest record (R90). -/
def settlementReadReply (position : Nat) (s : State) : Block :=
  out1 s.settle.history.length ++ (match s.settle.history.reverse[position]? with
    | none => []
    | some r => outSiteHour r)

/-- SETTLEMENT READ (R90). -/
def reqSettlementRead (b : Block) (s : State) : Answer :=
  checked [(b.length == 1, .badLength), (!settling s, .busy), (decide (fieldW b 0 ≤ 23), .range)] s
    (taken (settlementReadReply (fieldW b 0) s) s)

/-- The reply of ALLOCATION READ (R91): an EMPTY slot, and a slot with no record, reads as absent with zero
fields. -/
def allocationReadReply (i : Fin 24) (s : State) : Block :=
  match s.acct.slots[i], s.settle.alloc[i] with
  | some a, some r =>
    outFlag true ++ out1 a.shipper ++ outHour r.hour ++ outI4 r.net ++ outI4 r.allocation ++ outI4 r.charge
    ++ outI4 r.clamp
  | _, _ => List.replicate 20 0

/-- ALLOCATION READ (R91). -/
def reqAllocationRead (b : Block) (s : State) : Answer :=
  match firstFailure [(b.length == 1, .badLength), (!settling s, .busy)] with
  | some st => refuse st s
  | none =>
    match fieldFin 24 b 0 with
    | none => refuse .range s
    | some i => taken (allocationReadReply i s) s

/-! ### Meanings -/

/-- SETTLEMENT_COMPLETION (R87). While the engine is IDLE there is no settlement to complete (log entry 14). -/
def execSettlementCompletion (s : State) : Host.Outcome State Fault Refusal := .next (completeSettlement s)

/-- SETTLEMENT_READ (R90). -/
def execSettlementRead (b : Block) (s : State) : Host.Outcome State Fault Refusal :=
  .next (serve 0x28 (reqSettlementRead b) s)

/-- ALLOCATION_READ (R91). -/
def execAllocationRead (b : Block) (s : State) : Host.Outcome State Fault Refusal :=
  .next (serve 0x29 (reqAllocationRead b) s)

end Sys2Proof.Machine
end

