-- ==== Sys2Proof/Machine/Clock.lean ====
section
/-! DEFINITION. The gas clock (R2 to R8), the meter intake (R10 to R14), the settlement's intake at the hour boundary
(R73, R74), the curve requests (R17, R18), and the meanings of their rows. -/

namespace Sys2Proof.Machine

/-! ### The hour boundary (R4, R5) -/

/-- The inputs the settlement of the running hour takes (R73, R74). -/
def intakeOf (s : State) : Intake where
  hour := s.clock.hour
  qb := s.meter.bucket
  fc := s.duty.fuel / 3600
  fd := s.dry.gas / 3600
  records := s.sched.filter (fun r => r.hour == s.clock.hour)

/-- The settlement begins: the engine is SETTLING, the bucket closes with the kept copy of the baselines, and the
accumulators keep their residues (R70, R73, R74, R175). -/
def beginSettlement (s : State) : State :=
  let k := intakeOf s
  let s1 := (s.setSettle { s.settle with inFlight := some k }).setMeter { s.meter with bucket := 0, kept := s.meter.base }
  (s1.setDuty { s1.duty with fuel := s1.duty.fuel - k.fc * 3600 }).setDry
    { s1.dry with gas := s1.dry.gas - k.fd * 3600 }

/-- The clock moved past the hour that ended: to the next hour, or back to UNSET after the last hour of gas time. -/
def Clock.nextHour (c : Clock) : Clock :=
  if c.hour = lastHour then { c with state := .unset, hour := 0, sec := 0, hourEnd := 3600, trim := 0 }
  else { c with hour := c.hour + 1, sec := 0, hourEnd := 3600, trim := 0 }

/-- Whether the last second of the running hour is at hand. -/
def boundaryDue (s : State) : Bool := !clockIsUnset s && decide (s.clock.hourEnd ≤ s.clock.sec + 1)

/-- A settlement still in flight as the hour ends is completed before the boundary (log entry 17). -/
def settleFirst (s : State) : State := if boundaryDue s then completeSettlement s else s

/-- The hour boundary, as far as it moves the clock: the settlement of the ended hour begins, and the next hour (R4, R5). -/
def endHour (s : State) : State :=
  let s1 := beginSettlement s
  s1.setClock s1.clock.nextHour

/-- What the other blocks do at the end of hour `h`: the flow controller recomputes, and at the end of hour 23 the day boundary
goes to the duty scheduler (R4, R5). At the end of the last hour of gas time R93 names two recomputations, of the boundary and
of the return to UNSET, in no order; the model makes them as one, after the clock is UNSET, so that a direction event raised
there carries no gas time (log entry 45). -/
def boundaryActs (h : Nat) : List (State → State) :=
  recomputeTarget :: (if h ≠ lastHour ∧ (h + 1) % 24 = 0 then [dayBoundary] else [])

/-- The gas clock's second while RUNNING: seconds into the hour advance, and at the hour end the boundary is taken
(R4). -/
def advanceClock (s : State) : State :=
  match s.clock.state with
  | .unset => s
  | .running => if boundaryDue s then endHour s else s.setClock { s.clock with sec := s.clock.sec + 1 }

/-! ### The report gap (R14) -/

/-- The gap noted: the flag is set and REPORT_GAP raised. -/
def noteGap (s : State) : State := raise .reportGap none none (s.setMeter { s.meter with gap := true })

/-- The watch on station reports. -/
def gapWatch (s : State) : State :=
  if !s.meter.gap && decide (s.meter.lastReport + 60 ≤ s.elapsed) then noteGap s else s

/-! ### Taking a reading (R10 to R12) -/

/-- The modulus of a totalizer. -/
def totalizerMod : Nat := 10000000000

/-- The plausibility limit P (R11). -/
def plausibility (s : State) : Nat :=
  let e := match s.meter.lastAccepted with
    | none => 86400
    | some t => min (s.elapsed - t) 86400
  (max s.site.injRight s.site.wdrRight * (e + 60) + 3599) / 3600

/-- The baselines moved to a reading taken now, the refusal count back at 0. -/
def Meter.seated (x : Meter) (tf tr now : Nat) : Meter :=
  { x with base := ⟨tf, tr, true⟩, lastAccepted := some now, refusals := 0 }

/-- A reading with the baselines valid, both totalizers below the modulus (R11, R12). -/
def assessReading (tf tr : Nat) (s : State) : State :=
  let x := s.meter
  let df := (((tf : Int) - x.base.forward) % totalizerMod).toNat
  let dr := (((tr : Int) - x.base.reverse) % totalizerMod).toNat
  let d : Int := (df : Int) - dr
  let p := plausibility s
  if df ≤ p ∧ dr ≤ p ∧ (x.bucket + d).natAbs ≤ 1000000000000000 then
    s.setMeter { x.seated tf tr s.elapsed with bucket := x.bucket + d }
  else if x.refusals + 1 < 3 then
    raise .meterImplausible none (some d) (s.setMeter { x with refusals := x.refusals + 1 })
  else raise .meterRebased none (some d) (s.setMeter (x.seated tf tr s.elapsed))

/-- A reading taken: seated where the baselines are not valid, else assessed (R10). -/
def takeReading (tf tr : Nat) (s : State) : State :=
  if s.meter.base.valid then assessReading tf tr s
  else raise .baselineSeated none none (s.setMeter (s.meter.seated tf tr s.elapsed))

/-- The meter part of a STATION REPORT block: words 0 to 5. The report-gap watch restarts (R14). -/
def reportMeter (b : Block) (s : State) : State :=
  takeReading (field3 b 0 % totalizerMod) (field3 b 3 % totalizerMod)
    (s.setMeter { s.meter with lastReport := s.elapsed, gap := false })

/-! ### CLOCK SET, CLOCK TRIM, CLOCK READ (R2, R3, R7, R8) -/

/-- Steps 1 and 2 of CLOCK SET: the clock starts, and skipped hours are told. -/
def startClock (h sec : Nat) (s : State) : State :=
  let k := h - (s.clock.lastSettled + 1)
  let s1 := s.setClock { s.clock with state := .running, hour := h, sec := sec, hourEnd := 3600, trim := 0 }
  if 0 < k then raise .clockGap none (some (k : Int)) s1 else s1

/-- Step 3: the schedule records of hours earlier than `h` are discarded. -/
def discardBefore (h : Nat) (s : State) : State :=
  let n := (s.sched.filter (fun r => decide (r.hour < h))).length
  let s1 := s.setSched (s.sched.filter (fun r => decide (h ≤ r.hour)))
  if 0 < n then raise .scheduleDiscarded none (some (n : Int)) s1 else s1

/-- Step 4: the horizon moved to at least the hour before `h` (R43), and the book trimmed to it (R44). -/
def trimBook (h : Nat) (s : State) : State :=
  let s1 := s.setBook { s.book with confirmedThrough := max s.book.confirmedThrough (h - 1) }
  setEntries (trimBefore (firstUnconfirmed s1) s1.book.entries) s1

/-- CLOCK SET taken (R3): the five steps, then the raw target recomputed (R93). -/
def clockSetEffect (h sec : Nat) (s : State) : Answer :=
  let k := h - (s.clock.lastSettled + 1)
  let n := (s.sched.filter (fun r => decide (r.hour < h))).length
  taken (out2 k ++ out1 n) (gathered recomputeTarget (confirmation (trimBook h (discardBefore h (startClock h sec s)))))

/-- CLOCK SET (R2). -/
def reqClockSet (b : Block) (s : State) : Answer :=
  let h := fieldHour b 0
  checked (settledChecks (b.length == 3) s
      ++ [(clockIsUnset s, .state), (decide (fieldW b 1 ≤ 23) && decide (fieldW b 2 ≤ 3599), .range),
          (decide (s.clock.lastSettled < h), .range)])
    s (clockSetEffect h (fieldW b 2) s)

/-- CLOCK TRIM taken: the hour end and the trim used both move by `t` (R7). -/
def clockTrimEffect (t : Int) (s : State) : Answer :=
  let e := ((s.clock.hourEnd : Int) + t).toNat
  taken (out1 e ++ out1 (e - s.clock.sec)) (s.setClock { s.clock with hourEnd := e, trim := s.clock.trim + t })

/-- CLOCK TRIM (R7). -/
def reqClockTrim (b : Block) (s : State) : Answer :=
  let t := fieldI b 0
  checked (modeChecks (b.length == 1) s
      ++ [(!clockIsUnset s, .clockUnset), (decide (-60 ≤ t) && decide (t ≤ 60), .range),
          (decide (-60 ≤ s.clock.trim + t) && decide (s.clock.trim + t ≤ 60), .range),
          (decide (60 ≤ (s.clock.hourEnd : Int) + t - s.clock.sec), .range)])
    s (clockTrimEffect t s)

/-- The reply of CLOCK READ (R8; log entry 11 on the codes of the states). -/
def clockReadReply (s : State) : Block :=
  (match s.clock.state with
    | .unset => [Config.clockUnsetCode] ++ outHour 0 ++ out1 0 ++ out1 3600 ++ outI 0
    | .running =>
      [Config.clockRunningCode] ++ outHour s.clock.hour ++ out1 s.clock.sec ++ out1 s.clock.hourEnd ++ outI s.clock.trim)
  ++ outHour s.clock.lastSettled

/-- CLOCK READ (R8). -/
def reqClockRead (b : Block) (s : State) : Answer :=
  checked [(b.length == 0, .badLength)] s (taken (clockReadReply s) s)

/-! ### The curve requests (R17, R18) -/

/-- The points of a CURVE WRITE block. -/
def pointsOf (b : Block) : Curve :=
  (chunks 2 (fieldW b 1) (b.drop 2)).map (fun q => ⟨fieldI q 0, fieldW q 1⟩)

/-- A curve replaced. -/
def putCurve (i : Fin 16) (c : Curve) (s : State) : State := s.setCurves (setVec s.curves i c)

/-- CURVE WRITE (R17). -/
def reqCurveWrite (b : Block) (s : State) : Answer :=
  let n := fieldW b 1
  match firstFailure (modeChecks (b.length == 2 + 2 * n && decide (b.length ≤ 64)) s) with
  | some st => refuse st s
  | none =>
    match fieldFin 16 b 0 with
    | none => refuse .range s
    | some i =>
      checked [(decide (2 ≤ n) && decide (n ≤ 8), .range), (pairs (fun p q => decide (p.x < q.x)) (pointsOf b), .range)]
        s (taken (out1 i.val ++ out1 n) (putCurve i (pointsOf b) s))

/-- CURVE READ (R18). -/
def reqCurveRead (b : Block) (s : State) : Answer :=
  if b.length = 1 then
    match fieldFin 16 b 0 with
    | none => refuse .range s
    | some i => taken (out1 (s.curves[i]).length ++ (s.curves[i]).flatMap (fun p => outI p.x ++ out1 p.y)) s
  else refuse .badLength s

/-- CURVE CLEAR (R18). -/
def reqCurveClear (b : Block) (s : State) : Answer :=
  match firstFailure (modeChecks (b.length == 1) s) with
  | some st => refuse st s
  | none =>
    match fieldFin 16 b 0 with
    | none => refuse .range s
    | some i => checked [(!curveReferenced s i, .state)] s (taken [] (putCurve i [] s))

/-! ### Meanings -/

/-- The clock's second, and then what the blocks do at it, the report-gap watch among them: their events carry the gas time
that the clock then shows (R167). -/
def clockSecond (s : State) : State :=
  gathered (inAnyOrder (gapWatch :: if boundaryDue s then boundaryActs s.clock.hour else [])) (advanceClock s)

/-- GAS_CLOCK_SECOND (R4): an elapsed second passes. The report-gap watch acts on it before the clock, or after it among the
other blocks, as the world takes it (log entry 16). -/
def execGasClockSecond (s : State) : Host.Outcome State Fault Refusal :=
  .next (oneOf clockSecond [fun t => clockSecond (gapWatch t)] (settleFirst (s.setElapsed (s.elapsed + 1))))

/-- HOUR_BOUNDARY (R4): the last second of the running hour passes (log entry 14). -/
def execHourBoundary (s : State) : Host.Outcome State Fault Refusal :=
  .next (if boundaryDue s then gathered (inAnyOrder (boundaryActs s.clock.hour)) (endHour (settleFirst s)) else s)

/-- REPORT_GAP (R14): the sixtieth second without a report passes (log entry 14). -/
def execReportGap (s : State) : Host.Outcome State Fault Refusal :=
  .next (if !s.meter.gap && decide (s.meter.lastReport + 60 ≤ s.elapsed + 1) then noteGap s else s)

/-- CLOCK_SET (R2, R3). -/
def execClockSet (b : Block) (s : State) : Host.Outcome State Fault Refusal := .next (serve 0x10 (reqClockSet b) s)

/-- CLOCK_TRIM (R7). -/
def execClockTrim (b : Block) (s : State) : Host.Outcome State Fault Refusal := .next (serve 0x11 (reqClockTrim b) s)

/-- CLOCK_READ (R8). -/
def execClockRead (b : Block) (s : State) : Host.Outcome State Fault Refusal := .next (serve 0x12 (reqClockRead b) s)

/-- CURVE_WRITE (R17). -/
def execCurveWrite (b : Block) (s : State) : Host.Outcome State Fault Refusal := .next (serve 0x14 (reqCurveWrite b) s)

/-- CURVE_READ (R18). -/
def execCurveRead (b : Block) (s : State) : Host.Outcome State Fault Refusal := .next (serve 0x15 (reqCurveRead b) s)

/-- CURVE_CLEAR (R18). -/
def execCurveClear (b : Block) (s : State) : Host.Outcome State Fault Refusal := .next (serve 0x16 (reqCurveClear b) s)

end Sys2Proof.Machine
end

