-- ==== Sys2Proof/Machine/Link.lean ====
section
/-! DEFINITION. The message link (chapter 8) and link supervision (chapter 9): the receiver (R159, R160), placement and
dispatch (R161 to R163), STATION REPORT, LINK STATUS and EVENT DRAIN (R164, R165, R169), the supervision timer and its
requests (R171, R172, R174), frames as bytes, and the meanings of their rows. -/

namespace Sys2Proof.Machine

/-! ### Supervision (R171) -/

/-- The timer reaches 0: the link enters FALLBACK and the flow controller recomputes (R171, R93). -/
def enterFallback (s : State) : State :=
  recomputeTarget (raise .fallbackEntered none (some (s.sup.loaded : Int))
    (s.setSup { s.sup with linkMode := .fallback, timer := none }))

/-- Whether a running timer is in its last second. -/
def Supervision.lastSecond (x : Supervision) : Bool :=
  match x.timer with
  | none => false
  | some n => decide (n ≤ 1)

/-- One elapsed second of the timer. -/
def supervisionSecond (s : State) : State :=
  match s.sup.timer with
  | none => s
  | some n => if n ≤ 1 then enterFallback s else s.setSup { s.sup with timer := some (n - 1) }

/-- A valid frame restarts the timer while the link is NORMAL, and sets the first-frame flag (R160, R171). -/
def Supervision.heard (x : Supervision) : Supervision :=
  match x.linkMode with
  | .normal => { x with firstFrame := true }.reloaded
  | .fallback => { x with firstFrame := true }

/-! ### STATION REPORT (R164) -/

/-- The gas time in the report's reply: all 0 while the clock is UNSET. -/
def outGasTime (s : State) : Block :=
  match s.clock.state with
  | .unset => out1 0 ++ out1 0 ++ out1 0
  | .running => outHour s.clock.hour ++ out1 s.clock.sec

/-- The reply of STATION REPORT (section 8.5): 11 words. -/
def stationReportReply (s : State) : Block :=
  outI2 s.flow.setpoint ++ out1 s.flow.dir.code ++ permitWord s ++ out2 (s.dry.trains[0]).share
  ++ out2 (s.dry.trains[1]).share ++ outGasTime s

/-- The three parts of a report taken by their owners, in the order the world takes (R164), and so their events and those
of the recuts, step cuts and changes of direction they bring about (R167). -/
def takeReport (b : Block) (s : State) : State := gathered (inAnyOrder [reportMeter b, reportUnits b, reportTrains b]) s

/-- STATION REPORT (R164). -/
def reqStationReport (b : Block) (s : State) : Answer :=
  checked [(b.length == 30, .badLength), (!isUnrestored s, .unrestored)] s
    (taken (stationReportReply (takeReport b s)) (takeReport b s))

/-! ### LINK STATUS (R165) -/

/-- The code of the link mode (log entry 11). -/
def linkModeCode : LinkMode → Word
  | .normal => Config.linkNormalCode
  | .fallback => Config.linkFallbackCode

/-- The reply of LINK STATUS: each field as it stood before the request. -/
def linkStatusReply (s : State) : Block :=
  out1 s.link.cause.code ++ out1 s.link.counter.toNat ++ out1 s.link.errors ++ out1 s.link.overruns
  ++ out1 s.sup.mode ++ out1 s.sup.timeout ++ [linkModeCode s.sup.linkMode] ++ outTimer s.sup.timer
  ++ out1 s.evq.entries.length ++ out1 s.evq.overwrites ++ stateFlags s

/-- LINK STATUS (R165). -/
def reqLinkStatus (b : Block) (s : State) : Answer :=
  checked [(b.length == 1, .badLength), (decide (fieldW b 0 ≤ 1), .range)] s
    (taken (linkStatusReply s)
      (if fieldW b 0 = 1 then s.setLink { s.link with errors := 0, overruns := 0 } else s))

/-! ### EVENT DRAIN (R169) -/

/-- An event entry: eleven words (section 8.4). -/
def outEvent (e : Event) : Block :=
  [e.seq] ++ outFlags [e.time.isSome, e.value.isSome]
  ++ (match e.time with
      | none => out1 0 ++ out1 0 ++ out1 0
      | some t => outHour t.hour ++ out1 t.sec)
  ++ out1 e.kind.code ++ out1 (e.subject.getD 65535) ++ outI4 (e.value.getD 0)

/-- EVENT DRAIN (R169): the oldest entries, up to four, leave the queue. -/
def reqEventDrain (b : Block) (s : State) : Answer :=
  let rest := s.evq.entries.drop 4
  checked [(b.length == 0, .badLength)] s
    (taken (out1 s.evq.overwrites ++ out1 rest.length ++ (s.evq.entries.take 4).flatMap outEvent)
      (s.setEvq { s.evq with entries := rest, overwrites := 0 }))

/-! ### SUPERVISION SET and RESUME (R172, R174) -/

/-- SUPERVISION SET (R172): in NORMAL the timer is set anew, in FALLBACK it stays stopped. -/
def reqSupervisionSet (b : Block) (s : State) : Answer :=
  let x := { s.sup with mode := fieldW b 0, timeout := fieldW b 1 }
  checked
    [(b.length == 2, .badLength), (!isUnrestored s, .unrestored),
     (decide (fieldW b 0 ≤ 3) && [10, 30, 60, 120].contains (fieldW b 1), .range)]
    s (taken [] (s.setSup (match s.sup.linkMode with
      | .normal => x.reloaded
      | .fallback => x)))

/-- RESUME taken (R174, R93). -/
def resumeEffect (s : State) : State :=
  recomputeTarget (raise .fallbackExited none none (s.setSup { s.sup with linkMode := .normal }.reloaded))

/-- RESUME (R174). -/
def reqResume (b : Block) (s : State) : Answer :=
  checked [(b.length == 0, .badLength), (!isUnrestored s, .unrestored), (inFallback s, .state)] s
    (taken [] (gathered resumeEffect s))

/-! ### Dispatch (R163) -/

/-- The catalogue of section 8.4: the request of a code. -/
def requestOf (code : Byte) : Option (Block → State → Answer) :=
  match code.toNat with
  | 0x01 => some reqStationReport
  | 0x02 => some reqLinkStatus
  | 0x03 => some reqEventDrain
  | 0x04 => some reqSupervisionSet
  | 0x05 => some reqResume
  | 0x06 => some reqRestart
  | 0x10 => some reqClockSet
  | 0x11 => some reqClockTrim
  | 0x12 => some reqClockRead
  | 0x14 => some reqCurveWrite
  | 0x15 => some reqCurveRead
  | 0x16 => some reqCurveClear
  | 0x20 => some reqAccountOpen
  | 0x21 => some reqAccountAmend
  | 0x22 => some reqAccountSuspend
  | 0x23 => some reqAccountClose
  | 0x24 => some reqAccountRead
  | 0x25 => some reqAccountAdjust
  | 0x26 => some reqTransfer
  | 0x27 => some reqSbaRead
  | 0x28 => some reqSettlementRead
  | 0x29 => some reqAllocationRead
  | 0x30 => some reqNominate
  | 0x31 => some reqCancel
  | 0x32 => some reqBookRead
  | 0x33 => some reqScheduleRead
  | 0x34 => some reqBookStatistics
  | 0x38 => some reqSiteSet
  | 0x39 => some reqFlowRead
  | 0x40 => some reqUnitSet
  | 0x41 => some reqUnitEnable
  | 0x42 => some reqUnitRead
  | 0x43 => some reqRosterSet
  | 0x48 => some reqTrainSet
  | 0x49 => some reqTrainService
  | 0x4A => some reqTrainRead
  | 0x50 => some reqStoreRead
  | 0x51 => some reqStoreLoad
  | 0x52 => some reqStoreLoadEnd
  | 0x53 => some reqStoreInitialize
  | _ => none

/-- A code that is not in the catalogue is answered UNKNOWN_REQUEST (R163). -/
def passOn (code : Byte) (b : Block) (s : State) : Answer :=
  match requestOf code with
  | none => refuse .unknownRequest s
  | some request => request b s

/-- A frame taken in hand: its request is dispatched and its reply built (R161 to R163). Whether the restore is in progress is
asked here, at the dispatch, as R163 puts it. So a frame that became valid during the restore and waited in the holding slot
until after its end is served like any other, although R166 and R170 say that a frame received during the restore is answered
BUSY: the model's choice (log entry 52). -/
def takeInHand (f : Frame) (s : State) : State :=
  reply f.code f.tag f.stamp (unlessRestoring (passOn f.code f.block) (s.setLink { s.link with inHand := some f }))

/-! ### The receiver (R159, R160) -/

/-- The frame in assembly abandoned or discarded: the error count rises and the receiver hunts. -/
def abandon (s : State) : State :=
  s.setLink { s.link with receiver := .hunting, buffer := [], errors := satSucc 65535 s.link.errors }

/-- A valid frame placed (R161): taken in hand, held, or discarded with the overrun count raised. -/
def place (f : Frame) (s : State) : State :=
  match s.link.inHand, s.link.holding with
  | none, _ => takeInHand f s
  | some _, none => s.setLink { s.link with holding := some f }
  | some _, some _ => s.setLink { s.link with overruns := satSucc 65535 s.link.overruns }

/-- A frame whose CRC holds (R160): the counter advances, supervision restarts, the receiver hunts, the frame is
placed. -/
def validFrame (code tag : Byte) (b : Block) (s : State) : State :=
  let n := s.link.counter + 1
  let s1 := s.setLink { s.link with receiver := .hunting, buffer := [], counter := n }
  place ⟨code, tag, n, b⟩ (s1.setSup s1.sup.heard)

/-- A complete frame (R160): the bytes from the length byte through the last block byte are checked against the last
two. -/
def completeFrame (bytes : List Byte) (s : State) : State :=
  let covered := (bytes.take (bytes.length - 2)).drop 1
  if crc covered == (bytes.getD (bytes.length - 2) 0).append (bytes.getD (bytes.length - 1) 0) then
    validFrame (covered.getD 1 0) (covered.getD 2 0) (wordsOf (covered.drop 3)) s
  else abandon s

/-- The sync byte of a request frame. -/
def requestSync : Byte := 0xC3

/-- A byte arrives on RXD (R159). -/
def rxByte (x : Byte) (s : State) : State :=
  match s.link.receiver with
  | .hunting =>
    if x = requestSync then s.setLink { s.link with receiver := .assembling, buffer := [x] } else s
  | .assembling =>
    let bytes := s.link.buffer ++ [x]
    let n := (bytes.getD 1 0).toNat
    if bytes.length = 2 ∧ 64 < n then abandon s
    else if 2 ≤ bytes.length ∧ bytes.length = 6 + 2 * n then completeFrame bytes s
    else s.setLink { s.link with buffer := bytes }

/-- A run of bytes arrives on RXD. -/
def rxBytes (bytes : List Byte) (s : State) : State := bytes.foldl (fun t x => rxByte x t) s

/-- Whether a frame is in assembly. -/
def assembling (s : State) : Bool := s.link.receiver == .assembling

/-! ### Replies sent (R161, R182) -/

/-- The reply on TXD is over: nothing is in hand, and a frame in the holding slot is taken in hand at once. -/
def nextInHand (s : State) : State :=
  let s1 := s.setLink { s.link with reply := none, inHand := none, holding := none }
  match s.link.holding with
  | none => s1
  | some f => takeInHand f s1

/-- The last byte of a reply leaves TXD. After the reply of RESTART the restart begins (R182). -/
def replySent (s : State) : State :=
  match s.link.reply with
  | none => s
  | some _ => if s.link.restartDue then restartWith .restartRequest s else nextInHand s

/-! ### Frames as bytes (section 8.2) -/

/-- A run of bytes followed by its CRC, high byte first. -/
def withCrc (bytes : List Byte) : List Byte := bytes ++ wordBytes (crc bytes)

/-- A request frame. -/
def requestBytes (code tag : Byte) (b : Block) : List Byte :=
  requestSync :: withCrc (BitVec.ofNat 8 b.length :: code :: tag :: blockBytes b)

/-- A reply frame. -/
def replyBytes (r : Reply) : List Byte :=
  0x3C#8 :: withCrc
    (BitVec.ofNat 8 r.block.length :: r.code :: r.tag :: BitVec.ofNat 8 r.status.code :: r.linkByte :: blockBytes r.block)

/-! ### Meanings -/

/-- FRAME_RECEIVED (R160): a run of bytes arrives on RXD. -/
def execFrameReceived (bytes : List Byte) (s : State) : Host.Outcome State Fault Refusal := .next (rxBytes bytes s)

/-- FRAME_ABANDONED (R159): a byte with a missing stop bit while a frame is in assembly, or a length byte above 64.
Without a frame to abandon there is no effect (log entry 14). -/
def execFrameAbandoned (why : BadByte) (s : State) : Host.Outcome State Fault Refusal :=
  .next (match why with
    | .missingStop => if assembling s then abandon s else s
    | .length n => if assembling s && decide (s.link.buffer.length = 1) && decide (64 < n.toNat) then abandon s else s)

/-- INTER_BYTE_TIMEOUT (R159): more than 20 ms pass between two bytes of a frame. -/
def execInterByteTimeout (s : State) : Host.Outcome State Fault Refusal :=
  .next (if assembling s then abandon s else s)

/-- REQUEST_SYNC_BYTE (R159): the byte 0xC3 arrives. -/
def execRequestSyncByte (s : State) : Host.Outcome State Fault Refusal := .next (rxByte requestSync s)

/-- REPLY_SENT (R161, R182). -/
def execReplySent (s : State) : Host.Outcome State Fault Refusal := .next (replySent s)

/-- FALLBACK_ENTERED (R171): the last second of a running supervision timer passes (log entry 14). -/
def execFallbackEntered (s : State) : Host.Outcome State Fault Refusal :=
  .next (if s.sup.lastSecond then gathered enterFallback s else s)

/-- SUPERVISION_TIMER_SECOND (R171). -/
def execSupervisionTimerSecond (s : State) : Host.Outcome State Fault Refusal := .next (gathered supervisionSecond s)

/-- STATION_REPORT (R164). -/
def execStationReport (b : Block) (s : State) : Host.Outcome State Fault Refusal :=
  .next (serve 0x01 (reqStationReport b) s)

/-- LINK_STATUS (R165). -/
def execLinkStatus (b : Block) (s : State) : Host.Outcome State Fault Refusal := .next (serve 0x02 (reqLinkStatus b) s)

/-- EVENT_DRAIN (R169). -/
def execEventDrain (b : Block) (s : State) : Host.Outcome State Fault Refusal := .next (serve 0x03 (reqEventDrain b) s)

/-- SUPERVISION_SET (R172). -/
def execSupervisionSet (b : Block) (s : State) : Host.Outcome State Fault Refusal :=
  .next (serve 0x04 (reqSupervisionSet b) s)

/-- RESUME (R174). -/
def execResume (b : Block) (s : State) : Host.Outcome State Fault Refusal := .next (serve 0x05 (reqResume b) s)

end Sys2Proof.Machine
end

