-- ==== Sys2Proof/Machine/Dispatch.lean ====
section
/-! DEFINITION. The dispatch of a command to its meaning: one arm per constructor of Instr, in the order of the table
of operations and events. -/

namespace Sys2Proof.Machine

/-- The effect of a command on everything but the queue. -/
def exec (i : Instr) (s : State) : Host.Outcome State Fault Refusal :=
  match i with
  | .powerOn => Sys2Proof.Machine.execPowerOn s
  | .external => Sys2Proof.Machine.execExternal s
  | .supplyDip => Sys2Proof.Machine.execSupplyDip s
  | .restartRequest => Sys2Proof.Machine.execRestartRequest s
  | .restoreReadDone readOk => Sys2Proof.Machine.execRestoreReadDone readOk s
  | .frameReceived bytes => Sys2Proof.Machine.execFrameReceived bytes s
  | .frameAbandoned why => Sys2Proof.Machine.execFrameAbandoned why s
  | .interByteTimeout => Sys2Proof.Machine.execInterByteTimeout s
  | .replySent => Sys2Proof.Machine.execReplySent s
  | .stationReport blk => Sys2Proof.Machine.execStationReport blk s
  | .linkStatus blk => Sys2Proof.Machine.execLinkStatus blk s
  | .eventDrain blk => Sys2Proof.Machine.execEventDrain blk s
  | .supervisionSet blk => Sys2Proof.Machine.execSupervisionSet blk s
  | .resume blk => Sys2Proof.Machine.execResume blk s
  | .restart blk => Sys2Proof.Machine.execRestart blk s
  | .clockSet blk => Sys2Proof.Machine.execClockSet blk s
  | .clockTrim blk => Sys2Proof.Machine.execClockTrim blk s
  | .clockRead blk => Sys2Proof.Machine.execClockRead blk s
  | .curveWrite blk => Sys2Proof.Machine.execCurveWrite blk s
  | .curveRead blk => Sys2Proof.Machine.execCurveRead blk s
  | .curveClear blk => Sys2Proof.Machine.execCurveClear blk s
  | .accountOpen blk => Sys2Proof.Machine.execAccountOpen blk s
  | .accountAmend blk => Sys2Proof.Machine.execAccountAmend blk s
  | .accountSuspend blk => Sys2Proof.Machine.execAccountSuspend blk s
  | .accountResume blk => Sys2Proof.Machine.execAccountResume blk s
  | .accountClose blk => Sys2Proof.Machine.execAccountClose blk s
  | .accountAdjust blk => Sys2Proof.Machine.execAccountAdjust blk s
  | .accountRead blk => Sys2Proof.Machine.execAccountRead blk s
  | .transfer blk => Sys2Proof.Machine.execTransfer blk s
  | .sbaRead blk => Sys2Proof.Machine.execSbaRead blk s
  | .settlementRead blk => Sys2Proof.Machine.execSettlementRead blk s
  | .allocationRead blk => Sys2Proof.Machine.execAllocationRead blk s
  | .nominate blk => Sys2Proof.Machine.execNominate blk s
  | .cancel blk => Sys2Proof.Machine.execCancel blk s
  | .bookRead blk => Sys2Proof.Machine.execBookRead blk s
  | .scheduleRead blk => Sys2Proof.Machine.execScheduleRead blk s
  | .bookStatistics blk => Sys2Proof.Machine.execBookStatistics blk s
  | .siteSet blk => Sys2Proof.Machine.execSiteSet blk s
  | .flowRead blk => Sys2Proof.Machine.execFlowRead blk s
  | .unitSet blk => Sys2Proof.Machine.execUnitSet blk s
  | .unitDisable blk => Sys2Proof.Machine.execUnitDisable blk s
  | .unitEnable blk => Sys2Proof.Machine.execUnitEnable blk s
  | .unitRead blk => Sys2Proof.Machine.execUnitRead blk s
  | .rosterSet blk => Sys2Proof.Machine.execRosterSet blk s
  | .trainSet blk => Sys2Proof.Machine.execTrainSet blk s
  | .trainServiceOut blk => Sys2Proof.Machine.execTrainServiceOut blk s
  | .trainServiceIn blk => Sys2Proof.Machine.execTrainServiceIn blk s
  | .trainRead blk => Sys2Proof.Machine.execTrainRead blk s
  | .storeRead blk => Sys2Proof.Machine.execStoreRead blk s
  | .storeLoad blk => Sys2Proof.Machine.execStoreLoad blk s
  | .storeLoadEnd blk => Sys2Proof.Machine.execStoreLoadEnd blk s
  | .storeInitialize blk => Sys2Proof.Machine.execStoreInitialize blk s
  | .reportGap => Sys2Proof.Machine.execReportGap s
  | .gasClockSecond => Sys2Proof.Machine.execGasClockSecond s
  | .hourBoundary => Sys2Proof.Machine.execHourBoundary s
  | .settlementCompletion => Sys2Proof.Machine.execSettlementCompletion s
  | .commitEnd whole => Sys2Proof.Machine.execCommitEnd whole s
  | .rampStep => Sys2Proof.Machine.execRampStep s
  | .turnaroundExpiry => Sys2Proof.Machine.execTurnaroundExpiry s
  | .schedulerSecond => Sys2Proof.Machine.execSchedulerSecond s
  | .startStampAged unit => Sys2Proof.Machine.execStartStampAged unit s
  | .warmUpExpiry unit => Sys2Proof.Machine.execWarmUpExpiry unit s
  | .hotHoldExpiry unit => Sys2Proof.Machine.execHotHoldExpiry unit s
  | .warmHoldExpiry unit => Sys2Proof.Machine.execWarmHoldExpiry unit s
  | .recoveryIntervalExpiry unit => Sys2Proof.Machine.execRecoveryIntervalExpiry unit s
  | .attemptsReset unit => Sys2Proof.Machine.execAttemptsReset unit s
  | .dryingSecond => Sys2Proof.Machine.execDryingSecond s
  | .heatingEnd bed => Sys2Proof.Machine.execHeatingEnd bed s
  | .coolingEnd bed => Sys2Proof.Machine.execCoolingEnd bed s
  | .maskExpiry train => Sys2Proof.Machine.execMaskExpiry train s
  | .offSpec train => Sys2Proof.Machine.execOffSpec train s
  | .onSpec train => Sys2Proof.Machine.execOnSpec train s
  | .statisticsSecond => Sys2Proof.Machine.execStatisticsSecond s
  | .fallbackEntered => Sys2Proof.Machine.execFallbackEntered s
  | .requestSyncByte => Sys2Proof.Machine.execRequestSyncByte s
  | .supervisionTimerSecond => Sys2Proof.Machine.execSupervisionTimerSecond s

end Sys2Proof.Machine
end

