-- ==== Sys2Proof/WellFormed.lean ====
section
/-! DEFINITION. Which commands the world can send as they stand: a block of at most 64 words (section 8.2), the
action word of the row for the requests that the table splits in two rows (R26, R130, R131, R140), a run of bytes
no longer than the receive buffer (chapter 8: up to 134 bytes), a length byte that does abandon (R159). The
meanings are total on ill-formed commands too; well-formedness says which of them a frame can carry. -/

namespace Sys2Proof

/-- A block fits a frame: 0 to 64 words. -/
def Block.fits (blk : Block) : Bool := blk.length ≤ 64

/-- A block whose second word, where it has exactly two, is not `other`, the action word of the sibling row. -/
def Block.notAction (other : Word) (blk : Block) : Bool :=
  !(blk.length == 2 && blk.getD 1 0 == other)

/-- The commands that can arrive as they stand. -/
def Instr.wf : Instr → Bool
  | .powerOn | .external | .supplyDip | .restartRequest | .restoreReadDone _ => true
  | .frameReceived bytes => 1 ≤ bytes.length && bytes.length ≤ 134
  | .frameAbandoned .missingStop => true
  | .frameAbandoned (.length n) => 64 < n.toNat
  | .interByteTimeout | .replySent => true
  | .stationReport b | .linkStatus b | .eventDrain b | .supervisionSet b | .resume b | .restart b
  | .clockSet b | .clockTrim b | .clockRead b | .curveWrite b | .curveRead b | .curveClear b
  | .accountOpen b | .accountAmend b | .accountClose b | .accountAdjust b | .accountRead b
  | .transfer b | .sbaRead b | .settlementRead b | .allocationRead b
  | .nominate b | .cancel b | .bookRead b | .scheduleRead b | .bookStatistics b
  | .siteSet b | .flowRead b | .unitSet b | .unitRead b | .rosterSet b
  | .trainSet b | .trainRead b | .storeRead b | .storeLoad b | .storeLoadEnd b | .storeInitialize b => b.fits
  | .accountSuspend b | .unitDisable b | .trainServiceOut b => b.fits && b.notAction 1
  | .accountResume b | .unitEnable b | .trainServiceIn b => b.fits && b.notAction 0
  | .reportGap | .gasClockSecond | .hourBoundary | .settlementCompletion | .commitEnd _
  | .rampStep | .turnaroundExpiry | .schedulerSecond
  | .startStampAged _ | .warmUpExpiry _ | .hotHoldExpiry _ | .warmHoldExpiry _
  | .recoveryIntervalExpiry _ | .attemptsReset _ | .dryingSecond | .heatingEnd _ | .coolingEnd _
  | .maskExpiry _ | .offSpec _ | .onSpec _ | .statisticsSecond | .fallbackEntered
  | .requestSyncByte | .supervisionTimerSecond => true

end Sys2Proof
end

