-- ==== Sys2Proof/Safety.lean ====
section
/-! DEFINITION. What the statements about the part are said in: how a request row is answered, which requests a mode
refuses, what a sound state of the part is, and what stands in which word of a reply. -/

namespace Sys2Proof

/-! ### The requests among the commands -/

/-- The code and the block of a command that is a request row (section 8.4). -/
def Instr.request : Instr → Option (Byte × Block)
  | .stationReport b => some (0x01, b)
  | .linkStatus b => some (0x02, b)
  | .eventDrain b => some (0x03, b)
  | .supervisionSet b => some (0x04, b)
  | .resume b => some (0x05, b)
  | .restart b => some (0x06, b)
  | .clockSet b => some (0x10, b)
  | .clockTrim b => some (0x11, b)
  | .clockRead b => some (0x12, b)
  | .curveWrite b => some (0x14, b)
  | .curveRead b => some (0x15, b)
  | .curveClear b => some (0x16, b)
  | .accountOpen b => some (0x20, b)
  | .accountAmend b => some (0x21, b)
  | .accountSuspend b => some (0x22, b)
  | .accountResume b => some (0x22, b)
  | .accountClose b => some (0x23, b)
  | .accountRead b => some (0x24, b)
  | .accountAdjust b => some (0x25, b)
  | .transfer b => some (0x26, b)
  | .sbaRead b => some (0x27, b)
  | .settlementRead b => some (0x28, b)
  | .allocationRead b => some (0x29, b)
  | .nominate b => some (0x30, b)
  | .cancel b => some (0x31, b)
  | .bookRead b => some (0x32, b)
  | .scheduleRead b => some (0x33, b)
  | .bookStatistics b => some (0x34, b)
  | .siteSet b => some (0x38, b)
  | .flowRead b => some (0x39, b)
  | .unitSet b => some (0x40, b)
  | .unitDisable b => some (0x41, b)
  | .unitEnable b => some (0x41, b)
  | .unitRead b => some (0x42, b)
  | .rosterSet b => some (0x43, b)
  | .trainSet b => some (0x48, b)
  | .trainServiceOut b => some (0x49, b)
  | .trainServiceIn b => some (0x49, b)
  | .trainRead b => some (0x4A, b)
  | .storeRead b => some (0x50, b)
  | .storeLoad b => some (0x51, b)
  | .storeLoadEnd b => some (0x52, b)
  | .storeInitialize b => some (0x53, b)
  | _ => none

/-- The block words a request takes by the catalogue of section 8.4; of CURVE WRITE, by the point count its second
word carries. -/
def catalogueWords (code : Byte) (b : Block) : Nat :=
  match code.toNat with
  | 0x01 => 30
  | 0x02 => 1
  | 0x04 => 2
  | 0x10 => 3
  | 0x11 => 1
  | 0x14 => 2 + 2 * (b.getD 1 0).toNat
  | 0x15 => 1
  | 0x16 => 1
  | 0x20 => 10
  | 0x21 => 10
  | 0x22 => 2
  | 0x23 => 1
  | 0x24 => 1
  | 0x25 => 4
  | 0x26 => 5
  | 0x28 => 1
  | 0x29 => 1
  | 0x30 => 9
  | 0x31 => 7
  | 0x32 => 2
  | 0x33 => 3
  | 0x34 => 3
  | 0x38 => 29
  | 0x40 => 6
  | 0x41 => 2
  | 0x42 => 1
  | 0x43 => 6
  | 0x48 => 17
  | 0x49 => 2
  | 0x4A => 1
  | 0x50 => 1
  | 0x51 => 33
  | _ => 0

/-- The codes refused in UNRESTORED mode (R178). -/
def unrestoredRefuses : List Byte :=
  [0x01, 0x04, 0x05, 0x10, 0x11, 0x14, 0x16, 0x20, 0x21, 0x22, 0x23, 0x25, 0x26, 0x30, 0x31, 0x38, 0x40, 0x41, 0x43,
   0x48, 0x49]

/-- The codes refused in FALLBACK (R173). -/
def fallbackRefuses : List Byte :=
  [0x10, 0x11, 0x14, 0x16, 0x20, 0x21, 0x22, 0x23, 0x25, 0x26, 0x30, 0x31, 0x38, 0x40, 0x41, 0x43, 0x48, 0x49, 0x51,
   0x52, 0x53]

/-- The codes held off while a settlement is in flight (R71). -/
def settlingRefuses : List Byte :=
  [0x20, 0x21, 0x22, 0x23, 0x25, 0x26, 0x24, 0x27, 0x30, 0x31, 0x32, 0x33, 0x38, 0x28, 0x29, 0x10, 0x52]

/-- The codes held off while a commit is in flight (R176). -/
def committingRefuses : List Byte := [0x50, 0x51, 0x52, 0x53, 0x06]

end Sys2Proof

namespace Sys2Proof.Machine

/-! ### Answers -/

/-- The part `t` with a reply of that code and tag, its counter value stamped on the link byte (R162). -/
def repliedWith (code tag : Byte) (n : BitVec 4) (st : Status) (out : Block) (t : State) : State :=
  t.setLink { t.link with reply := some ⟨code, tag, st, linkByte n t, out⟩ }

/-- The part `t` with the reply of a request row: the code, tag 0, the status, the link byte with the counter as it
stood in `s`, and the output block (R162, log entry 13). -/
def answeredWith (code : Byte) (st : Status) (out : Block) (s t : State) : State :=
  repliedWith code 0 s.link.counter st out t

/-- A part that takes configuration: no restore, not UNRESTORED, link NORMAL. -/
abbrev State.plain (s : State) : Prop := restoring s = false ∧ isUnrestored s = false ∧ inFallback s = false

/-- A part that takes account requests: plain, with no settlement in flight. -/
abbrev State.settled (s : State) : Prop := s.plain ∧ settling s = false

/-- A request row refused with a status: the part as it was, with the reply (R162). -/
def refusedWith (code : Byte) (st : Status) (s : State) : State := answeredWith code st [] s s

/-- The command `c` is taken or refused in `s` with a status and an output block, and leaves the part as it is in `t` but
for its reply, whatever the reply's tag and the counter value stamped on it. -/
def answers (c : Instr) (code : Byte) (st : Status) (out : Block) (s t : State) : Prop :=
  ∃ (tag : Byte) (n : BitVec 4), exec c s = .next (repliedWith code tag n st out t)

/-- What a ratchet field of a block names: 65,535 for absent, or the id of a written curve (R24). -/
def ratchetNames (s : State) (n : Nat) (o : Option (Fin 16)) : Prop :=
  (n = 65535 ∧ o = none) ∨ ∃ i : Fin 16, n = i.val ∧ s.curves[i] ≠ [] ∧ o = some i

/-! ### The checks of the requests, in the order of their rules

Each row of a rule's table stands as what must hold and the status where it fails, written from the rule and not from the
request's own definition. -/

/-- The block is that many words long: the first check of every request (R163). -/
def ofLength (words : Nat) (b : Block) : Bool × Status := (decide (b.length = words), .badLength)

/-- The part is not UNRESTORED. -/
def notUnrestored (s : State) : Bool × Status := (!isUnrestored s, .unrestored)

/-- The link mode is not FALLBACK. -/
def notFallback (s : State) : Bool × Status := (!inFallback s, .fallback)

/-- No settlement is in flight. -/
def notSettling (s : State) : Bool × Status := (!settling s, .busy)

/-- No commit is in flight. -/
def notCommitting (s : State) : Bool × Status := (!committing s, .busy)

/-- The first three checks of a request that configures the part (R129 to R132, R140, R156). -/
def configChecks (words : Nat) (b : Block) (s : State) : List (Bool × Status) :=
  [ofLength words b, notUnrestored s, notFallback s]

/-- The first four checks of a request that a settlement in flight holds off too (R2, R23, R45, R48, R109). -/
def planChecks (words : Nat) (b : Block) (s : State) : List (Bool × Status) := configChecks words b s ++ [notSettling s]

/-- Every row of a table of ranges holds: least, figure, most. -/
def inRanges (rows : List (Int × Int × Int)) : Bool := rows.all (fun r => decide (r.1 ≤ r.2.1) && decide (r.2.1 ≤ r.2.2))

/-- The slot that holds a shipper id, the lowest-indexed one. -/
def slotHolding (s : State) (id : Nat) : Option (Fin 24) :=
  (List.finRange 24).find? (fun i => (s.acct.slots[i]).any (fun a => a.shipper == id))

/-- The record that holds a shipper id. -/
def recordHolding (s : State) (id : Nat) : Option Account := (slotHolding s id).bind (fun i => s.acct.slots[i])

/-- A curve id names a written curve of 0 to 15. -/
def writtenId (s : State) (n : Nat) : Bool := (s.curves.toList[n]?).any (fun c => c ≠ [])

/-- The ranges of R24 that ACCOUNT OPEN and ACCOUNT AMEND share: space right, rights and ratchet curve ids. -/
def rightsRanges (b : Block) (s : State) : Bool :=
  inRanges [(1, field3 b 1, 999999999999), (0, field2 b 4, 16000000), (0, field2 b 6, 16000000)]
  && [fieldW b 8, fieldW b 9].all (fun n => n == 65535 || writtenId s n)

/-- The ranges of the site settings (section 5.6), as SITE SET carries them (section 8.4). -/
def siteRanges (b : Block) : Bool :=
  inRanges [(0, field2 b 0, 16000000), (0, field2 b 2, 16000000), (1, field2 b 4, 200000), (1, field2 b 6, 200000),
    (1, field2 b 8, 400000), (0, fieldW b 10, 3600), (1, fieldW b 11, 4), (0, field2 b 12, 10000000),
    (0, field3 b 14, 100000000000), (500, fieldW b 17, 1000), (300, fieldW b 18, 950), (1, fieldW b 19, 6),
    (0, fieldW b 20, 7200), (60, fieldW b 21, 3600), (30, fieldW b 22, 1800), (5, fieldW b 23, 600),
    (0, fieldW b 24, 14400), (0, field2 b 25, 86400), (2, fieldW b 27, 15), (0, fieldW b 28, 1)]

/-- The ranges of a train's settings (section 7.1, R156), as TRAIN SET carries them, but for the curve. -/
def trainRanges (b : Block) : Bool :=
  inRanges [(1, field2 b 1, 8000000), (0, fieldW b 3, 1000), (500, fieldW b 5, 1000), (600, fieldW b 6, 43200),
    (600, fieldW b 7, 21600), (0, field2 b 8, 200000), (0, field2 b 10, 2000000), (-600, fieldI b 12, 400),
    (-600, fieldI b 13, 399), (0, fieldW b 14, 3600), (0, fieldW b 15, 3600)]
  && [0, 60, 180, 600].contains (fieldW b 16)

/-- The checks that NOMINATE and CANCEL apply after those of R23 (R45, R48): the clock, the shipper, the state of its record,
the codes and the hours, the first unconfirmed hour and the room, each given in its place. -/
def bookChecks (b : Block) (s : State) (state : Account → Bool) (ranges onTime : Bool)
    (room : Fin 24 → Direction → Class → Bool) : List (Bool × Status) :=
  let d : Direction := if fieldW b 1 = 0 then .inject else .withdraw
  let c : Class := if fieldW b 2 = 0 then .firm else .interruptible
  [(!clockIsUnset s, .clockUnset), ((recordHolding s (fieldW b 0)).isSome, .unknownShipper),
   ((recordHolding s (fieldW b 0)).any state, .state),
   (inRanges [(0, fieldW b 1, 1), (0, fieldW b 2, 1), (0, fieldW b 4, 23), (0, fieldW b 6, 23),
      (fieldHour b 3, fieldHour b 5, s.clock.hour + 36)] && ranges, .range),
   (onTime, .late), ((slotHolding s (fieldW b 0)).any (fun i => room i d c), .noRoom)]

/-- The checks of a request row in the order its rule gives them: what must hold, and the status where it does not. -/
def requestChecks (s : State) : Instr → List (Bool × Status)
  -- R164, R165, R169, R172, R174, R182
  | .stationReport b => [ofLength 30 b, notUnrestored s]
  | .linkStatus b => [ofLength 1 b, (decide (fieldW b 0 ≤ 1), .range)]
  | .eventDrain b => [ofLength 0 b]
  | .supervisionSet b =>
    [ofLength 2 b, notUnrestored s, (decide (fieldW b 0 ≤ 3) && [10, 30, 60, 120].contains (fieldW b 1), .range)]
  | .resume b => [ofLength 0 b, notUnrestored s, (inFallback s, .state)]
  | .restart b => [ofLength 0 b, notCommitting s]
  -- R2, R7, R8
  | .clockSet b => planChecks 3 b s ++ [(clockIsUnset s, .state),
      (inRanges [(0, fieldW b 1, 23), (0, fieldW b 2, 3599)], .range),
      (decide (s.clock.lastSettled < fieldW b 0 * 24 + fieldW b 1), .range)]
  | .clockTrim b =>
    let t := fieldI b 0
    configChecks 1 b s ++ [(!clockIsUnset s, .clockUnset), (inRanges [(-60, t, 60)], .range),
      (inRanges [(-60, s.clock.trim + t, 60)], .range), (decide (60 ≤ (s.clock.hourEnd : Int) + t - s.clock.sec), .range)]
  | .clockRead b => [ofLength 0 b]
  -- R17, R18
  | .curveWrite b =>
    let n := fieldW b 1
    [(decide (b.length = 2 + 2 * n ∧ b.length ≤ 64), .badLength), notUnrestored s, notFallback s,
     (inRanges [(0, fieldW b 0, 15), (2, n, 8)], .range),
     ((List.range (n - 1)).all (fun k => decide (fieldI b (2 + 2 * k) < fieldI b (4 + 2 * k))), .range)]
  | .curveRead b => [ofLength 1 b, (decide (fieldW b 0 ≤ 15), .range)]
  | .curveClear b => configChecks 1 b s ++ [(decide (fieldW b 0 ≤ 15), .range),
      (!(s.acct.slots.toList.any (fun o => o.any (fun a =>
            [a.injCurve, a.wdrCurve].any (fun c => c.any (fun k => k.val == fieldW b 0))))
        || (s.duty.units.toList.map (fun u => u.cfg.curve) ++ s.dry.trains.toList.map (fun x => x.cfg.curve)).any
            (fun c => c.any (fun k => k.val == fieldW b 0))), .state)]
  -- R23 to R28, R30, R33, R40
  | .accountOpen b => planChecks 10 b s ++ [(inRanges [(1, fieldW b 0, 65534)] && rightsRanges b s, .range),
      ((recordHolding s (fieldW b 0)).isNone, .state), (s.acct.slots.toList.any (fun o => o.isNone), .noRoom)]
  | .accountAmend b =>
    let r := recordHolding s (fieldW b 0)
    planChecks 10 b s ++ [(r.isSome, .unknownShipper), (r.any (fun a => a.state ≠ .closing), .state),
      (rightsRanges b s, .range), (r.any (fun a => decide (a.inventory ≤ (field3 b 1 : Int))), .range)]
  | .accountSuspend b | .accountResume b =>
    let r := recordHolding s (fieldW b 0)
    planChecks 2 b s ++ [(r.isSome, .unknownShipper), (decide (fieldW b 1 ≤ 1), .range),
      (r.any (fun a => a.state == (if fieldW b 1 = 0 then AccountState.opened else .suspended)), .state)]
  | .accountClose b =>
    let r := recordHolding s (fieldW b 0)
    planChecks 1 b s ++ [(!clockIsUnset s, .clockUnset), (r.isSome, .unknownShipper),
      (r.any (fun a => a.state ≠ .closing), .state), (r.any (fun a => a.inventory == 0), .state),
      (s.sched.all (fun x => decide (slotHolding s (fieldW b 0) ≠ some x.slot ∨ x.hour ≤ s.clock.hour)), .state)]
  | .accountAdjust b =>
    let r := recordHolding s (fieldW b 0)
    let q := fieldI3 b 1
    planChecks 4 b s ++ [(r.isSome, .unknownShipper), (r.any (fun a => a.state ≠ .closing), .state),
      (inRanges [(-999999999999, q, 999999999999)], .range),
      (r.any (fun a => inRanges [(0, a.inventory + q, a.spaceRight)]), .range),
      (inRanges [(-1000000000000000, s.acct.sba - q, 1000000000000000)], .range)]
  | .accountRead b => [ofLength 1 b, notSettling s, (decide (fieldW b 0 ≤ 23), .range)]
  | .transfer b =>
    let source := recordHolding s (fieldW b 0)
    let target := recordHolding s (fieldW b 1)
    planChecks 5 b s ++ [(inRanges [(1, field3 b 2, 999999999999)] && decide (fieldW b 0 ≠ fieldW b 1), .range),
      (source.isSome && target.isSome, .unknownShipper),
      (!(source.any (fun a => a.state == .closing) || target.any (fun a => a.state == .closing)), .state),
      (decide (s.acct.transfers.length < 16), .noRoom)]
  | .sbaRead b => [ofLength 0 b, notSettling s]
  -- R90, R91
  | .settlementRead b => [ofLength 1 b, notSettling s, (decide (fieldW b 0 ≤ 23), .range)]
  | .allocationRead b => [ofLength 1 b, notSettling s, (decide (fieldW b 0 ≤ 23), .range)]
  -- R45, R46, R48, R63, R64, R68
  | .nominate b => planChecks 9 b s ++ bookChecks b s (fun a => a.state == .opened)
      (inRanges [(0, field2 b 7, 16000000), (1, fieldHour b 5 + 1 - fieldHour b 3, 24)])
      (decide (s.book.confirmedThrough < fieldHour b 3))
      (fun i d c => decide ((removeHours i d c (fieldHour b 3) (fieldHour b 5) s.book.entries).length + 1 ≤ 256))
  | .cancel b => planChecks 7 b s ++ bookChecks b s (fun a => a.state ≠ .closing) true
      (decide (s.book.confirmedThrough < fieldHour b 5))
      (fun i d c => decide (s.book.entries.length < 256) || s.book.entries.all (fun e =>
        !(e.hasKey i d c && decide (e.next < max (fieldHour b 3) (s.book.confirmedThrough + 1))
          && decide (fieldHour b 5 < e.last))))
  | .bookRead b => [ofLength 2 b, notSettling s, (decide (fieldW b 1 ≤ 255), .range)]
  | .scheduleRead b => [ofLength 3 b, notSettling s, (inRanges [(0, fieldW b 1, 23), (0, fieldW b 2, 95)], .range)]
  | .bookStatistics b =>
    [ofLength 3 b, (inRanges [(0, fieldW b 0, 65534), (0, fieldW b 1, 256), (0, fieldW b 2, 1)], .range)]
  -- R109, R111
  | .siteSet b => planChecks 29 b s ++ [(siteRanges b, .range), (decide (fieldW b 18 < fieldW b 17), .range)]
  | .flowRead b => [ofLength 0 b]
  -- R129 to R132, R136
  | .unitSet b =>
    configChecks 6 b s ++ [(decide (fieldW b 0 ≤ 5), .range),
      ((s.duty.units.toList[fieldW b 0]?).any (fun u => u.state == .disabled), .state),
      (inRanges [(1, field2 b 1, 4000000), (0, fieldW b 4, 3), (0, fieldW b 5, 3)], .range),
      (writtenId s (fieldW b 3), .range)]
  | .unitDisable b | .unitEnable b =>
    configChecks 2 b s ++ [(inRanges [(0, fieldW b 0, 5), (0, fieldW b 1, 1)], .range),
      (decide (fieldW b 1 = 0)
        || (s.duty.units.toList[fieldW b 0]?).any (fun u => u.state == .disabled && u.configured), .state)]
  | .unitRead b => [ofLength 1 b, (decide (fieldW b 0 ≤ 5), .range)]
  | .rosterSet b =>
    configChecks 6 b s ++ [((List.range 6).all (fun n => (List.range 6).any (fun k => fieldW b k == n)), .range)]
  -- R140, R156, R158
  | .trainSet b =>
    configChecks 17 b s ++ [(decide (fieldW b 0 ≤ 1), .range),
      ((s.dry.trains.toList[fieldW b 0]?).any (fun x => x.state == .out), .state), (trainRanges b, .range),
      (decide (fieldI b 13 < fieldI b 12), .range), (writtenId s (fieldW b 4), .range)]
  | .trainServiceOut b | .trainServiceIn b =>
    configChecks 2 b s ++ [(inRanges [(0, fieldW b 0, 1), (0, fieldW b 1, 1)], .range),
      (decide (fieldW b 1 = 0)
        || (s.dry.trains.toList[fieldW b 0]?).any (fun x => x.state == .out && x.configured), .state)]
  | .trainRead b => [ofLength 1 b, (decide (fieldW b 0 ≤ 1), .range)]
  -- R179 to R181
  | .storeRead b => [ofLength 1 b, notCommitting s, (decide (fieldW b 0 ≤ 383), .range)]
  | .storeLoad b => [ofLength 33 b, notFallback s, notCommitting s, (decide (fieldW b 0 ≤ 383), .range)]
  | .storeLoadEnd b =>
    let ws := bufferWords s.store.buffer
    [ofLength 0 b, notFallback s, notSettling s, notCommitting s, (clockIsUnset s, .state),
     (decide (crc (blockBytes (ws.take 12287)) = ws.getD 12287 0), .range),
     ((imageRead ws).any Image.consistent, .range)]
  | .storeInitialize b => [ofLength 0 b, notFallback s, notCommitting s, (isUnrestored s, .state)]
  -- the commands that are no requests
  | _ => []

/-- Outside the restore a request row applies its checks in their order: the first that fails gives the status of a refusal,
and where none fails the request is taken (R163). -/
def keepsItsChecks (c : Instr) (s : State) : Prop :=
  ∀ (code : Byte) (b : Block), c.request = some (code, b) → restoring s = false →
    match (requestChecks s c).find? (fun x => !x.1) with
    | some x => exec c s = .next (refusedWith code x.2 s)
    | none => ∃ (out : Block) (t : State), exec c s = .next (answeredWith code .ok out s t)

/-! ### Frames -/

/-- The two bytes of a word as a frame sends them, high byte first (section 8.2). -/
def highThenLow (w : Word) : List Byte := [w.extractLsb' 8 8, w.extractLsb' 0 8]

/-! ### What a command leaves alone -/

/-- The parts of the state. -/
inductive Part where
  | pending
  | world
  | elapsed
  | clock
  | meter
  | curves
  | site
  | acct
  | book
  | sched
  | settle
  | flow
  | duty
  | dry
  | link
  | evq
  | sup
  | store
  deriving DecidableEq, Repr

/-- A part of the state is the same in two states. -/
def Part.same (s t : State) : Part → Prop
  | .pending => t.pending = s.pending
  | .world => t.world = s.world
  | .elapsed => t.elapsed = s.elapsed
  | .clock => t.clock = s.clock
  | .meter => t.meter = s.meter
  | .curves => t.curves = s.curves
  | .site => t.site = s.site
  | .acct => t.acct = s.acct
  | .book => t.book = s.book
  | .sched => t.sched = s.sched
  | .settle => t.settle = s.settle
  | .flow => t.flow = s.flow
  | .duty => t.duty = s.duty
  | .dry => t.dry = s.dry
  | .link => t.link = s.link
  | .evq => t.evq = s.evq
  | .sup => t.sup = s.sup
  | .store => t.store = s.store

/-- Every part but those named is left alone. -/
def State.changesOnly (s : State) (ps : List Part) (t : State) : Prop := ∀ p : Part, p ∉ ps → p.same s t

/-! ### Events appended -/

/-- An event as it is raised, before it takes its sequence number. -/
structure Raised where
  time : Option GasTime
  kind : EventKind
  subject : Option Nat
  value : Option Int
  deriving DecidableEq, Repr

/-- A run of events appended, one after the other (R167). -/
def EventQueue.pushAll (q : EventQueue) (l : List Raised) : EventQueue :=
  l.foldl (fun q r => q.push r.time r.kind r.subject r.value) q

/-- Among the events appended from `s` to `t` stand `es`, in their order. -/
def toldBetween (s t : State) (es : List Raised) : Prop := ∃ l : List Raised, t.evq = s.evq.pushAll l ∧ es.Sublist l

/-- The SBA_LIMIT events of a run of changes of the SBA, each after the events that stand before it: one is raised where a
change carries the magnitude above the limit (R38). -/
def sbaTrail (time : Option GasTime) (limit : Nat) : Int → List (List Raised × Int) → List Raised
  | _, [] => []
  | sba, (es, d) :: rest =>
    es ++ (if sba.natAbs ≤ limit ∧ limit < (sba + d).natAbs then [⟨time, .sbaLimit, none, some (sba + d)⟩] else [])
      ++ sbaTrail time limit (sba + d) rest

/-! ### Confirmation (R53) -/

/-- Every hour from the first unconfirmed one through `z` confirmed, one at a time, ascending (R53). -/
def confirmedTo (z : Nat) (s : State) : State :=
  (List.range' (s.book.confirmedThrough + 1) (z - s.book.confirmedThrough)).foldl (fun t h => confirmHour h t) s

/-- The keys, hours and requests of a run of records: what no cut changes. -/
def asked (rs : List SchedRec) : List (Nat × Nat) := rs.map (fun r => (r.rank, r.requested))

/-! ### Recut (R59 to R61) -/

/-- An hour that a recut covers: later than the current hour, or any hour while the clock is UNSET (R60, R61). -/
def isLaterHour (t : State) (h : Nat) : Prop := t.clock.state = .unset ∨ t.clock.hour < h

/-- The net of every later hour lies within the two declared capacities. -/
def laterHoursFit (t : State) : Prop :=
  ∀ h : Nat, isLaterHour t h →
    netConfirmed t.sched h ≤ t.duty.declared ∧ -(t.dry.capacity : Int) ≤ netConfirmed t.sched h

/-- From `s` to `t` the schedule is recut on each fall of a declared capacity, and else stands (R59 to R61): no record comes
or goes; one that changes is of a later hour, loses confirmed quantity, keeps its request, takes the state of its new quantity,
CAPACITY as its reason unless it has one, and a higher recut count, and RECUT is raised for its hour; where a declared
capacity has fallen, or a record has changed, the net of every later hour lies within the capacities. -/
def recutFollows (s t : State) : Prop :=
  t.sched.length = s.sched.length
  ∧ (∀ (i : Nat) (r q : SchedRec), s.sched[i]? = some r → t.sched[i]? = some q → q ≠ r →
      isLaterHour t r.hour ∧ q.confirmed < r.confirmed ∧ (r.recuts < q.recuts ∨ q.recuts = 255)
      ∧ q = { r with
          confirmed := q.confirmed, state := recordState r.requested q.confirmed
          reason := some (r.reason.getD .capacity), recuts := q.recuts }
      ∧ toldBetween s t [⟨gasTime t, .recut, none, some (r.hour : Int)⟩])
  ∧ (t.duty.declared < s.duty.declared ∨ t.dry.capacity < s.dry.capacity ∨ t.sched ≠ s.sched → laterHoursFit t)

/-! ### The direction machine (R101 to R105) -/

/-- From `s` to `t` the direction state goes as R101 to R105 say, given the T_raw and the S that `t` holds: HOLD leaves for
the last direction at once, or through TURNAROUND; a direction ends when S is 0 with T_raw 0 or on the other side; TURNAROUND
waits; a turnaround hold of 0 expires at once. Each entry raises its event and sets the last direction. -/
def redirected (s t : State) : Prop :=
  let r := t.flow.tRaw
  let hold := t.site.turnHold
  let stays : Prop := t.flow.dir = s.flow.dir ∧ t.flow.timer = s.flow.timer ∧ t.flow.lastDir = s.flow.lastDir
  let begun : Raised := ⟨gasTime t, .turnaroundBegin, none, some (hold : Int)⟩
  let enters (before : List Raised) (d : FlowDir) : Prop := t.flow.dir = d
    ∧ t.flow.lastDir = (match d with
      | .injecting => some .inject
      | .withdrawing => some .withdraw
      | _ => s.flow.lastDir)
    ∧ toldBetween s t (before ++ [⟨gasTime t, .directionChanged, none, some (d.code : Int)⟩])
  let turns : Prop :=
    (hold ≠ 0 → t.flow.dir = .turnaround ∧ t.flow.timer = hold ∧ t.flow.lastDir = s.flow.lastDir
        ∧ toldBetween s t [begun])
    ∧ (hold = 0 → t.flow.timer = 0
        ∧ enters [begun] (if 0 < r then .injecting else if r < 0 then .withdrawing else .hold))
  match s.flow.dir with
  | .hold =>
    if r = 0 then stays
    else if 0 < r ∧ s.flow.lastDir = some .inject then enters [] .injecting
    else if r < 0 ∧ s.flow.lastDir = some .withdraw then enters [] .withdrawing
    else turns
  | .injecting => if t.flow.setpoint = 0 ∧ r ≤ 0 then (if r = 0 then enters [] .hold else turns) else stays
  | .withdrawing => if t.flow.setpoint = 0 ∧ 0 ≤ r then (if r = 0 then enters [] .hold else turns) else stays
  | .turnaround => stays

/-! ### Restarts -/

/-- The beds and the bed capacity that a train record takes from an image at a held temperature, as R139 says: a phase
restored starts again, of two ADSORBING beds the higher-indexed heats, of two then regenerating it is READY, a READY bed holds
no load. The beds are given where none is then taken up (R151) or has reached its swap point (R148). -/
def bedsTaken (m : Image) (j : Fin 2) (temp : Int) (y : Train) : Prop :=
  let x := m.trains[j]
  let timed (d : BedImage) : Bed := ⟨d.state, d.load, if d.state = .heating then x.cfg.heating
    else if d.state = .cooling then x.cfg.cooling else 0⟩
  let regenerating (d : Bed) : Prop := d.state = .heating ∨ d.state = .cooling
  let emptied (d : Bed) : Bed := if d.state = .ready then ⟨.ready, 0, 0⟩ else d
  let lo := timed x.lo
  let h1 : Bed := if x.lo.state = .adsorbing ∧ x.hi.state = .adsorbing then ⟨.heating, x.hi.load, x.cfg.heating⟩
    else timed x.hi
  let hi : Bed := if regenerating lo ∧ regenerating h1 then ⟨.ready, 0, 0⟩ else h1
  let cap := if x.configured = true then (match x.cfg.curve with
    | none => 0
    | some c => evalCurve m.curves[c] temp) else 0
  y.bedCap = cap
  ∧ ((x.service = false ∨ lo.state = .adsorbing ∨ hi.state = .adsorbing) →
      (∀ d : Bed, d = lo ∨ d = hi → d.state = .adsorbing → d.load * 1000 < cap * 3600000000 * x.cfg.swapPoint) →
      y.lo = emptied lo ∧ y.hi = emptied hi ∧ y.deferred = false)

/-- The part holds the default image, as the chapters give it with their blocks' restart values (R9, R22, R42, R51, R69, R113,
R139, R170, R181): no accounts, no plan, every curve unwritten, the site settings at their defaults, no unit and no train
configured, no baseline; and every working field that an adoption sets as a restart does stands at its restart value. The start
lists of the units and the values the trains hold from reports are not part of it. The fields of an unconfigured record that no
rule gives (log entry 4) and the figures of baselines that are not valid (log entry 27) are the model's choice. -/
def holdsDefaultImage (t : State) : Prop :=
  ((∀ i : Fin 24, t.acct.slots[i] = none) ∧ t.acct.sba = 0 ∧ t.acct.alert = .armed ∧ t.acct.opening = 0 ∧ t.acct.booked = 0
    ∧ t.acct.charged = 0 ∧ t.acct.transfers = [] ∧ t.acct.nextTransfer = 0)
  ∧ (∀ i : Fin 16, t.curves[i] = []) ∧ t.site = Site.default
  ∧ t.book.entries = [] ∧ t.book.nextArrival = 0 ∧ t.book.confirmedThrough = 0 ∧ t.sched = []
  ∧ t.settle.history = [] ∧ (∀ i : Fin 24, t.settle.alloc[i] = none)
  ∧ (t.meter.base = ⟨0, 0, false⟩ ∧ t.meter.kept = ⟨0, 0, false⟩ ∧ t.meter.lastAccepted = none ∧ t.meter.refusals = 0)
  ∧ t.clock.lastSettled = 0 ∧ (t.sup.mode = 0 ∧ t.sup.timeout = 60 ∧ t.sup.timer = none)
  ∧ (∀ i : Fin 6, t.duty.units[i] = { CUnit.unconfigured with startAges := (t.duty.units[i]).startAges })
  ∧ t.duty.roster.toList = [0, 1, 2, 3, 4, 5] ∧ t.duty.fuel = 0
  ∧ (∀ j : Fin 2, t.dry.trains[j] = { Train.unconfigured with
      water := (t.dry.trains[j]).water, temp := (t.dry.trains[j]).temp, dew := (t.dry.trains[j]).dew })
  ∧ t.dry.gas = 0

/-- What every restart leaves, as the blocks' restart rules say (R1, R9, R42, R69, R92, R113, R139, R166, R167, R170, R175,
R177), but for what names its cause and what the restore takes from the image. -/
def restartValues (s : State) : Prop :=
  (s.clock.state = .unset ∧ s.clock.hour = 0 ∧ s.clock.sec = 0 ∧ s.clock.hourEnd = 3600 ∧ s.clock.trim = 0)
  ∧ (s.meter.lastAccepted = none ∧ s.meter.bucket = 0 ∧ s.meter.refusals = 0 ∧ s.meter.gap = false
      ∧ s.meter.lastReport = s.elapsed)
  ∧ s.book.stats = ⟨0, 256, Vector.replicate 4 KindCounts.zero, 0, 0, 0, 0⟩
  ∧ (s.settle.inFlight = none ∧ s.settle.history = [] ∧ ∀ i : Fin 24, s.settle.alloc[i] = none)
  ∧ (s.flow.setpoint = 0 ∧ s.flow.tRaw = 0 ∧ s.flow.t = 0 ∧ s.flow.dir = .hold ∧ s.flow.lastDir = none
      ∧ s.flow.timer = 0 ∧ s.flow.lastCut = none)
  ∧ (s.duty.fuel = 0 ∧ ∀ i : Fin 6,
      let u := s.duty.units[i]
      u.startAges = [] ∧ u.limitNoted = false ∧ u.phaseTimer = 0 ∧ u.loadedSeconds = 0 ∧ u.overload = 0 ∧ u.noRun = 0
      ∧ u.feedback = .stopped ∧ u.load = 0 ∧ u.tripCause = none)
  ∧ (s.dry.gas = 0 ∧ ∀ j : Fin 2,
      let x := s.dry.trains[j]
      x.degraded = false ∧ x.deferred = false ∧ x.armed = true ∧ x.water = 0 ∧ x.temp = 0 ∧ x.dew = -600 ∧ x.share = 0
      ∧ x.excursion = none ∧ x.recovery = none ∧ x.mask = 0)
  ∧ (s.link.receiver = .hunting ∧ s.link.buffer = [] ∧ s.link.inHand = none ∧ s.link.holding = none
      ∧ s.link.counter = 0 ∧ s.link.errors = 0 ∧ s.link.overruns = 0)
  ∧ (s.sup.linkMode = .normal ∧ s.sup.timer = none ∧ s.sup.firstFrame = false)
  ∧ (s.store.phase = .restoring false ∧ s.store.unrestored = false ∧ s.store.buffer = [])
  ∧ (injPermit s = false ∧ wdrPermit s = false ∧ (∀ n : Fin 6, runPermit s n = false)
      ∧ (∀ j : Fin 2, divert s j = false) ∧ attention s = true)

/-! ### Sound states -/

/-- The setpoint lies within the live capacities, T is T_raw clamped to them, and S is above 0 only while INJECTING
and below 0 only while WITHDRAWING (R96, R99, R100). -/
def setpointSafe (f : Flow) : Bool :=
  decide (-(f.cWdr : Int) ≤ f.setpoint) && decide (f.setpoint ≤ f.cInj)
  && decide (f.t = max (-(f.cWdr : Int)) (min (f.cInj : Int) f.tRaw))
  && (decide (f.setpoint ≤ 0) || f.dir == .injecting) && (decide (0 ≤ f.setpoint) || f.dir == .withdrawing)

/-- The direction state suits T_raw: HOLD with T_raw 0 alone, and a direction whose T_raw is 0 or on the other side only while
S is away from 0 (R101, R102). -/
def directionSettled (f : Flow) : Bool :=
  match f.dir with
  | .hold => decide (f.tRaw = 0)
  | .injecting => decide (0 < f.tRaw) || decide (0 < f.setpoint)
  | .withdrawing => decide (f.tRaw < 0) || decide (f.setpoint < 0)
  | .turnaround => true

/-- An UNSET clock reads as R1 says, and a RUNNING one is within its hour, whose end the trim alone has moved
(R7). -/
def clockSafe (c : Clock) : Bool :=
  match c.state with
  | .unset => decide (c.hour = 0) && decide (c.sec = 0) && decide (c.hourEnd = 3600) && decide (c.trim = 0)
  | .running =>
    decide (c.sec < c.hourEnd) && decide ((c.hourEnd : Int) = 3600 + c.trim) && decide (-60 ≤ c.trim)
    && decide (c.trim ≤ 60) && decide (c.hour ≤ lastHour)

/-- The entries carry consecutive sequence numbers from `n` on. -/
def numbered (n : Word) : List Event → Bool
  | [] => true
  | e :: es => decide (e.seq = n) && numbered (n + 1) es

/-- The event queue holds at most 64 entries, numbered up to the next sequence number (R167), and no response is being
gathered (log entry 2). -/
def queueSafe (q : EventQueue) : Bool :=
  !q.gathering && decide (q.entries.length ≤ 64) && numbered (q.nextSeq - BitVec.ofNat 16 q.entries.length) q.entries

/-- The alert state is the one the SBA and L_SBA give (R38). -/
def alertSafe (s : State) : Bool := decide (s.acct.alert = alertOf s.acct.sba s.site.alertLimit)

/-- Every capacity figure is the one its owner forms from the state, and the flow controller holds it (R95, R115,
R142). -/
def capacitiesCurrent (s : State) : Bool :=
  decide (s.duty.declared = declaredInjection s) && decide (s.duty.ready = readyInjection s)
  && decide (s.dry.capacity = withdrawalCapacity s) && decide (s.flow.cInj = s.duty.ready)
  && decide (s.flow.cWdr = s.dry.capacity)

/-- A property of the image the part would commit now, of every image its copies were found whole with and of the snapshot of
a commit in flight. -/
def everyImage (p : Image → Bool) (s : State) : Bool :=
  p (snapshot s)
  && s.store.copies.toList.all (fun c => match c with
    | .whole _ m => p m
    | .failed _ m _ => p m
    | .notWhole => true)
  && (match s.store.phase with
    | .committing _ m => p m
    | _ => true)

/-- Conservation (R39): the inventories and the SBA are the opening total plus what was booked less what was
charged. -/
def Image.balanced (m : Image) : Bool := balances m.slots m.sba m.opening m.booked m.charged

/-- The book and the schedule are sound (R41, R50): at most 256 entries, no two entries of a key hold a common hour,
every hour an entry holds is after the confirmed-through hour, every record is at or before it, the records
in schedule order and so one per key and hour, none confirmed above its request. -/
def Image.bookSound (m : Image) : Bool :=
  decide (m.entries.length ≤ 256) && pairs Entry.apart m.entries
  && m.entries.all (fun e => decide (m.confirmedThrough < e.next) && decide (e.next ≤ e.last))
  && pairs (fun r q => decide (r.rank < q.rank)) m.schedule
  && m.schedule.all (fun r => decide (r.hour ≤ m.confirmedThrough) && decide (r.confirmed ≤ r.requested))

/-- The accounts and the configuration are sound (R15, R21, section 2.1, R109, R132): distinct shipper ids, every
inventory in 0 to its space right, every curve named is written, the roster a permutation, the site settings in their
ranges. -/
def Image.accountsSound (m : Image) : Bool :=
  pairs (fun a c => decide (a.shipper ≠ c.shipper)) m.records
  && m.records.all (fun a => decide (0 ≤ a.inventory) && decide (a.inventory ≤ a.spaceRight))
  && m.curvesNamed && (List.finRange 6).all (fun i => m.roster.toList.contains i) && siteInRange m.site

/-- A train's pair of beds (R138): at most one ADSORBING, at most one in HEATING or COOLING, and a READY bed holds no
load. -/
def Train.bedsSound (x : Train) : Bool :=
  !(x.lo.state == .adsorbing && x.hi.state == .adsorbing) && !(x.lo.regenerates && x.hi.regenerates)
  && (x.lo.state != .ready || x.lo.load == 0) && (x.hi.state != .ready || x.hi.load == 0)

/-- Both trains' pairs of beds are sound (R138). -/
def bedsSound (s : State) : Bool := s.dry.trains.toList.all Train.bedsSound

/-- At most one unit is STARTING (R118). -/
def oneStarting (s : State) : Bool :=
  decide ((s.duty.units.toList.filter (fun u => u.state == .starting)).length ≤ 1)

/-- The flow share of a train as R144 forms it, the other train given: an ONLINE train's part of |S| by its weight,
rounded down, with the kilowatts the rounding leaves for the first ONLINE train; an OFF_SPEC train's recycle rate while
the part withdraws; 0 otherwise. -/
def shareOf (f : Flow) (first : Bool) (x other : Train) : Nat :=
  let weight := fun t : Train => if t.state = .online then t.contribution else 0
  let w := weight x + weight other
  let part := fun t : Train => f.setpoint.natAbs * weight t / w
  match x.state with
  | .online =>
    if w = 0 then 0
    else part x + (if first ∨ other.state ≠ .online then f.setpoint.natAbs - (part x + part other) else 0)
  | .offSpec => if f.dir = .withdrawing then x.cfg.recycleRate else 0
  | .standby => 0
  | .out => 0

/-- Both flow shares are the ones R144 forms, train A first. -/
def sharesCurrent (s : State) : Bool :=
  let a := s.dry.trains[0]
  let b := s.dry.trains[1]
  decide (a.share = shareOf s.flow true a b) && decide (b.share = shareOf s.flow false b a)

/-! ### What the replies carry, word by word (sections 8.4 and 8.5) -/

/-- The words `w` stand in the block `b` from word `k` on. -/
def carries (b : Block) (k : Nat) (w : Block) : Prop := (b.drop k).take w.length = w

/-- The figure of a word of flags: bit 0 is the first flag, and so on upward. -/
def flagsFigure : List Bool → Nat
  | [] => 0
  | b :: bs => b.toNat + 2 * flagsFigure bs

/-- The words of CLOCK READ; its first word is a free code (log entry 11). -/
def clockFields (s : State) (r : Block) : Prop :=
  (s.clock.state = .running →
    carries r 1 (outHour s.clock.hour) ∧ carries r 3 (out1 s.clock.sec) ∧ carries r 4 (out1 s.clock.hourEnd)
    ∧ carries r 5 (outI s.clock.trim))
  ∧ (s.clock.state = .unset → carries r 1 [0, 0, 0, 3600, 0])
  ∧ carries r 6 (outHour s.clock.lastSettled)

/-- The words of SBA READ; word 7 is a free code (log entry 11). -/
def sbaFields (s : State) (r : Block) : Prop :=
  carries r 0 (outI4 s.acct.sba) ∧ carries r 4 (out3 s.site.alertLimit) ∧ carries r 8 (outI4 s.acct.opening)
  ∧ carries r 12 (outI4 s.acct.booked) ∧ carries r 16 (outI4 s.acct.charged)
  ∧ carries r 20 (outI4 (inventorySum s.acct.slots)) ∧ carries r 24 (out1 s.acct.transfers.length)
  ∧ carries r 25 (out2 s.acct.nextTransfer.toNat)

/-- The words of SETTLEMENT READ at a position counted back from the newest record. -/
def settlementFields (s : State) (position : Nat) (r : Block) : Prop :=
  carries r 0 (out1 s.settle.history.length)
  ∧ ∀ x : SiteHour, s.settle.history.reverse[position]? = some x →
    carries r 1 (outHour x.hour) ∧ carries r 3 (outI4 x.qb) ∧ carries r 7 (outI4 x.fc) ∧ carries r 11 (outI4 x.fd)
    ∧ carries r 15 (outI4 x.net) ∧ carries r 19 (outI4 x.deviation) ∧ carries r 23 (outI4 x.tolerancePart)
    ∧ carries r 27 (outI4 x.uncoveredPart) ∧ carries r 31 (outI4 x.unassigned) ∧ carries r 35 (outI4 x.clampTotal)
    ∧ carries r 39 (outI4 x.sbaAfter)

/-- The words of ALLOCATION READ. -/
def allocationFields (s : State) (i : Fin 24) (r : Block) : Prop :=
  (∀ (a : Account) (x : AllocRec), s.acct.slots[i] = some a → s.settle.alloc[i] = some x →
    carries r 0 (out1 1) ∧ carries r 1 (out1 a.shipper) ∧ carries r 2 (outHour x.hour) ∧ carries r 4 (outI4 x.net)
    ∧ carries r 8 (outI4 x.allocation) ∧ carries r 12 (outI4 x.charge) ∧ carries r 16 (outI4 x.clamp))
  ∧ (s.acct.slots[i] = none ∨ s.settle.alloc[i] = none → r = List.replicate 20 0)

/-- The words of BOOK READ for a shipper id, or any for 0, from a position on. -/
def bookFields (s : State) (id position : Nat) (r : Block) : Prop :=
  let es := s.book.entries.filter (fun e => id == 0 || e.shipper == id)
  let page := (es.drop position).take 4
  carries r 0 (out1 es.length) ∧ carries r 1 (outHour (s.book.confirmedThrough + 1)) ∧ carries r 3 (out1 page.length)
  ∧ ∀ (j : Nat) (e : Entry), page[j]? = some e →
    let k := 4 + 14 * j
    carries r k (out2 e.arrival.toNat) ∧ carries r (k + 2) (out1 e.slot.val) ∧ carries r (k + 3) (out1 e.shipper)
    ∧ carries r (k + 4) (out1 e.dir.code) ∧ carries r (k + 5) (out1 e.cls.code) ∧ carries r (k + 6) (outHour e.first)
    ∧ carries r (k + 8) (outHour e.last) ∧ carries r (k + 10) (outHour e.next) ∧ carries r (k + 12) (out2 e.quantity)

/-- The words of SCHEDULE READ for an hour, from a position on. While the clock is UNSET the confirmed flag of an hour
before U is free (log entry 28). -/
def scheduleFields (s : State) (h position : Nat) (r : Block) : Prop :=
  let rs := s.sched.filter (fun x => x.hour == h)
  carries r 0 (out1 rs.length) ∧ carries r 1 (outI2 (netConfirmed s.sched h))
  ∧ (s.clock.state = .running → carries r 3 (out1 (decide (s.clock.hour ≤ h ∧ h ≤ s.book.confirmedThrough)).toNat))
  ∧ ∀ (j : Nat) (x : SchedRec), ((rs.drop position).take 6)[j]? = some x →
    let k := 4 + 10 * j
    carries r k (out1 x.slot.val) ∧ carries r (k + 1) (out1 x.dir.code) ∧ carries r (k + 2) (out1 x.cls.code)
    ∧ carries r (k + 3) (out2 x.requested) ∧ carries r (k + 5) (out2 x.confirmed) ∧ carries r (k + 7) (out1 x.state.code)
    ∧ carries r (k + 8) (out1 (reasonCode x.reason)) ∧ carries r (k + 9) (out1 x.recuts)

/-- The words of BOOK STATISTICS; the kinds are FIRM injection, INTERRUPTIBLE injection, FIRM withdrawal and
INTERRUPTIBLE withdrawal. -/
def statisticsFields (st : Stats) (r : Block) : Prop :=
  carries r 0 (out1 st.filter) ∧ carries r 1 (out1 st.threshold)
  ∧ (∀ j : Fin 4,
    let c := st.counts[j]
    let k := 2 + 6 * j.val
    carries r k (out1 c.accepted) ∧ carries r (k + 1) (out1 c.superseded) ∧ carries r (k + 2) (out1 c.cancelled)
    ∧ carries r (k + 3) (out1 c.confirmedFull) ∧ carries r (k + 4) (out1 c.curtailed)
    ∧ carries r (k + 5) (out1 c.rejected))
  ∧ carries r 26 (out2 st.occupancy) ∧ carries r 28 (out1 st.high) ∧ carries r 29 (out2 st.atThreshold)
  ∧ carries r 31 (out1 st.rises)

/-- The words of FLOW READ; the two of an absent step cut are free (log entry 12). -/
def flowFields (s : State) (r : Block) : Prop :=
  let f := s.flow
  carries r 0 (out1 f.dir.code) ∧ carries r 1 (out1 (lastDirCode f.lastDir)) ∧ carries r 2 (out1 f.timer)
  ∧ carries r 3 (outI2 f.setpoint) ∧ carries r 5 (outI2 f.t) ∧ carries r 7 (outI2 f.tRaw) ∧ carries r 9 (outI2 (goal f))
  ∧ carries r 11 (out1 (flagsFigure [decide (f.setpoint ≠ goal f), clockIsUnset s, isUnrestored s, inFallback s,
      decide (f.dir = .injecting), decide (f.dir = .withdrawing), f.lastCut.isSome]))
  ∧ carries r 12 (out2 f.cInj) ∧ carries r 14 (out2 f.cWdr)
  ∧ (∀ x : Int × Int, f.lastCut = some x → carries r 16 (outI2 x.1) ∧ carries r 18 (outI2 x.2))
  ∧ carries r 20 (outSite s.site)

/-- The words of UNIT READ; the phase, the curve of an unconfigured unit, the age of no stamp and the permille of no
capacity are free (log entries 11 and 12). -/
def unitFields (s : State) (i : Fin 6) (r : Block) : Prop :=
  let u := s.duty.units[i]
  carries r 0 (out1 u.configured.toNat) ∧ carries r 1 (out2 u.cfg.capacity)
  ∧ (∀ c : Fin 16, u.cfg.curve = some c → carries r 3 (out1 c.val))
  ∧ carries r 4 (out1 (flagsFigure [u.cfg.keepAux, u.cfg.keepEngine])) ∧ carries r 5 (out1 u.cfg.policy)
  ∧ carries r 6 (out1 u.state.code) ∧ carries r 7 (out1 (flagsFigure [decide (u.state = .loaded), runPermit s i]))
  ∧ carries r 8 (out2 u.phaseTimer) ∧ carries r 11 (out2 u.runSeconds) ∧ carries r 13 (out1 u.startTotal)
  ∧ carries r 14 (out1 u.attempts) ∧ carries r 15 (out1 (tripCode u.tripCause))
  ∧ carries r 16 (out1 u.startAges.length) ∧ (∀ a : Nat, u.startAges.head? = some a → carries r 17 (out1 a))
  ∧ carries r 18 (out2 u.loadedSeconds) ∧ carries r 20 (out1 u.overload) ∧ carries r 21 (out1 u.noRun)
  ∧ carries r 22 (out1 u.feedback.code) ∧ carries r 23 (out2 u.load)
  ∧ (u.cfg.capacity ≠ 0 → u.load * 1000 / u.cfg.capacity < 65536 →
      carries r 25 (out1 (u.load * 1000 / u.cfg.capacity)))
  ∧ (∀ k : Fin 6, carries r (26 + k.val) (out1 (s.duty.roster[k]).val))
  ∧ carries r 32 (out2 s.duty.dInj) ∧ carries r 34 (out2 s.duty.k) ∧ carries r 36 (out2 s.duty.declared)
  ∧ carries r 38 (out2 s.duty.ready) ∧ carries r 40 (out4 s.duty.fuel)

/-- The seven words of a bed of train `x` in TRAIN READ, from word `k` on; the permille is 1000 at a capacity of 0 (R148). -/
def bedFields (x : Train) (b : Bed) (k : Nat) (r : Block) : Prop :=
  carries r k (out1 b.state.code) ∧ carries r (k + 1) (out4 b.load)
  ∧ (let p := if x.bedCap = 0 then 1000 else b.load * 1000 / (x.bedCap * 3600000000)
     p < 65536 → carries r (k + 5) (out1 p))
  ∧ carries r (k + 6) (out1 b.timer)

/-- The words of TRAIN READ; the curve of an unconfigured train and a permille above 65,535 are free (log entry 12). -/
def trainFields (s : State) (t : Fin 2) (r : Block) : Prop :=
  let x := s.dry.trains[t]
  let c := x.cfg
  carries r 0 (out1 x.configured.toNat) ∧ carries r 1 (out2 c.nominal) ∧ carries r 3 (out1 c.degradedFactor)
  ∧ (∀ i : Fin 16, c.curve = some i → carries r 4 (out1 i.val))
  ∧ carries r 5 (out1 c.swapPoint) ∧ carries r 6 (out1 c.heating) ∧ carries r 7 (out1 c.cooling)
  ∧ carries r 8 (out2 c.regenRate) ∧ carries r 10 (out2 c.recycleRate) ∧ carries r 12 (outI c.spec)
  ∧ carries r 13 (outI c.warn) ∧ carries r 14 (out1 c.excursionDelay) ∧ carries r 15 (out1 c.recoveryDelay)
  ∧ carries r 16 (out1 c.maskChoice) ∧ carries r 17 (out1 x.state.code)
  ∧ carries r 18 (out1 (flagsFigure [x.service, x.degraded, x.deferred, x.armed, divert s t]))
  ∧ carries r 19 (out1 x.water) ∧ carries r 20 (outI x.temp) ∧ carries r 21 (outI x.dew) ∧ carries r 22 (out1 x.bedCap)
  ∧ carries r 23 (out2 x.share) ∧ carries r 25 (out1 (x.excursion.getD 65535))
  ∧ carries r 26 (out1 (x.recovery.getD 65535)) ∧ carries r 27 (out1 x.mask)
  ∧ bedFields x x.lo 28 r ∧ bedFields x x.hi 35 r ∧ carries r 42 (out2 s.dry.capacity)
  ∧ carries r 44 (out2 (s.dry.trains[0]).contribution) ∧ carries r 46 (out2 (s.dry.trains[1]).contribution)
  ∧ carries r 48 (out2 (s.dry.trains[0]).share) ∧ carries r 50 (out2 (s.dry.trains[1]).share)
  ∧ carries r 52 (out4 s.dry.gas)

/-- The words of STORE READ for a block number of the marked copy's words. -/
def storeWords (ws : Block) (k : Nat) : Block := out1 k ++ out1 384 ++ ws.take 2 ++ (ws.drop (32 * k)).take 32

/-- The words of STORE READ for a block number; of a marked copy that is not whole the image's words are free (log entries 6
and 40). -/
def storeFields (s : State) (k : Nat) (r : Block) : Prop :=
  carries r 0 (out1 k) ∧ carries r 1 (out1 384)
  ∧ ∀ (n : BitVec 32) (m : Image), s.store.copies[s.store.mark] = .whole n m →
    carries r 2 (out2 n.toNat) ∧ r.drop 4 = ((imageWords n m).drop (32 * k)).take 32

/-- The words of the reply of STATION REPORT (section 8.5). -/
def reportFields (s : State) (r : Block) : Prop :=
  r.length = 11 ∧ carries r 0 (outI2 s.flow.setpoint) ∧ carries r 2 (out1 s.flow.dir.code)
  ∧ carries r 3 (out1 (flagsFigure [decide (s.flow.dir = .injecting), decide (s.flow.dir = .withdrawing), runPermit s 0,
      runPermit s 1, runPermit s 2, runPermit s 3, runPermit s 4, runPermit s 5, divert s 0, divert s 1]))
  ∧ carries r 4 (out2 (s.dry.trains[0]).share) ∧ carries r 6 (out2 (s.dry.trains[1]).share)
  ∧ (s.clock.state = .running → carries r 8 (outHour s.clock.hour) ∧ carries r 10 (out1 s.clock.sec))
  ∧ (s.clock.state = .unset → carries r 8 [0, 0, 0])

/-- The words of LINK STATUS; word 6 is a free code (log entry 11). -/
def linkFields (s : State) (r : Block) : Prop :=
  carries r 0 (out1 s.link.cause.code) ∧ carries r 1 (out1 s.link.counter.toNat) ∧ carries r 2 (out1 s.link.errors)
  ∧ carries r 3 (out1 s.link.overruns) ∧ carries r 4 (out1 s.sup.mode) ∧ carries r 5 (out1 s.sup.timeout)
  ∧ carries r 7 (out1 (s.sup.timer.getD 65535)) ∧ carries r 8 (out1 s.evq.entries.length)
  ∧ carries r 9 (out1 s.evq.overwrites)
  ∧ carries r 10 (out1 (flagsFigure [settling s, committing s, clockIsUnset s, isUnrestored s, inFallback s]))

/-- The eleven words of an event entry, from word `k` on. -/
def eventFields (e : Event) (k : Nat) (r : Block) : Prop :=
  carries r k [e.seq] ∧ carries r (k + 1) (out1 (flagsFigure [e.time.isSome, e.value.isSome]))
  ∧ (∀ g : GasTime, e.time = some g → carries r (k + 2) (outHour g.hour) ∧ carries r (k + 4) (out1 g.sec))
  ∧ (e.time = none → carries r (k + 2) [0, 0, 0]) ∧ carries r (k + 5) (out1 e.kind.code)
  ∧ carries r (k + 6) (out1 (e.subject.getD 65535)) ∧ carries r (k + 7) (outI4 (e.value.getD 0))

/-! ### Counts of the book statistics -/

/-- The count of a kind for records made in a state (R66). -/
def KindCounts.ofState (k : KindCounts) : RecordState → Nat
  | .confirmed => k.confirmedFull
  | .curtailed => k.curtailed
  | .rejected => k.rejected

/-! ### Images that fit their words -/

/-- A figure fits `n` words, unsigned. -/
def fitsWords (n x : Nat) : Bool := decide (x < 65536 ^ n)

/-- A figure fits one word, signed. -/
def fitsSigned (x : Int) : Bool := decide (-32768 ≤ x) && decide (x ≤ 32767)

/-- A curve fits its 17 words. -/
def curveFits (c : Curve) : Bool := decide (c.length ≤ 8) && c.all (fun p => fitsSigned p.x && fitsWords 1 p.y)

/-- A record's inventory fits its three words, unsigned. -/
def Account.fits (a : Account) : Bool := a.inRange && decide (0 ≤ a.inventory) && fitsWords 3 a.inventory.toNat

/-- A unit record fits its words. -/
def UnitImage.fits (u : UnitImage) : Bool :=
  fitsWords 2 u.cfg.capacity && fitsWords 1 u.cfg.policy && fitsWords 2 u.runSeconds && fitsWords 1 u.startTotal
  && fitsWords 1 u.attempts

/-- A train record and its beds fit their words. -/
def TrainImage.fits (t : TrainImage) : Bool :=
  fitsWords 2 t.cfg.nominal && fitsWords 1 t.cfg.degradedFactor && fitsWords 1 t.cfg.swapPoint
  && fitsWords 1 t.cfg.heating && fitsWords 1 t.cfg.cooling && fitsWords 2 t.cfg.regenRate
  && fitsWords 2 t.cfg.recycleRate && fitsSigned t.cfg.spec && fitsSigned t.cfg.warn
  && fitsWords 1 t.cfg.excursionDelay && fitsWords 1 t.cfg.recoveryDelay && fitsWords 1 t.cfg.maskChoice
  && fitsWords 4 t.lo.load && fitsWords 4 t.hi.load

/-- An entry fits its 14 words. -/
def Entry.fits (e : Entry) : Bool :=
  fitsWords 1 e.shipper && decide (e.first ≤ lastHour) && decide (e.last ≤ lastHour) && decide (e.next ≤ lastHour)
  && fitsWords 2 e.quantity

/-- A schedule record fits its 12 words. -/
def SchedRec.fits (r : SchedRec) : Bool :=
  decide (r.hour ≤ lastHour) && fitsWords 2 r.requested && fitsWords 2 r.confirmed && fitsWords 1 r.recuts

/-- Every figure of an image fits the words section 10.1 gives it, and every list its section. -/
def Image.fits (m : Image) : Bool :=
  m.records.all Account.fits && decide (m.sba.natAbs ≤ wideMost) && decide (m.opening.natAbs ≤ wideMost)
  && decide (m.booked.natAbs ≤ wideMost) && decide (m.charged.natAbs ≤ wideMost)
  && decide (m.transfers.length ≤ 16) && m.transfers.all Transfer.inRange && m.curves.toList.all curveFits
  && siteInRange m.site && m.units.toList.all UnitImage.fits && m.trains.toList.all TrainImage.fits
  && decide (m.entries.length ≤ 256) && m.entries.all Entry.fits && decide (m.confirmedThrough ≤ lastHour)
  && decide (m.schedule.length ≤ 480) && m.schedule.all SchedRec.fits
  && fitsWords 3 m.base.forward && fitsWords 3 m.base.reverse && decide (m.lastSettled ≤ lastHour)
  && fitsWords 1 m.supMode && fitsWords 1 m.supTimeout

end Sys2Proof.Machine
end

