-- ==== Sys2Proof/Certificates/Slice0/Obligations.lean ====
section
/-! DEFINITION. The statements about the SB-240, from the numbered rules of spec/: the step and reset, how requests are
answered, what every step keeps, the common arithmetic, the frames and the image as words, and for every command the
state it leaves and what it leaves alone. Where a statement rests on a choice of the model, its text names the log
entry. -/

section

open Sys2Proof Sys2Proof.Machine

/-! ### The step, the reset, the requests -/

/-- A step runs the command at the front of the queue with the queue's rest; with an empty queue the part idles. The
queue is the model's (log entry 1). -/
def Obligations.StepTakesTheFrontCommand : Prop :=
  (∀ (c : Instr) (rest : List Instr) (s : State), s.pending = c :: rest → step s = exec c (s.setPending rest))
  ∧ ∀ s : State, s.pending = [] → step s = .next s

/-- What a restart leaves, as the blocks' restart rules say: chapters 1 to 10. That the state after reset is the one that
POWER_ON leaves, and that before the restore ends every unit is DISABLED and every train OUT, is the model's choice (log
entry 3). -/
def Obligations.ResetLeavesRestartValues : Prop :=
  let s := State.reset
  restartValues s ∧ s.link.cause = .powerOn ∧ s.evq = ⟨[⟨0, none, .restarted, none, some 1⟩], 1, 0, false⟩
  ∧ (∀ i : Fin 6, (s.duty.units[i]).state = .disabled) ∧ ∀ t : Fin 2, (s.dry.trains[t]).state = .out

/-- The invariants below hold right after reset. The values reset gives the blocks that the restore fills later are the
model's choice (log entry 3), and so are the store as delivered (log entry 5) and the form of the load buffer (log entry
33). -/
def Obligations.ResetMeetsEveryInvariant : Prop :=
  everyImage Image.balanced State.reset = true ∧ everyImage Image.bookSound State.reset = true
  ∧ everyImage Image.accountsSound State.reset = true ∧ setpointSafe State.reset.flow = true
  ∧ directionSettled State.reset.flow = true
  ∧ capacitiesCurrent State.reset = true ∧ clockSafe State.reset.clock = true ∧ queueSafe State.reset.evq = true
  ∧ alertSafe State.reset = true ∧ bufferWf State.reset.store.buffer = true ∧ bedsSound State.reset = true
  ∧ oneStarting State.reset = true ∧ sharesCurrent State.reset = true

/-- Every command completes in every state, and leaves the commands that wait as they were (log entry 1 on the
queue). -/
def Obligations.EveryCommandAnswersANextState : Prop :=
  ∀ (c : Instr) (s : State), ∃ t : State, exec c s = .next t ∧ t.pending = s.pending

/-- A request row that is refused leaves the part as it was, but for the reply, whose output block is empty (R162; the
rows stand for the dispatch alone, log entry 13). While the restore is in progress every request is answered BUSY;
outside it a block whose length is not the catalogue's is answered BAD_LENGTH (R163). -/
def Obligations.RefusedRequestLeavesThePart : Prop :=
  ∀ (c : Instr) (code : Byte) (b : Block) (s : State), c.request = some (code, b) →
    (∀ (t : State) (r : Reply), exec c s = .next t → t.link.reply = some r → r.status ≠ .ok →
      t = refusedWith code r.status s)
    ∧ (restoring s = true → exec c s = .next (refusedWith code .busy s))
    ∧ (restoring s = false → b.length ≠ catalogueWords code b → exec c s = .next (refusedWith code .badLength s))

/-- The requests that UNRESTORED mode, FALLBACK, a settlement in flight and a commit in flight hold off (R178, R173,
R71, R176), each answered with its status. -/
def Obligations.ModesHoldOffTheirRequests : Prop :=
  ∀ (c : Instr) (code : Byte) (b : Block) (s : State), c.request = some (code, b) → restoring s = false →
    b.length ≤ 64 → b.length = catalogueWords code b →
    (isUnrestored s = true → code ∈ unrestoredRefuses → exec c s = .next (refusedWith code .unrestored s))
    ∧ (inFallback s = true → code ∈ fallbackRefuses →
        (isUnrestored s = false ∨ code ∈ ([0x51, 0x52, 0x53] : List Byte)) →
        exec c s = .next (refusedWith code .fallback s))
    ∧ (settling s = true → code ∈ settlingRefuses →
        ((isUnrestored s = false ∧ inFallback s = false)
          ∨ code ∈ ([0x24, 0x27, 0x28, 0x29, 0x32, 0x33] : List Byte)) →
        exec c s = .next (refusedWith code .busy s))
    ∧ (committing s = true → code ∈ committingRefuses →
        (inFallback s = false ∨ code ∈ ([0x50, 0x06] : List Byte)) →
        exec c s = .next (refusedWith code .busy s))

/-- FALLBACK ends only through RESUME or a restart, UNRESTORED only through STORE LOAD END, STORE INITIALIZE or a
restart, and the clock leaves UNSET only through CLOCK SET (R171, R174, R178, R1). Frames and the end of a reply can
carry any request. -/
def Obligations.ModesEndOnlyAsStated : Prop :=
  ∀ (c : Instr) (s t : State), exec c s = .next t →
    (inFallback s = true → match c with
      | .powerOn | .external | .supplyDip | .restartRequest | .resume _ | .frameReceived _ | .requestSyncByte
      | .replySent => True
      | _ => inFallback t = true)
    ∧ (isUnrestored s = true → match c with
      | .powerOn | .external | .supplyDip | .restartRequest | .storeLoadEnd _ | .storeInitialize _ | .frameReceived _
      | .requestSyncByte | .replySent => True
      | _ => isUnrestored t = true)
    ∧ (clockIsUnset s = true → match c with
      | .clockSet _ | .frameReceived _ | .requestSyncByte | .replySent => True
      | _ => clockIsUnset t = true)

/-- Every command but a restart, EVENT DRAIN, and the frames and replies that can carry them, only appends events to
the queue (R167, R169). -/
def Obligations.EventsAreOnlyAppended : Prop :=
  ∀ (c : Instr) (s t : State), exec c s = .next t → match c with
    | .powerOn | .external | .supplyDip | .restartRequest | .eventDrain _ | .frameReceived _ | .requestSyncByte
    | .replySent => True
    | _ => ∃ l : List Raised, t.evq = s.evq.pushAll l

/-! ### What every step keeps -/

/-- Conservation (R39): in the working state, in every whole copy and in a commit in flight, the inventories and the
SBA equal the opening total plus cumulative booked less cumulative charged. -/
def Obligations.EveryStepKeepsTheBalance : Prop :=
  ∀ s t : State, everyImage Image.balanced s = true → step s = .next t → everyImage Image.balanced t = true

/-- The book and the schedule stay sound, the schedule in its order (R41, R50). -/
def Obligations.EveryStepKeepsBookAndSchedule : Prop :=
  ∀ s t : State, everyImage Image.bookSound s = true → step s = .next t → everyImage Image.bookSound t = true

/-- Accounts and configuration stay sound: distinct shippers, inventories within 0 and the space right, curves named
are written, the roster is a permutation, the site settings are in range (R15, R21, R83, R109, R132). -/
def Obligations.EveryStepKeepsAccountsAndConfiguration : Prop :=
  ∀ s t : State, everyImage Image.accountsSound s = true → step s = .next t →
    everyImage Image.accountsSound t = true

/-- S stays within the live capacities and has the sign of the direction state, and T stays T_raw clamped (R96, R99,
R100). With that, the direction state stays one that suits T_raw: HOLD only while T_raw is 0, and INJECTING or
WITHDRAWING with T_raw 0 or on the other side only until S reaches 0 (R101, R102). -/
def Obligations.EveryStepKeepsSetpointInItsCapacities : Prop :=
  ∀ s t : State, setpointSafe s.flow = true → step s = .next t →
    setpointSafe t.flow = true ∧ (directionSettled s.flow = true → directionSettled t.flow = true)

/-- The capacity figures stay the ones their owners form, and the flow controller holds them (R95, R115, R142). -/
def Obligations.EveryStepKeepsCapacitiesCurrent : Prop :=
  ∀ s t : State, capacitiesCurrent s = true → step s = .next t → capacitiesCurrent t = true

/-- An UNSET clock reads as R1 says, a RUNNING one is within its hour, of 3,540 to 3,660 s (R1, R4, R5, R7). -/
def Obligations.EveryStepKeepsTheClockInItsHour : Prop :=
  ∀ s t : State, clockSafe s.clock = true → step s = .next t → clockSafe t.clock = true

/-- The event queue holds at most 64 entries with consecutive sequence numbers (R167, R169); the alert state is RAISED
exactly while the magnitude of the SBA exceeds L_SBA (R22, R38); the load buffer keeps its canonical form (log entry
33). -/
def Obligations.EveryStepKeepsQueueAlertAndBuffer : Prop :=
  ∀ s t : State, step s = .next t →
    (queueSafe s.evq = true → queueSafe t.evq = true) ∧ (alertSafe s = true → alertSafe t = true)
    ∧ (bufferWf s.store.buffer = true → bufferWf t.store.buffer = true)

/-- Each train keeps at most one bed ADSORBING and at most one in HEATING or COOLING, and no load in a READY bed
(R138); at most one unit is STARTING (R118); and the flow shares stay the ones R144 forms. -/
def Obligations.EveryStepKeepsBedsStartsAndShares : Prop :=
  ∀ s t : State, step s = .next t →
    (bedsSound s = true → bedsSound t = true) ∧ (oneStarting s = true → oneStarting t = true)
    ∧ (sharesCurrent s = true → sharesCurrent t = true)

/-! ### The common arithmetic -/

/-- The pro-rata divider (R19, R20): shares and uncovered amount make up the amount; no share exceeds its cap; a
weight of 0 receives nothing; an uncovered amount is left only where every participant of positive weight is at its
cap. Where every cap lies above the amount in proportion to the weight, rounded down, each share is that or one more,
and the units that the rounding leaves go in descending order of remainder, ties to the lower slot index. Of distinct
slots, no share that the first round deals being above its cap (it may equal it), the shares are those of that round. -/
def Obligations.DividerDealsTheWholeAmount : Prop :=
  ∀ (a : Nat) (ps : List Participant), (∀ p ∈ ps, p.total = 0 ∧ p.isOpen = true) →
    let w := (ps.map (fun p => p.weight)).sum
    (divide a ps).shares.length = ps.length
    ∧ (divide a ps).shares.sum + (divide a ps).uncovered = a
    ∧ (∀ (i : Nat) (p : Participant), ps[i]? = some p → ∃ x : Nat, (divide a ps).shares[i]? = some x
        ∧ (∀ c : Nat, p.cap = some c → x ≤ c) ∧ (p.weight = 0 → x = 0)
        ∧ ((divide a ps).uncovered ≠ 0 → p.weight = 0 ∨ p.cap = some x))
    ∧ (0 < w → (∀ p ∈ ps, 0 < p.weight → ∀ c : Nat, p.cap = some c → a * p.weight / w < c) →
        (divide a ps).uncovered = 0
        ∧ (∀ (i : Nat) (p : Participant), ps[i]? = some p → (divide a ps).shares[i]? = some (a * p.weight / w)
            ∨ (divide a ps).shares[i]? = some (a * p.weight / w + 1))
        ∧ ∀ (i j : Nat) (p q : Participant), ps[i]? = some p → ps[j]? = some q → p.index ≠ q.index →
            (divide a ps).shares[i]? = some (a * p.weight / w + 1) →
            (divide a ps).shares[j]? = some (a * q.weight / w) →
            a * q.weight % w < a * p.weight % w ∨ (a * q.weight % w = a * p.weight % w ∧ p.index < q.index))
    ∧ (0 < w → (ps.map (fun p => p.index)).Nodup →
        let left := a - (ps.map (fun p => a * p.weight / w)).sum
        let ahead (p : Participant) : Nat := (ps.filter (fun q => decide (a * p.weight % w < a * q.weight % w
          ∨ (a * q.weight % w = a * p.weight % w ∧ q.index < p.index)))).length
        let dealt (p : Participant) : Nat := a * p.weight / w + (if ahead p < left then 1 else 0)
        (∀ p ∈ ps, ∀ c : Nat, p.cap = some c → dealt p ≤ c) →
        (divide a ps).uncovered = 0 ∧ (divide a ps).shares = ps.map dealt)

/-- The value of a written curve (R16): the first y at or below the first point, the last y at or beyond the last, and
between two points the interpolation rounded down, which lies between their y values. -/
def Obligations.CurveGivesTheInterpolatedValue : Prop :=
  ∀ (pts : Curve) (x : Int), (pts.map (fun p => p.x)).Pairwise (fun u v => u < v) →
    (∀ p : CurvePoint, pts.head? = some p → x ≤ p.x → evalCurve pts x = p.y)
    ∧ (∀ p : CurvePoint, pts.getLast? = some p → p.x ≤ x → evalCurve pts x = p.y)
    ∧ ∀ (k : Nat) (p q : CurvePoint), pts[k]? = some p → pts[k + 1]? = some q → p.x ≤ x → x < q.x →
        (evalCurve pts x : Int) = p.y + ((q.y : Int) - p.y) * (x - p.x) / (q.x - p.x)
        ∧ min p.y q.y ≤ evalCurve pts x ∧ evalCurve pts x ≤ max p.y q.y

/-- Fields of one to four words, unsigned and signed, stand high word first and read back (section 8.2). -/
def Obligations.BlockFieldsReadBack : Prop :=
  ∀ (n : Nat) (x : Int) (b : Block),
    (n < 65536 → fieldW (out1 n ++ b) 0 = n)
    ∧ (n < 65536 ^ 2 → field2 (out2 n ++ b) 0 = n ∧ fieldW (out2 n ++ b) 0 = n / 65536)
    ∧ (n < 65536 ^ 3 → field3 (out3 n ++ b) 0 = n ∧ fieldW (out3 n ++ b) 0 = n / 65536 ^ 2)
    ∧ (n < 65536 ^ 4 → field4 (out4 n ++ b) 0 = n ∧ fieldW (out4 n ++ b) 0 = n / 65536 ^ 3)
    ∧ (-(2 ^ 15) ≤ x → x < 2 ^ 15 → fieldI (outI x ++ b) 0 = x)
    ∧ (-(2 ^ 31) ≤ x → x < 2 ^ 31 → fieldI2 (outI2 x ++ b) 0 = x)
    ∧ (-(2 ^ 47) ≤ x → x < 2 ^ 47 → fieldI3 (outI3 x ++ b) 0 = x)
    ∧ (-(2 ^ 63) ≤ x → x < 2 ^ 63 → fieldI4 (outI4 x ++ b) 0 = x)

/-- An image laid out in words reads back as itself, with its commit number and a CRC that holds (section 10.1; the
section sizes and codes are the model's, log entry 7, and so is the place of the fields that no reading request
returns, log entry 50). -/
def Obligations.ImageWordsReadBack : Prop :=
  ∀ (n : BitVec 32) (m : Image), m.fits = true →
    (imageWords n m).length = 12288 ∧ numberRead (imageWords n m) = n ∧ crcHolds (imageWords n m) = true
    ∧ imageRead (imageWords n m) = some m

/-- Hours removed from a key (R44): each entry of the key leaves, in its place, what the overlap of the two runs says:
itself, nothing, one piece trimmed at the front or at the back, or two pieces one after the other. A piece keeps
arrival number, slot, shipper, direction, class and quantity. The key's entries hold afterwards exactly the hours they
held outside the removed run, and the other entries stand as they were. -/
def Obligations.RemovalTakesTheHoursOfOneKey : Prop :=
  ∀ (i : Fin 24) (d : Direction) (c : Sys2Proof.Machine.Class) (a z : Nat) (es : List Entry),
    (∀ h : Nat, (∃ e ∈ removeHours i d c a z es, e.hasKey i d c = true ∧ e.holds h = true)
      ↔ (∃ e ∈ es, e.hasKey i d c = true ∧ e.holds h = true) ∧ ¬(a ≤ h ∧ h ≤ z))
    ∧ (removeHours i d c a z es).filter (fun e => !e.hasKey i d c) = es.filter (fun e => !e.hasKey i d c)
    ∧ removeHours i d c a z es = es.flatMap (fun e =>
        if ¬(e.slot = i ∧ e.dir = d ∧ e.cls = c) ∨ z < e.next ∨ e.last < a then [e]
        else if a ≤ e.next ∧ e.last ≤ z then []
        else if a ≤ e.next then [{ e with first := z + 1, next := z + 1 }]
        else if e.last ≤ z then [{ e with last := a - 1 }]
        else [{ e with last := a - 1 }, { e with first := z + 1, next := z + 1 }])

/-- The confirmation of an hour (R31, R32, R53 to R57, R65, R66). Shipper stage: each key with an entry that holds the
hour has one record, in schedule order; firm is confirmed within the slot's limit, formed from the projection,
interruptible within what is left of it, and a SUSPENDED record at 0; what stays below its request states the limit's
reason. Site stage: the net lies within the two declared capacities; an excess is cut from its direction alone,
interruptible before firm, down to the capacity, and states CAPACITY unless it has a reason. The entries advance past
the hour, one whose last hour it was leaves the book with COMPLETED (in which order is log entry 44), the horizon
moves to the hour, and each record that passes the filter is counted once, by its kind and the state it is made in. An
EMPTY slot, of which no limit is stated, is log entry 10. -/
def Obligations.ConfirmedHourFitsTheCapacities : Prop :=
  ∀ (s : State) (h : Nat),
    (∀ (i : Fin 24) (d : Direction) (a : Account), s.acct.slots[i] = some a →
      let asked (c : Sys2Proof.Machine.Class) : Option Entry := s.book.entries.find? (fun e =>
        decide (e.slot = i ∧ e.dir = d ∧ e.cls = c ∧ e.next ≤ h ∧ h ≤ e.last))
      let quantity (c : Sys2Proof.Machine.Class) : Nat := (asked c).elim 0 (fun e => e.quantity)
      let p : Int := a.inventory + netOf (s.sched.filter (fun r =>
        decide (r.slot = i ∧ s.clock.hour ≤ r.hour ∧ r.hour < h)))
      let fill : Nat := min (p.toNat * 1000 / a.spaceRight) 1000
      let ratcheted (right : Nat) (curve : Option (Fin 16)) : Nat :=
        right * curve.elim 1000 (fun k => min (evalCurve s.curves[k] fill) 1000) / 1000
      let room : Nat := match d with
        | .inject => ((a.spaceRight : Int) - p).toNat
        | .withdraw => p.toNat
      let rate : Nat := match d with
        | .inject => ratcheted a.injRight a.injCurve
        | .withdraw => ratcheted a.wdrRight a.wdrCurve
      let limit : Nat := if a.state = .suspended then 0 else min room rate
      let why : Reason := if a.state = .suspended then .suspended else if rate ≤ room then .shipperLimit else .inventory
      let staged (c : Sys2Proof.Machine.Class) : Nat := match c with
        | .firm => min (quantity .firm) limit
        | .interruptible => min (quantity .interruptible) (limit - min (quantity .firm) limit)
      ∀ c : Sys2Proof.Machine.Class,
        (asked c = none → ∀ r ∈ confirmedRecords s h, ¬(r.slot = i ∧ r.dir = d ∧ r.cls = c))
        ∧ (asked c ≠ none → ∃ r ∈ confirmedRecords s h, r.slot = i ∧ r.dir = d ∧ r.cls = c)
        ∧ ∀ r ∈ confirmedRecords s h, r.slot = i → r.dir = d → r.cls = c →
          r.requested = quantity c ∧ r.confirmed ≤ staged c ∧ r.recuts = 0
          ∧ r.reason = (if staged c < r.requested then some why
              else if r.confirmed < staged c then some .capacity else none)
          ∧ (r.confirmed < staged c →
              netOf (confirmedRecords s h) = (if d = .inject then (s.duty.declared : Int) else -(s.dry.capacity : Int))
              ∧ (c = .firm → ∀ q ∈ confirmedRecords s h, q.dir = d → q.cls = .interruptible → q.confirmed = 0)))
    ∧ (confirmedRecords s h).Pairwise (fun r q => r.rank < q.rank)
    ∧ (confirmHour h s).book.entries = s.book.entries.filterMap (fun e =>
        if e.next ≤ h ∧ h ≤ e.last then (if e.last = h then none else some { e with next := h + 1 }) else some e)
    ∧ (∃ l : List Raised, (confirmHour h s).evq = s.evq.pushAll l
        ∧ List.Perm l ((s.book.entries.filter (fun e => decide (e.next ≤ h ∧ e.last = h))).map (fun e =>
            ⟨gasTime s, .completed, some e.slot.val, some (e.arrival.toNat : Int)⟩)))
    ∧ s.changesOnly [.sched, .book, .evq] (confirmHour h s) ∧
    netOf (confirmedRecords s h) ≤ s.duty.declared ∧ -(s.dry.capacity : Int) ≤ netOf (confirmedRecords s h)
    ∧ (∀ r ∈ confirmedRecords s h, r.hour = h ∧ r.confirmed ≤ r.requested
        ∧ r.state = recordState r.requested r.confirmed ∧ (r.reason = none ↔ r.confirmed = r.requested))
    ∧ (confirmHour h s).sched = s.sched ++ confirmedRecords s h
    ∧ (confirmHour h s).book.confirmedThrough = h
    ∧ ∀ (d : Direction) (c : Sys2Proof.Machine.Class),
        let filter := s.book.stats.filter
        let before := s.book.stats.counts[kindIndex d c]
        let now := (confirmHour h s).book.stats.counts[kindIndex d c]
        let counted (st : RecordState) := (confirmedRecords s h).filter (fun r =>
          r.dir == d && r.cls == c && r.state == st
          && (filter == 0 || (s.acct.slots[r.slot]).any (fun a => a.shipper == filter)))
        (∀ st : RecordState, before.ofState st ≤ 65535 →
          now.ofState st = min (before.ofState st + (counted st).length) 65535)
        ∧ now.accepted = before.accepted ∧ now.superseded = before.superseded ∧ now.cancelled = before.cancelled

/-- Recut (R56, R60, R61). An hour it covers whose net lies within the declared capacities is left as it is; one whose
net exceeds a capacity is cut to exactly that capacity, in the records of the excess direction alone, the firm ones
only where its interruptible ones stand at 0. The hours it does not cover are left alone, and nothing but the schedule
and the event queue changes. A record that is cut keeps its request, takes the state of its new quantity, CAPACITY as
its reason unless it has one, and one more recut; any other record stands as it was; RECUT is raised once for each
hour with a record that is cut, ascending. That with the clock UNSET the hour in settlement at the end of gas time is
covered like every other, as R60 says, although R72 says that its records are not recut, is the model's choice (log
entry 36). -/
def Obligations.RecutFitsTheLaterHours : Prop :=
  ∀ (s : State) (h : Nat),
    ((s.clock.state = .unset ∨ s.clock.hour < h) →
      let records (t : State) : List SchedRec := t.sched.filter (fun r => r.hour == h)
      let n := netConfirmed s.sched h
      let most : Int := s.duty.declared
      let least : Int := -(s.dry.capacity : Int)
      let cuts (d : Direction) : Prop := ∀ (i : Nat) (r q : SchedRec), s.sched[i]? = some r →
        (recut s).sched[i]? = some q → r.hour = h →
        (r.dir ≠ d → q = r)
        ∧ (r.cls = .firm → q ≠ r → ∀ x ∈ records (recut s), x.dir = d → x.cls = .interruptible → x.confirmed = 0)
      (least ≤ n → n ≤ most → records (recut s) = records s)
      ∧ (most < n → netConfirmed (recut s).sched h = most ∧ cuts .inject)
      ∧ (n < least → netConfirmed (recut s).sched h = least ∧ cuts .withdraw))
    ∧ (s.clock.state = .running → h ≤ s.clock.hour →
        (recut s).sched.filter (fun r => r.hour == h) = s.sched.filter (fun r => r.hour == h))
    ∧ s.changesOnly [.sched, .evq] (recut s)
    ∧ (recut s).sched.length = s.sched.length
    ∧ (∀ (i : Nat) (r q : SchedRec), s.sched[i]? = some r → (recut s).sched[i]? = some q →
        q.confirmed ≤ r.confirmed ∧ (q.confirmed = r.confirmed → q = r)
        ∧ (q.confirmed < r.confirmed → q = { r with
            confirmed := q.confirmed, state := recordState r.requested q.confirmed
            reason := some (r.reason.getD .capacity), recuts := min (r.recuts + 1) 255 }))
    ∧ ∃ hs : List Nat, hs.Pairwise (fun j k => j < k)
        ∧ (∀ k : Nat, k ∈ hs ↔ ∃ (i : Nat) (r q : SchedRec), s.sched[i]? = some r ∧ (recut s).sched[i]? = some q
            ∧ r.hour = k ∧ q.confirmed < r.confirmed)
        ∧ (recut s).evq = s.evq.pushAll (hs.map (fun k => ⟨gasTime s, .recut, none, some (k : Int)⟩))

/-- The stages of a settlement (R76 to R81). They lose no gas: allocations, tolerance part and uncovered part make up
the net and the deviation; charges and unassigned parts make up the consumption. Within the tolerance the deviation is
the site's alone. What is beyond it falls on the slots of the side of the net, or of the excess where the net is 0,
moving each by its share with the sign of the excess and leaving every other slot at its net; an excess opposed to the
net carries no allocation past 0. While the side can carry it, all of it is placed, in proportion to the net
nominations to within a unit; beyond what an opposed side can carry, its allocations are 0 and the rest is uncovered.
Fuel is charged to the slots above 0 and drying gas to the slots below, in proportion to within a unit, and to no slot
where there is none. -/
def Obligations.SettlementStagesBalance : Prop :=
  (∀ (ns : List Int) (d : Int) (band : Nat),
    let a := (deviate ns d band).allocations
    let excess := d - d.sign * band
    let side := if ns.sum = 0 then excess.sign else ns.sum.sign
    let bears (n : Int) : Bool := decide (0 < n * side)
    let reach := ((ns.filter bears).map Int.natAbs).sum
    a.length = ns.length
    ∧ a.sum + (deviate ns d band).tolerance + (deviate ns d band).uncovered = ns.sum + d
    ∧ (d.natAbs ≤ band → a = ns ∧ (deviate ns d band).tolerance = d ∧ (deviate ns d band).uncovered = 0)
    ∧ (band < d.natAbs → (deviate ns d band).tolerance = d.sign * band
      ∧ (∀ (i : Nat) (n : Int), ns[i]? = some n → ∃ x : Nat, a[i]? = some (n + excess.sign * (x : Int))
          ∧ (bears n = false → x = 0) ∧ (excess.sign ≠ side → x ≤ n.natAbs)
          ∧ (bears n = true → (excess.sign = side ∨ excess.natAbs ≤ reach) →
              (x * reach : Int) - excess.natAbs * n.natAbs < reach ∧ (excess.natAbs * n.natAbs : Int) - x * reach < reach)
          ∧ (bears n = true → excess.sign ≠ side → reach < excess.natAbs → x = n.natAbs))
      ∧ (deviate ns d band).uncovered = (if reach = 0 then excess
          else if excess.sign = side then 0 else excess.sign * ((excess.natAbs - reach : Nat) : Int))))
  ∧ ∀ (ns : List Int) (fc fd : Nat),
    let up := ((ns.filter (fun n => decide (0 < n))).map Int.natAbs).sum
    let down := ((ns.filter (fun n => decide (n < 0))).map Int.natAbs).sum
    (consume ns fc fd).charges.length = ns.length
    ∧ (consume ns fc fd).charges.sum + (consume ns fc fd).fuelLeft + (consume ns fc fd).dryingLeft = fc + fd
    ∧ (consume ns fc fd).fuelLeft = (if up = 0 then fc else 0) ∧ (consume ns fc fd).dryingLeft = (if down = 0 then fd else 0)
    ∧ ∀ (i : Nat) (n : Int), ns[i]? = some n → ∃ x : Nat, (consume ns fc fd).charges[i]? = some x ∧ (n = 0 → x = 0)
        ∧ (0 < n → (x * up : Int) - fc * n.natAbs < up ∧ (fc * n.natAbs : Int) - x * up < up)
        ∧ (n < 0 → (x * down : Int) - fd * n.natAbs < down ∧ (fd * n.natAbs : Int) - x * down < down)

/-! ### Frames -/

/-- The bytes of a request frame, received from HUNTING, are one valid frame with that code, tag and block (R159,
R160, section 8.2): sync byte, length, code, tag, block and CRC, the words high byte first; the CRC of the characters
1 to 9 is 0x29B1. -/
def Obligations.RequestFrameIsTakenWhole : Prop :=
  (∀ (code tag : Byte) (b : Block) (s : State), b.length ≤ 64 → s.link.receiver = .hunting →
    exec (.frameReceived (requestBytes code tag b)) s = .next (validFrame code tag b s))
  ∧ (∀ (code tag : Byte) (b : Block),
    let body : List Byte := BitVec.ofNat 8 b.length :: code :: tag :: b.flatMap highThenLow
    requestBytes code tag b = 0xC3 :: body ++ highThenLow (crc body)
    ∧ (requestBytes code tag b).length = 6 + 2 * b.length)
  ∧ crc ([0x31, 0x32, 0x33, 0x34, 0x35, 0x36, 0x37, 0x38, 0x39] : List Byte) = 0x29B1

/-- A valid frame (R160 to R163, R171): the counter advances and stamps it; the first-frame flag is set; in NORMAL the
supervision timer is loaded with the timeout choice in modes 1 to 3, and stopped in mode 0, and in FALLBACK it stays;
the frame is dispatched, held, or lost to an overrun. A code of the catalogue is dispatched to the request that its
row runs, a code outside it to none. The link byte carries the stamp and, from bit 3 down, SETTLING, CLOCK_UNSET,
UNRESTORED and FALLBACK; the statuses are coded 0 to 11 in the order of their table; a reply frame is its sync byte,
length, code, tag, status, link byte, block and CRC (section 8.2). -/
def Obligations.ValidFrameIsPlaced : Prop :=
  (∀ (code tag : Byte) (b : Block) (s : State),
    let n := s.link.counter + 1
    let heard : Supervision := if s.sup.linkMode = .fallback then { s.sup with firstFrame := true }
      else if s.sup.mode = 0 then { s.sup with firstFrame := true, timer := none }
      else { s.sup with firstFrame := true, timer := some s.sup.timeout, loaded := s.sup.timeout }
    let s1 := (s.setLink { s.link with receiver := .hunting, buffer := [], counter := n }).setSup heard
    let f : Frame := ⟨code, tag, n, b⟩
    let s2 := s1.setLink { s1.link with inHand := some f }
    (s.link.inHand = none →
      (restoring s = true → validFrame code tag b s = repliedWith code tag n .busy [] s2)
      ∧ (restoring s = false → requestOf code = none →
          validFrame code tag b s = repliedWith code tag n .unknownRequest [] s2)
      ∧ (restoring s = false → ∀ req : Block → State → Answer, requestOf code = some req →
          validFrame code tag b s = repliedWith code tag n (req b s2).status (req b s2).out (req b s2).after))
    ∧ (s.link.inHand ≠ none → s.link.holding = none →
        validFrame code tag b s = s1.setLink { s1.link with holding := some f })
    ∧ (s.link.inHand ≠ none → s.link.holding ≠ none →
        validFrame code tag b s = s1.setLink { s1.link with overruns := min (s.link.overruns + 1) 65535 }))
  ∧ (∀ (c : Instr) (code : Byte) (b : Block), c.request = some (code, b) →
      ∃ req : Block → State → Answer, requestOf code = some req ∧ ∀ s : State, restoring s = false →
        exec c s = .next (answeredWith code (req b s).status (req b s).out s (req b s).after))
  ∧ (∀ code : Byte, (∀ (c : Instr) (b : Block), c.request ≠ some (code, b)) → requestOf code = none)
  ∧ (∀ (n : BitVec 4) (s : State), (linkByte n s).toNat
      = 16 * n.toNat + flagsFigure [inFallback s, isUnrestored s, clockIsUnset s, settling s])
  ∧ ([.ok, .unknownRequest, .badLength, .range, .state, .busy, .fallback, .unrestored, .clockUnset, .late, .noRoom,
      .unknownShipper] : List Status).map Status.code = List.range 12
  ∧ ∀ r : Reply,
    let body : List Byte := BitVec.ofNat 8 r.block.length :: r.code :: r.tag :: BitVec.ofNat 8 r.status.code
      :: r.linkByte :: r.block.flatMap highThenLow
    replyBytes r = 0x3C :: body ++ highThenLow (crc body) ∧ (replyBytes r).length = 8 + 2 * r.block.length

/-- What happens on the line outside a valid frame (R159, R160, R161): a frame whose CRC fails, a gap of more than 20
ms, a missing stop bit and a length byte above 64 only raise the error count; a sync byte begins a frame, or is part
of one; the end of a reply frees the link and takes the frame that waits in hand, which is then dispatched as the part
stands and answered with the counter value stamped on it (log entry 52 on one that became valid during a restore).
Rows without their event have no effect (log entry 14). -/
def Obligations.LineEventsOutsideValidFrames : Prop :=
  ∀ s : State,
    let lost := s.setLink { s.link with receiver := .hunting, buffer := [], errors := min (s.link.errors + 1) 65535 }
    let free := s.setLink { s.link with reply := none, inHand := none, holding := none }
    (∀ (n code tag c1 c2 : Byte) (data : List Byte), n.toNat ≤ 64 → data.length = 2 * n.toNat →
      s.link.receiver = .hunting → crc (n :: code :: tag :: data) ≠ c1.append c2 →
      exec (.frameReceived (0xC3 :: n :: code :: tag :: data ++ [c1, c2])) s = .next lost)
    ∧ exec .interByteTimeout s = .next (if s.link.receiver = .assembling then lost else s)
    ∧ exec (.frameAbandoned .missingStop) s = .next (if s.link.receiver = .assembling then lost else s)
    ∧ (∀ n : Byte, exec (.frameAbandoned (.length n)) s =
        .next (if s.link.receiver = .assembling ∧ s.link.buffer.length = 1 ∧ 64 < n.toNat then lost else s))
    ∧ (s.link.receiver = .hunting →
        exec .requestSyncByte s = .next (s.setLink { s.link with receiver := .assembling, buffer := [0xC3] }))
    ∧ (s.link.receiver = .assembling →
        let bytes := s.link.buffer ++ [0xC3]
        (bytes.length = 2 → exec .requestSyncByte s = .next lost)
        ∧ (bytes.length ≠ 2 → bytes.length ≠ 6 + 2 * (bytes.getD 1 0).toNat →
            exec .requestSyncByte s = .next (s.setLink { s.link with buffer := bytes })))
    ∧ (s.link.reply = none → exec .replySent s = .next s)
    ∧ (s.link.reply ≠ none → s.link.restartDue = false → s.link.holding = none → exec .replySent s = .next free)
    ∧ (∀ f : Frame, s.link.reply ≠ none → s.link.restartDue = false → s.link.holding = some f →
        let u := free.setLink { free.link with inHand := some f }
        (restoring s = true → exec .replySent s = .next (repliedWith f.code f.tag f.stamp .busy [] u))
        ∧ (restoring s = false → requestOf f.code = none →
            exec .replySent s = .next (repliedWith f.code f.tag f.stamp .unknownRequest [] u))
        ∧ (restoring s = false → ∀ req : Block → State → Answer, requestOf f.code = some req →
            exec .replySent s = .next (repliedWith f.code f.tag f.stamp (req f.block u).status (req f.block u).out
              (req f.block u).after)))

/-! ### Clock and curves -/

/-- CLOCK SET (R2, R3, R43, R44, R53, R59 to R61, R93, R101): its checks in order; taken, the clock runs in the set
hour, the skipped hours and the discarded records are told and answered, no record of an earlier hour is left, the
horizon stands at the lead, every entry left in the book holds hours after it, each key those it held before; the
book, its counts and the records are those that the confirmation of each hour from U on leaves, made from the trimmed
book, and a train that leaves the capacity as the part begins to withdraw can but recut them; T_raw is the net of the
set hour capped at the rights, and the direction state follows it. That the hours are confirmed in one go is the
model's choice (log entry 51). -/
def Obligations.ClockSetStartsTheClock : Prop :=
  (∀ (s : State) (b : Block), keepsItsChecks (.clockSet b) s)
  ∧ ∀ (s : State) (b : Block), s.settled → clockIsUnset s = true → b.length = 3 → fieldW b 1 ≤ 23 → fieldW b 2 ≤ 3599 →
    s.clock.lastSettled < fieldHour b 0 →
    let h := fieldHour b 0
    let k := h - (s.clock.lastSettled + 1)
    let n := (s.sched.filter (fun r => decide (r.hour < h))).length
    let now : Option GasTime := some ⟨h, fieldW b 2⟩
    let told : List Raised := (if 0 < k then [⟨now, .clockGap, none, some (k : Int)⟩] else [])
      ++ (if 0 < n then [⟨now, .scheduleDiscarded, none, some (n : Int)⟩] else [])
    let u := max s.book.confirmedThrough (h - 1) + 1
    let w := confirmedTo (min (h + s.site.lead) lastHour) { s with
      clock := ⟨.running, h, fieldW b 2, 3600, 0, s.clock.lastSettled⟩
      sched := s.sched.filter (fun r => decide (h ≤ r.hour))
      book := { s.book with
        confirmedThrough := u - 1
        entries := s.book.entries.filterMap (fun e => if u ≤ e.next then some e
          else if e.last < u then none else some { e with first := u, next := u }) }
      evq := s.evq.pushAll told }
    ∃ (t : State) (l : List Raised), exec (.clockSet b) s = .next (answeredWith 0x10 .ok (out2 k ++ out1 n) s t)
      ∧ t.clock = ⟨.running, h, fieldW b 2, 3600, 0, s.clock.lastSettled⟩
      ∧ (∀ r ∈ t.sched, h ≤ r.hour)
      ∧ t.book.confirmedThrough = max (max s.book.confirmedThrough (h - 1)) (min (h + s.site.lead) lastHour)
      ∧ t.evq = w.evq.pushAll l
      ∧ t.book.entries = w.book.entries ∧ t.book.confirmedThrough = w.book.confirmedThrough
      ∧ t.book.nextArrival = s.book.nextArrival ∧ t.book.stats.counts = w.book.stats.counts
      ∧ asked t.sched = asked w.sched ∧ recutFollows w t
      ∧ (capacitiesCurrent s = true → t.dry.capacity = s.dry.capacity → t.sched = w.sched)
      ∧ ((∀ e ∈ s.book.entries, e.next ≤ e.last) →
          ∀ e ∈ t.book.entries, t.book.confirmedThrough < e.next ∧ e.next ≤ e.last)
      ∧ (∀ (i : Fin 24) (d : Direction) (c : Sys2Proof.Machine.Class) (x : Nat), t.book.confirmedThrough < x →
          ((∃ e ∈ t.book.entries, e.hasKey i d c = true ∧ e.holds x = true)
            ↔ ∃ e ∈ s.book.entries, e.hasKey i d c = true ∧ e.holds x = true))
      ∧ t.flow.tRaw = max (-(s.site.wdrRight : Int)) (min (s.site.injRight : Int) (netConfirmed t.sched h))
      ∧ redirected s t
      ∧ s.changesOnly [.world, .clock, .sched, .book, .flow, .dry, .evq] t

/-- CLOCK TRIM, whole (R7): its checks in order; taken, it moves the hour end and the trim used by t, and nothing else;
the gas hour stays within 3,540 to 3,660 s. -/
def Obligations.ClockTrimMovesTheHourEnd : Prop :=
  ∀ (s : State) (b : Block), restoring s = false →
    let t := fieldI b 0
    let e := (s.clock.hourEnd : Int) + t
    (if b.length ≠ 1 then answers (.clockTrim b) 0x11 .badLength [] s s
      else if isUnrestored s = true then answers (.clockTrim b) 0x11 .unrestored [] s s
      else if inFallback s = true then answers (.clockTrim b) 0x11 .fallback [] s s
      else if s.clock.state = .unset then answers (.clockTrim b) 0x11 .clockUnset [] s s
      else if ¬(-60 ≤ t ∧ t ≤ 60) then answers (.clockTrim b) 0x11 .range [] s s
      else if ¬(-60 ≤ s.clock.trim + t ∧ s.clock.trim + t ≤ 60) then answers (.clockTrim b) 0x11 .range [] s s
      else if e - s.clock.sec < 60 then answers (.clockTrim b) 0x11 .range [] s s
      else answers (.clockTrim b) 0x11 .ok (out1 e.toNat ++ out1 (e - s.clock.sec).toNat) s
        (s.setClock { s.clock with hourEnd := e.toNat, trim := s.clock.trim + t }))
    ∧ (clockSafe s.clock = true → s.clock.state = .running → -60 ≤ s.clock.trim + t → s.clock.trim + t ≤ 60 →
        3540 ≤ e ∧ e ≤ 3660)

/-- CURVE WRITE (R17): its checks in order; taken, the curve holds the block's points in order, any earlier ones
replaced whole; referenced or not, with a settlement or a commit in flight or not. -/
def Obligations.CurveWriteReplacesTheCurve : Prop :=
  (∀ (s : State) (b : Block), keepsItsChecks (.curveWrite b) s)
  ∧ ∀ (s : State) (b : Block) (i : Fin 16), s.plain → fieldW b 0 = i.val → 2 ≤ fieldW b 1 → fieldW b 1 ≤ 8 →
    b.length = 2 + 2 * fieldW b 1 →
    (∀ j k : Nat, j < k → k < fieldW b 1 → fieldI b (2 + 2 * j) < fieldI b (2 + 2 * k)) →
    ∃ pts : Curve, exec (.curveWrite b) s = .next (answeredWith 0x14 .ok (out1 i.val ++ out1 (fieldW b 1)) s
        (s.setCurves (setVec s.curves i pts)))
      ∧ pts.length = fieldW b 1
      ∧ ∀ k : Nat, k < fieldW b 1 → pts[k]? = some ⟨fieldI b (2 + 2 * k), fieldW b (3 + 2 * k)⟩

/-- CURVE CLEAR and CURVE READ, whole (R18): the checks in order; taken, the one makes the curve unwritten, the other
answers its points in every mode and changes nothing. -/
def Obligations.CurveClearAndCurveRead : Prop :=
  ∀ (s : State) (b : Block), restoring s = false →
    (b.length ≠ 1 → answers (.curveClear b) 0x16 .badLength [] s s ∧ answers (.curveRead b) 0x15 .badLength [] s s)
    ∧ (b.length = 1 → isUnrestored s = true → answers (.curveClear b) 0x16 .unrestored [] s s)
    ∧ (b.length = 1 → isUnrestored s = false → inFallback s = true → answers (.curveClear b) 0x16 .fallback [] s s)
    ∧ (b.length = 1 → s.plain → 15 < fieldW b 0 → answers (.curveClear b) 0x16 .range [] s s)
    ∧ (b.length = 1 → 15 < fieldW b 0 → answers (.curveRead b) 0x15 .range [] s s)
    ∧ ∀ i : Fin 16, b.length = 1 → fieldW b 0 = i.val →
        (s.plain → curveReferenced s i = true → answers (.curveClear b) 0x16 .state [] s s)
        ∧ (s.plain → curveReferenced s i = false →
            answers (.curveClear b) 0x16 .ok [] s (s.setCurves (setVec s.curves i [])))
        ∧ (s.curves[i] = [] → s.setCurves (setVec s.curves i []) = s)
        ∧ answers (.curveRead b) 0x15 .ok
            (out1 (s.curves[i]).length ++ (s.curves[i]).flatMap (fun p => outI p.x ++ out1 p.y)) s s
        ∧ (curveReferenced s i = true ↔
            (∃ (j : Fin 24) (a : Account), s.acct.slots[j] = some a ∧ (a.injCurve = some i ∨ a.wdrCurve = some i))
            ∨ (∃ j : Fin 6, (s.duty.units[j]).cfg.curve = some i) ∨ ∃ j : Fin 2, (s.dry.trains[j]).cfg.curve = some i)

/-! ### Accounts -/

/-- ACCOUNT OPEN (R23, R24): its checks in order; taken, the lowest-indexed EMPTY slot takes an OPEN record of the
block's figures with inventory 0 and clear clamp flags; nothing else changes. -/
def Obligations.AccountOpenFillsTheLowestEmptySlot : Prop :=
  (∀ (s : State) (b : Block), keepsItsChecks (.accountOpen b) s)
  ∧ ∀ (s : State) (b : Block) (i : Fin 24) (ic wc : Option (Fin 16)), s.settled → b.length = 10 →
    1 ≤ fieldW b 0 → fieldW b 0 ≤ 65534 → 1 ≤ field3 b 1 → field3 b 1 ≤ 999999999999 →
    field2 b 4 ≤ 16000000 → field2 b 6 ≤ 16000000 → ratchetNames s (fieldW b 8) ic → ratchetNames s (fieldW b 9) wc →
    (∀ (j : Fin 24) (a : Account), s.acct.slots[j] = some a → a.shipper ≠ fieldW b 0) →
    s.acct.slots[i] = none → (∀ j : Fin 24, j < i → s.acct.slots[j] ≠ none) →
    exec (.accountOpen b) s = .next (answeredWith 0x20 .ok (out1 i.val) s (s.setAcct { s.acct with
      slots := setVec s.acct.slots i (some
        { shipper := fieldW b 0, state := .opened, inventory := 0, spaceRight := field3 b 1, injRight := field2 b 4,
          wdrRight := field2 b 6, injCurve := ic, wdrCurve := wc, emptyClamp := false, fullClamp := false }) }))

/-- ACCOUNT AMEND, ACCOUNT SUSPEND, ACCOUNT RESUME and ACCOUNT CLOSE (R23, R25, R26, R27): the checks of each in
order; taken, each changes the one record and, of the rest, only ACCOUNT CLOSE the book, from which the shipper's
entries go uncounted. That those are the entries of its slot, whatever id they carry, is the model's choice (log entry
54). The state codes of the reply are free (log entry 11). -/
def Obligations.AccountRequestsChangeOneRecord : Prop :=
  (∀ (s : State) (b : Block) (c : Instr), c ∈ ([.accountAmend b, .accountSuspend b, .accountResume b, .accountClose b] : List Instr) →
    keepsItsChecks c s)
  ∧ ∀ (s : State) (b : Block) (i : Fin 24) (a : Account), s.settled → findShipper (fieldW b 0) s = some (i, a) →
    (∀ ic wc : Option (Fin 16), b.length = 10 → a.state ≠ .closing → 1 ≤ field3 b 1 → field3 b 1 ≤ 999999999999 →
      field2 b 4 ≤ 16000000 → field2 b 6 ≤ 16000000 → ratchetNames s (fieldW b 8) ic → ratchetNames s (fieldW b 9) wc →
      a.inventory ≤ field3 b 1 →
      exec (.accountAmend b) s = .next (answeredWith 0x21 .ok (out1 i.val) s (s.setAcct { s.acct with
        slots := setVec s.acct.slots i (some { a with
          spaceRight := field3 b 1, injRight := field2 b 4, wdrRight := field2 b 6, injCurve := ic, wdrCurve := wc }) })))
    ∧ (b.length = 2 → fieldW b 1 = 0 → exec (.accountSuspend b) s = .next (
        if a.state = .opened then answeredWith 0x22 .ok [Config.slotSuspendedCode] s (s.setAcct { s.acct with
          slots := setVec s.acct.slots i (some { a with state := .suspended }) })
        else refusedWith 0x22 .state s))
    ∧ (b.length = 2 → fieldW b 1 = 1 → exec (.accountResume b) s = .next (
        if a.state = .suspended then answeredWith 0x22 .ok [Config.slotOpenCode] s (s.setAcct { s.acct with
          slots := setVec s.acct.slots i (some { a with state := .opened }) })
        else refusedWith 0x22 .state s))
    ∧ (b.length = 1 → clockIsUnset s = false → a.state ≠ .closing → a.inventory = 0 →
        (∀ r ∈ s.sched, r.slot = i → r.hour ≤ s.clock.hour) →
        ∃ t : State, exec (.accountClose b) s = .next (answeredWith 0x23 .ok (out1 i.val) s t)
          ∧ t.acct = { s.acct with slots := setVec s.acct.slots i (some { a with state := .closing }) }
          ∧ t.book.entries = s.book.entries.filter (fun e => decide (e.slot ≠ i))
          ∧ t.book.nextArrival = s.book.nextArrival ∧ t.book.confirmedThrough = s.book.confirmedThrough
          ∧ t.book.stats.counts = s.book.stats.counts ∧ s.changesOnly [.acct, .book] t)

/-- ACCOUNT ADJUST and ACCOUNT READ (R23, R28 to R30, R37, R38): the checks of each in order; taken, an adjustment
moves its quantity from the SBA to the inventory, the alert follows the SBA, and SBA_LIMIT is raised when it becomes
RAISED; a read answers the slot's record and clears its two clamp flags, and of an EMPTY slot changes nothing. The
state code of the reply is free (log entry 11); that while the clock is UNSET it counts the records of hours above 0
as later hours is log entry 43. -/
def Obligations.AccountAdjustAndAccountRead : Prop :=
  (∀ (s : State) (b : Block) (c : Instr), c ∈ ([.accountAdjust b, .accountRead b] : List Instr) →
    keepsItsChecks c s)
  ∧ (∀ (s : State) (b : Block) (i : Fin 24) (a : Account), s.settled → b.length = 4 →
    findShipper (fieldW b 0) s = some (i, a) → a.state ≠ .closing →
    let q := fieldI3 b 1
    q.natAbs ≤ 999999999999 → 0 ≤ a.inventory + q → a.inventory + q ≤ a.spaceRight →
    (s.acct.sba - q).natAbs ≤ 1000000000000000 →
    ∃ t : State, exec (.accountAdjust b) s =
        .next (answeredWith 0x25 .ok (outI3 (a.inventory + q) ++ outI4 (s.acct.sba - q)) s t)
      ∧ t.acct = { s.acct with
          slots := setVec s.acct.slots i (some { a with inventory := a.inventory + q })
          sba := s.acct.sba - q
          alert := if s.site.alertLimit < (s.acct.sba - q).natAbs then .raised else .armed }
      ∧ t.evq = (if s.site.alertLimit < (s.acct.sba - q).natAbs ∧ s.acct.alert = .armed then
          s.evq.pushAll [⟨gasTime s, .sbaLimit, none, some (s.acct.sba - q)⟩] else s.evq)
      ∧ s.changesOnly [.acct, .evq] t)
  ∧ ∀ (s : State) (b : Block) (i : Fin 24), restoring s = false → settling s = false → b.length = 1 →
    fieldW b 0 = i.val →
    (s.acct.slots[i] = none → exec (.accountRead b) s =
      .next (answeredWith 0x24 .ok (Config.slotEmptyCode :: List.replicate 16 0) s s))
    ∧ ∀ a : Account, s.acct.slots[i] = some a → ∃ code : Word, exec (.accountRead b) s = .next (answeredWith 0x24 .ok
        (code :: (out1 a.shipper ++ outI3 a.inventory ++ out3 a.spaceRight ++ out2 a.injRight ++ out2 a.wdrRight
          ++ outRatchet a.injCurve ++ outRatchet a.wdrCurve ++ outFlags [a.emptyClamp, a.fullClamp]
          ++ out1 (s.sched.filter (fun r => decide (r.slot = i) && decide (s.clock.hour < r.hour))).length
          ++ out1 (s.book.entries.filter (fun e => decide (e.slot = i))).length)) s
        (s.setAcct { s.acct with
          slots := setVec s.acct.slots i (some { a with emptyClamp := false, fullClamp := false }) }))

/-- TRANSFER (R23, R33), its checks in order, and one transfer executed (R34): a transfer joins the list with the next
arrival number; executed, it moves its quantity whole, or is dropped whole with its reason. -/
def Obligations.TransferJoinsTheListAndMovesItsQuantity : Prop :=
  (∀ (s : State) (b : Block), keepsItsChecks (.transfer b) s)
  ∧ (∀ (s : State) (b : Block) (i j : Fin 24) (a c : Account), s.settled → b.length = 5 →
    findShipper (fieldW b 0) s = some (i, a) → findShipper (fieldW b 1) s = some (j, c) → fieldW b 0 ≠ fieldW b 1 →
    a.state ≠ .closing → c.state ≠ .closing → 1 ≤ field3 b 2 → field3 b 2 ≤ 999999999999 →
    s.acct.transfers.length < 16 →
    exec (.transfer b) s = .next (answeredWith 0x26 .ok
      (out2 s.acct.nextTransfer.toNat ++ out1 (s.acct.transfers.length + 1)) s (s.setAcct { s.acct with
        transfers := s.acct.transfers ++ [⟨s.acct.nextTransfer, fieldW b 0, fieldW b 1, field3 b 2⟩]
        nextTransfer := s.acct.nextTransfer + 1 })))
  ∧ (∀ (s : State) (t : Transfer) (i j : Fin 24) (a c : Account), findShipper t.source s = some (i, a) →
      findShipper t.destination s = some (j, c) → i ≠ j →
      executeTransfer t s =
        if a.state = .closing ∨ c.state = .closing then raise .transferFailed (some i.val) (some 2) s
        else if a.inventory < t.quantity then raise .transferFailed (some i.val) (some 3) s
        else if (c.spaceRight : Int) - c.inventory < t.quantity then raise .transferFailed (some i.val) (some 4) s
        else raise .transferDone (some i.val) (some (t.quantity : Int)) (s.setAcct { s.acct with
          slots := setVec (setVec s.acct.slots i (some { a with inventory := a.inventory - t.quantity })) j
            (some { c with inventory := c.inventory + t.quantity }) }))
  ∧ ∀ (s : State) (t : Transfer), (findShipper t.source s = none ∨ findShipper t.destination s = none) →
      executeTransfer t s =
        raise .transferFailed ((findSlot t.source s).map (fun i => i.val)) (some 1) s

/-! ### Book, statistics and the reading requests -/

/-- NOMINATE and CANCEL (R44 to R48, R65 to R67): the checks of each in order, with LATE and NO_ROOM; taken, the hours
go from the key; a nomination appends its entry with the next arrival number and raises SUPERSEDED for each entry
removed whole, in book order (log entry 44); a cancellation raises nothing, and one that meets no entry changes
nothing in the book. What passes the filter is counted by its kind: the nomination as accepted, an entry removed whole
as superseded or cancelled. -/
def Obligations.NominateAndCancelRewriteTheKey : Prop :=
  (∀ (s : State) (b : Block) (c : Instr), c ∈ ([.nominate b, .cancel b] : List Instr) → keepsItsChecks c s)
  ∧ ∀ (s : State) (b : Block) (i : Fin 24) (a : Account) (d : Direction) (c : Sys2Proof.Machine.Class), s.settled →
    clockIsUnset s = false → findShipper (fieldW b 0) s = some (i, a) → fieldW b 1 = d.code → fieldW b 2 = c.code →
    fieldW b 4 ≤ 23 → fieldW b 6 ≤ 23 → fieldHour b 3 ≤ fieldHour b 5 → fieldHour b 5 ≤ s.clock.hour + 36 →
    let u := s.book.confirmedThrough + 1
    let passed (id : Nat) : Bool := s.book.stats.filter == 0 || s.book.stats.filter == id
    let before := s.book.stats.counts[kindIndex d c]
    (b.length = 9 → a.state = .opened → field2 b 7 ≤ 16000000 → fieldHour b 5 - fieldHour b 3 + 1 ≤ 24 →
      u ≤ fieldHour b 3 →
      (removeHours i d c (fieldHour b 3) (fieldHour b 5) s.book.entries).length + 1 ≤ 256 →
      let gone := metBy .whole i d c (fieldHour b 3) (fieldHour b 5) s.book.entries
      ∃ t : State, exec (.nominate b) s = .next (answeredWith 0x30 .ok (out2 s.book.nextArrival.toNat
          ++ out1 gone.length
          ++ out1 ((metBy .front i d c (fieldHour b 3) (fieldHour b 5) s.book.entries).length
            + (metBy .back i d c (fieldHour b 3) (fieldHour b 5) s.book.entries).length)
          ++ out1 (metBy .split i d c (fieldHour b 3) (fieldHour b 5) s.book.entries).length
          ++ out1 t.book.entries.length) s t)
        ∧ t.book.entries = removeHours i d c (fieldHour b 3) (fieldHour b 5) s.book.entries
            ++ [⟨s.book.nextArrival, i, fieldW b 0, d, c, fieldHour b 3, fieldHour b 5, fieldHour b 3, field2 b 7⟩]
        ∧ t.book.nextArrival = s.book.nextArrival + 1 ∧ t.book.confirmedThrough = s.book.confirmedThrough
        ∧ t.evq = s.evq.pushAll (gone.map (fun e =>
            ⟨gasTime s, .superseded, some e.slot.val, some (e.arrival.toNat : Int)⟩))
        ∧ (before.accepted ≤ 65535 → before.superseded ≤ 65535 →
            t.book.stats.counts = setVec s.book.stats.counts (kindIndex d c) { before with
              accepted := min (before.accepted + (passed (fieldW b 0)).toNat) 65535
              superseded := min (before.superseded + (gone.filter (fun e => passed e.shipper)).length) 65535 })
        ∧ s.changesOnly [.book, .evq] t)
    ∧ (b.length = 7 → a.state ≠ .closing → u ≤ fieldHour b 5 →
      let f := max (fieldHour b 3) u
      ((metBy .split i d c f (fieldHour b 5) s.book.entries = []) ∨ s.book.entries.length < 256) →
      ∃ t : State, exec (.cancel b) s = .next (answeredWith 0x31 .ok (out1 (hoursTaken i d c f (fieldHour b 5) s.book.entries)
          ++ out1 (metBy .whole i d c f (fieldHour b 5) s.book.entries).length
          ++ out1 (metBy .split i d c f (fieldHour b 5) s.book.entries).length ++ out1 t.book.entries.length) s t)
        ∧ t.book.entries = removeHours i d c f (fieldHour b 5) s.book.entries
        ∧ t.book.nextArrival = s.book.nextArrival ∧ t.book.confirmedThrough = s.book.confirmedThrough
        ∧ (before.cancelled ≤ 65535 →
            t.book.stats.counts = setVec s.book.stats.counts (kindIndex d c) { before with
              cancelled := min (before.cancelled
                + ((metBy .whole i d c f (fieldHour b 5) s.book.entries).filter (fun e => passed e.shipper)).length) 65535 })
        ∧ ((∀ e ∈ s.book.entries, e.hasKey i d c = true → fieldHour b 5 < e.next ∨ e.last < f) → t.book = s.book)
        ∧ s.changesOnly [.book] t)

/-- BOOK STATISTICS and the statistics' second (R67, R68): its checks in order; taken, the reply is the statistics as
they stood; a changed filter or threshold, or a clear flag of 1, clears them; each second adds the filtered count. -/
def Obligations.BookStatisticsAreReadClearedAndCounted : Prop :=
  (∀ (s : State) (b : Block), keepsItsChecks (.bookStatistics b) s)
  ∧ (∀ (s : State) (b : Block), restoring s = false → b.length = 3 → fieldW b 0 ≠ 65535 → fieldW b 1 ≤ 256 →
    fieldW b 2 ≤ 1 →
    ∃ r : Block, exec (.bookStatistics b) s = .next (answeredWith 0x34 .ok r s
      (if fieldW b 0 = s.book.stats.filter ∧ fieldW b 1 = s.book.stats.threshold ∧ fieldW b 2 = 0 then s
       else s.setBook { s.book with
        stats := ⟨fieldW b 0, fieldW b 1, Vector.replicate 4 KindCounts.zero, 0, 0, 0, 0⟩ }))
      ∧ r.length = 32 ∧ statisticsFields s.book.stats r)
  ∧ ∀ s : State,
    let n := (s.book.entries.filter (fun e => s.book.stats.filter == 0 || s.book.stats.filter == e.shipper)).length
    exec .statisticsSecond s = .next (s.setBook { s.book with stats := { s.book.stats with
      occupancy := min (s.book.stats.occupancy + n) 4294967295
      atThreshold := if s.book.stats.threshold ≤ n then min (s.book.stats.atThreshold + 1) 4294967295
        else s.book.stats.atThreshold
      high := max s.book.stats.high n } })

/-- The reading requests (R8, R40, R63, R64, R90, R91, R111, R136, R158, R179): each applies its checks in order, and
taken changes nothing and answers with as many words as the catalogue gives its reply, every field in its place
(section 8.4). The blocks of a marked copy that is not whole are those of one run of 12,288 words whose CRC does not
hold. Free words of the replies: log entries 6, 11, 12, 28 and 40; the phase timer of a bed that is READY or
ADSORBING: log entry 47; that of a unit with no timed phase: log entry 49. -/
def Obligations.ReadsAnswerAndChangeNothing : Prop :=
  (∀ (s : State) (b : Block) (c : Instr), c ∈ ([.clockRead b, .flowRead b, .unitRead b, .trainRead b, .sbaRead b, .settlementRead b, .allocationRead b, .bookRead b, .scheduleRead b, .storeRead b] : List Instr) →
    keepsItsChecks c s)
  ∧ ∀ (s : State) (b : Block), restoring s = false →
    let reads (c : Instr) (code : Byte) (words : Nat) (fields : Block → Prop) : Prop :=
      ∃ r : Block, exec c s = .next (answeredWith code .ok r s s) ∧ r.length = words ∧ fields r
    (b.length = 0 → reads (.clockRead b) 0x12 8 (clockFields s) ∧ reads (.flowRead b) 0x39 49 (flowFields s))
    ∧ (∀ i : Fin 6, b.length = 1 → fieldW b 0 = i.val → reads (.unitRead b) 0x42 44 (unitFields s i))
    ∧ (∀ t : Fin 2, b.length = 1 → fieldW b 0 = t.val → reads (.trainRead b) 0x4A 56 (trainFields s t))
    ∧ (settling s = false →
      (b.length = 0 → reads (.sbaRead b) 0x27 27 (sbaFields s))
      ∧ (b.length = 1 → fieldW b 0 ≤ 23 →
        reads (.settlementRead b) 0x28 (if fieldW b 0 < s.settle.history.length then 43 else 1)
          (settlementFields s (fieldW b 0)))
      ∧ (∀ i : Fin 24, b.length = 1 → fieldW b 0 = i.val → reads (.allocationRead b) 0x29 20 (allocationFields s i))
      ∧ (b.length = 2 → fieldW b 1 ≤ 255 →
        reads (.bookRead b) 0x32
          (4 + 14 * min 4 ((s.book.entries.filter (fun e => fieldW b 0 == 0 || e.shipper == fieldW b 0)).length
            - fieldW b 1))
          (bookFields s (fieldW b 0) (fieldW b 1)))
      ∧ (b.length = 3 → fieldW b 1 ≤ 23 → fieldW b 2 ≤ 95 →
        reads (.scheduleRead b) 0x33
          (4 + 10 * min 6 ((s.sched.filter (fun r => r.hour == fieldHour b 0)).length - fieldW b 2))
          (scheduleFields s (fieldHour b 0) (fieldW b 2))))
    ∧ (committing s = false → b.length = 1 → fieldW b 0 ≤ 383 →
      reads (.storeRead b) 0x50 36 (storeFields s (fieldW b 0)))
    ∧ (committing s = false → (∀ (n : BitVec 32) (m : Image), s.store.copies[s.store.mark] ≠ .whole n m) →
      ∃ ws : Block, ws.length = 12288 ∧ crcHolds ws = false
        ∧ ∀ k : Nat, k ≤ 383 → exec (.storeRead (out1 k)) s = .next (answeredWith 0x50 .ok (storeWords ws k) s s))

/-! ### Site, flow and the second's work -/

/-- SITE SET (R53, R58 to R62, R96, R101, R109, R110, R115, R142): its checks in order; taken, the group stands; the
alert, the capacities of injection and of withdrawal and the limits the flow controller holds follow it; T_raw is the
current hour's net capped at the rights, T is T_raw within those limits, and the direction state follows. Where the
lead rises while the clock runs, each hour from U through the current hour plus the new lead is confirmed, its events
among the others; with the rights and the capacities as they were the book and the schedule are those that leaves, and
in any case every hour so confirmed fits the capacities afterwards. Otherwise the book stays, and the schedule is
recut where a declared capacity falls; where none falls it stands, but for the transient falls of trains that follow a
changed direction. The order of the blocks' responses is the world's (log entry 2); that the hours are confirmed in
one go is the model's choice (log entry 51). -/
def Obligations.SiteSetReplacesTheSettings : Prop :=
  (∀ (s : State) (b : Block), keepsItsChecks (.siteSet b) s)
  ∧ ∀ (s : State) (b : Block), s.settled → b.length = 29 → siteInRange (siteOf b) = true → fieldW b 28 ≤ 1 →
    (siteOf b).stopFraction < (siteOf b).startFraction →
    let g := siteOf b
    ∃ t : State, exec (.siteSet b) s = .next (answeredWith 0x38 .ok [] s t)
      ∧ t.site = g
      ∧ t.acct = { s.acct with alert := if g.alertLimit < s.acct.sba.natAbs then .raised else .armed }
      ∧ t.duty.declared = min (capacitySum UnitState.declares s) g.injRight
      ∧ t.duty.ready = min (capacitySum (fun x => x == .loaded) s) g.injRight ∧ t.flow.cInj = t.duty.ready
      ∧ t.flow.tRaw = max (-(g.wdrRight : Int)) (min (g.injRight : Int)
          (if clockIsUnset s = true ∨ inFallback s = true then 0 else netConfirmed s.sched s.clock.hour))
      ∧ t.dry.capacity = withdrawalCapacity t ∧ t.flow.cWdr = t.dry.capacity
      ∧ t.flow.t = max (-(t.flow.cWdr : Int)) (min (t.flow.cInj : Int) t.flow.tRaw)
      ∧ redirected s t
      ∧ (g.lead ≤ s.site.lead ∨ clockIsUnset s = true → t.book = s.book ∧ recutFollows s t
          ∧ (s.duty.declared ≤ t.duty.declared → s.dry.capacity ≤ t.dry.capacity →
              t.flow.dir = s.flow.dir ∨ laterHoursFit s → t.sched = s.sched))
      ∧ (s.site.lead < g.lead → clockIsUnset s = false →
          let w := confirmedTo (min (s.clock.hour + g.lead) lastHour) { s with site := g }
          t.book.confirmedThrough = max s.book.confirmedThrough (min (s.clock.hour + g.lead) lastHour)
          ∧ t.book.entries = w.book.entries ∧ t.book.nextArrival = s.book.nextArrival ∧ asked t.sched = asked w.sched
          ∧ (∃ l : List Raised, w.evq = s.evq.pushAll l ∧ toldBetween s t l)
          ∧ (g.injRight = s.site.injRight → g.wdrRight = s.site.wdrRight → capacitiesCurrent s = true →
              t.dry.capacity = s.dry.capacity → t.book = w.book ∧ t.sched = w.sched)
          ∧ ((∀ r ∈ s.sched, r.hour ≤ s.book.confirmedThrough) → ∀ x : Nat, s.book.confirmedThrough < x →
              s.clock.hour < x →
              netConfirmed t.sched x ≤ t.duty.declared ∧ -(t.dry.capacity : Int) ≤ netConfirmed t.sched x))
      ∧ s.changesOnly [.world, .site, .acct, .book, .sched, .flow, .duty, .dry, .evq] t

/-- The ramp's second, the turnaround's end and the step cut (R95, R96, R97, R98, R99, R102, R103, R104, R105): S
moves toward G by at most the rate; in TURNAROUND the timer falls; at its end the direction follows the sign of T_raw
and DIRECTION_CHANGED is raised, among the events of the drying supervisor where it enters WITHDRAWING (log entry 2).
The row TURNAROUND_EXPIRY takes the timer's last second, and has no effect before it (log entry 14). G is 0 in HOLD
and TURNAROUND, the larger of T and 0 in INJECTING and the smaller in WITHDRAWING; a direction ends as R101 to R105
say where the ramp or a cut brings S to 0 with T_raw 0 or on the other side. A capacity handed to the flow controller
becomes the limit of T; one that falls below S, or leaves S beyond it on the withdrawal side, cuts S to it at once
with STEP_CUT, the old and new S being kept as the last step cut; any other changes no more than T. (S is below 0 in
WITHDRAWING alone, R100.) A train that leaves the capacity as the direction changes recuts the later hours (R61,
R142). -/
def Obligations.RampStepAndTurnaroundExpiry : Prop :=
  (∀ (s : State) (c : Nat),
    let cutTo (t : State) (x : Int) : Prop := t.flow.setpoint = x ∧ t.flow.lastCut = some (s.flow.setpoint, x)
      ∧ (∃ l : List Raised, t.evq = s.evq.pushAll (⟨gasTime s, .stepCut, none, some x⟩ :: l))
      ∧ t.flow.tRaw = s.flow.tRaw ∧ t.flow.t = max (-(t.flow.cWdr : Int)) (min (t.flow.cInj : Int) s.flow.tRaw)
      ∧ (s.flow.dir ≠ .hold → redirected s t)
      ∧ recutFollows s t ∧ s.changesOnly [.flow, .dry, .sched, .evq, .world] t
    (c < s.flow.cInj ∧ (c : Int) < s.flow.setpoint →
      (receiveInj c s).flow.cInj = c ∧ cutTo (receiveInj c s) (c : Int))
    ∧ (¬(c < s.flow.cInj ∧ (c : Int) < s.flow.setpoint) → receiveInj c s = s.setFlow { s.flow with
        cInj := c, t := max (-(s.flow.cWdr : Int)) (min (c : Int) s.flow.tRaw) })
    ∧ (c < s.flow.cWdr ∧ s.flow.setpoint < -(c : Int) → cutTo (receiveWdr c s) (-(c : Int))
      ∧ (s.flow.dir = .withdrawing → (receiveWdr c s).flow.cWdr = c))
    ∧ (¬(c < s.flow.cWdr ∧ s.flow.setpoint < -(c : Int)) → receiveWdr c s = s.setFlow { s.flow with
        cWdr := c, t := max (-(c : Int)) (min (s.flow.cInj : Int) s.flow.tRaw) }))
  ∧ ∀ s : State,
    let g : Int := match s.flow.dir with
      | .hold => 0
      | .turnaround => 0
      | .injecting => max s.flow.t 0
      | .withdrawing => min s.flow.t 0
    let rate : Int := if s.flow.setpoint.natAbs < g.natAbs then s.site.upRate
      else if inFallback s = true then s.site.fallbackRate else s.site.downRate
    (s.flow.dir ≠ .turnaround → ∃ t : State, exec .rampStep s = .next t
      ∧ t.flow.setpoint = (if s.flow.setpoint < g then min g (s.flow.setpoint + rate)
          else max g (s.flow.setpoint - rate))
      ∧ (s.flow.dir ≠ .hold → s.flow.setpoint ≠ 0 → redirected s t)
      ∧ t.flow.tRaw = s.flow.tRaw ∧ recutFollows s t ∧ s.changesOnly [.world, .flow, .dry, .sched, .evq] t)
    ∧ (s.flow.dir ≠ .turnaround → exec .turnaroundExpiry s = .next s)
    ∧ (s.flow.dir = .turnaround → 1 < s.flow.timer →
        exec .rampStep s = .next (s.setFlow { s.flow with timer := s.flow.timer - 1 })
        ∧ exec .turnaroundExpiry s = .next s)
    ∧ (s.flow.dir = .turnaround → s.flow.timer ≤ 1 →
        let d : FlowDir := if 0 < s.flow.tRaw then .injecting else if s.flow.tRaw < 0 then .withdrawing else .hold
        ∃ (t : State) (l m : List Raised), exec .rampStep s = .next t ∧ exec .turnaroundExpiry s = .next t
          ∧ t.flow.dir = d ∧ t.flow.timer = 0 ∧ t.flow.setpoint = s.flow.setpoint
          ∧ t.flow.lastDir = (if 0 < s.flow.tRaw then some .inject
              else if s.flow.tRaw < 0 then some .withdraw else s.flow.lastDir)
          ∧ t.evq = s.evq.pushAll (l ++ ⟨gasTime s, .directionChanged, none, some (d.code : Int)⟩ :: m)
          ∧ (d ≠ .withdrawing → l = [] ∧ m = [])
          ∧ recutFollows s t ∧ s.changesOnly [.world, .flow, .dry, .sched, .evq] t)

/-- A second of the gas clock within its hour, and the report-gap watch (R4, R14): seconds into the hour advance while
RUNNING, and 60 s without a report raise REPORT_GAP once, with the gas time before the second or after it. Elapsed
time advances with this row (log entry 16); the separate REPORT_GAP row takes the watch's last second (log entry 14). -/
def Obligations.GasClockSecondAndReportGap : Prop :=
  ∀ s : State,
    ((s.clock.state = .unset ∨ s.clock.sec + 1 < s.clock.hourEnd) →
      ∃ t : State, exec .gasClockSecond s = .next t
        ∧ t.elapsed = s.elapsed + 1
        ∧ t.clock = (match s.clock.state with
            | .unset => s.clock
            | .running => { s.clock with sec := s.clock.sec + 1 })
        ∧ t.meter = { s.meter with gap := s.meter.gap || decide (s.meter.lastReport + 60 ≤ s.elapsed + 1) }
        ∧ (∃ time : Option GasTime, (time = gasTime s ∨ time = gasTime t) ∧ t.evq =
            if s.meter.gap = false ∧ s.meter.lastReport + 60 ≤ s.elapsed + 1 then
              s.evq.pushAll [⟨time, .reportGap, none, none⟩] else s.evq)
        ∧ s.changesOnly [.elapsed, .clock, .meter, .evq, .world] t)
    ∧ exec .reportGap s = .next (
        if s.meter.gap = false ∧ s.meter.lastReport + 60 ≤ s.elapsed + 1 then
          (s.setMeter { s.meter with gap := true }).setEvq (s.evq.pushAll [⟨gasTime s, .reportGap, none, none⟩])
        else s)

/-- The hour boundary, in the clock's second, with which elapsed time advances (log entry 16), or in its own row,
which takes the hour's last second (log entry 14) (R4, R5, R13, R73, R74, R93, R101, R133, R175): the settlement takes
the hour, the bucket, the whole kWh of fuel and drying gas and the hour's records; the clock moves on, back to UNSET
after the last hour of gas time; T_raw is formed anew, and the direction state follows it. At a day's end with
rotation on the roster is re-sorted: the units that are neither DISABLED nor LOCKED_OUT by run seconds and then by
index, then the others by index; DAY_ROLLED tells the new roster in six digits. That the last hour's two
recomputations are made as one is log entry 45. A train that leaves the capacity as the direction changes recuts the
hours after the new one (R61, R142). -/
def Obligations.HourBoundaryBeginsTheSettlement : Prop :=
  ∀ (s : State) (c : Instr), c = .gasClockSecond ∨ c = .hourBoundary → s.clock.state = .running →
    s.clock.hourEnd ≤ s.clock.sec + 1 → s.settle.inFlight = none →
    let h := s.clock.hour
    ∃ t : State, exec c s = .next t
      ∧ t.settle = { s.settle with
          inFlight :=
            some ⟨h, s.meter.bucket, s.duty.fuel / 3600, s.dry.gas / 3600, s.sched.filter (fun r => r.hour == h)⟩ }
      ∧ t.clock = (if h = lastHour then ⟨.unset, 0, 0, 3600, 0, s.clock.lastSettled⟩
          else ⟨.running, h + 1, 0, 3600, 0, s.clock.lastSettled⟩)
      ∧ t.meter.bucket = 0 ∧ t.meter.base = s.meter.base ∧ t.meter.kept = s.meter.base
      ∧ t.duty.fuel = s.duty.fuel % 3600 ∧ t.dry.gas = s.dry.gas % 3600
      ∧ t.flow.tRaw = max (-(s.site.wdrRight : Int)) (min (s.site.injRight : Int)
          (if h = lastHour ∨ isUnrestored s = true ∨ inFallback s = true then 0 else netConfirmed s.sched (h + 1)))
      ∧ redirected s t
      ∧ (let rolls : Prop := h ≠ lastHour ∧ (h + 1) % 24 = 0 ∧ s.site.rotation = true
         let aside (i : Fin 6) : Prop := (s.duty.units[i]).state = .disabled ∨ (s.duty.units[i]).state = .lockedOut
         let run (i : Fin 6) : Nat := (s.duty.units[i]).runSeconds
         ∃ l : List Raised, t.evq = s.evq.pushAll l
          ∧ (¬rolls → t.duty.roster = s.duty.roster ∧ ∀ e ∈ l, e.kind ≠ .dayRolled)
          ∧ (rolls → (∀ i : Fin 6, i ∈ t.duty.roster.toList)
              ∧ t.duty.roster.toList.Pairwise (fun i j => (¬aside i ∧ aside j) ∨ (aside i ∧ aside j ∧ i < j)
                ∨ (¬aside i ∧ ¬aside j ∧ (run i < run j ∨ (run i = run j ∧ i < j))))
              ∧ l.filter (fun e => e.kind == .dayRolled) = [⟨gasTime t, .dayRolled, none,
                  some ((t.duty.roster.toList.foldl (fun n i => 10 * n + i.val) 0 : Nat) : Int)⟩]))
      ∧ t.duty.units = s.duty.units
      ∧ recutFollows s t ∧ s.changesOnly [.elapsed, .world, .clock, .meter, .settle, .duty, .dry, .flow, .sched, .evq] t

/-- The completion of a settlement (R34 to R36, R38, R53, R70, R75, R82 to R88, R176). A slot's net nomination is its
records' injections less its withdrawals, 0 of an EMPTY slot. Each slot stands at its inventory plus allocation less
charge, clamped to 0 and to its space right with its flag set, and the SBA takes what no slot carries; then the
pending transfers are executed in list order, and the CLOSING slots released in slot order to the SBA. The site-hour
record joins the history, with the clamp total and the SBA after the posting; each slot that held a record of the hour
takes its last-allocation record, and a released one loses its own; the balance totals take the hour, the transfer
list empties, the hour's records leave the schedule, the hour is the last settled. While the clock runs, confirmation
through the current hour plus the lead follows, from the accounts as they then stand. The events come in the order of
the posting, HOUR_SETTLED, transfers, releases and COMPLETED, each clamp and each release followed by its SBA_LIMIT.
The engine is IDLE, and the commit begins unless the part is UNRESTORED. While IDLE the row has no effect (log entry
14); a commit begun over one in flight supersedes it (log entry 18); the order of the COMPLETED events of an hour is
log entry 44, and that the hours are confirmed in one go log entry 51. -/
def Obligations.SettlementCompletionPostsTheHour : Prop :=
  ∀ s : State,
    (s.settle.inFlight = none → exec .settlementCompletion s = .next s)
    ∧ ∀ k : Intake, s.settle.inFlight = some k →
      let ns : List Int := (List.finRange 24).map (fun i => if s.acct.slots[i] = none then 0
        else ((k.records.filter (fun r => decide (r.slot = i))).map (fun r =>
          if r.dir = .inject then (r.confirmed : Int) else -(r.confirmed : Int))).sum)
      let dv := deviate ns (k.qb - ns.sum) s.site.tolerance
      let c := consume ns k.fc k.fd
      let allocated (i : Fin 24) : Int := dv.allocations.getD i.val 0
      let charged (i : Fin 24) : Int := (c.charges.getD i.val 0 : Nat)
      let after (i : Fin 24) (a : Account) : Int := a.inventory + allocated i - charged i
      let beyond (i : Fin 24) (a : Account) : Int := if after i a < 0 then after i a
        else if (a.spaceRight : Int) < after i a then after i a - a.spaceRight else 0
      let clamp (i : Fin 24) : Int := (s.acct.slots[i]).elim 0 (beyond i)
      let clamps : Int := ((List.finRange 24).map clamp).sum
      let sba : Int := s.acct.sba + dv.tolerance + dv.uncovered - c.fuelLeft - c.dryingLeft + clamps
      let held (i : Fin 24) : Prop := ∃ r ∈ k.records, r.slot = i
      let now := gasTime s
      let clampTold (i : Fin 24) : List Raised := if clamp i < 0 then [⟨now, .clampEmpty, some i.val, some (clamp i)⟩]
        else if 0 < clamp i then [⟨now, .clampFull, some i.val, some (clamp i)⟩] else []
      let posting : List (List Raised × Int) :=
        [([], dv.tolerance), ([], dv.uncovered), ([], -(c.fuelLeft : Int)), ([], -(c.dryingLeft : Int))]
        ++ (List.finRange 24).map (fun i => (clampTold i, clamp i))
      let posted : State := (s.setAcct { s.acct with
          slots := Vector.ofFn (fun i : Fin 24 => (s.acct.slots[i]).map (fun a : Account => { a with
            inventory := max 0 (min (a.spaceRight : Int) (after i a))
            emptyClamp := a.emptyClamp || decide (after i a < 0)
            fullClamp := a.fullClamp || decide ((a.spaceRight : Int) < after i a) }))
          sba := sba }).setEvq (s.evq.pushAll (sbaTrail now s.site.alertLimit s.acct.sba posting
            ++ [⟨now, .hourSettled, none, some (k.hour : Int)⟩]))
      let moved := s.acct.transfers.foldl (fun u x => executeTransfer x u) posted
      let leaves (i : Fin 24) : Bool := (moved.acct.slots[i]).any (fun a => a.state == .closing)
      let left (i : Fin 24) : Int := (moved.acct.slots[i]).elim 0 (fun a => a.inventory)
      let released : List (List Raised × Int) := ((List.finRange 24).filter leaves).map (fun i =>
        ([⟨now, .slotReleased, some i.val, some (left i)⟩], left i))
      ∃ (t : State) (row : SiteHour), exec .settlementCompletion s = .next t
        ∧ t.settle.inFlight = none ∧ t.clock = { s.clock with lastSettled := k.hour }
        ∧ t.settle.history = pushHistory row s.settle.history
        ∧ row.hour = k.hour ∧ row.qb = k.qb ∧ row.fc = k.fc ∧ row.fd = k.fd ∧ row.net = ns.sum
        ∧ row.deviation = k.qb - ns.sum ∧ row.tolerancePart = dv.tolerance ∧ row.uncoveredPart = dv.uncovered
        ∧ row.unassigned = -((c.fuelLeft : Int) + c.dryingLeft) ∧ row.clampTotal = clamps ∧ row.sbaAfter = sba
        ∧ (∀ i : Fin 24, (leaves i = true → t.settle.alloc[i] = none)
            ∧ (s.acct.slots[i] = none → t.settle.alloc[i] = s.settle.alloc[i])
            ∧ ∀ a : Account, s.acct.slots[i] = some a → a.state ≠ .closing →
              (held i → t.settle.alloc[i] = some ⟨k.hour, ns.getD i.val 0, allocated i, charged i, clamp i⟩)
              ∧ (¬held i → t.settle.alloc[i] = s.settle.alloc[i]))
        ∧ t.acct.booked = s.acct.booked + k.qb ∧ t.acct.charged = s.acct.charged + (k.fc : Int) + k.fd
        ∧ t.acct.opening = s.acct.opening ∧ t.acct.transfers = [] ∧ t.acct.nextTransfer = s.acct.nextTransfer
        ∧ (∀ i : Fin 24, t.acct.slots[i] = if leaves i = true then none else moved.acct.slots[i])
        ∧ t.acct.sba = sba + (released.map (fun x => x.2)).sum
        ∧ (let v : State := { s with
            acct := t.acct, clock := t.clock, sched := s.sched.filter (fun r => decide (r.hour ≠ k.hour))
            evq := moved.evq.pushAll (sbaTrail now s.site.alertLimit sba released) }
           let w := if clockIsUnset s = true then v else confirmedTo (min (s.clock.hour + s.site.lead) lastHour) v
           t.book = w.book ∧ t.sched = w.sched ∧ (alertSafe s = true → t.evq = w.evq))
        ∧ t.store = (if isUnrestored s = true then s.store
            else { s.store with phase := .committing (s.store.held + 1) (snapshot t) })
        ∧ s.changesOnly [.acct, .sched, .book, .settle, .clock, .evq, .store] t

/-! ### The station report -/

/-- STATION REPORT (R10 to R12, R14, R123, R145, R164): its checks in order; taken, the meter's reading is seated,
booked, held or rebased; every unit and train takes its held values; the meter's event is raised; the reply is built
afterwards, every field in its place (section 8.5). The order of the three parts is the world's (log entry 2). A fall
of a declared capacity recuts the later hours, which else stand (R59 to R61, R115, R142). -/
def Obligations.StationReportIsTakenByItsOwners : Prop :=
  (∀ (s : State) (b : Block), keepsItsChecks (.stationReport b) s)
  ∧ ∀ (s : State) (b : Block), restoring s = false → isUnrestored s = false → b.length = 30 →
    let tf := field3 b 0 % 10000000000
    let tr := field3 b 3 % 10000000000
    let x := s.meter
    let df := (((tf : Int) - x.base.forward) % 10000000000).toNat
    let dr := (((tr : Int) - x.base.reverse) % 10000000000).toNat
    let e := match x.lastAccepted with
      | none => 86400
      | some u => min (s.elapsed - u) 86400
    let p := (max s.site.injRight s.site.wdrRight * (e + 60) + 3599) / 3600
    let d : Int := (df : Int) - dr
    let seated : Meter :=
      ⟨⟨tf, tr, true⟩, x.kept, some s.elapsed, x.bucket, 0, s.elapsed, false⟩
    let plausible : Prop := df ≤ p ∧ dr ≤ p ∧ (x.bucket + d).natAbs ≤ 1000000000000000
    ∃ (t : State) (r : Block) (l m : List Raised), exec (.stationReport b) s = .next (answeredWith 0x01 .ok r s t)
      ∧ reportFields t r
      ∧ t.evq = s.evq.pushAll (l ++ (if x.base.valid = false then [⟨gasTime s, .baselineSeated, none, none⟩]
          else if plausible then []
          else if x.refusals + 1 < 3 then [⟨gasTime s, .meterImplausible, none, some d⟩]
          else [⟨gasTime s, .meterRebased, none, some d⟩]) ++ m)
      ∧ t.meter = (if x.base.valid = false then seated
          else if plausible then { seated with bucket := x.bucket + d }
          else if x.refusals + 1 < 3 then
            { x with refusals := x.refusals + 1, lastReport := s.elapsed, gap := false }
          else seated)
      ∧ (∀ i : Fin 6, (t.duty.units[i]).feedback = feedbackOf (fieldW b (6 + 3 * i.val))
          ∧ (t.duty.units[i]).load = min (fieldI2 b (7 + 3 * i.val)).toNat (2 * (s.duty.units[i]).cfg.capacity))
      ∧ (∀ j : Fin 2, (t.dry.trains[j]).water = (max 0 (min 2000 (fieldI b (24 + 3 * j.val)))).toNat
          ∧ (t.dry.trains[j]).temp = max (-400) (min 800 (fieldI b (25 + 3 * j.val)))
          ∧ (t.dry.trains[j]).dew = max (-600) (min 400 (fieldI b (26 + 3 * j.val))))
      ∧ recutFollows s t ∧ s.changesOnly [.world, .meter, .duty, .dry, .flow, .sched, .evq] t

/-- The unit part of a report (R114, R115, R123 to R127): a unit with a permit that reports fault trips; in LOADED the
third report stopped trips it, and so does the report that brings the reports above 1,100 thousandths of its capacity
to the overload limit; the first that trips decides. With recovery remaining a tripped unit is TRIPPED for its
interval, else LOCKED_OUT, which has no timed phase: that its phase timer is then held at 0 is the model's choice (log
entry 49). UNIT_TRIPPED and UNIT_LOCKED_OUT after it stand among the events of the other units and blocks (R167, log
entry 2), and both capacities follow; without a trip the counts stand and nothing else of the unit changes. A fall of
a declared capacity recuts the later hours, which else stand (R59 to R61, R115, R142). -/
def Obligations.ReportsTripUnits : Prop :=
  ∀ (s : State) (b : Block) (i : Fin 6), restoring s = false → isUnrestored s = false → b.length = 30 →
    s.site.overloadLimit ≤ 15 →
    let u := s.duty.units[i]
    let word := fieldW b (6 + 3 * i.val)
    let load := min (fieldI2 b (7 + 3 * i.val)).toNat (2 * u.cfg.capacity)
    let feedback : Feedback := if word = 0 then .stopped else if word = 1 then .running else .fault
    let above : Bool := decide (u.cfg.capacity * 1100 < load * 1000)
    let cause : Option TripCause :=
      if u.state.runs = true ∧ feedback = .fault then some .feedback
      else if u.state = .loaded ∧ feedback = .stopped ∧ 3 ≤ u.noRun + 1 then some .noRun
      else if u.state = .loaded ∧ above = true ∧ s.site.overloadLimit ≤ u.overload + 1 then some .overload
      else none
    let recovers : Bool := decide (u.cfg.policy = 3 ∨ ((u.cfg.policy = 1 ∨ u.cfg.policy = 2) ∧ u.attempts < 3))
    let code : Int := tripCode cause
    let taken : CUnit := { u with feedback := feedback, load := load }
    ∃ (t : State) (r : Block) (l m n : List Raised), exec (.stationReport b) s = .next (answeredWith 0x01 .ok r s t)
      ∧ recutFollows s t
      ∧ (cause = none → t.duty.units[i] = (if u.state = .loaded then
          ({ taken with
            noRun := if feedback = .stopped then u.noRun + 1 else 0
            overload := if above = true then min (u.overload + 1) 15 else 0 } : CUnit)
          else taken).renote s.site.startLimit)
      ∧ (cause ≠ none →
          t.duty.units[i] = { taken with
            state := if recovers = true then .tripped else .lockedOut
            phaseTimer := if recovers = true then (if u.cfg.policy = 1 then 300 else 1800) else 0
            loadedSeconds := 0, overload := 0, noRun := 0, limitNoted := false, tripCause := cause }
          ∧ runPermit t i = false
          ∧ t.duty.declared = declaredInjection t ∧ t.duty.ready = readyInjection t ∧ t.flow.cInj = t.duty.ready
          ∧ t.evq = s.evq.pushAll (l ++ [⟨gasTime s, .unitTripped, some i.val, some code⟩] ++ m
              ++ (if recovers = true then [] else [⟨gasTime s, .unitLockedOut, some i.val, some (u.attempts : Int)⟩])
              ++ n))

/-! ### Compressor duty -/

/-- UNIT SET, ROSTER SET, UNIT DISABLE and UNIT ENABLE (R114, R115, R129 to R132): the checks of each in order; taken,
the one record changes, the others stand, and the capacities are those of the units; the disabling of a LOADED unit
that leaves C_inj_ready below S cuts S to it with STEP_CUT (R99), and a fall of the declared capacity recuts the later
hours (R61). The rows UNIT_DISABLE and UNIT_ENABLE are the two actions of one request (log entry 15). Two clauses are
the model's choice: UNIT SET keeps the held load as it stands, also where it lies above twice the new capacity, the
range of section 6.1 (log entry 48), and in DISABLED and COLD, which have no timed phase, the phase timer is held at 0
(log entry 49). -/
def Obligations.UnitRequestsChangeOneUnit : Prop :=
  (∀ (s : State) (b : Block) (c : Instr), c ∈ ([.unitSet b, .rosterSet b, .unitDisable b, .unitEnable b] : List Instr) →
    keepsItsChecks c s)
  ∧ ∀ (s : State) (b : Block), s.plain → capacitiesCurrent s = true →
    (∀ l : Vector (Fin 6) 6, b.length = 6 → (∀ (k : Nat) (h : k < 6), fieldW b k = (l[k]).val) →
      (∀ i : Fin 6, i ∈ l.toList) →
      exec (.rosterSet b) s = .next (answeredWith 0x43 .ok b s (s.setDuty { s.duty with roster := l })))
    ∧ ∀ i : Fin 6, fieldW b 0 = i.val →
      let u := s.duty.units[i]
      (∀ k : Fin 16, b.length = 6 → u.state = .disabled → 1 ≤ field2 b 1 → field2 b 1 ≤ 4000000 → fieldW b 3 = k.val →
        s.curves[k] ≠ [] → fieldW b 4 ≤ 3 → fieldW b 5 ≤ 3 →
        exec (.unitSet b) s = .next (answeredWith 0x40 .ok (out1 i.val ++ out1 0) s (s.setDuty { s.duty with
          units := setVec s.duty.units i { u with
            configured := true
            cfg := ⟨field2 b 1, some k, fieldW b 4 / 2 == 1, fieldW b 4 % 2 == 1, fieldW b 5⟩
            limitNoted := false } })))
      ∧ (b.length = 2 → fieldW b 1 = 0 → u.state = .disabled →
        exec (.unitDisable b) s = .next (answeredWith 0x41 .ok (out1 0) s s))
      ∧ (b.length = 2 → fieldW b 1 = 0 → u.state ≠ .disabled →
        ∃ t : State, exec (.unitDisable b) s = .next (answeredWith 0x41 .ok (out1 u.state.code) s t)
          ∧ t.duty.units = setVec s.duty.units i { u with
              state := .disabled, phaseTimer := 0, loadedSeconds := 0, overload := 0, noRun := 0, limitNoted := false }
          ∧ t.duty.roster = s.duty.roster ∧ t.duty.fuel = s.duty.fuel ∧ capacitiesCurrent t = true
          ∧ runPermit t i = false ∧ recutFollows s t ∧ s.changesOnly [.world, .duty, .flow, .dry, .sched, .evq] t
          ∧ (t.duty.ready < s.duty.ready → (t.duty.ready : Int) < s.flow.setpoint →
              t.flow.setpoint = t.duty.ready ∧ t.flow.lastCut = some (s.flow.setpoint, (t.duty.ready : Int))
              ∧ ∃ l m : List Raised,
                t.evq = s.evq.pushAll (l ++ ⟨gasTime s, .stepCut, none, some (t.duty.ready : Int)⟩ :: m)))
      ∧ (b.length = 2 → fieldW b 1 = 1 → u.state = .disabled → u.configured = true →
        ∃ t : State, exec (.unitEnable b) s = .next (answeredWith 0x41 .ok (out1 1) s t)
          ∧ t.duty.units = setVec s.duty.units i { u with
              state := .cold, phaseTimer := 0, attempts := 0, overload := 0, noRun := 0, tripCause := none
              limitNoted := u.limitNoted && decide (s.site.startLimit ≤ u.startAges.length) }
          ∧ t.duty.roster = s.duty.roster ∧ t.duty.fuel = s.duty.fuel ∧ capacitiesCurrent t = true ∧ t.evq = s.evq
          ∧ s.changesOnly [.duty] t)
      ∧ (b.length = 2 → fieldW b 1 = 1 → ¬(u.state = .disabled ∧ u.configured = true) →
        exec (.unitEnable b) s = .next (refusedWith 0x41 .state s))

/-- The ends of a unit's phases, the ageing of its start stamps and the reset of its attempts (R119, R120, R122,
R128): each row takes the phase's last second, changes the one unit, and without its event (another state, more than a
second left, or a hold of 0, which runs no timer) has no effect (log entry 14). The unit's event stands among those of
other blocks (log entry 2). A fall of a declared capacity recuts the later hours, which else stand (R59 to R61, R115,
R142). -/
def Obligations.UnitPhasesEnd : Prop :=
  ∀ (s : State) (i : Fin 6),
    let u := s.duty.units[i]
    let becomes (c : Instr) (v : CUnit) (es : List Raised) : Prop := ∃ (t : State) (l m : List Raised), exec c s = .next t
      ∧ t.duty.units = setVec s.duty.units i (v.renote s.site.startLimit)
      ∧ t.duty.declared = declaredInjection t ∧ t.duty.ready = readyInjection t ∧ t.flow.cInj = t.duty.ready
      ∧ t.evq = s.evq.pushAll (l ++ es ++ m) ∧ recutFollows s t ∧ s.changesOnly [.world, .duty, .flow, .dry, .sched, .evq] t
    let n := min (u.attempts + 1) 255
    (u.state = .starting → u.phaseTimer ≤ 1 →
      becomes (.warmUpExpiry i) { u with state := .loaded, phaseTimer := 0, loadedSeconds := 0, overload := 0, noRun := 0 }
        [⟨gasTime s, .unitReady, some i.val, some (u.cfg.capacity : Int)⟩])
    ∧ (u.state = .hot → u.phaseTimer = 1 → becomes (.hotHoldExpiry i) (if u.cfg.keepAux = true then
        { u with state := .warm, phaseTimer := s.site.warmHold } else { u with state := .cold, phaseTimer := 0 }) [])
    ∧ (u.state = .warm → u.phaseTimer = 1 →
        becomes (.warmHoldExpiry i) { u with state := .cold, phaseTimer := 0 } [])
    ∧ (u.state = .tripped → u.phaseTimer ≤ 1 →
        becomes (.recoveryIntervalExpiry i) { u with state := .cold, phaseTimer := 0, attempts := n }
          [⟨gasTime s, .unitRecovery, some i.val, some (n : Int)⟩])
    ∧ (u.state ≠ .starting ∨ 1 < u.phaseTimer → exec (.warmUpExpiry i) s = .next s)
    ∧ (u.state ≠ .hot ∨ u.phaseTimer = 0 ∨ 1 < u.phaseTimer → exec (.hotHoldExpiry i) s = .next s)
    ∧ (u.state ≠ .warm ∨ u.phaseTimer = 0 ∨ 1 < u.phaseTimer → exec (.warmHoldExpiry i) s = .next s)
    ∧ (u.state ≠ .tripped ∨ 1 < u.phaseTimer → exec (.recoveryIntervalExpiry i) s = .next s)
    ∧ (∃ t : State, exec (.startStampAged i) s = .next t
        ∧ t.duty.units = setVec s.duty.units i (({ u with
            startAges := u.startAges.filter (fun a => decide (a + 1 < 3600)) } : CUnit).renote s.site.startLimit)
        ∧ t.duty.roster = s.duty.roster ∧ t.duty.fuel = s.duty.fuel ∧ s.changesOnly [.duty] t)
    ∧ (u.state = .loaded → 3600 ≤ u.loadedSeconds → ∃ t : State, exec (.attemptsReset i) s = .next t
        ∧ t.duty.units = setVec s.duty.units i (({ u with attempts := 0 } : CUnit).renote s.site.startLimit)
        ∧ t.duty.roster = s.duty.roster ∧ t.duty.fuel = s.duty.fuel ∧ s.changesOnly [.duty] t)
    ∧ (¬(u.state = .loaded ∧ 3600 ≤ u.loadedSeconds) → exec (.attemptsReset i) s = .next s)

/-- The scheduler's second (R116 to R122, R128, R134, R136), in every state: fuel accrues by the state of each unit,
run seconds count, stamps age and phases end with their events, which leaves the state r. The evaluation then reads r:
it stops the latest LOADED unit of the roster where all three conditions hold; else, where demand exceeds the start
fraction and no unit is STARTING, it raises START_LIMIT once for each blocked unit ahead and starts the first
startable unit; else it changes nothing. D_inj and K are kept as it formed them, before its own start or stop (log
entry 38); that a unit stopped into COLD has phase timer 0 is log entry 49. The scheduler's events stand in their
order among those of other blocks (log entry 2); that the expiries of one second come in ascending unit index is log
entry 37, that START_LIMIT comes before UNIT_STARTED is log entry 25, and what else the order of events leaves is log
entry 26. A fall of a declared capacity recuts the later hours, which else stand (R61). -/
def Obligations.SchedulerSecondAccruesAndEvaluates : Prop :=
  (∀ (s : State) (u : CUnit) (k : Fin 16), u.configured = true → u.cfg.curve = some k →
      ((u.state = .hot ∨ u.state = .starting) → fuelRate s u = evalCurve s.curves[k] 0)
      ∧ (u.state = .loaded → fuelRate s u = evalCurve s.curves[k] ((u.load * 1000 / u.cfg.capacity : Nat) : Int))
      ∧ (u.state.runs = false → fuelRate s u = 0))
  ∧ ∀ s : State,
    let r := unitTimers (countAndAge (accrueFuel (s.setEvq { s.evq with entries := [], gathering := true })))
    let waits (u : CUnit) : Bool := u.state == .cold || u.state == .warm || u.state == .hot
    ∃ (t : State) (m : List Raised), exec .schedulerSecond s = .next t
    ∧ t.duty.fuel = s.duty.fuel + (s.duty.units.toList.map (fuelRate s)).sum
    ∧ (∀ i : Fin 6,
        let u := s.duty.units[i]
        let v := r.duty.units[i]
        let ends : Bool := u.state.timed && u.phaseTimer == 1
        v.runSeconds = (if u.state.runs = true then min (u.runSeconds + 1) 4294967295 else u.runSeconds)
        ∧ v.startAges = (u.startAges.map (· + 1)).filter (fun a => decide (a < 3600))
        ∧ v.state = (if ends = true then (match u.state with
            | .starting => .loaded
            | .hot => if u.cfg.keepAux = true then .warm else .cold
            | _ => .cold) else u.state)
        ∧ v.attempts = (if ends = true ∧ u.state = .tripped then min (u.attempts + 1) 255
            else if u.state = .loaded ∧ 3600 ≤ u.loadedSeconds + 1 then 0 else u.attempts)
        ∧ v.limitNoted = (u.limitNoted && waits u && waits v && decide (s.site.startLimit ≤ v.startAges.length))
        ∧ (ends = false → v.phaseTimer = u.phaseTimer - (if u.state.timed = true then 1 else 0)
            ∧ v.loadedSeconds = if u.state = .loaded then min (u.loadedSeconds + 1) 4294967295 else u.loadedSeconds)
        ∧ v.cfg = u.cfg)
    ∧ r.duty.roster = s.duty.roster ∧ r.flow.tRaw = s.flow.tRaw ∧ r.site = s.site ∧ t.duty.roster = s.duty.roster
    ∧ ((∀ i : Fin 6, ¬((s.duty.units[i]).state.timed = true ∧ (s.duty.units[i]).phaseTimer = 1)) →
        r.flow = s.flow ∧ r.duty.ready = s.duty.ready)
    ∧ t.evq = s.evq.pushAll m
    ∧ (let units := r.duty.units
       let demand := r.flow.tRaw.toNat
       let committed := (units.toList.map (fun u => if u.state = .starting ∨ u.state = .loaded then u.cfg.capacity else 0)).sum
       let startable (i : Fin 6) : Bool := waits units[i] && decide ((units[i]).startAges.length < s.site.startLimit)
       let last := s.duty.roster.toList.reverse.find? (fun i => (units[i]).state == .loaded)
       let due (i : Fin 6) : Bool :=
        decide (s.site.minimumRun ≤ (units[i]).loadedSeconds)
        && decide (demand = 0
          ∨ (demand : Int) * 1000 < ((committed : Int) - (units[i]).cfg.capacity) * s.site.stopFraction)
        && decide (r.flow.setpoint ≤ (r.duty.ready : Int) - (units[i]).cfg.capacity)
       let starts : Bool := decide (committed * s.site.startFraction < demand * 1000)
        && units.toList.all (fun u => u.state != .starting)
       let ahead := (s.duty.roster.toList.takeWhile (fun i => !startable i)).filter (fun i =>
        waits units[i] && !startable i && !(units[i]).limitNoted)
       let noted : List Raised := ahead.map (fun i => ⟨gasTime s, .startLimit, some i.val,
        some (3600 - ((units[i]).startAges.headD 0 : Int))⟩)
       let marked (i : Fin 6) : CUnit := if i ∈ ahead then { units[i] with limitNoted := true } else units[i]
       let ended : List Raised := (List.finRange 6).filterMap (fun i =>
        let u := s.duty.units[i]
        if u.phaseTimer = 1 then (match u.state with
          | .starting => some ⟨gasTime s, .unitReady, some i.val, some (u.cfg.capacity : Int)⟩
          | .tripped => some ⟨gasTime s, .unitRecovery, some i.val, some (min (u.attempts + 1) 255 : Nat)⟩
          | _ => none) else none)
       let tells (l : List Raised) : Prop := m.filter (fun e => e.kind.source == .dutyScheduler) = ended ++ l
       t.duty.dInj = demand ∧ t.duty.k = committed
       ∧ (∀ i : Fin 6, last = some i → due i = true →
          let u := units[i]
          let entry : UnitState × Nat := if u.cfg.keepEngine = true then (.hot, s.site.hotHold)
            else if u.cfg.keepAux = true then (.warm, s.site.warmHold) else (.cold, 0)
          t.duty.units = setVec units i (({ u with
              state := entry.1, phaseTimer := entry.2, loadedSeconds := 0, overload := 0, noRun := 0 } : CUnit).renote
                s.site.startLimit)
          ∧ tells [⟨gasTime s, .unitStopped, some i.val, some (entry.1.code : Int)⟩])
       ∧ (s.duty.roster.toList.Nodup → (∀ i : Fin 6, last = some i → due i = false) → starts = true →
          (∀ i : Fin 6, s.duty.roster.toList.find? startable = some i →
            let u := units[i]
            let origin : Nat × Nat := match u.state with
              | .warm => (2, s.site.warmWarmUp)
              | .hot => (3, s.site.hotWarmUp)
              | _ => (1, s.site.coldWarmUp)
            tells (noted ++ [⟨gasTime s, .unitStarted, some i.val, some (origin.1 : Int)⟩])
            ∧ ∀ j : Fin 6, t.duty.units[j] = if j = i then { u with
                state := .starting, phaseTimer := origin.2, startAges := u.startAges ++ [0]
                startTotal := min (u.startTotal + 1) 65535, limitNoted := false } else marked j)
          ∧ (s.duty.roster.toList.find? startable = none →
            tells noted ∧ ∀ j : Fin 6, t.duty.units[j] = marked j))
       ∧ ((∀ i : Fin 6, last = some i → due i = false) → starts = false → t.duty.units = units ∧ tells []))
    ∧ recutFollows s t ∧ s.changesOnly [.world, .duty, .flow, .dry, .sched, .evq] t

/-! ### Gas drying -/

/-- TRAIN SET, TRAIN SERVICE out and TRAIN SERVICE in (R61, R140, R142, R145, R148, R149, R151, R156): the checks of
each in order; taken, the train's configuration is replaced and its bed capacity formed, and its ADSORBING bed is
tested against both: it swaps with a READY partner, or the swap is deferred, and DEGRADED is set or cleared, each with
its event; a train taken out stops its timers and leaves the capacity, whose fall recuts the later hours; a train
brought in stands by, or comes online while the part withdraws, with its mask loaded (with a mask choice of 0 it is
assessed at once, and can leave ONLINE for OFF_SPEC); without an ADSORBING bed it takes its lowest-indexed READY bed
with BED_SWAP, else its beds stay. Where the direction state stays, the other train's record changes in its flow share
alone, and after TRAIN SET, with shares as R144 forms them, not at all. The two service rows are the two actions of
one request (log entry 15). Two clauses are the model's choice: a swap ends its test, so DEGRADED is clear after it
even at capacity 0 (log entry 23), and the bed taken or swapped in has phase timer 0 (log entry 47). -/
def Obligations.TrainRequestsChangeTheTrain : Prop :=
  (∀ (s : State) (b : Block) (c : Instr), c ∈ ([.trainSet b, .trainServiceOut b, .trainServiceIn b] : List Instr) →
    keepsItsChecks c s)
  ∧ ∀ (s : State) (b : Block) (i j : Fin 2), s.plain → capacitiesCurrent s = true → setpointSafe s.flow = true →
    fieldW b 0 = i.val → j ≠ i →
    let x := s.dry.trains[i]
    let other := s.dry.trains[j]
    let sparesOther (t : State) : Prop := t.dry.trains[j] = { other with share := (t.dry.trains[j]).share }
    (∀ k : Fin 16, b.length = 17 → x.state = .out → trainCfgInRange (trainCfgOf b 1) = true →
      (trainCfgOf b 1).warn < (trainCfgOf b 1).spec → fieldW b 4 = k.val → s.curves[k] ≠ [] →
      ∃ t : State, exec (.trainSet b) s =
          .next (answeredWith 0x48 .ok (out1 i.val ++ out1 0 ++ out1 (evalCurve s.curves[k] x.temp)) s t)
        ∧ (t.dry.trains[i]).configured = true ∧ (t.dry.trains[i]).cfg = trainCfgOf b 1
        ∧ (t.dry.trains[i]).state = .out ∧ (t.dry.trains[i]).bedCap = evalCurve s.curves[k] x.temp
        ∧ sparesOther t ∧ (sharesCurrent s = true → t.dry.trains[j] = other)
        ∧ (let y := t.dry.trains[i]
           let c := trainCfgOf b 1
           let cap := evalCurve s.curves[k] x.temp * 3600000000
           let raised (kind : EventKind) (value : Int) : Prop := toldBetween s t [⟨gasTime s, kind, some i.val, some value⟩]
           (x.lo.state ≠ .adsorbing → x.hi.state ≠ .adsorbing →
             y.lo = x.lo ∧ y.hi = x.hi ∧ y.degraded = x.degraded ∧ y.deferred = x.deferred ∧ t.evq = s.evq)
           ∧ ∀ k : Side, (x.bed k).state = .adsorbing → (x.bed k.partner).state ≠ .adsorbing →
             let load := (x.bed k).load
             let reached : Prop := cap * c.swapPoint ≤ load * 1000
             let saturated : Bool := decide (cap ≤ load)
             (reached → (x.bed k.partner).state = .ready →
               y.bed k = ⟨.heating, load, c.heating⟩ ∧ y.bed k.partner = ⟨.adsorbing, 0, 0⟩
               ∧ y.degraded = false ∧ y.deferred = false ∧ y.mask = c.maskChoice ∧ raised .bedSwap (bedIndex i k.partner))
             ∧ (¬(reached ∧ (x.bed k.partner).state = .ready) →
               y.lo = x.lo ∧ y.hi = x.hi ∧ y.degraded = saturated ∧ y.deferred = decide reached ∧ y.mask = x.mask
               ∧ (reached → x.deferred = false →
                   raised .bedSwapDeferred (if cap = 0 then 1000 else (load * 1000 / cap : Nat)))
               ∧ (saturated = true → x.degraded = false →
                   raised .trainDegraded (c.nominal * c.degradedFactor / 1000 : Nat))
               ∧ (¬(reached ∧ x.deferred = false) → ¬(saturated = true ∧ x.degraded = false) → t.evq = s.evq)))
        ∧ capacitiesCurrent t = true ∧ t.flow.setpoint = s.flow.setpoint
        ∧ s.changesOnly [.dry, .evq] t)
    ∧ (b.length = 2 → fieldW b 1 = 0 → x.state = .out →
        exec (.trainServiceOut b) s = .next (answeredWith 0x49 .ok (out1 0) s s))
    ∧ (b.length = 2 → fieldW b 1 = 0 → x.state ≠ .out →
        ∃ t : State, exec (.trainServiceOut b) s = .next (answeredWith 0x49 .ok (out1 0) s t)
          ∧ (t.dry.trains[i]).state = .out ∧ (t.dry.trains[i]).service = false ∧ (t.dry.trains[i]).share = 0
          ∧ (t.dry.trains[i]).excursion = none ∧ (t.dry.trains[i]).recovery = none
          ∧ (t.dry.trains[i]).lo = x.lo ∧ (t.dry.trains[i]).hi = x.hi ∧ divert t i = false
          ∧ (t.flow.dir = s.flow.dir → sparesOther t)
          ∧ capacitiesCurrent t = true ∧ recutFollows s t ∧ s.changesOnly [.world, .dry, .flow, .sched, .evq] t)
    ∧ (b.length = 2 → fieldW b 1 = 1 → x.state = .out → x.configured = true →
        ∃ t : State, exec (.trainServiceIn b) s =
            .next (answeredWith 0x49 .ok (out1 (t.dry.trains[i]).state.code) s t)
          ∧ (t.dry.trains[i]).service = true ∧ (t.dry.trains[i]).state ≠ .out
          ∧ (s.flow.dir ≠ .withdrawing → (t.dry.trains[i]).state = .standby)
          ∧ (s.flow.dir = .withdrawing → x.cfg.maskChoice ≠ 0 →
              (t.dry.trains[i]).state = .online ∧ (t.dry.trains[i]).mask = x.cfg.maskChoice)
          ∧ (let y := t.dry.trains[i]
             let takes (k : Side) : Prop := y.bed k = ⟨.adsorbing, 0, 0⟩ ∧ y.bed k.partner = x.bed k.partner
              ∧ y.degraded = false ∧ y.mask = x.cfg.maskChoice
              ∧ toldBetween s t [⟨gasTime s, .bedSwap, some i.val, some (bedIndex i k : Int)⟩]
             if x.lo.state = .adsorbing ∨ x.hi.state = .adsorbing then y.lo = x.lo ∧ y.hi = x.hi
             else if x.lo.state = .ready then takes .lo
             else if x.hi.state = .ready then takes .hi
             else y.lo = x.lo ∧ y.hi = x.hi)
          ∧ (t.flow.dir = s.flow.dir → sparesOther t)
          ∧ capacitiesCurrent t = true ∧ recutFollows s t ∧ s.changesOnly [.world, .dry, .flow, .sched, .evq] t)
    ∧ (b.length = 2 → fieldW b 1 = 1 → ¬(x.state = .out ∧ x.configured = true) →
        exec (.trainServiceIn b) s = .next (refusedWith 0x49 .state s))

/-- The train part of a report (R145, R148, R149, R152 to R155): the bed capacity is formed anew from the held
temperature; an adsorbing bed at its swap point swaps with its READY partner and the mask is loaded, or, with the
partner not READY, the swap is deferred with one event; DEGRADED is set with its event while the bed is saturated, and
cleared while it is not; an ONLINE or OFF_SPEC train that is not masked warns once while its dew point stands at or
above the warn level. The assessment starts the excursion timer above the spec and the recovery timer below the warn
level, lets a running one run on, and stops it else; a delay of 0 takes the excursion or the recovery at once. Nothing
done for one train alters the other's (log entry 42 on a direction that changes meanwhile). Two clauses are the
model's choice: a swap ends its test, so DEGRADED is clear after it even at capacity 0 (log entry 23), and the bed
that begins to adsorb has phase timer 0 (log entry 47). A fall of the withdrawal capacity recuts the later hours,
which else stand (R61, R142). -/
def Obligations.ReportsTestBedsAndDewPoint : Prop :=
  ∀ (s : State) (b : Block) (j : Fin 2), restoring s = false → isUnrestored s = false → b.length = 30 →
    let x := s.dry.trains[j]
    let temp := max (-400) (min 800 (fieldI b (25 + 3 * j.val)))
    let dew := max (-600) (min 400 (fieldI b (26 + 3 * j.val)))
    let bedCap := if x.configured = true then (match x.cfg.curve with
      | none => 0
      | some c => evalCurve s.curves[c] temp) else 0
    let units := bedCap * 3600000000
    let reached (d : Bed) : Prop := units * x.cfg.swapPoint ≤ d.load * 1000
    let saturated (d : Bed) : Bool := decide (units ≤ d.load)
    ∃ (t : State) (r : Block), exec (.stationReport b) s = .next (answeredWith 0x01 .ok r s t)
      ∧ recutFollows s t
      ∧ (let y := t.dry.trains[j]
         let raised (e : Raised) : Prop := ∃ l m : List Raised, t.evq = s.evq.pushAll (l ++ e :: m)
         y.bedCap = bedCap
         ∧ (x.lo.state ≠ .adsorbing → x.hi.state ≠ .adsorbing →
            y.lo = x.lo ∧ y.hi = x.hi ∧ y.degraded = x.degraded ∧ y.deferred = x.deferred)
         ∧ (∀ i : Side, (x.bed i).state = .adsorbing → (x.bed i.partner).state ≠ .adsorbing →
            (reached (x.bed i) → (x.bed i.partner).state = .ready →
              y.bed i = ⟨.heating, (x.bed i).load, x.cfg.heating⟩ ∧ y.bed i.partner = ⟨.adsorbing, 0, 0⟩
              ∧ y.degraded = false ∧ y.deferred = false ∧ y.mask = x.cfg.maskChoice
              ∧ raised ⟨gasTime s, .bedSwap, some j.val, some (bedIndex j i.partner : Int)⟩)
            ∧ (¬(reached (x.bed i) ∧ (x.bed i.partner).state = .ready) →
              y.lo = x.lo ∧ y.hi = x.hi ∧ y.degraded = saturated (x.bed i)
              ∧ y.deferred = decide (reached (x.bed i))
              ∧ (reached (x.bed i) → x.deferred = false → raised ⟨gasTime s, .bedSwapDeferred, some j.val,
                  some (if units = 0 then 1000 else ((x.bed i).load * 1000 / units : Nat) : Int)⟩)
              ∧ (saturated (x.bed i) = true → x.degraded = false → raised ⟨gasTime s, .trainDegraded, some j.val,
                  some ((x.cfg.nominal * x.cfg.degradedFactor / 1000 : Nat) : Int)⟩)
              ∧ (saturated (x.bed i) = x.degraded → x.mask = 0 → setpointSafe s.flow = true →
                (x.state = .online ∧ s.flow.dir = .withdrawing) ∨ x.state = .offSpec →
                y.armed = decide (dew < x.cfg.warn)
                ∧ (x.armed = true → x.cfg.warn ≤ dew → raised ⟨gasTime s, .dewWarning, some j.val, some dew⟩))))
         ∧ ((∀ i : Side, (x.bed i).state = .adsorbing → ¬reached (x.bed i) ∧ saturated (x.bed i) = false
                ∧ (x.bed i.partner).state ≠ .adsorbing) →
            x.degraded = false → x.mask = 0 → setpointSafe s.flow = true →
            (x.state = .online → s.flow.dir = .withdrawing →
              (x.cfg.spec < dew → x.excursion = none → x.cfg.excursionDelay = 0 →
                y.state = .offSpec ∧ y.excursion = none ∧ divert t j = true
                ∧ raised ⟨gasTime s, .offSpec, some j.val, some dew⟩)
              ∧ (t.flow.dir = .withdrawing →
                ¬(x.cfg.spec < dew ∧ x.excursion = none ∧ x.cfg.excursionDelay = 0) →
                y.state = .online ∧ y.excursion
                  = if x.cfg.spec < dew then some (x.excursion.getD x.cfg.excursionDelay) else none))
            ∧ (x.state = .offSpec →
              (¬(dew < x.cfg.warn ∧ x.recovery = none ∧ x.cfg.recoveryDelay = 0) →
                y.state = .offSpec ∧ y.recovery
                  = if dew < x.cfg.warn then some (x.recovery.getD x.cfg.recoveryDelay) else none)
              ∧ (dew < x.cfg.warn → x.recovery = none → x.cfg.recoveryDelay = 0 → t.flow.dir = s.flow.dir →
                x.cfg.warn ≤ x.cfg.spec → capacitiesCurrent s = true →
                y.state = (if s.flow.dir = .withdrawing then .online else .standby) ∧ y.mask = x.cfg.maskChoice
                ∧ y.recovery = none ∧ divert t j = false ∧ raised ⟨gasTime s, .onSpec, some j.val, some dew⟩))))

/-- The supervisor's second (R146 to R155), in every state. The accumulator takes the rate of every HEATING bed, and
an ADSORBING bed below its capacity gains share × water, no further than the capacity. A running phase falls by one;
HEATING ends in COOLING; a cooled bed adsorbs where its partner stands at the swap point, which then heats, and is
READY where the partner adsorbs below it or the train is OUT; of two READY beds of a train that is not OUT the lower
adsorbs. The ADSORBING bed is then tested: swap, deferral, DEGRADED, each with its event; a bed that begins to heat
has its full time. Where no bed begins to adsorb and no DEGRADED flag changes, and the other train has no mask or
dew-point timer in its last second, the mask and the running timers fall by one, and the last second of each is its
end: OFF_SPEC, ON_SPEC, or the assessment at the mask's end. That the list of R146 is followed literally (a mask
loaded by a swap, and a timer loaded at the mask's end, fall in the same second; only phases running as the step
begins fall, as section 7.5.4 counts them) is log entry 22; the mask after a swap is given for every mask choice but
1, which is none of section 7.1's. The model's choices besides: a swap ends its test, so DEGRADED is clear after it
even at capacity 0 (log entry 23), train A comes first (log entry 37), and a READY or ADSORBING bed has phase timer 0
(log entry 47). A fall of the withdrawal capacity recuts the later hours, which else stand (R61, R142). -/
def Obligations.DryingSecondAccruesAndLoads : Prop :=
  ∀ s : State, ∃ t : State, exec .dryingSecond s = .next t
    ∧ t.dry.gas = s.dry.gas + (s.dry.trains.toList.map (fun x =>
        (if x.lo.state = .heating then x.cfg.regenRate else 0)
        + (if x.hi.state = .heating then x.cfg.regenRate else 0))).sum
    ∧ (∀ (i : Fin 2) (j : Side),
        let x := s.dry.trains[i]
        let y := t.dry.trains[i]
        let cap := x.bedCap * 3600000000
        let bed := x.bed j
        let partner := x.bed j.partner
        let filled (d : Bed) : Nat := if d.load < cap then min (d.load + x.share * x.water) cap else d.load
        let reached (d : Bed) : Prop := cap * x.cfg.swapPoint ≤ filled d * 1000
        let saturated (d : Bed) : Bool := decide (cap ≤ filled d)
        let cooled (d : Bed) : Prop := d.state = .cooling ∧ d.timer ≤ 1
        let raised (e : Raised) : Prop := ∃ l m : List Raised, t.evq = s.evq.pushAll (l ++ e :: m)
        let told (k : Side) : Prop := raised ⟨gasTime s, .bedSwap, some i.val, some (bedIndex i k : Int)⟩
        (bed.state = .adsorbing → (y.bed j).load = filled bed
          ∧ ((y.bed j).state = .heating → (y.bed j).timer = x.cfg.heating))
        ∧ ((bed.state = .heating ∨ bed.state = .cooling) → 1 < bed.timer → y.bed j = { bed with timer := bed.timer - 1 })
        ∧ (bed.state = .heating → bed.timer ≤ 1 → y.bed j = ⟨.cooling, bed.load, x.cfg.cooling⟩)
        ∧ (cooled bed → partner.state = .adsorbing →
            (reached partner → y.bed j = ⟨.adsorbing, 0, 0⟩
              ∧ y.bed j.partner = ⟨.heating, filled partner, x.cfg.heating⟩ ∧ told j)
            ∧ (¬reached partner → y.bed j = ⟨.ready, 0, 0⟩))
        ∧ (cooled bed → partner.state = .ready →
            (x.state = .out → y.bed j = ⟨.ready, 0, 0⟩ ∧ y.bed j.partner = partner)
            ∧ (x.state ≠ .out → 0 < cap * x.cfg.swapPoint →
                y.lo = ⟨.adsorbing, 0, 0⟩ ∧ y.hi = (if j = .hi then ⟨.ready, 0, 0⟩ else partner) ∧ told .lo))
        ∧ (bed.state = .adsorbing → partner.state ≠ .adsorbing →
            (reached bed → partner.state = .ready →
              y.bed j = ⟨.heating, filled bed, x.cfg.heating⟩ ∧ y.bed j.partner = ⟨.adsorbing, 0, 0⟩
              ∧ y.degraded = false ∧ y.deferred = false ∧ told j.partner
              ∧ (t.flow.dir = s.flow.dir → x.cfg.maskChoice ≠ 1 → y.mask = x.cfg.maskChoice - 1))
            ∧ (¬(reached bed ∧ (partner.state = .ready ∨ cooled partner)) →
              y.bed j = { bed with load := filled bed }
              ∧ y.degraded = saturated bed ∧ y.deferred = decide (reached bed)
              ∧ (reached bed → x.deferred = false → raised ⟨gasTime s, .bedSwapDeferred, some i.val,
                  some (if cap = 0 then 1000 else (filled bed * 1000 / cap : Nat) : Int)⟩)
              ∧ (saturated bed = true → x.degraded = false → raised ⟨gasTime s, .trainDegraded, some i.val,
                  some ((x.cfg.nominal * x.cfg.degradedFactor / 1000 : Nat) : Int)⟩))))
    ∧ ((∀ k : Fin 2, (t.dry.trains[k]).degraded = (s.dry.trains[k]).degraded
          ∧ ∀ j : Side, ((t.dry.trains[k]).bed j).state = .adsorbing → ((s.dry.trains[k]).bed j).state = .adsorbing) →
        ∀ i k : Fin 2, i ≠ k →
        let x := s.dry.trains[i]
        let y := t.dry.trains[i]
        let other := s.dry.trains[k]
        let raised (kind : EventKind) : Prop :=
          ∃ l m : List Raised, t.evq = s.evq.pushAll (l ++ ⟨gasTime s, kind, some i.val, some x.dew⟩ :: m)
        other.mask ≠ 1 → lastSecond other.excursion = false → lastSecond other.recovery = false →
        (x.mask ≠ 1 → lastSecond x.recovery = false → y.mask = x.mask - 1
          ∧ (∀ n : Nat, x.excursion = some n → 1 < n → y.excursion = some (n - 1) ∧ y.state = x.state)
          ∧ (x.state = .online → lastSecond x.excursion = true →
              y.state = .offSpec ∧ y.excursion = none ∧ divert t i = true ∧ raised .offSpec))
        ∧ (x.mask ≠ 1 → lastSecond x.excursion = false →
          (∀ n : Nat, x.recovery = some n → 1 < n → y.recovery = some (n - 1) ∧ y.state = x.state)
          ∧ (x.state = .offSpec → lastSecond x.recovery = true → capacitiesCurrent s = true → setpointSafe s.flow = true →
              ¬(x.cfg.maskChoice = 0 ∧ x.cfg.spec < x.dew ∧ x.cfg.excursionDelay = 0) →
              y.state = (if s.flow.dir = .withdrawing then .online else .standby) ∧ y.mask = x.cfg.maskChoice
              ∧ y.recovery = none ∧ divert t i = false ∧ raised .onSpec))
        ∧ (x.mask = 1 → x.excursion = none → x.recovery = none →
          ((x.state = .standby ∨ x.state = .out) → y.mask = 0 ∧ y.state = x.state)
          ∧ (x.state = .online → y.mask = 0
              ∧ (x.dew ≤ x.cfg.spec → y.state = .online ∧ y.excursion = none)
              ∧ (x.cfg.spec < x.dew → 1 < x.cfg.excursionDelay →
                  y.state = .online ∧ y.excursion = some (x.cfg.excursionDelay - 1))
              ∧ (x.cfg.spec < x.dew → x.cfg.excursionDelay ≤ 1 → y.state = .offSpec ∧ raised .offSpec))
          ∧ (x.state = .offSpec →
              (x.cfg.warn ≤ x.dew → y.mask = 0 ∧ y.state = .offSpec ∧ y.recovery = none)
              ∧ (x.dew < x.cfg.warn → 1 < x.cfg.recoveryDelay →
                  y.mask = 0 ∧ y.state = .offSpec ∧ y.recovery = some (x.cfg.recoveryDelay - 1)))))
    ∧ recutFollows s t ∧ s.changesOnly [.world, .dry, .flow, .sched, .evq] t

/-- The ends of a bed's phases and of a mask (R148, R150 to R155): HEATING goes to COOLING with its full time. A
cooled bed adsorbs at once, with load 0, where its partner adsorbs at or beyond the swap point, which then heats;
where its partner adsorbs below it, and in a train that is OUT, it is READY with load 0; in a train that is not OUT
and has no adsorbing bed the lower-indexed READY bed adsorbs; a bed that begins to adsorb is told with BED_SWAP. At a
mask's end the held dew point starts or stops the train's timer or lets a running one run on; with a delay of 0 the
train is OFF_SPEC, or back from it, at once; a dew point at or above the warn level is told once, with DEW_WARNING,
until one below it arms the warning again. Without its event a row has no effect (log entry 14). That a READY or
ADSORBING bed has phase timer 0 is the model's choice (log entry 47). A fall of the withdrawal capacity recuts the
later hours, which else stand (R61, R142). -/
def Obligations.BedAndMaskPhasesEnd : Prop :=
  (∀ (s : State) (i : Fin 4),
    let t := (bedOwner i).1
    let j := (bedOwner i).2
    let x := s.dry.trains[t]
    let bed := x.bed j
    (2 * t.val + (if j = .hi then 1 else 0) = i.val)
    ∧ (bed.state = .heating → bed.timer ≤ 1 → exec (.heatingEnd i) s = .next (s.setDry { s.dry with
        trains := setVec s.dry.trains t (x.setBed j ⟨.cooling, bed.load, x.cfg.cooling⟩) }))
    ∧ (¬(bed.state = .heating ∧ bed.timer ≤ 1) → exec (.heatingEnd i) s = .next s)
    ∧ (bed.state = .cooling → bed.timer ≤ 1 → ∃ u : State, exec (.coolingEnd i) s = .next u
        ∧ (((u.dry.trains[t]).bed j).state = .ready ∨ ((u.dry.trains[t]).bed j).state = .adsorbing)
        ∧ ((u.dry.trains[t]).bed j).load = 0 ∧ u.dry.gas = s.dry.gas
        ∧ (let p := x.bed j.partner
           let reached : Prop := x.bedCap * 3600000000 * x.cfg.swapPoint ≤ p.load * 1000
           let become (cooled partner : Bed) : Prop :=
             (u.dry.trains[t]).bed j = cooled ∧ (u.dry.trains[t]).bed j.partner = partner
           let told (bed : Nat) : Prop := ∃ l m : List Raised,
             u.evq = s.evq.pushAll (l ++ ⟨gasTime s, .bedSwap, some t.val, some (bed : Int)⟩ :: m)
           (p.state = .adsorbing → reached →
             become ⟨.adsorbing, 0, 0⟩ ⟨.heating, p.load, x.cfg.heating⟩ ∧ told i.val)
           ∧ (p.state = .adsorbing → ¬reached → become ⟨.ready, 0, 0⟩ p)
           ∧ (p.state ≠ .adsorbing → x.state = .out → become ⟨.ready, 0, 0⟩ p)
           ∧ (p.state ≠ .adsorbing → x.state ≠ .out → (j = .lo ∨ p.state ≠ .ready) →
             become ⟨.adsorbing, 0, 0⟩ p ∧ told i.val)
           ∧ (x.state ≠ .out → j = .hi → p.state = .ready →
             become ⟨.ready, 0, 0⟩ ⟨.adsorbing, 0, 0⟩ ∧ told (2 * t.val)))
        ∧ recutFollows s u ∧ s.changesOnly [.world, .dry, .flow, .sched, .evq] u)
    ∧ (¬(bed.state = .cooling ∧ bed.timer ≤ 1) → exec (.coolingEnd i) s = .next s))
  ∧ ∀ (s : State) (t : Fin 2),
    let x := s.dry.trains[t]
    (x.mask ≠ 1 → exec (.maskExpiry t) s = .next s)
    ∧ (x.mask = 1 → x.state ≠ .online → x.state ≠ .offSpec → exec (.maskExpiry t) s = .next (s.setDry { s.dry with
        trains := setVec s.dry.trains t { x with mask := 0 } }))
    ∧ (x.mask = 1 → x.state = .online → (x.dew ≤ x.cfg.spec ∨ 0 < x.cfg.excursionDelay ∨ x.excursion ≠ none) →
        ∃ u : State, exec (.maskExpiry t) s = .next u ∧ (u.dry.trains[t]).mask = 0 ∧ (u.dry.trains[t]).state = .online
          ∧ (u.dry.trains[t]).excursion
            = (if x.cfg.spec < x.dew then some (x.excursion.getD x.cfg.excursionDelay) else none)
          ∧ s.changesOnly [.dry, .evq] u)
    ∧ (x.mask = 1 → x.state = .online → x.cfg.spec < x.dew → x.cfg.excursionDelay = 0 → x.excursion = none →
        ∃ u : State, exec (.maskExpiry t) s = .next u ∧ (u.dry.trains[t]).mask = 0 ∧ (u.dry.trains[t]).state = .offSpec
          ∧ (u.dry.trains[t]).excursion = none
          ∧ (∃ l m : List Raised, u.evq = s.evq.pushAll (l ++ ⟨gasTime s, .offSpec, some t.val, some x.dew⟩ :: m))
          ∧ recutFollows s u ∧ s.changesOnly [.world, .dry, .flow, .sched, .evq] u)
    ∧ (x.mask = 1 → x.state = .offSpec → (x.cfg.warn ≤ x.dew ∨ 0 < x.cfg.recoveryDelay ∨ x.recovery ≠ none) →
        ∃ u : State, exec (.maskExpiry t) s = .next u ∧ (u.dry.trains[t]).mask = 0 ∧ (u.dry.trains[t]).state = .offSpec
          ∧ (u.dry.trains[t]).recovery = (if x.dew < x.cfg.warn then some (x.recovery.getD x.cfg.recoveryDelay) else none)
          ∧ s.changesOnly [.dry, .evq] u)
    ∧ (x.mask = 1 → x.state = .offSpec → x.dew < x.cfg.warn → x.cfg.recoveryDelay = 0 → x.recovery = none →
        x.cfg.warn ≤ x.cfg.spec → capacitiesCurrent s = true → setpointSafe s.flow = true →
        ∃ u : State, exec (.maskExpiry t) s = .next u ∧ (u.dry.trains[t]).mask = x.cfg.maskChoice
          ∧ (u.dry.trains[t]).state = (if s.flow.dir = .withdrawing then .online else .standby)
          ∧ (u.dry.trains[t]).recovery = none
          ∧ (∃ l m : List Raised, u.evq = s.evq.pushAll (l ++ ⟨gasTime s, .onSpec, some t.val, some x.dew⟩ :: m))
          ∧ recutFollows s u ∧ s.changesOnly [.world, .dry, .flow, .sched, .evq] u)
    ∧ (x.mask = 1 → (x.state = .online ∨ x.state = .offSpec) →
        ∃ (u : State) (l : List Raised), exec (.maskExpiry t) s = .next u ∧ u.evq = s.evq.pushAll l
          ∧ (u.dry.trains[t]).armed = decide (x.dew < x.cfg.warn)
          ∧ l.filter (fun e => decide (e.kind = .dewWarning ∧ e.subject = some t.val))
              = if x.armed = true ∧ x.cfg.warn ≤ x.dew then [⟨gasTime s, .dewWarning, some t.val, some x.dew⟩] else [])

/-- The ends of the excursion and recovery timers (R143, R153, R155): the train goes OFF_SPEC with DIVERT on and out
of the capacity, and comes back ONLINE or STANDBY by the direction with its mask loaded. Without its event a row has
no effect (log entry 14). A fall of the withdrawal capacity recuts the later hours, which else stand (R61, R142). -/
def Obligations.TrainLeavesAndReturnsToSpec : Prop :=
  ∀ (s : State) (i : Fin 2),
    let x := s.dry.trains[i]
    (¬(x.state = .online ∧ lastSecond x.excursion = true) → exec (.offSpec i) s = .next s)
    ∧ (x.state = .online → lastSecond x.excursion = true → ∃ t : State, exec (.offSpec i) s = .next t
        ∧ (t.dry.trains[i]).state = .offSpec ∧ (t.dry.trains[i]).excursion = none ∧ divert t i = true
        ∧ t.dry.capacity = withdrawalCapacity t ∧ t.flow.cWdr = t.dry.capacity
        ∧ (∃ l m : List Raised, t.evq = s.evq.pushAll (l ++ ⟨gasTime s, .offSpec, some i.val, some x.dew⟩ :: m))
        ∧ recutFollows s t ∧ s.changesOnly [.world, .dry, .flow, .sched, .evq] t)
    ∧ (¬(x.state = .offSpec ∧ lastSecond x.recovery = true) → exec (.onSpec i) s = .next s)
    ∧ (x.state = .offSpec → lastSecond x.recovery = true → capacitiesCurrent s = true → setpointSafe s.flow = true →
        ¬(x.cfg.maskChoice = 0 ∧ x.cfg.spec < x.dew ∧ x.cfg.excursionDelay = 0) →
        ∃ t : State, exec (.onSpec i) s = .next t
          ∧ (t.dry.trains[i]).state = (if s.flow.dir = .withdrawing then .online else .standby)
          ∧ (t.dry.trains[i]).mask = x.cfg.maskChoice ∧ (t.dry.trains[i]).recovery = none ∧ divert t i = false
          ∧ capacitiesCurrent t = true ∧ t.flow.setpoint = s.flow.setpoint
          ∧ (∃ l m : List Raised, t.evq = s.evq.pushAll (l ++ ⟨gasTime s, .onSpec, some i.val, some x.dew⟩ :: m))
          ∧ recutFollows s t ∧ s.changesOnly [.world, .dry, .flow, .sched, .evq] t)

/-! ### Link and supervision -/

/-- LINK STATUS and EVENT DRAIN, in every mode (R165, R167 to R169): the checks of each in order; taken, the one
answers the link's state as it stood, clearing both counts on a flag of 1; the other removes the oldest entries, up to
four, answers them in eleven words each, and clears the overwrite count; every field stands in its place (section
8.4). The link mode's code is free (log entry 11). -/
def Obligations.LinkStatusAndEventDrain : Prop :=
  (∀ (s : State) (b : Block) (c : Instr), c ∈ ([.linkStatus b, .eventDrain b] : List Instr) → keepsItsChecks c s)
  ∧ ∀ (s : State) (b : Block), restoring s = false →
    (b.length = 1 → fieldW b 0 ≤ 1 →
      ∃ r : Block, exec (.linkStatus b) s = .next (answeredWith 0x02 .ok r s
          (if fieldW b 0 = 1 then s.setLink { s.link with errors := 0, overruns := 0 } else s))
        ∧ r.length = 11 ∧ linkFields s r)
    ∧ (b.length = 1 → 1 < fieldW b 0 → exec (.linkStatus b) s = .next (refusedWith 0x02 .range s))
    ∧ (b.length = 0 → ∃ r : Block, exec (.eventDrain b) s = .next (answeredWith 0x03 .ok r s
          (s.setEvq { s.evq with entries := s.evq.entries.drop 4, overwrites := 0 }))
        ∧ r.length = 2 + 11 * min 4 s.evq.entries.length ∧ carries r 0 (out1 s.evq.overwrites)
        ∧ carries r 1 (out1 (s.evq.entries.length - 4))
        ∧ ∀ (j : Nat) (e : Event), (s.evq.entries.take 4)[j]? = some e → eventFields e (2 + 11 * j) r)
    ∧ (attention s = true ↔ s.evq.entries ≠ [])

/-- SUPERVISION SET, whole (R172): the checks in order; taken, in either link mode, the new settings stand, in NORMAL
the timer is set anew by the new mode, with the new timeout as the one it carries to an expiry, and in FALLBACK it and
the link mode stay and a RESUME takes the new settings. -/
def Obligations.SupervisionSetReplacesTheSettings : Prop :=
  ∀ (s : State) (b : Block), restoring s = false →
    let mode := fieldW b 0
    let timeout := fieldW b 1
    if b.length ≠ 2 then answers (.supervisionSet b) 0x04 .badLength [] s s
    else if isUnrestored s = true then answers (.supervisionSet b) 0x04 .unrestored [] s s
    else if ¬(mode ≤ 3 ∧ (timeout = 10 ∨ timeout = 30 ∨ timeout = 60 ∨ timeout = 120)) then
      answers (.supervisionSet b) 0x04 .range [] s s
    else ∃ t : State, answers (.supervisionSet b) 0x04 .ok [] s t
      ∧ t.sup.mode = mode ∧ t.sup.timeout = timeout ∧ t.sup.linkMode = s.sup.linkMode
      ∧ t.sup.firstFrame = s.sup.firstFrame
      ∧ (s.sup.linkMode = .normal → t.sup.timer = (if mode = 0 then none else some timeout)
        ∧ (mode ≠ 0 → t.sup.loaded = timeout))
      ∧ (s.sup.linkMode = .fallback → t.sup.timer = s.sup.timer
        ∧ ∃ u : State, answers (.resume []) 0x05 .ok [] t u ∧ u.sup.mode = mode ∧ u.sup.timeout = timeout
          ∧ u.sup.timer = if mode = 0 then none else some timeout)
      ∧ s.changesOnly [.sup] t

/-- RESUME and the supervision timer (R93, R94, R101, R171, R174): RESUME applies its checks in order; taken, it
brings NORMAL back with the timer set by the mode; a running timer falls each second and at its end the link enters
FALLBACK with T_raw 0; FALLBACK_ENTERED carries the timeout the timer was last loaded with, which a valid frame,
SUPERVISION SET, RESUME and a restore load together with the timer. At both changes of mode the direction state
follows T_raw. The event of supervision stands among those of the flow controller in the world's order (log entry 2).
The row FALLBACK_ENTERED takes the timer's last second (log entry 14). A fall of the withdrawal capacity recuts the
later hours, which else stand (R61, R142). -/
def Obligations.ResumeAndSupervisionTimer : Prop :=
  (∀ (s : State) (b : Block), keepsItsChecks (.resume b) s)
  ∧ ∀ s : State,
    (restoring s = false → isUnrestored s = false → inFallback s = false →
      exec (.resume []) s = .next (refusedWith 0x05 .state s))
    ∧ (restoring s = false → isUnrestored s = false → inFallback s = true →
      ∃ (t : State) (l m : List Raised), exec (.resume []) s = .next (answeredWith 0x05 .ok [] s t)
        ∧ t.sup.linkMode = .normal ∧ t.sup.mode = s.sup.mode ∧ t.sup.timeout = s.sup.timeout
        ∧ t.sup.timer = (if s.sup.mode = 0 then none else some s.sup.timeout)
        ∧ (s.sup.mode ≠ 0 → t.sup.loaded = s.sup.timeout) ∧ redirected s t
        ∧ t.flow.tRaw = max (-(s.site.wdrRight : Int)) (min (s.site.injRight : Int)
            (if clockIsUnset s = true then 0 else netConfirmed s.sched s.clock.hour))
        ∧ t.evq = s.evq.pushAll (l ++ ⟨gasTime s, .fallbackExited, none, none⟩ :: m)
        ∧ recutFollows s t ∧ s.changesOnly [.world, .sup, .flow, .dry, .sched, .evq] t)
    ∧ (s.sup.timer = none → exec .supervisionTimerSecond s = .next s ∧ exec .fallbackEntered s = .next s)
    ∧ (∀ n : Nat, s.sup.timer = some n → 1 < n →
        exec .supervisionTimerSecond s = .next (s.setSup { s.sup with timer := some (n - 1) })
        ∧ exec .fallbackEntered s = .next s)
    ∧ ∀ n : Nat, s.sup.timer = some n → n ≤ 1 →
        ∃ (t : State) (l m : List Raised), exec .supervisionTimerSecond s = .next t ∧ exec .fallbackEntered s = .next t
          ∧ t.sup = { s.sup with linkMode := .fallback, timer := none } ∧ t.flow.tRaw = 0
          ∧ redirected s t
          ∧ t.evq = s.evq.pushAll (l ++ ⟨gasTime s, .fallbackEntered, none, some (s.sup.loaded : Int)⟩ :: m)
          ∧ recutFollows s t ∧ s.changesOnly [.world, .sup, .flow, .dry, .sched, .evq] t

/-! ### The account store and restarts -/

/-- A restart of any cause, in any state (R1, R9, R42, R69, R89, R92, R113, R139, R166, R167, R170, R175, R177): every
block takes its restart values: the clock UNSET, the bucket, the setpoint and the targets 0, the last direction
unknown, no settlement, statistics cleared, start lists and load buffer empty, lines off; the queue holds RESTARTED
alone, the link has the cause, the restore begins; the mark and the held number stand. That a copy being written is
left not whole is the model's choice (log entry 41). The row RESTART_REQUEST without a RESTART taken has no effect
(log entry 14); with one, it restarts at once, whether or not the reply still stands unsent (log entry 39). -/
def Obligations.RestartsBeginTheRestore : Prop :=
  ∀ s : State,
    exec .powerOn s = .next (restartWith .powerOn s) ∧ exec .external s = .next (restartWith .external s)
    ∧ exec .supplyDip s = .next (restartWith .supplyDip s)
    ∧ exec .restartRequest s = .next (if s.link.restartDue = true then restartWith .restartRequest s else s)
    ∧ ∀ c : Cause,
      let t := restartWith c s
      restartValues t
      ∧ t.evq = ⟨[⟨0, none, .restarted, none, some (c.code : Int)⟩], 1, 0, false⟩
      ∧ t.link = { State.reset.link with cause := c }
      ∧ t.store.mark = s.store.mark ∧ t.store.held = s.store.held
      ∧ (committing s = false → t.store.copies = s.store.copies)
      ∧ (committing s = true →
          t.store.copies = setVec s.store.copies (if s.store.mark = 0 then 1 else 0) .notWhole)
      ∧ t.pending = s.pending

/-- RESTART, whole (R182): refused BAD_LENGTH and BUSY as stated; taken in every other case with an empty reply, which
is sent whole before the restart with cause RESTART_REQUEST begins, abandoning a settlement in flight and losing a
frame that waits. -/
def Obligations.RestartBeginsWhenItsReplyIsSent : Prop :=
  ∀ (s : State) (b : Block), restoring s = false →
    (if b.length ≠ 0 then answers (.restart b) 0x06 .badLength [] s s
      else if committing s = true then answers (.restart b) 0x06 .busy [] s s
      else answers (.restart b) 0x06 .ok [] s (s.setLink { s.link with restartDue := true }))
    ∧ (s.link.restartDue = true → s.link.reply ≠ none →
        exec .replySent s = .next (restartWith .restartRequest s))
    ∧ (restartWith .restartRequest s).link.cause = .restartRequest
    ∧ (restartWith .restartRequest s).settle.inFlight = none ∧ (restartWith .restartRequest s).link.holding = none
    ∧ (restartWith .restartRequest s).evq.entries = [⟨0, none, .restarted, none, some 4⟩]
    ∧ restoring (restartWith .restartRequest s) = true

/-- The reads of the restore and the end of a commit (R9, R22, R42, R51, R69, R113, R139, R170, R176, R177): a whole
marked copy gives every block its values (from the restart values, nothing is recut and the trains in service stand
by), the schedule in its order, each unit with its history, each train's beds put in order (where none is then taken
up or tested beyond its swap point), the accumulators and the settlement history empty, and arms supervision; a first
failure reads once more; a second one leaves the part UNRESTORED with the default image, and the marked copy with
words that fail the check; a commit found whole moves the mark and the held number. Whether the read or the write came
back whole is the world's (log entry 19), and the rows without their event have no effect (log entry 14). Three
clauses are the model's choice: STORE_UNRESTORED is the last event of its restore (log entry 26), a READY or ADSORBING
bed has phase timer 0 (log entry 47), and a copy that failed both reads can pass a later restore (log entry 40). Of the
default image the model's choice are the fields of unconfigured records (log entry 4) and the figures of the baselines
(log entry 27). -/
def Obligations.RestoreAndCommitEnd : Prop :=
  (∀ (s : State) (first : Bool) (n : BitVec 32) (m : Image), s.store.phase = .restoring first →
    (s.store.copies[s.store.mark] = .whole n m ∨ ∃ d : Nat, s.store.copies[s.store.mark] = .failed n m d) →
    ∃ t : State, exec (.restoreReadDone true) s = .next t
      ∧ t.store = { s.store with
          copies := setVec s.store.copies s.store.mark (.whole n m), phase := .idle, held := n }
      ∧ t.acct = acctOf m ∧ t.curves = m.curves ∧ t.site = m.site
      ∧ t.book.entries = m.entries ∧ t.book.nextArrival = m.nextArrival
      ∧ t.book.confirmedThrough = m.confirmedThrough
      ∧ t.clock = { s.clock with lastSettled := m.lastSettled } ∧ t.meter.base = m.base ∧ t.meter.kept = m.base
      ∧ t.duty.roster = m.roster
      ∧ (∀ i : Fin 6, (t.duty.units[i]).cfg = (m.units[i]).cfg ∧ (t.duty.units[i]).state = (m.units[i]).mapped)
      ∧ (∀ j : Fin 2, (t.dry.trains[j]).cfg = (m.trains[j]).cfg ∧ (t.dry.trains[j]).service = (m.trains[j]).service)
      ∧ t.sup.mode = m.supMode ∧ t.sup.timeout = m.supTimeout
      ∧ (m.supMode = 0 → t.sup.timer = none) ∧ (m.supMode = 2 → t.sup.timer = some m.supTimeout)
      ∧ (m.supMode = 1 → t.sup.timer = if s.sup.firstFrame = true then some m.supTimeout else none)
      ∧ (m.supMode = 3 → t.sup.timer = if s.sup.firstFrame = true then some m.supTimeout else some 600)
      ∧ (∀ k : Nat, t.sup.timer = some k → t.sup.loaded = k)
      ∧ t.sched.Pairwise (fun r q => r.rank ≤ q.rank) ∧ t.book.stats = s.book.stats
      ∧ t.settle = { s.settle with history := [], alloc := Vector.replicate 24 none }
      ∧ t.duty.fuel = 0 ∧ t.dry.gas = 0
      ∧ (∀ i : Fin 6, t.duty.units[i] =
          { configured := (m.units[i]).configured, cfg := (m.units[i]).cfg, state := (m.units[i]).mapped
            runSeconds := (m.units[i]).runSeconds, startTotal := (m.units[i]).startTotal
            attempts := (m.units[i]).attempts, startAges := [], limitNoted := false, phaseTimer := 0, loadedSeconds := 0
            overload := 0, noRun := 0, feedback := .stopped, load := 0, tripCause := none })
      ∧ (∀ j : Fin 2,
          let y := t.dry.trains[j]
          y.configured = (m.trains[j]).configured ∧ y.water = 0 ∧ y.temp = 0 ∧ y.dew = -600 ∧ bedsTaken m j 0 y)
      ∧ capacitiesCurrent t = true ∧ t.link = s.link ∧ t.pending = s.pending
      ∧ (s.flow = State.reset.flow → s.duty.declared = 0 → s.dry.capacity = 0 →
          List.Perm t.sched m.schedule ∧ t.flow.dir = .hold ∧ t.flow.setpoint = 0
          ∧ ∀ j : Fin 2, (t.dry.trains[j]).state = (if (m.trains[j]).service = true then .standby else .out)
              ∧ (t.dry.trains[j]).share = 0))
  ∧ (∀ (s : State) (readOk : Bool), (s.store.copies[s.store.mark] = .notWhole ∨ readOk = false) →
      (s.store.phase = .restoring false → exec (.restoreReadDone readOk) s =
        .next (s.setStore { s.store with phase := .restoring true }))
      ∧ (s.store.phase = .restoring true → ∃ (t : State) (l : List Raised), exec (.restoreReadDone readOk) s = .next t
          ∧ isUnrestored t = true ∧ t.store.phase = .idle ∧ t.store.held = 0 ∧ t.store.mark = s.store.mark
          ∧ (∀ (n : BitVec 32) (m : Image), s.store.copies[s.store.mark] = .whole n m →
              ∃ d : Nat, t.store.copies = setVec s.store.copies s.store.mark (.failed n m d))
          ∧ ((∀ (n : BitVec 32) (m : Image), s.store.copies[s.store.mark] ≠ .whole n m) →
              t.store.copies = s.store.copies)
          ∧ holdsDefaultImage t
          ∧ (∀ i : Fin 6, (t.duty.units[i]).startAges = [])
          ∧ (∀ j : Fin 2, (t.dry.trains[j]).water = 0 ∧ (t.dry.trains[j]).temp = 0 ∧ (t.dry.trains[j]).dew = -600)
          ∧ t.book.stats = s.book.stats ∧ t.settle.inFlight = s.settle.inFlight ∧ capacitiesCurrent t = true
          ∧ t.link = s.link ∧ t.pending = s.pending
          ∧ t.evq = s.evq.pushAll (l ++ [⟨gasTime s, .storeUnrestored, none, none⟩])))
  ∧ (∀ (s : State) (readOk : Bool), restoring s = false → exec (.restoreReadDone readOk) s = .next s)
  ∧ ∀ s : State,
      (∀ (n : BitVec 32) (m : Image), s.store.phase = .committing n m →
        let other : Fin 2 := if s.store.mark = 0 then 1 else 0
        exec (.commitEnd true) s = .next ((s.setStore { s.store with
            copies := setVec s.store.copies other (.whole n m), mark := other, held := n, phase := .idle }).setEvq
          (s.evq.pushAll [⟨gasTime s, .commitDone, none, some (n.toNat : Int)⟩]))
        ∧ exec (.commitEnd false) s = .next ((s.setStore { s.store with
            copies := setVec s.store.copies other .notWhole, phase := .idle }).setEvq
          (s.evq.pushAll [⟨gasTime s, .commitFailed, none, some (n.toNat : Int)⟩])))
      ∧ ∀ whole : Bool, committing s = false → exec (.commitEnd whole) s = .next s

/-- STORE LOAD, STORE LOAD END and STORE INITIALIZE (R175, R180, R181): the checks of each in order, with the
consistency of R180 as it lists it; taken, 32 words replace a block of the load buffer; the buffer's image, or the
default image, is adopted at once, UNRESTORED clears, and the commit of that number begins. How the words are an image
is the model's layout (log entries 7 and 50); what an adoption keeps, log entry 20. Each unit has the image's
configuration and history, its state mapped, its working fields as at a restart but for the start list, which is kept;
the schedule holds the image's records in order, at their requests, cut only where a capacity falls, and then to the
capacities; each train's beds are put in order, with the bed capacity formed at the held temperature, and a train in
service stands by or is ONLINE by the direction (with a mask choice of 0 it can then leave ONLINE for OFF_SPEC). The
default image is whole, its fields of unconfigured records (log entry 4) and figures of the baselines (log entry 27)
being the model's choice. That an adoption sets a train's flags and dew-point timers as a restart does (log entry 46),
and that a READY bed has phase timer 0 (log entry 47), are the model's choice. -/
def Obligations.StoreLoadAndAdoption : Prop :=
  (∀ (s : State) (b : Block) (c : Instr), c ∈ ([.storeLoad b, .storeLoadEnd b, .storeInitialize b] : List Instr) →
    keepsItsChecks c s)
  ∧ (∀ (s : State) (b : Block), restoring s = false → inFallback s = false → committing s = false → b.length = 33 →
    fieldW b 0 ≤ 383 → bufferWf s.store.buffer = true →
    ∃ t : State, exec (.storeLoad b) s = .next (answeredWith 0x51 .ok (out1 (fieldW b 0)) s t)
      ∧ (∀ i : Nat, i < 32 → readWord (32 * fieldW b 0 + i) t.store.buffer = b.getD (i + 1) 0)
      ∧ (∀ j : Nat, (j < 32 * fieldW b 0 ∨ 32 * fieldW b 0 + 32 ≤ j) →
          readWord j t.store.buffer = readWord j s.store.buffer)
      ∧ t.store = { s.store with buffer := t.store.buffer } ∧ s.changesOnly [.store] t)
  ∧ (∀ (s : State) (m : Image), restoring s = false → inFallback s = false → settling s = false →
      committing s = false → clockIsUnset s = true → crcHolds (bufferWords s.store.buffer) = true →
      imageRead (bufferWords s.store.buffer) = some m → m.consistent = true →
      let n := numberRead (bufferWords s.store.buffer) + 1
      ∃ t : State, exec (.storeLoadEnd []) s = .next (answeredWith 0x52 .ok (out2 n.toNat) s t)
        ∧ t.store = { s.store with
            buffer := [], unrestored := false, held := n - 1, phase := .committing n (snapshot t) }
        ∧ t.acct = acctOf m ∧ t.curves = m.curves ∧ t.site = m.site ∧ t.book.entries = m.entries
        ∧ t.book.nextArrival = m.nextArrival ∧ t.book.confirmedThrough = m.confirmedThrough
        ∧ t.clock = { s.clock with lastSettled := m.lastSettled }
        ∧ t.meter = { s.meter with base := m.base, kept := m.base, lastAccepted := none, refusals := 0 }
        ∧ t.duty.roster = m.roster
        ∧ t.duty.fuel = 0 ∧ t.dry.gas = 0 ∧ t.settle.history = [] ∧ (∀ i : Fin 24, t.settle.alloc[i] = none)
        ∧ t.sched.Pairwise (fun r q => r.rank ≤ q.rank) ∧ List.Perm (asked t.sched) (asked m.schedule)
        ∧ (s.flow.dir = .hold → s.duty.declared ≤ t.duty.declared → s.dry.capacity ≤ t.dry.capacity →
            List.Perm t.sched m.schedule)
        ∧ (t.duty.declared < s.duty.declared ∨ t.dry.capacity < s.dry.capacity → laterHoursFit t)
        ∧ (∀ i : Fin 6, t.duty.units[i] =
            { configured := (m.units[i]).configured, cfg := (m.units[i]).cfg, state := (m.units[i]).mapped
              runSeconds := (m.units[i]).runSeconds, startTotal := (m.units[i]).startTotal
              attempts := (m.units[i]).attempts, startAges := (s.duty.units[i]).startAges, limitNoted := false
              phaseTimer := 0, loadedSeconds := 0, overload := 0, noRun := 0, feedback := .stopped, load := 0
              tripCause := none })
        ∧ (∀ j : Fin 2, (t.dry.trains[j]).configured = (m.trains[j]).configured ∧ (t.dry.trains[j]).cfg = (m.trains[j]).cfg
            ∧ (t.dry.trains[j]).service = (m.trains[j]).service ∧ (t.dry.trains[j]).water = (s.dry.trains[j]).water
            ∧ (t.dry.trains[j]).temp = (s.dry.trains[j]).temp ∧ (t.dry.trains[j]).dew = (s.dry.trains[j]).dew
            ∧ bedsTaken m j (s.dry.trains[j]).temp (t.dry.trains[j])
            ∧ ((m.trains[j]).service = false → (t.dry.trains[j]).state = .out)
            ∧ ((m.trains[j]).service = true → (t.dry.trains[j]).state ≠ .out
                ∧ (t.flow.dir = .withdrawing → (t.dry.trains[j]).state ≠ .standby)
                ∧ (t.flow.dir ≠ .withdrawing → (t.dry.trains[j]).state ≠ .online)
                ∧ ((m.trains[j]).cfg.maskChoice ≠ 0 →
                    (t.dry.trains[j]).state = (if t.flow.dir = .withdrawing then .online else .standby))))
        ∧ t.sup.mode = m.supMode ∧ t.sup.timeout = m.supTimeout
        ∧ t.sup.timer = (if m.supMode = 0 then none else some m.supTimeout)
        ∧ (m.supMode ≠ 0 → t.sup.loaded = m.supTimeout)
        ∧ s.changesOnly [.world, .acct, .curves, .site, .book, .sched, .settle, .meter, .clock, .sup, .duty, .dry, .flow,
            .evq, .store] t)
  ∧ ∀ s : State, restoring s = false → inFallback s = false → committing s = false →
      (isUnrestored s = false → exec (.storeInitialize []) s = .next (refusedWith 0x53 .state s))
      ∧ (isUnrestored s = true → ∃ t : State, exec (.storeInitialize []) s = .next (answeredWith 0x53 .ok (out2 1) s t)
          ∧ t.store = { s.store with unrestored := false, held := 0, phase := .committing 1 (snapshot t) }
          ∧ holdsDefaultImage t
          ∧ (∀ i : Fin 6, (t.duty.units[i]).startAges = (s.duty.units[i]).startAges)
          ∧ (∀ j : Fin 2, (t.dry.trains[j]).water = (s.dry.trains[j]).water ∧ (t.dry.trains[j]).temp = (s.dry.trains[j]).temp
              ∧ (t.dry.trains[j]).dew = (s.dry.trains[j]).dew)
          ∧ t.meter.bucket = s.meter.bucket ∧ t.settle.inFlight = s.settle.inFlight
          ∧ t.clock = { s.clock with lastSettled := 0 } ∧ capacitiesCurrent t = true
          ∧ s.changesOnly [.world, .acct, .curves, .site, .book, .sched, .settle, .meter, .clock, .sup, .duty, .dry, .flow,
              .evq, .store] t)
  ∧ ∀ m : Image, m.consistent = true ↔ m.inRange = true
      ∧ (∀ a ∈ m.records, 0 ≤ a.inventory ∧ a.inventory ≤ a.spaceRight) ∧ (m.records.map (fun a => a.shipper)).Nodup
      ∧ (m.records.map (fun a => a.inventory)).sum + m.sba = m.opening + m.booked - m.charged
      ∧ (∀ c : Fin 16, ((∃ a ∈ m.records, a.injCurve = some c ∨ a.wdrCurve = some c)
          ∨ (∃ i : Fin 6, (m.units[i]).configured = true ∧ (m.units[i]).cfg.curve = some c)
          ∨ ∃ j : Fin 2, (m.trains[j]).configured = true ∧ (m.trains[j]).cfg.curve = some c) → m.curves[c] ≠ [])
      ∧ (∀ i : Fin 6, i ∈ m.roster.toList)
      ∧ m.entries.Pairwise (fun e f => e.slot = f.slot → e.dir = f.dir → e.cls = f.cls →
          ∀ h : Nat, ¬(e.holds h = true ∧ f.holds h = true))
      ∧ (∀ e ∈ m.entries, ∀ r ∈ m.schedule, e.slot = r.slot → e.dir = r.dir → e.cls = r.cls → e.holds r.hour = false)
      ∧ (∀ r ∈ m.schedule, r.confirmed ≤ r.requested)
      ∧ (m.schedule.map (fun r => (r.hour, r.slot, r.dir, r.cls))).Nodup ∧ m.schedule.length ≤ 480
      ∧ (∀ r ∈ m.schedule, r.hour ≤ m.confirmedThrough)
      ∧ ∀ e ∈ m.entries, ∀ h : Nat, e.holds h = true → m.confirmedThrough < h

end
end

