-- ==== Sys2Proof/Laws/State.lean ====
section
/-! SUPPORT. One lemma per field per named update of State: what each update sets and what it leaves. -/

namespace Sys2Proof.Machine

/-! ### setPending -/

@[simp] theorem State.setPending_pending (s : State) (x : List Instr) : (s.setPending x).pending = x := rfl
@[simp] theorem State.setPending_world (s : State) (x : List Instr) : (s.setPending x).world = s.world := rfl
@[simp] theorem State.setPending_elapsed (s : State) (x : List Instr) : (s.setPending x).elapsed = s.elapsed := rfl
@[simp] theorem State.setPending_clock (s : State) (x : List Instr) : (s.setPending x).clock = s.clock := rfl
@[simp] theorem State.setPending_meter (s : State) (x : List Instr) : (s.setPending x).meter = s.meter := rfl
@[simp] theorem State.setPending_curves (s : State) (x : List Instr) : (s.setPending x).curves = s.curves := rfl
@[simp] theorem State.setPending_site (s : State) (x : List Instr) : (s.setPending x).site = s.site := rfl
@[simp] theorem State.setPending_acct (s : State) (x : List Instr) : (s.setPending x).acct = s.acct := rfl
@[simp] theorem State.setPending_book (s : State) (x : List Instr) : (s.setPending x).book = s.book := rfl
@[simp] theorem State.setPending_sched (s : State) (x : List Instr) : (s.setPending x).sched = s.sched := rfl
@[simp] theorem State.setPending_settle (s : State) (x : List Instr) : (s.setPending x).settle = s.settle := rfl
@[simp] theorem State.setPending_flow (s : State) (x : List Instr) : (s.setPending x).flow = s.flow := rfl
@[simp] theorem State.setPending_duty (s : State) (x : List Instr) : (s.setPending x).duty = s.duty := rfl
@[simp] theorem State.setPending_dry (s : State) (x : List Instr) : (s.setPending x).dry = s.dry := rfl
@[simp] theorem State.setPending_link (s : State) (x : List Instr) : (s.setPending x).link = s.link := rfl
@[simp] theorem State.setPending_evq (s : State) (x : List Instr) : (s.setPending x).evq = s.evq := rfl
@[simp] theorem State.setPending_sup (s : State) (x : List Instr) : (s.setPending x).sup = s.sup := rfl
@[simp] theorem State.setPending_store (s : State) (x : List Instr) : (s.setPending x).store = s.store := rfl

/-! ### setWorld -/

@[simp] theorem State.setWorld_pending (s : State) (x : Nat) : (s.setWorld x).pending = s.pending := rfl
@[simp] theorem State.setWorld_world (s : State) (x : Nat) : (s.setWorld x).world = x := rfl
@[simp] theorem State.setWorld_elapsed (s : State) (x : Nat) : (s.setWorld x).elapsed = s.elapsed := rfl
@[simp] theorem State.setWorld_clock (s : State) (x : Nat) : (s.setWorld x).clock = s.clock := rfl
@[simp] theorem State.setWorld_meter (s : State) (x : Nat) : (s.setWorld x).meter = s.meter := rfl
@[simp] theorem State.setWorld_curves (s : State) (x : Nat) : (s.setWorld x).curves = s.curves := rfl
@[simp] theorem State.setWorld_site (s : State) (x : Nat) : (s.setWorld x).site = s.site := rfl
@[simp] theorem State.setWorld_acct (s : State) (x : Nat) : (s.setWorld x).acct = s.acct := rfl
@[simp] theorem State.setWorld_book (s : State) (x : Nat) : (s.setWorld x).book = s.book := rfl
@[simp] theorem State.setWorld_sched (s : State) (x : Nat) : (s.setWorld x).sched = s.sched := rfl
@[simp] theorem State.setWorld_settle (s : State) (x : Nat) : (s.setWorld x).settle = s.settle := rfl
@[simp] theorem State.setWorld_flow (s : State) (x : Nat) : (s.setWorld x).flow = s.flow := rfl
@[simp] theorem State.setWorld_duty (s : State) (x : Nat) : (s.setWorld x).duty = s.duty := rfl
@[simp] theorem State.setWorld_dry (s : State) (x : Nat) : (s.setWorld x).dry = s.dry := rfl
@[simp] theorem State.setWorld_link (s : State) (x : Nat) : (s.setWorld x).link = s.link := rfl
@[simp] theorem State.setWorld_evq (s : State) (x : Nat) : (s.setWorld x).evq = s.evq := rfl
@[simp] theorem State.setWorld_sup (s : State) (x : Nat) : (s.setWorld x).sup = s.sup := rfl
@[simp] theorem State.setWorld_store (s : State) (x : Nat) : (s.setWorld x).store = s.store := rfl

/-! ### setElapsed -/

@[simp] theorem State.setElapsed_pending (s : State) (x : Nat) : (s.setElapsed x).pending = s.pending := rfl
@[simp] theorem State.setElapsed_world (s : State) (x : Nat) : (s.setElapsed x).world = s.world := rfl
@[simp] theorem State.setElapsed_elapsed (s : State) (x : Nat) : (s.setElapsed x).elapsed = x := rfl
@[simp] theorem State.setElapsed_clock (s : State) (x : Nat) : (s.setElapsed x).clock = s.clock := rfl
@[simp] theorem State.setElapsed_meter (s : State) (x : Nat) : (s.setElapsed x).meter = s.meter := rfl
@[simp] theorem State.setElapsed_curves (s : State) (x : Nat) : (s.setElapsed x).curves = s.curves := rfl
@[simp] theorem State.setElapsed_site (s : State) (x : Nat) : (s.setElapsed x).site = s.site := rfl
@[simp] theorem State.setElapsed_acct (s : State) (x : Nat) : (s.setElapsed x).acct = s.acct := rfl
@[simp] theorem State.setElapsed_book (s : State) (x : Nat) : (s.setElapsed x).book = s.book := rfl
@[simp] theorem State.setElapsed_sched (s : State) (x : Nat) : (s.setElapsed x).sched = s.sched := rfl
@[simp] theorem State.setElapsed_settle (s : State) (x : Nat) : (s.setElapsed x).settle = s.settle := rfl
@[simp] theorem State.setElapsed_flow (s : State) (x : Nat) : (s.setElapsed x).flow = s.flow := rfl
@[simp] theorem State.setElapsed_duty (s : State) (x : Nat) : (s.setElapsed x).duty = s.duty := rfl
@[simp] theorem State.setElapsed_dry (s : State) (x : Nat) : (s.setElapsed x).dry = s.dry := rfl
@[simp] theorem State.setElapsed_link (s : State) (x : Nat) : (s.setElapsed x).link = s.link := rfl
@[simp] theorem State.setElapsed_evq (s : State) (x : Nat) : (s.setElapsed x).evq = s.evq := rfl
@[simp] theorem State.setElapsed_sup (s : State) (x : Nat) : (s.setElapsed x).sup = s.sup := rfl
@[simp] theorem State.setElapsed_store (s : State) (x : Nat) : (s.setElapsed x).store = s.store := rfl

/-! ### setClock -/

@[simp] theorem State.setClock_pending (s : State) (x : Clock) : (s.setClock x).pending = s.pending := rfl
@[simp] theorem State.setClock_world (s : State) (x : Clock) : (s.setClock x).world = s.world := rfl
@[simp] theorem State.setClock_elapsed (s : State) (x : Clock) : (s.setClock x).elapsed = s.elapsed := rfl
@[simp] theorem State.setClock_clock (s : State) (x : Clock) : (s.setClock x).clock = x := rfl
@[simp] theorem State.setClock_meter (s : State) (x : Clock) : (s.setClock x).meter = s.meter := rfl
@[simp] theorem State.setClock_curves (s : State) (x : Clock) : (s.setClock x).curves = s.curves := rfl
@[simp] theorem State.setClock_site (s : State) (x : Clock) : (s.setClock x).site = s.site := rfl
@[simp] theorem State.setClock_acct (s : State) (x : Clock) : (s.setClock x).acct = s.acct := rfl
@[simp] theorem State.setClock_book (s : State) (x : Clock) : (s.setClock x).book = s.book := rfl
@[simp] theorem State.setClock_sched (s : State) (x : Clock) : (s.setClock x).sched = s.sched := rfl
@[simp] theorem State.setClock_settle (s : State) (x : Clock) : (s.setClock x).settle = s.settle := rfl
@[simp] theorem State.setClock_flow (s : State) (x : Clock) : (s.setClock x).flow = s.flow := rfl
@[simp] theorem State.setClock_duty (s : State) (x : Clock) : (s.setClock x).duty = s.duty := rfl
@[simp] theorem State.setClock_dry (s : State) (x : Clock) : (s.setClock x).dry = s.dry := rfl
@[simp] theorem State.setClock_link (s : State) (x : Clock) : (s.setClock x).link = s.link := rfl
@[simp] theorem State.setClock_evq (s : State) (x : Clock) : (s.setClock x).evq = s.evq := rfl
@[simp] theorem State.setClock_sup (s : State) (x : Clock) : (s.setClock x).sup = s.sup := rfl
@[simp] theorem State.setClock_store (s : State) (x : Clock) : (s.setClock x).store = s.store := rfl

/-! ### setMeter -/

@[simp] theorem State.setMeter_pending (s : State) (x : Meter) : (s.setMeter x).pending = s.pending := rfl
@[simp] theorem State.setMeter_world (s : State) (x : Meter) : (s.setMeter x).world = s.world := rfl
@[simp] theorem State.setMeter_elapsed (s : State) (x : Meter) : (s.setMeter x).elapsed = s.elapsed := rfl
@[simp] theorem State.setMeter_clock (s : State) (x : Meter) : (s.setMeter x).clock = s.clock := rfl
@[simp] theorem State.setMeter_meter (s : State) (x : Meter) : (s.setMeter x).meter = x := rfl
@[simp] theorem State.setMeter_curves (s : State) (x : Meter) : (s.setMeter x).curves = s.curves := rfl
@[simp] theorem State.setMeter_site (s : State) (x : Meter) : (s.setMeter x).site = s.site := rfl
@[simp] theorem State.setMeter_acct (s : State) (x : Meter) : (s.setMeter x).acct = s.acct := rfl
@[simp] theorem State.setMeter_book (s : State) (x : Meter) : (s.setMeter x).book = s.book := rfl
@[simp] theorem State.setMeter_sched (s : State) (x : Meter) : (s.setMeter x).sched = s.sched := rfl
@[simp] theorem State.setMeter_settle (s : State) (x : Meter) : (s.setMeter x).settle = s.settle := rfl
@[simp] theorem State.setMeter_flow (s : State) (x : Meter) : (s.setMeter x).flow = s.flow := rfl
@[simp] theorem State.setMeter_duty (s : State) (x : Meter) : (s.setMeter x).duty = s.duty := rfl
@[simp] theorem State.setMeter_dry (s : State) (x : Meter) : (s.setMeter x).dry = s.dry := rfl
@[simp] theorem State.setMeter_link (s : State) (x : Meter) : (s.setMeter x).link = s.link := rfl
@[simp] theorem State.setMeter_evq (s : State) (x : Meter) : (s.setMeter x).evq = s.evq := rfl
@[simp] theorem State.setMeter_sup (s : State) (x : Meter) : (s.setMeter x).sup = s.sup := rfl
@[simp] theorem State.setMeter_store (s : State) (x : Meter) : (s.setMeter x).store = s.store := rfl

/-! ### setCurves -/

@[simp] theorem State.setCurves_pending (s : State) (x : Vector Curve 16) : (s.setCurves x).pending = s.pending := rfl
@[simp] theorem State.setCurves_world (s : State) (x : Vector Curve 16) : (s.setCurves x).world = s.world := rfl
@[simp] theorem State.setCurves_elapsed (s : State) (x : Vector Curve 16) : (s.setCurves x).elapsed = s.elapsed := rfl
@[simp] theorem State.setCurves_clock (s : State) (x : Vector Curve 16) : (s.setCurves x).clock = s.clock := rfl
@[simp] theorem State.setCurves_meter (s : State) (x : Vector Curve 16) : (s.setCurves x).meter = s.meter := rfl
@[simp] theorem State.setCurves_curves (s : State) (x : Vector Curve 16) : (s.setCurves x).curves = x := rfl
@[simp] theorem State.setCurves_site (s : State) (x : Vector Curve 16) : (s.setCurves x).site = s.site := rfl
@[simp] theorem State.setCurves_acct (s : State) (x : Vector Curve 16) : (s.setCurves x).acct = s.acct := rfl
@[simp] theorem State.setCurves_book (s : State) (x : Vector Curve 16) : (s.setCurves x).book = s.book := rfl
@[simp] theorem State.setCurves_sched (s : State) (x : Vector Curve 16) : (s.setCurves x).sched = s.sched := rfl
@[simp] theorem State.setCurves_settle (s : State) (x : Vector Curve 16) : (s.setCurves x).settle = s.settle := rfl
@[simp] theorem State.setCurves_flow (s : State) (x : Vector Curve 16) : (s.setCurves x).flow = s.flow := rfl
@[simp] theorem State.setCurves_duty (s : State) (x : Vector Curve 16) : (s.setCurves x).duty = s.duty := rfl
@[simp] theorem State.setCurves_dry (s : State) (x : Vector Curve 16) : (s.setCurves x).dry = s.dry := rfl
@[simp] theorem State.setCurves_link (s : State) (x : Vector Curve 16) : (s.setCurves x).link = s.link := rfl
@[simp] theorem State.setCurves_evq (s : State) (x : Vector Curve 16) : (s.setCurves x).evq = s.evq := rfl
@[simp] theorem State.setCurves_sup (s : State) (x : Vector Curve 16) : (s.setCurves x).sup = s.sup := rfl
@[simp] theorem State.setCurves_store (s : State) (x : Vector Curve 16) : (s.setCurves x).store = s.store := rfl

/-! ### setSite -/

@[simp] theorem State.setSite_pending (s : State) (x : Site) : (s.setSite x).pending = s.pending := rfl
@[simp] theorem State.setSite_world (s : State) (x : Site) : (s.setSite x).world = s.world := rfl
@[simp] theorem State.setSite_elapsed (s : State) (x : Site) : (s.setSite x).elapsed = s.elapsed := rfl
@[simp] theorem State.setSite_clock (s : State) (x : Site) : (s.setSite x).clock = s.clock := rfl
@[simp] theorem State.setSite_meter (s : State) (x : Site) : (s.setSite x).meter = s.meter := rfl
@[simp] theorem State.setSite_curves (s : State) (x : Site) : (s.setSite x).curves = s.curves := rfl
@[simp] theorem State.setSite_site (s : State) (x : Site) : (s.setSite x).site = x := rfl
@[simp] theorem State.setSite_acct (s : State) (x : Site) : (s.setSite x).acct = s.acct := rfl
@[simp] theorem State.setSite_book (s : State) (x : Site) : (s.setSite x).book = s.book := rfl
@[simp] theorem State.setSite_sched (s : State) (x : Site) : (s.setSite x).sched = s.sched := rfl
@[simp] theorem State.setSite_settle (s : State) (x : Site) : (s.setSite x).settle = s.settle := rfl
@[simp] theorem State.setSite_flow (s : State) (x : Site) : (s.setSite x).flow = s.flow := rfl
@[simp] theorem State.setSite_duty (s : State) (x : Site) : (s.setSite x).duty = s.duty := rfl
@[simp] theorem State.setSite_dry (s : State) (x : Site) : (s.setSite x).dry = s.dry := rfl
@[simp] theorem State.setSite_link (s : State) (x : Site) : (s.setSite x).link = s.link := rfl
@[simp] theorem State.setSite_evq (s : State) (x : Site) : (s.setSite x).evq = s.evq := rfl
@[simp] theorem State.setSite_sup (s : State) (x : Site) : (s.setSite x).sup = s.sup := rfl
@[simp] theorem State.setSite_store (s : State) (x : Site) : (s.setSite x).store = s.store := rfl

/-! ### setAcct -/

@[simp] theorem State.setAcct_pending (s : State) (x : Accounts) : (s.setAcct x).pending = s.pending := rfl
@[simp] theorem State.setAcct_world (s : State) (x : Accounts) : (s.setAcct x).world = s.world := rfl
@[simp] theorem State.setAcct_elapsed (s : State) (x : Accounts) : (s.setAcct x).elapsed = s.elapsed := rfl
@[simp] theorem State.setAcct_clock (s : State) (x : Accounts) : (s.setAcct x).clock = s.clock := rfl
@[simp] theorem State.setAcct_meter (s : State) (x : Accounts) : (s.setAcct x).meter = s.meter := rfl
@[simp] theorem State.setAcct_curves (s : State) (x : Accounts) : (s.setAcct x).curves = s.curves := rfl
@[simp] theorem State.setAcct_site (s : State) (x : Accounts) : (s.setAcct x).site = s.site := rfl
@[simp] theorem State.setAcct_acct (s : State) (x : Accounts) : (s.setAcct x).acct = x := rfl
@[simp] theorem State.setAcct_book (s : State) (x : Accounts) : (s.setAcct x).book = s.book := rfl
@[simp] theorem State.setAcct_sched (s : State) (x : Accounts) : (s.setAcct x).sched = s.sched := rfl
@[simp] theorem State.setAcct_settle (s : State) (x : Accounts) : (s.setAcct x).settle = s.settle := rfl
@[simp] theorem State.setAcct_flow (s : State) (x : Accounts) : (s.setAcct x).flow = s.flow := rfl
@[simp] theorem State.setAcct_duty (s : State) (x : Accounts) : (s.setAcct x).duty = s.duty := rfl
@[simp] theorem State.setAcct_dry (s : State) (x : Accounts) : (s.setAcct x).dry = s.dry := rfl
@[simp] theorem State.setAcct_link (s : State) (x : Accounts) : (s.setAcct x).link = s.link := rfl
@[simp] theorem State.setAcct_evq (s : State) (x : Accounts) : (s.setAcct x).evq = s.evq := rfl
@[simp] theorem State.setAcct_sup (s : State) (x : Accounts) : (s.setAcct x).sup = s.sup := rfl
@[simp] theorem State.setAcct_store (s : State) (x : Accounts) : (s.setAcct x).store = s.store := rfl

/-! ### setBook -/

@[simp] theorem State.setBook_pending (s : State) (x : Book) : (s.setBook x).pending = s.pending := rfl
@[simp] theorem State.setBook_world (s : State) (x : Book) : (s.setBook x).world = s.world := rfl
@[simp] theorem State.setBook_elapsed (s : State) (x : Book) : (s.setBook x).elapsed = s.elapsed := rfl
@[simp] theorem State.setBook_clock (s : State) (x : Book) : (s.setBook x).clock = s.clock := rfl
@[simp] theorem State.setBook_meter (s : State) (x : Book) : (s.setBook x).meter = s.meter := rfl
@[simp] theorem State.setBook_curves (s : State) (x : Book) : (s.setBook x).curves = s.curves := rfl
@[simp] theorem State.setBook_site (s : State) (x : Book) : (s.setBook x).site = s.site := rfl
@[simp] theorem State.setBook_acct (s : State) (x : Book) : (s.setBook x).acct = s.acct := rfl
@[simp] theorem State.setBook_book (s : State) (x : Book) : (s.setBook x).book = x := rfl
@[simp] theorem State.setBook_sched (s : State) (x : Book) : (s.setBook x).sched = s.sched := rfl
@[simp] theorem State.setBook_settle (s : State) (x : Book) : (s.setBook x).settle = s.settle := rfl
@[simp] theorem State.setBook_flow (s : State) (x : Book) : (s.setBook x).flow = s.flow := rfl
@[simp] theorem State.setBook_duty (s : State) (x : Book) : (s.setBook x).duty = s.duty := rfl
@[simp] theorem State.setBook_dry (s : State) (x : Book) : (s.setBook x).dry = s.dry := rfl
@[simp] theorem State.setBook_link (s : State) (x : Book) : (s.setBook x).link = s.link := rfl
@[simp] theorem State.setBook_evq (s : State) (x : Book) : (s.setBook x).evq = s.evq := rfl
@[simp] theorem State.setBook_sup (s : State) (x : Book) : (s.setBook x).sup = s.sup := rfl
@[simp] theorem State.setBook_store (s : State) (x : Book) : (s.setBook x).store = s.store := rfl

/-! ### setSched -/

@[simp] theorem State.setSched_pending (s : State) (x : List SchedRec) : (s.setSched x).pending = s.pending := rfl
@[simp] theorem State.setSched_world (s : State) (x : List SchedRec) : (s.setSched x).world = s.world := rfl
@[simp] theorem State.setSched_elapsed (s : State) (x : List SchedRec) : (s.setSched x).elapsed = s.elapsed := rfl
@[simp] theorem State.setSched_clock (s : State) (x : List SchedRec) : (s.setSched x).clock = s.clock := rfl
@[simp] theorem State.setSched_meter (s : State) (x : List SchedRec) : (s.setSched x).meter = s.meter := rfl
@[simp] theorem State.setSched_curves (s : State) (x : List SchedRec) : (s.setSched x).curves = s.curves := rfl
@[simp] theorem State.setSched_site (s : State) (x : List SchedRec) : (s.setSched x).site = s.site := rfl
@[simp] theorem State.setSched_acct (s : State) (x : List SchedRec) : (s.setSched x).acct = s.acct := rfl
@[simp] theorem State.setSched_book (s : State) (x : List SchedRec) : (s.setSched x).book = s.book := rfl
@[simp] theorem State.setSched_sched (s : State) (x : List SchedRec) : (s.setSched x).sched = x := rfl
@[simp] theorem State.setSched_settle (s : State) (x : List SchedRec) : (s.setSched x).settle = s.settle := rfl
@[simp] theorem State.setSched_flow (s : State) (x : List SchedRec) : (s.setSched x).flow = s.flow := rfl
@[simp] theorem State.setSched_duty (s : State) (x : List SchedRec) : (s.setSched x).duty = s.duty := rfl
@[simp] theorem State.setSched_dry (s : State) (x : List SchedRec) : (s.setSched x).dry = s.dry := rfl
@[simp] theorem State.setSched_link (s : State) (x : List SchedRec) : (s.setSched x).link = s.link := rfl
@[simp] theorem State.setSched_evq (s : State) (x : List SchedRec) : (s.setSched x).evq = s.evq := rfl
@[simp] theorem State.setSched_sup (s : State) (x : List SchedRec) : (s.setSched x).sup = s.sup := rfl
@[simp] theorem State.setSched_store (s : State) (x : List SchedRec) : (s.setSched x).store = s.store := rfl

/-! ### setSettle -/

@[simp] theorem State.setSettle_pending (s : State) (x : Settlement) : (s.setSettle x).pending = s.pending := rfl
@[simp] theorem State.setSettle_world (s : State) (x : Settlement) : (s.setSettle x).world = s.world := rfl
@[simp] theorem State.setSettle_elapsed (s : State) (x : Settlement) : (s.setSettle x).elapsed = s.elapsed := rfl
@[simp] theorem State.setSettle_clock (s : State) (x : Settlement) : (s.setSettle x).clock = s.clock := rfl
@[simp] theorem State.setSettle_meter (s : State) (x : Settlement) : (s.setSettle x).meter = s.meter := rfl
@[simp] theorem State.setSettle_curves (s : State) (x : Settlement) : (s.setSettle x).curves = s.curves := rfl
@[simp] theorem State.setSettle_site (s : State) (x : Settlement) : (s.setSettle x).site = s.site := rfl
@[simp] theorem State.setSettle_acct (s : State) (x : Settlement) : (s.setSettle x).acct = s.acct := rfl
@[simp] theorem State.setSettle_book (s : State) (x : Settlement) : (s.setSettle x).book = s.book := rfl
@[simp] theorem State.setSettle_sched (s : State) (x : Settlement) : (s.setSettle x).sched = s.sched := rfl
@[simp] theorem State.setSettle_settle (s : State) (x : Settlement) : (s.setSettle x).settle = x := rfl
@[simp] theorem State.setSettle_flow (s : State) (x : Settlement) : (s.setSettle x).flow = s.flow := rfl
@[simp] theorem State.setSettle_duty (s : State) (x : Settlement) : (s.setSettle x).duty = s.duty := rfl
@[simp] theorem State.setSettle_dry (s : State) (x : Settlement) : (s.setSettle x).dry = s.dry := rfl
@[simp] theorem State.setSettle_link (s : State) (x : Settlement) : (s.setSettle x).link = s.link := rfl
@[simp] theorem State.setSettle_evq (s : State) (x : Settlement) : (s.setSettle x).evq = s.evq := rfl
@[simp] theorem State.setSettle_sup (s : State) (x : Settlement) : (s.setSettle x).sup = s.sup := rfl
@[simp] theorem State.setSettle_store (s : State) (x : Settlement) : (s.setSettle x).store = s.store := rfl

/-! ### setFlow -/

@[simp] theorem State.setFlow_pending (s : State) (x : Flow) : (s.setFlow x).pending = s.pending := rfl
@[simp] theorem State.setFlow_world (s : State) (x : Flow) : (s.setFlow x).world = s.world := rfl
@[simp] theorem State.setFlow_elapsed (s : State) (x : Flow) : (s.setFlow x).elapsed = s.elapsed := rfl
@[simp] theorem State.setFlow_clock (s : State) (x : Flow) : (s.setFlow x).clock = s.clock := rfl
@[simp] theorem State.setFlow_meter (s : State) (x : Flow) : (s.setFlow x).meter = s.meter := rfl
@[simp] theorem State.setFlow_curves (s : State) (x : Flow) : (s.setFlow x).curves = s.curves := rfl
@[simp] theorem State.setFlow_site (s : State) (x : Flow) : (s.setFlow x).site = s.site := rfl
@[simp] theorem State.setFlow_acct (s : State) (x : Flow) : (s.setFlow x).acct = s.acct := rfl
@[simp] theorem State.setFlow_book (s : State) (x : Flow) : (s.setFlow x).book = s.book := rfl
@[simp] theorem State.setFlow_sched (s : State) (x : Flow) : (s.setFlow x).sched = s.sched := rfl
@[simp] theorem State.setFlow_settle (s : State) (x : Flow) : (s.setFlow x).settle = s.settle := rfl
@[simp] theorem State.setFlow_flow (s : State) (x : Flow) : (s.setFlow x).flow = x := rfl
@[simp] theorem State.setFlow_duty (s : State) (x : Flow) : (s.setFlow x).duty = s.duty := rfl
@[simp] theorem State.setFlow_dry (s : State) (x : Flow) : (s.setFlow x).dry = s.dry := rfl
@[simp] theorem State.setFlow_link (s : State) (x : Flow) : (s.setFlow x).link = s.link := rfl
@[simp] theorem State.setFlow_evq (s : State) (x : Flow) : (s.setFlow x).evq = s.evq := rfl
@[simp] theorem State.setFlow_sup (s : State) (x : Flow) : (s.setFlow x).sup = s.sup := rfl
@[simp] theorem State.setFlow_store (s : State) (x : Flow) : (s.setFlow x).store = s.store := rfl

/-! ### setDuty -/

@[simp] theorem State.setDuty_pending (s : State) (x : Duty) : (s.setDuty x).pending = s.pending := rfl
@[simp] theorem State.setDuty_world (s : State) (x : Duty) : (s.setDuty x).world = s.world := rfl
@[simp] theorem State.setDuty_elapsed (s : State) (x : Duty) : (s.setDuty x).elapsed = s.elapsed := rfl
@[simp] theorem State.setDuty_clock (s : State) (x : Duty) : (s.setDuty x).clock = s.clock := rfl
@[simp] theorem State.setDuty_meter (s : State) (x : Duty) : (s.setDuty x).meter = s.meter := rfl
@[simp] theorem State.setDuty_curves (s : State) (x : Duty) : (s.setDuty x).curves = s.curves := rfl
@[simp] theorem State.setDuty_site (s : State) (x : Duty) : (s.setDuty x).site = s.site := rfl
@[simp] theorem State.setDuty_acct (s : State) (x : Duty) : (s.setDuty x).acct = s.acct := rfl
@[simp] theorem State.setDuty_book (s : State) (x : Duty) : (s.setDuty x).book = s.book := rfl
@[simp] theorem State.setDuty_sched (s : State) (x : Duty) : (s.setDuty x).sched = s.sched := rfl
@[simp] theorem State.setDuty_settle (s : State) (x : Duty) : (s.setDuty x).settle = s.settle := rfl
@[simp] theorem State.setDuty_flow (s : State) (x : Duty) : (s.setDuty x).flow = s.flow := rfl
@[simp] theorem State.setDuty_duty (s : State) (x : Duty) : (s.setDuty x).duty = x := rfl
@[simp] theorem State.setDuty_dry (s : State) (x : Duty) : (s.setDuty x).dry = s.dry := rfl
@[simp] theorem State.setDuty_link (s : State) (x : Duty) : (s.setDuty x).link = s.link := rfl
@[simp] theorem State.setDuty_evq (s : State) (x : Duty) : (s.setDuty x).evq = s.evq := rfl
@[simp] theorem State.setDuty_sup (s : State) (x : Duty) : (s.setDuty x).sup = s.sup := rfl
@[simp] theorem State.setDuty_store (s : State) (x : Duty) : (s.setDuty x).store = s.store := rfl

/-! ### setDry -/

@[simp] theorem State.setDry_pending (s : State) (x : Drying) : (s.setDry x).pending = s.pending := rfl
@[simp] theorem State.setDry_world (s : State) (x : Drying) : (s.setDry x).world = s.world := rfl
@[simp] theorem State.setDry_elapsed (s : State) (x : Drying) : (s.setDry x).elapsed = s.elapsed := rfl
@[simp] theorem State.setDry_clock (s : State) (x : Drying) : (s.setDry x).clock = s.clock := rfl
@[simp] theorem State.setDry_meter (s : State) (x : Drying) : (s.setDry x).meter = s.meter := rfl
@[simp] theorem State.setDry_curves (s : State) (x : Drying) : (s.setDry x).curves = s.curves := rfl
@[simp] theorem State.setDry_site (s : State) (x : Drying) : (s.setDry x).site = s.site := rfl
@[simp] theorem State.setDry_acct (s : State) (x : Drying) : (s.setDry x).acct = s.acct := rfl
@[simp] theorem State.setDry_book (s : State) (x : Drying) : (s.setDry x).book = s.book := rfl
@[simp] theorem State.setDry_sched (s : State) (x : Drying) : (s.setDry x).sched = s.sched := rfl
@[simp] theorem State.setDry_settle (s : State) (x : Drying) : (s.setDry x).settle = s.settle := rfl
@[simp] theorem State.setDry_flow (s : State) (x : Drying) : (s.setDry x).flow = s.flow := rfl
@[simp] theorem State.setDry_duty (s : State) (x : Drying) : (s.setDry x).duty = s.duty := rfl
@[simp] theorem State.setDry_dry (s : State) (x : Drying) : (s.setDry x).dry = x := rfl
@[simp] theorem State.setDry_link (s : State) (x : Drying) : (s.setDry x).link = s.link := rfl
@[simp] theorem State.setDry_evq (s : State) (x : Drying) : (s.setDry x).evq = s.evq := rfl
@[simp] theorem State.setDry_sup (s : State) (x : Drying) : (s.setDry x).sup = s.sup := rfl
@[simp] theorem State.setDry_store (s : State) (x : Drying) : (s.setDry x).store = s.store := rfl

/-! ### setLink -/

@[simp] theorem State.setLink_pending (s : State) (x : Link) : (s.setLink x).pending = s.pending := rfl
@[simp] theorem State.setLink_world (s : State) (x : Link) : (s.setLink x).world = s.world := rfl
@[simp] theorem State.setLink_elapsed (s : State) (x : Link) : (s.setLink x).elapsed = s.elapsed := rfl
@[simp] theorem State.setLink_clock (s : State) (x : Link) : (s.setLink x).clock = s.clock := rfl
@[simp] theorem State.setLink_meter (s : State) (x : Link) : (s.setLink x).meter = s.meter := rfl
@[simp] theorem State.setLink_curves (s : State) (x : Link) : (s.setLink x).curves = s.curves := rfl
@[simp] theorem State.setLink_site (s : State) (x : Link) : (s.setLink x).site = s.site := rfl
@[simp] theorem State.setLink_acct (s : State) (x : Link) : (s.setLink x).acct = s.acct := rfl
@[simp] theorem State.setLink_book (s : State) (x : Link) : (s.setLink x).book = s.book := rfl
@[simp] theorem State.setLink_sched (s : State) (x : Link) : (s.setLink x).sched = s.sched := rfl
@[simp] theorem State.setLink_settle (s : State) (x : Link) : (s.setLink x).settle = s.settle := rfl
@[simp] theorem State.setLink_flow (s : State) (x : Link) : (s.setLink x).flow = s.flow := rfl
@[simp] theorem State.setLink_duty (s : State) (x : Link) : (s.setLink x).duty = s.duty := rfl
@[simp] theorem State.setLink_dry (s : State) (x : Link) : (s.setLink x).dry = s.dry := rfl
@[simp] theorem State.setLink_link (s : State) (x : Link) : (s.setLink x).link = x := rfl
@[simp] theorem State.setLink_evq (s : State) (x : Link) : (s.setLink x).evq = s.evq := rfl
@[simp] theorem State.setLink_sup (s : State) (x : Link) : (s.setLink x).sup = s.sup := rfl
@[simp] theorem State.setLink_store (s : State) (x : Link) : (s.setLink x).store = s.store := rfl

/-! ### setEvq -/

@[simp] theorem State.setEvq_pending (s : State) (x : EventQueue) : (s.setEvq x).pending = s.pending := rfl
@[simp] theorem State.setEvq_world (s : State) (x : EventQueue) : (s.setEvq x).world = s.world := rfl
@[simp] theorem State.setEvq_elapsed (s : State) (x : EventQueue) : (s.setEvq x).elapsed = s.elapsed := rfl
@[simp] theorem State.setEvq_clock (s : State) (x : EventQueue) : (s.setEvq x).clock = s.clock := rfl
@[simp] theorem State.setEvq_meter (s : State) (x : EventQueue) : (s.setEvq x).meter = s.meter := rfl
@[simp] theorem State.setEvq_curves (s : State) (x : EventQueue) : (s.setEvq x).curves = s.curves := rfl
@[simp] theorem State.setEvq_site (s : State) (x : EventQueue) : (s.setEvq x).site = s.site := rfl
@[simp] theorem State.setEvq_acct (s : State) (x : EventQueue) : (s.setEvq x).acct = s.acct := rfl
@[simp] theorem State.setEvq_book (s : State) (x : EventQueue) : (s.setEvq x).book = s.book := rfl
@[simp] theorem State.setEvq_sched (s : State) (x : EventQueue) : (s.setEvq x).sched = s.sched := rfl
@[simp] theorem State.setEvq_settle (s : State) (x : EventQueue) : (s.setEvq x).settle = s.settle := rfl
@[simp] theorem State.setEvq_flow (s : State) (x : EventQueue) : (s.setEvq x).flow = s.flow := rfl
@[simp] theorem State.setEvq_duty (s : State) (x : EventQueue) : (s.setEvq x).duty = s.duty := rfl
@[simp] theorem State.setEvq_dry (s : State) (x : EventQueue) : (s.setEvq x).dry = s.dry := rfl
@[simp] theorem State.setEvq_link (s : State) (x : EventQueue) : (s.setEvq x).link = s.link := rfl
@[simp] theorem State.setEvq_evq (s : State) (x : EventQueue) : (s.setEvq x).evq = x := rfl
@[simp] theorem State.setEvq_sup (s : State) (x : EventQueue) : (s.setEvq x).sup = s.sup := rfl
@[simp] theorem State.setEvq_store (s : State) (x : EventQueue) : (s.setEvq x).store = s.store := rfl

/-! ### setSup -/

@[simp] theorem State.setSup_pending (s : State) (x : Supervision) : (s.setSup x).pending = s.pending := rfl
@[simp] theorem State.setSup_world (s : State) (x : Supervision) : (s.setSup x).world = s.world := rfl
@[simp] theorem State.setSup_elapsed (s : State) (x : Supervision) : (s.setSup x).elapsed = s.elapsed := rfl
@[simp] theorem State.setSup_clock (s : State) (x : Supervision) : (s.setSup x).clock = s.clock := rfl
@[simp] theorem State.setSup_meter (s : State) (x : Supervision) : (s.setSup x).meter = s.meter := rfl
@[simp] theorem State.setSup_curves (s : State) (x : Supervision) : (s.setSup x).curves = s.curves := rfl
@[simp] theorem State.setSup_site (s : State) (x : Supervision) : (s.setSup x).site = s.site := rfl
@[simp] theorem State.setSup_acct (s : State) (x : Supervision) : (s.setSup x).acct = s.acct := rfl
@[simp] theorem State.setSup_book (s : State) (x : Supervision) : (s.setSup x).book = s.book := rfl
@[simp] theorem State.setSup_sched (s : State) (x : Supervision) : (s.setSup x).sched = s.sched := rfl
@[simp] theorem State.setSup_settle (s : State) (x : Supervision) : (s.setSup x).settle = s.settle := rfl
@[simp] theorem State.setSup_flow (s : State) (x : Supervision) : (s.setSup x).flow = s.flow := rfl
@[simp] theorem State.setSup_duty (s : State) (x : Supervision) : (s.setSup x).duty = s.duty := rfl
@[simp] theorem State.setSup_dry (s : State) (x : Supervision) : (s.setSup x).dry = s.dry := rfl
@[simp] theorem State.setSup_link (s : State) (x : Supervision) : (s.setSup x).link = s.link := rfl
@[simp] theorem State.setSup_evq (s : State) (x : Supervision) : (s.setSup x).evq = s.evq := rfl
@[simp] theorem State.setSup_sup (s : State) (x : Supervision) : (s.setSup x).sup = x := rfl
@[simp] theorem State.setSup_store (s : State) (x : Supervision) : (s.setSup x).store = s.store := rfl

/-! ### setStore -/

@[simp] theorem State.setStore_pending (s : State) (x : Store) : (s.setStore x).pending = s.pending := rfl
@[simp] theorem State.setStore_world (s : State) (x : Store) : (s.setStore x).world = s.world := rfl
@[simp] theorem State.setStore_elapsed (s : State) (x : Store) : (s.setStore x).elapsed = s.elapsed := rfl
@[simp] theorem State.setStore_clock (s : State) (x : Store) : (s.setStore x).clock = s.clock := rfl
@[simp] theorem State.setStore_meter (s : State) (x : Store) : (s.setStore x).meter = s.meter := rfl
@[simp] theorem State.setStore_curves (s : State) (x : Store) : (s.setStore x).curves = s.curves := rfl
@[simp] theorem State.setStore_site (s : State) (x : Store) : (s.setStore x).site = s.site := rfl
@[simp] theorem State.setStore_acct (s : State) (x : Store) : (s.setStore x).acct = s.acct := rfl
@[simp] theorem State.setStore_book (s : State) (x : Store) : (s.setStore x).book = s.book := rfl
@[simp] theorem State.setStore_sched (s : State) (x : Store) : (s.setStore x).sched = s.sched := rfl
@[simp] theorem State.setStore_settle (s : State) (x : Store) : (s.setStore x).settle = s.settle := rfl
@[simp] theorem State.setStore_flow (s : State) (x : Store) : (s.setStore x).flow = s.flow := rfl
@[simp] theorem State.setStore_duty (s : State) (x : Store) : (s.setStore x).duty = s.duty := rfl
@[simp] theorem State.setStore_dry (s : State) (x : Store) : (s.setStore x).dry = s.dry := rfl
@[simp] theorem State.setStore_link (s : State) (x : Store) : (s.setStore x).link = s.link := rfl
@[simp] theorem State.setStore_evq (s : State) (x : Store) : (s.setStore x).evq = s.evq := rfl
@[simp] theorem State.setStore_sup (s : State) (x : Store) : (s.setStore x).sup = s.sup := rfl
@[simp] theorem State.setStore_store (s : State) (x : Store) : (s.setStore x).store = x := rfl

end Sys2Proof.Machine
end

