-- ==== Sys2Proof/Laws/Shared.lean ====
section
/-! SUPPORT. What each shared operation can do, said once: vectors, events, the order the world takes, folds of
actions, answers to requests. -/

namespace Sys2Proof.Machine

/-! ### Vectors -/

@[simp] theorem mapVec_getElem {α β : Type} {n : Nat} (f : α → β) (v : Vector α n) (i : Nat) (h : i < n) :
    (mapVec f v)[i] = f v[i] := by
  simp [mapVec]

@[simp] theorem setVec_getElem_self {α : Type} {n : Nat} (v : Vector α n) (i : Fin n) (x : α) :
    (setVec v i x)[i.val] = x := by
  simp [setVec]

/-- A vector with an element replaced by itself is the same vector. -/
theorem setVec_self {α : Type} {n : Nat} (v : Vector α n) (i : Fin n) : setVec v i v[i] = v := by
  simp [setVec]

theorem setVec_getElem_ne {α : Type} {n : Nat} (v : Vector α n) (i : Fin n) (x : α) (j : Nat) (hj : j < n)
    (h : i.val ≠ j) : (setVec v i x)[j] = v[j] := by
  simp [setVec, h]

theorem setVec_getElem {α : Type} {n : Nat} (v : Vector α n) (i : Fin n) (x : α) (j : Nat) (hj : j < n) :
    (setVec v i x)[j] = if i.val = j then x else v[j] := by
  simp [setVec, Vector.getElem_set]

/-! ### Events: `raise` appends to the queue and leaves the rest -/

section
variable (k : EventKind) (a : Option Nat) (b : Option Int) (s : State)
@[simp] theorem raise_pending : (raise k a b s).pending = s.pending := rfl
@[simp] theorem raise_world : (raise k a b s).world = s.world := rfl
@[simp] theorem raise_elapsed : (raise k a b s).elapsed = s.elapsed := rfl
@[simp] theorem raise_clock : (raise k a b s).clock = s.clock := rfl
@[simp] theorem raise_meter : (raise k a b s).meter = s.meter := rfl
@[simp] theorem raise_curves : (raise k a b s).curves = s.curves := rfl
@[simp] theorem raise_site : (raise k a b s).site = s.site := rfl
@[simp] theorem raise_acct : (raise k a b s).acct = s.acct := rfl
@[simp] theorem raise_book : (raise k a b s).book = s.book := rfl
@[simp] theorem raise_sched : (raise k a b s).sched = s.sched := rfl
@[simp] theorem raise_settle : (raise k a b s).settle = s.settle := rfl
@[simp] theorem raise_flow : (raise k a b s).flow = s.flow := rfl
@[simp] theorem raise_duty : (raise k a b s).duty = s.duty := rfl
@[simp] theorem raise_dry : (raise k a b s).dry = s.dry := rfl
@[simp] theorem raise_link : (raise k a b s).link = s.link := rfl
@[simp] theorem raise_sup : (raise k a b s).sup = s.sup := rfl
@[simp] theorem raise_store : (raise k a b s).store = s.store := rfl
@[simp] theorem raise_evq : (raise k a b s).evq = s.evq.push (gasTime s) k a b := rfl
end

/-- An entry appended takes the next sequence number, and outside a gathered response the queue never grows past 64
entries. -/
theorem push_spec (q : EventQueue) (t : Option GasTime) (k : EventKind) (a : Option Nat) (b : Option Int)
    (h : q.entries.length ≤ 64) (hg : q.gathering = false) :
    (q.push t k a b).entries.length ≤ 64 ∧ (q.push t k a b).nextSeq = q.nextSeq + 1 ∧
      (q.push t k a b).entries.getLast? = some ⟨q.nextSeq, t, k, a, b⟩ := by
  unfold EventQueue.push
  by_cases hq : q.entries.length < 64
  · simp [hq]
  · simp [hq, hg]
    omega

@[simp] theorem push_gathering (q : EventQueue) (t : Option GasTime) (k : EventKind) (a : Option Nat) (b : Option Int) :
    (q.push t k a b).gathering = q.gathering := by
  unfold EventQueue.push
  split <;> rfl

/-- While a response is gathered no entry is lost. -/
theorem push_gathered (q : EventQueue) (t : Option GasTime) (k : EventKind) (a : Option Nat) (b : Option Int)
    (hg : q.gathering = true) : (q.push t k a b).entries = q.entries ++ [⟨q.nextSeq, t, k, a, b⟩] := by
  simp [EventQueue.push, hg]

/-! ### Folds of actions and the order the world takes -/

theorem foldl_preserves {α : Type} (P : State → Prop) (f : α → State → State) (l : List α)
    (hf : ∀ a ∈ l, ∀ s, P s → P (f a s)) : ∀ s, P s → P (l.foldl (fun t a => f a t) s) := by
  induction l with
  | nil => intro s h; exact h
  | cons a l ih =>
    intro s h
    exact ih (fun b hb => hf b (List.mem_cons_of_mem a hb)) _ (hf a List.mem_cons_self s h)

theorem inOrder_preserves (P : State → Prop) (fs : List (State → State)) (hf : ∀ f ∈ fs, ∀ s, P s → P (f s)) :
    ∀ s, P s → P (inOrder fs s) := by
  unfold inOrder
  exact foldl_preserves P (fun f t => f t) fs hf

theorem mem_insertEach {α : Type} {x : α} {l p : List α} (h : p ∈ insertEach x l) : ∀ y ∈ p, y = x ∨ y ∈ l := by
  induction l generalizing p with
  | nil =>
    intro y hy
    simp only [insertEach, List.mem_singleton] at h
    subst h
    exact Or.inl (by simpa using hy)
  | cons z zs ih =>
    intro y hy
    simp only [insertEach, List.mem_cons, List.mem_map] at h
    rcases h with rfl | ⟨q, hq, rfl⟩
    · simpa using hy
    · simp only [List.mem_cons] at hy
      rcases hy with rfl | hy
      · exact Or.inr List.mem_cons_self
      · rcases ih hq y hy with rfl | h'
        · exact Or.inl rfl
        · exact Or.inr (List.mem_cons_of_mem z h')

theorem mem_orders {α : Type} {l p : List α} (h : p ∈ orders l) : ∀ y ∈ p, y ∈ l := by
  induction l generalizing p with
  | nil =>
    simp only [orders, List.mem_singleton] at h
    subst h
    simp
  | cons x xs ih =>
    intro y hy
    simp only [orders, List.mem_flatMap] at h
    obtain ⟨q, hq, hp⟩ := h
    rcases mem_insertEach hp y hy with rfl | h'
    · exact List.mem_cons_self
    · exact List.mem_cons_of_mem x (ih hq y h')

/-- Whichever way the world takes: what every way keeps, and the world's counter cannot break, is kept. -/
theorem oneOf_preserves (P : State → Prop) (f : State → State) (gs : List (State → State)) (hf : ∀ s, P s → P (f s))
    (hg : ∀ g ∈ gs, ∀ s, P s → P (g s)) (hw : ∀ s n, P s → P (s.setWorld n)) (s : State) (h : P s) : P (oneOf f gs s) := by
  simp only [oneOf]
  split
  · exact hf s h
  · rw [List.getD_eq_getElem?_getD]
    cases hx : (f :: gs)[Config.worldOrder s.world % (f :: gs).length]? with
    | none => exact hf _ (hw s _ h)
    | some g =>
      rcases List.mem_cons.mp (List.mem_of_getElem? hx) with rfl | hm
      · exact hf _ (hw s _ h)
      · exact hg g hm _ (hw s _ h)

/-- Where every way leaves the same state, that state is the outcome. -/
theorem oneOf_agree (f : State → State) (gs : List (State → State)) (s : State) (h : ∀ g ∈ gs, g s = f s) :
    oneOf f gs s = f s := by
  have : gs.all (fun g => decide (g s = f s)) = true := by simpa using h
  simp only [oneOf, this, if_true]

/-- Whatever order the world takes: what every action keeps, and the world's counter cannot break, is kept. -/
theorem inAnyOrder_preserves (P : State → Prop) (fs : List (State → State)) (hf : ∀ f ∈ fs, ∀ s, P s → P (f s))
    (hw : ∀ s n, P s → P (s.setWorld n)) (s : State) (h : P s) : P (inAnyOrder fs s) := by
  unfold inAnyOrder
  split
  · exact h
  · exact hf _ (by simp) s h
  · refine oneOf_preserves P _ _ (inOrder_preserves P _ hf) (fun g hg => ?_) hw s h
    obtain ⟨p, hp, rfl⟩ := List.mem_map.mp hg
    exact inOrder_preserves P p (fun f hm => hf f (mem_orders hp f hm))

/-- Where every order leaves the same state, that state is the outcome. -/
theorem inAnyOrder_agree (fs : List (State → State)) (s : State)
    (h : ∀ p ∈ orders fs, inOrder p s = inOrder fs s) : inAnyOrder fs s = inOrder fs s := by
  unfold inAnyOrder
  split
  · rfl
  · rfl
  · refine oneOf_agree _ _ s (fun g hg => ?_)
    obtain ⟨p, hp, rfl⟩ := List.mem_map.mp hg
    exact h p hp

/-! ### The order of the events of different blocks -/

theorem find_eraseP_perm {α : Type} (p : α → Bool) (l : List α) : ((l.find? p).toList ++ l.eraseP p).Perm l := by
  induction l with
  | nil => simp
  | cons x l ih =>
    cases hx : p x with
    | true => simp [hx]
    | false =>
      simp only [List.find?_cons_of_neg (by simp [hx] : ¬p x = true), List.eraseP_cons_of_neg (by simp [hx] : ¬p x = true)]
      exact List.perm_middle.trans (List.Perm.cons x ih)

theorem find_eraseP_filter {α : Type} (p q : α → Bool) (l : List α) (h : ∀ x ∈ l, p x = true → ∀ y ∈ l, q x = true →
    q y = true → p y = true) : (((l.find? p).toList ++ l.eraseP p).filter q) = l.filter q := by
  induction l with
  | nil => simp
  | cons x l ih =>
    cases hx : p x with
    | true => simp [hx]
    | false =>
      have ih := ih (fun a ha hpa y hy => h a (List.mem_cons_of_mem x ha) hpa y (List.mem_cons_of_mem x hy))
      simp only [List.find?_cons_of_neg (by simp [hx] : ¬p x = true), List.eraseP_cons_of_neg (by simp [hx] : ¬p x = true)]
      cases hq : q x with
      | false =>
        simp only [List.filter_append, List.filter_cons, hq] at ih ⊢
        simpa using ih
      | true =>
        have hnone : (l.find? p).toList.filter q = [] := by
          cases hf : l.find? p with
          | none => rfl
          | some a =>
            have ha := List.mem_of_find?_eq_some hf
            have hpa := List.find?_some hf
            cases hqa : q a with
            | false => simp [hqa]
            | true =>
              have := h a (List.mem_cons_of_mem x ha) hpa x List.mem_cons_self hqa hq
              simp [hx] at this
        simp only [List.filter_append, hnone, List.nil_append] at ih
        simp only [List.filter_append, hnone, List.nil_append, List.filter_cons, hq, if_true, ih]

/-- An order the world takes holds the same events, those of each block in the order it raised them (R167). -/
theorem interleave_spec (fuel : Nat) (es : List Event) (n : Nat) :
    (interleave fuel es n).1.Perm es ∧
      ∀ b : EventSource, (interleave fuel es n).1.filter (fun e => e.kind.source == b)
        = es.filter (fun e => e.kind.source == b) := by
  induction fuel generalizing es n with
  | zero => exact ⟨List.Perm.refl _, fun _ => rfl⟩
  | succ fuel ih =>
    simp only [interleave]
    split
    · exact ⟨List.Perm.refl _, fun _ => rfl⟩
    · obtain ⟨h1, h2⟩ := ih (es.eraseP (fun e => (sourcesOf es)[Config.worldOrder n % (sourcesOf es).length]?
          == some e.kind.source)) (n + 1)
      refine ⟨(List.Perm.append_left _ h1).trans (find_eraseP_perm _ _), fun b => ?_⟩
      rw [List.filter_append, h2 b, ← List.filter_append]
      refine find_eraseP_filter _ _ _ ?_
      intro x _ hp y _ hx hy
      simp only [beq_iff_eq] at hp hx hy ⊢
      rw [hp, hx, hy]

/-- Events of one block are in order as they stand, and the world takes nothing. -/
theorem interleave_one (fuel : Nat) (es : List Event) (n : Nat) (h : (sourcesOf es).length ≤ 1) :
    interleave fuel es n = (es, n) := by
  cases fuel with
  | zero => rfl
  | succ fuel => simp [interleave, h]

section
variable (f : State → State) (s : State)

/-- A gathered response begins with no event and loses none. -/
abbrev State.gatheringEvents (s : State) : State := s.setEvq { s.evq with entries := [], gathering := true }

@[simp] theorem gathered_pending : (gathered f s).pending = (f s.gatheringEvents).pending := rfl
@[simp] theorem gathered_elapsed : (gathered f s).elapsed = (f s.gatheringEvents).elapsed := rfl
@[simp] theorem gathered_clock : (gathered f s).clock = (f s.gatheringEvents).clock := rfl
@[simp] theorem gathered_meter : (gathered f s).meter = (f s.gatheringEvents).meter := rfl
@[simp] theorem gathered_curves : (gathered f s).curves = (f s.gatheringEvents).curves := rfl
@[simp] theorem gathered_site : (gathered f s).site = (f s.gatheringEvents).site := rfl
@[simp] theorem gathered_acct : (gathered f s).acct = (f s.gatheringEvents).acct := rfl
@[simp] theorem gathered_book : (gathered f s).book = (f s.gatheringEvents).book := rfl
@[simp] theorem gathered_sched : (gathered f s).sched = (f s.gatheringEvents).sched := rfl
@[simp] theorem gathered_settle : (gathered f s).settle = (f s.gatheringEvents).settle := rfl
@[simp] theorem gathered_flow : (gathered f s).flow = (f s.gatheringEvents).flow := rfl
@[simp] theorem gathered_duty : (gathered f s).duty = (f s.gatheringEvents).duty := rfl
@[simp] theorem gathered_dry : (gathered f s).dry = (f s.gatheringEvents).dry := rfl
@[simp] theorem gathered_link : (gathered f s).link = (f s.gatheringEvents).link := rfl
@[simp] theorem gathered_sup : (gathered f s).sup = (f s.gatheringEvents).sup := rfl
@[simp] theorem gathered_store : (gathered f s).store = (f s.gatheringEvents).store := rfl

/-- What a gathered response does to the event queue: it appends the events it raised, in an order the world takes. -/
theorem gathered_evq : ∃ es : List Event, (gathered f s).evq = appendEvents es s.evq
    ∧ es.Perm (f s.gatheringEvents).evq.entries
    ∧ ∀ b : EventSource, es.filter (fun e => e.kind.source == b)
        = (f s.gatheringEvents).evq.entries.filter (fun e => e.kind.source == b) :=
  ⟨_, rfl, (interleave_spec _ _ _).1, (interleave_spec _ _ _).2⟩

/-- A gathered response keeps what the response keeps, where neither the queue nor the world's counter matters. -/
theorem gathered_preserves (P : State → Prop) (hf : ∀ t, P t → P (f t)) (he : ∀ t q, P t → P (t.setEvq q))
    (hw : ∀ t n, P t → P (t.setWorld n)) (h : P s) : P (gathered f s) :=
  hw _ _ (he _ _ (hf _ (he _ _ h)))
end

/-! ### Answers to requests -/

theorem firstFailure_none {l : List (Bool × Status)} : firstFailure l = none ↔ ∀ p ∈ l, p.1 = true := by
  induction l with
  | nil => simp [firstFailure]
  | cons p l ih =>
    obtain ⟨b, st⟩ := p
    cases b <;> simp [firstFailure, ih]

/-- A request whose checks all hold has its effect. -/
theorem checked_ok {l : List (Bool × Status)} (s : State) (e : Answer) (h : ∀ p ∈ l, p.1 = true) :
    checked l s e = e := by
  unfold checked
  rw [firstFailure_none.mpr h]

/-- A request either has its effect or is refused with the part as it was. -/
theorem checked_cases (l : List (Bool × Status)) (s : State) (e : Answer) :
    (checked l s e = e ∧ ∀ p ∈ l, p.1 = true) ∨ (∃ st, firstFailure l = some st ∧ checked l s e = refuse st s) := by
  unfold checked
  cases h : firstFailure l with
  | none => exact Or.inl ⟨rfl, firstFailure_none.mp h⟩
  | some st => exact Or.inr ⟨st, rfl, rfl⟩

section
variable (c t : Byte) (n : BitVec 4) (a : Answer)
@[simp] theorem reply_pending : (reply c t n a).pending = a.after.pending := rfl
@[simp] theorem reply_world : (reply c t n a).world = a.after.world := rfl
@[simp] theorem reply_elapsed : (reply c t n a).elapsed = a.after.elapsed := rfl
@[simp] theorem reply_clock : (reply c t n a).clock = a.after.clock := rfl
@[simp] theorem reply_meter : (reply c t n a).meter = a.after.meter := rfl
@[simp] theorem reply_curves : (reply c t n a).curves = a.after.curves := rfl
@[simp] theorem reply_site : (reply c t n a).site = a.after.site := rfl
@[simp] theorem reply_acct : (reply c t n a).acct = a.after.acct := rfl
@[simp] theorem reply_book : (reply c t n a).book = a.after.book := rfl
@[simp] theorem reply_sched : (reply c t n a).sched = a.after.sched := rfl
@[simp] theorem reply_settle : (reply c t n a).settle = a.after.settle := rfl
@[simp] theorem reply_flow : (reply c t n a).flow = a.after.flow := rfl
@[simp] theorem reply_duty : (reply c t n a).duty = a.after.duty := rfl
@[simp] theorem reply_dry : (reply c t n a).dry = a.after.dry := rfl
@[simp] theorem reply_evq : (reply c t n a).evq = a.after.evq := rfl
@[simp] theorem reply_sup : (reply c t n a).sup = a.after.sup := rfl
@[simp] theorem reply_store : (reply c t n a).store = a.after.store := rfl
@[simp] theorem reply_link : (reply c t n a).link =
    { a.after.link with reply := some ⟨c, t, a.status, linkByte n a.after, a.out⟩ } := rfl
end

/-- Outside the restore a request row is its request, answered. -/
theorem serve_eq (code : Byte) (r : State → Answer) (s : State) (h : restoring s = false) :
    serve code r s = reply code 0 s.link.counter (r s) := by
  simp [serve, unlessRestoring, h]

/-- While the restore is in progress a request row is answered BUSY. -/
theorem serve_restoring (code : Byte) (r : State → Answer) (s : State) (h : restoring s = true) :
    serve code r s = reply code 0 s.link.counter (refuse .busy s) := by
  simp [serve, unlessRestoring, h]

end Sys2Proof.Machine
end

