-- ==== Sys2Proof/Laws/Answers.lean ====
section
/-! SUPPORT. The words of Safety.lean over the shared operations: how a request row answers, what a run of raised
events does to the queue, what "changes only" composes to. -/

namespace Sys2Proof.Machine

/-! ### How a request row answers -/

/-- A request that outside the restore comes to an answer. -/
theorem serve_answer {code : Byte} {r : State → Answer} {s : State} {a : Answer} (h : restoring s = false)
    (ha : r s = a) : serve code r s = answeredWith code a.status a.out s a.after := by
  rw [serve_eq code r s h, ha]
  rfl

/-- A request that is taken. -/
theorem serve_taken {code : Byte} {r : State → Answer} {s t : State} {out : Block} (h : restoring s = false)
    (ha : r s = taken out t) : serve code r s = answeredWith code .ok out s t := serve_answer h ha

/-- A request that is refused. -/
theorem serve_refused {code : Byte} {r : State → Answer} {s : State} {st : Status} (h : restoring s = false)
    (ha : r s = refuse st s) : serve code r s = refusedWith code st s := serve_answer h ha

/-- During the restore. -/
theorem serve_busy {code : Byte} {r : State → Answer} {s : State} (h : restoring s = true) :
    serve code r s = refusedWith code .busy s := serve_restoring code r s h

/-- A request row that ends in an answer answers. -/
theorem answers_of_serve {c : Instr} {code : Byte} {r : State → Answer} {s : State} {a : Answer}
    (hc : exec c s = .next (serve code r s)) (h : restoring s = false) (ha : r s = a) :
    answers c code a.status a.out s a.after :=
  ⟨0, s.link.counter, by rw [hc, serve_answer h ha]; rfl⟩

/-- The first check that fails is the first that a search for one finds. -/
theorem firstFailure_eq_find (l : List (Bool × Status)) :
    firstFailure l = (l.find? (fun x => !x.1)).map (fun x => x.2) := by
  induction l with
  | nil => rfl
  | cons x l ih =>
    obtain ⟨b, st⟩ := x
    cases b <;> simp [firstFailure, ih]

/-- A request row keeps its checks where what it comes to is a refusal by the first failing check of its table, and is
taken where none fails. -/
theorem keepsItsChecks_of_serve {c : Instr} {code : Byte} {b : Block} {r : State → Answer} {s : State}
    (hc : c.request = some (code, b)) (he : exec c s = .next (serve code r s))
    (hr : ∀ st : Status, firstFailure (requestChecks s c) = some st → r s = refuse st s)
    (ht : firstFailure (requestChecks s c) = none → (r s).status = .ok) : keepsItsChecks c s := by
  intro code' b' hc' hs
  obtain ⟨rfl, rfl⟩ : code = code' ∧ b = b' := by simpa [hc] using hc'
  have hf := firstFailure_eq_find (requestChecks s c)
  cases h : (requestChecks s c).find? (fun x => !x.1) with
  | some x => simpa [he] using serve_refused hs (hr x.2 (by rw [hf, h]; rfl))
  | none =>
    have hok := ht (by rw [hf, h]; rfl)
    exact ⟨(r s).out, (r s).after, by rw [he, serve_answer hs rfl, hok]⟩

/-- Where the schedule stands and neither declared capacity falls, there is no recut to follow. -/
theorem recutFollows_of_stands {s t : State} (h : t.sched = s.sched) (hi : s.duty.declared ≤ t.duty.declared)
    (hw : s.dry.capacity ≤ t.dry.capacity) : recutFollows s t := by
  refine ⟨by rw [h], fun i r q hr hq hne => ?_, fun hf => ?_⟩
  · rw [h] at hq
    exact absurd (Option.some.inj (hq.symm.trans hr)) hne
  · rcases hf with hf | hf | hf
    · omega
    · omega
    · exact absurd h hf

/-! ### Events -/

theorem pushAll_nil (q : EventQueue) : q.pushAll [] = q := rfl

theorem pushAll_append (q : EventQueue) (l m : List Raised) : q.pushAll (l ++ m) = (q.pushAll l).pushAll m := by
  simp [EventQueue.pushAll]

/-- An event raised is one event appended. -/
theorem raise_eq (k : EventKind) (a : Option Nat) (b : Option Int) (s : State) :
    raise k a b s = s.setEvq (s.evq.pushAll [⟨gasTime s, k, a, b⟩]) := rfl

/-- What a run of events cannot break, queue by queue. -/
theorem pushAll_preserves (P : EventQueue → Prop) (hp : ∀ q t k a b, P q → P (q.push t k a b)) (q : EventQueue)
    (l : List Raised) (h : P q) : P (q.pushAll l) := by
  induction l generalizing q with
  | nil => exact h
  | cons r l ih => exact ih _ (hp q r.time r.kind r.subject r.value h)

/-- An event as it was raised. -/
def Event.raised (e : Event) : Raised := ⟨e.time, e.kind, e.subject, e.value⟩

/-- A run of gathered events is appended one after the other. -/
theorem appendEvents_eq (es : List Event) (q : EventQueue) : appendEvents es q = q.pushAll (es.map Event.raised) := by
  unfold appendEvents EventQueue.pushAll
  rw [List.foldl_map]
  rfl

/-- Events raised while a response is gathered all stand in the gathered queue, as they were raised. -/
theorem pushAll_gathered (q : EventQueue) (l : List Raised) (hg : q.gathering = true) :
    (q.pushAll l).entries.map Event.raised = q.entries.map Event.raised ++ l ∧ (q.pushAll l).gathering = true := by
  induction l generalizing q with
  | nil => simp [EventQueue.pushAll, hg]
  | cons r l ih =>
    have h := ih (q.push r.time r.kind r.subject r.value) (by rw [push_gathering, hg])
    refine ⟨?_, h.2⟩
    show List.map _ ((q.push r.time r.kind r.subject r.value).pushAll l).entries = _
    rw [h.1, push_gathered _ _ _ _ _ hg]
    simp [Event.raised]

/-- A gathered response that raises the events `l` appends them in an order the world takes, those of each block in the
order of `l` (R167). -/
theorem gathered_pushAll (f : State → State) (s : State) (l : List Raised)
    (h : (f s.gatheringEvents).evq = s.gatheringEvents.evq.pushAll l) :
    ∃ m : List Raised, (gathered f s).evq = s.evq.pushAll m ∧ m.Perm l
      ∧ ∀ b : EventSource, m.filter (fun r => r.kind.source == b) = l.filter (fun r => r.kind.source == b) := by
  obtain ⟨es, h1, h2, h3⟩ := gathered_evq f s
  have hl : (f s.gatheringEvents).evq.entries.map Event.raised = l := by
    rw [h, (pushAll_gathered _ l rfl).1]
    rfl
  refine ⟨es.map Event.raised, by rw [h1, appendEvents_eq], ?_, fun b => ?_⟩
  · rw [← hl]
    exact h2.map _
  · rw [← hl, List.filter_map, List.filter_map]
    exact congrArg _ (h3 b)

/-! ### What a command leaves alone -/

theorem Part.same_refl (s : State) (p : Part) : p.same s s := by cases p <;> rfl

theorem Part.same_trans {s t u : State} {p : Part} (h : p.same s t) (h' : p.same t u) : p.same s u := by
  cases p <;> exact Eq.trans h' h

theorem changesOnly_refl (s : State) (ps : List Part) : s.changesOnly ps s := fun p _ => Part.same_refl s p

theorem changesOnly_trans {s t u : State} {ps : List Part} (h : s.changesOnly ps t) (h' : t.changesOnly ps u) :
    s.changesOnly ps u := fun p hp => Part.same_trans (h p hp) (h' p hp)

theorem changesOnly_mono {s t : State} {ps qs : List Part} (h : s.changesOnly ps t) (hq : ∀ p ∈ ps, p ∈ qs) :
    s.changesOnly qs t := fun p hp => h p (fun hm => hp (hq p hm))

/-- The way the world takes changes what that way changes, and the world's counter. -/
theorem oneOf_changesOnly (f : State → State) (gs : List (State → State)) (ps : List Part) (hw : Part.world ∈ ps) (s : State)
    (hf : ∀ g ∈ f :: gs, ∀ t : State, t.changesOnly ps (g t)) : s.changesOnly ps (oneOf f gs s) := by
  refine oneOf_preserves (fun t => s.changesOnly ps t) f gs
    (fun t ht => changesOnly_trans ht (hf f List.mem_cons_self t))
    (fun g hm t ht => changesOnly_trans ht (hf g (List.mem_cons_of_mem f hm) t))
    (fun t n ht => changesOnly_trans ht ?_) s (changesOnly_refl s ps)
  intro p hp
  cases p <;> first | rfl | exact absurd hw hp

/-- Actions in an order the world takes change what each of them changes, and the world's counter. -/
theorem inAnyOrder_changesOnly (fs : List (State → State)) (ps : List Part) (hw : Part.world ∈ ps) (s : State)
    (hf : ∀ f ∈ fs, ∀ t : State, t.changesOnly ps (f t)) : s.changesOnly ps (inAnyOrder fs s) := by
  refine inAnyOrder_preserves (fun t => s.changesOnly ps t) fs (fun f hm t ht => changesOnly_trans ht (hf f hm t))
    (fun t n ht => changesOnly_trans ht ?_) s (changesOnly_refl s ps)
  intro p hp
  cases p <;> first | rfl | exact absurd hw hp


/-- A gathered response changes what the response changes, the event queue, and the world's counter. -/
theorem gathered_changesOnly (f : State → State) (ps : List Part) (hw : Part.world ∈ ps) (he : Part.evq ∈ ps) (s : State)
    (hf : ∀ t : State, t.changesOnly ps (f t)) : s.changesOnly ps (gathered f s) := by
  refine gathered_preserves f s (fun t => s.changesOnly ps t) (fun t ht => changesOnly_trans ht (hf t))
    (fun t q ht => changesOnly_trans ht ?_) (fun t n ht => changesOnly_trans ht ?_) (changesOnly_refl s ps)
  · intro p hp
    cases p <;> first | rfl | exact absurd he hp
  · intro p hp
    cases p <;> first | rfl | exact absurd hw hp

end Sys2Proof.Machine
end

