-- ==== Sys2Proof/Laws/Buffer.lean ====
section
/-! SUPPORT. The load buffer's bytes: a read after a write, the canonical form that every write keeps, and the words
read from the buffer. -/

namespace Sys2Proof.Machine

/-- A byte written is read back. -/
theorem readByte_writeByte_self (a : Nat) (x : Byte) (m : List Host.Cell) (low top : Nat)
    (h : cellsWf low top m = true) : readByte a (writeByte a x m) = x := by
  induction m generalizing low with
  | nil => by_cases hx : x = 0#8 <;> simp [writeByte, readByte, hx]
  | cons c rest ih =>
    obtain ⟨b, y⟩ := c
    simp only [cellsWf, Bool.and_eq_true, decide_eq_true_eq] at h
    obtain ⟨⟨⟨_, _⟩, _⟩, hrest⟩ := h
    have habsent : ∀ (l : List Host.Cell) (k : Nat), a < k → cellsWf k top l = true → readByte a l = 0 := by
      intro l
      induction l with
      | nil => intros; rfl
      | cons d l ih' =>
        intro k hk hl
        obtain ⟨e, z⟩ := d
        simp only [cellsWf, Bool.and_eq_true, decide_eq_true_eq] at hl
        obtain ⟨⟨⟨hke, _⟩, _⟩, hl'⟩ := hl
        have : ¬ e = a := by omega
        simp only [readByte, this, if_false]
        exact ih' (e + 1) (by omega) hl'
    unfold writeByte
    by_cases hab : a < b
    · by_cases hx : x = 0#8
      · have hne : ¬ b = a := by omega
        simp only [BitVec.ofNat_eq_ofNat, hab, hx, if_true, readByte, hne, if_false]
        exact habsent rest (b + 1) (by omega) hrest
      · simp [hab, hx, readByte]
    · by_cases hab' : a = b
      · subst hab'
        by_cases hx : x = 0#8
        · simp only [BitVec.ofNat_eq_ofNat, Nat.lt_irrefl, if_false, if_true, hx]
          exact habsent rest (a + 1) (by omega) hrest
        · simp [hx, readByte]
      · have hne : ¬ b = a := fun h => hab' h.symm
        simp only [hab, hab', if_false, readByte, hne]
        exact ih (b + 1) hrest

/-- A write leaves every other byte. -/
theorem readByte_writeByte_ne (a b : Nat) (x : Byte) (m : List Host.Cell) (h : b ≠ a) :
    readByte b (writeByte a x m) = readByte b m := by
  induction m with
  | nil =>
    by_cases hx : x = 0#8
    · simp [writeByte, hx]
    · simp [writeByte, hx, readByte, h.symm]
  | cons c rest ih =>
    obtain ⟨d, y⟩ := c
    unfold writeByte
    by_cases had : a < d
    · by_cases hx : x = 0#8
      · simp [had, hx]
      · simp [had, hx, readByte, h.symm]
    · by_cases had' : a = d
      · subst had'
        by_cases hx : x = 0#8
        · simp [hx, readByte, h.symm]
        · simp [hx, readByte, h.symm]
      · simp only [had, had', if_false, readByte]
        by_cases hd : d = b
        · simp [hd]
        · simp [hd, ih]

/-- A write keeps the canonical form. -/
theorem writeByte_wf (a : Nat) (x : Byte) (m : List Host.Cell) (low top : Nat) (hl : low ≤ a) (ht : a < top)
    (h : cellsWf low top m = true) : cellsWf low top (writeByte a x m) = true := by
  induction m generalizing low with
  | nil => by_cases hx : x = 0#8 <;> simp [writeByte, cellsWf, hx, hl, ht]
  | cons c rest ih =>
    obtain ⟨b, y⟩ := c
    simp only [cellsWf, Bool.and_eq_true, decide_eq_true_eq] at h
    obtain ⟨⟨⟨hlb, hbt⟩, hy⟩, hrest⟩ := h
    unfold writeByte
    by_cases hab : a < b
    · by_cases hx : x = 0#8
      · simp_all [cellsWf]
      · have hle : a + 1 ≤ b := hab
        simp_all [cellsWf]
    · by_cases hab' : a = b
      · subst hab'
        by_cases hx : x = 0#8
        · have hmono : ∀ (l : List Host.Cell) (k j : Nat), j ≤ k → cellsWf k top l = true → cellsWf j top l = true := by
            intro l
            cases l with
            | nil => intros; rfl
            | cons d l =>
              intro k j hjk hd
              obtain ⟨e, z⟩ := d
              simp only [cellsWf, Bool.and_eq_true, decide_eq_true_eq] at hd ⊢
              exact ⟨⟨⟨by omega, hd.1.1.2⟩, hd.1.2⟩, hd.2⟩
          simp only [BitVec.ofNat_eq_ofNat, Nat.lt_irrefl, if_false, if_true, hx]
          exact hmono rest (a + 1) low (by omega) hrest
        · simp [hx, cellsWf, hl, ht, hrest]
      · have hba : b + 1 ≤ a := by omega
        simp only [hab, hab', if_false, cellsWf, Bool.and_eq_true, decide_eq_true_eq]
        exact ⟨⟨⟨hlb, hbt⟩, hy⟩, ih (b + 1) hba hrest⟩

/-- A word written inside the image keeps the canonical form. -/
theorem writeWord_wf (i : Nat) (w : Word) (m : List Host.Cell) (hi : i < 12288) (h : bufferWf m = true) :
    bufferWf (writeWord i w m) = true := by
  unfold bufferWf writeWord at *
  exact writeByte_wf _ _ _ 0 imageBytes (by omega) (by unfold imageBytes; omega)
    (writeByte_wf _ _ _ 0 imageBytes (by omega) (by unfold imageBytes; omega) h)

/-- A run of words written inside the image keeps the canonical form. -/
theorem writeWords_wf (i : Nat) (ws : List Word) (m : List Host.Cell) (hi : i + ws.length ≤ 12288)
    (h : bufferWf m = true) : bufferWf (writeWords i ws m) = true := by
  induction ws generalizing i m with
  | nil => exact h
  | cons w ws ih =>
    simp only [List.length_cons] at hi
    exact ih (i + 1) _ (by omega) (writeWord_wf i w m (by omega) h)

/-- A word is its two bytes. -/
theorem word_of_bytes (w : Word) : (w.extractLsb' 8 8).append (w.extractLsb' 0 8) = w := by
  apply BitVec.eq_of_getLsbD_eq
  intro i hi
  change (w.extractLsb' 8 8 ++ w.extractLsb' 0 8).getLsbD i = _
  simp only [BitVec.getLsbD_append, BitVec.getLsbD_extractLsb']
  by_cases h : i < 8
  · simp [h]
  · have : i - 8 < 8 := by omega
    have h8 : 8 + (i - 8) = i := by omega
    simp [h, this, h8]

/-- A word written is read back. -/
theorem readWord_writeWord_self (i : Nat) (w : Word) (m : List Host.Cell) (hi : i < 12288) (h : bufferWf m = true) :
    readWord i (writeWord i w m) = w := by
  have h1 : cellsWf 0 imageBytes (writeByte (2 * i) (w.extractLsb' 8 8) m) = true :=
    writeByte_wf _ _ _ 0 imageBytes (by omega) (by unfold imageBytes; omega) h
  unfold readWord writeWord
  rw [readByte_writeByte_self _ _ _ _ _ h1, readByte_writeByte_ne _ _ _ _ (by omega),
    readByte_writeByte_self _ _ _ _ _ h, word_of_bytes]

/-- A word written leaves every other word. -/
theorem readWord_writeWord_ne (i j : Nat) (w : Word) (m : List Host.Cell) (h : j ≠ i) :
    readWord j (writeWord i w m) = readWord j m := by
  unfold readWord writeWord
  rw [readByte_writeByte_ne _ _ _ _ (by omega), readByte_writeByte_ne _ _ _ _ (by omega),
    readByte_writeByte_ne _ _ _ _ (by omega), readByte_writeByte_ne _ _ _ _ (by omega)]

/-- A run of words written leaves the words before and after it. -/
theorem readWord_writeWords_ne (i j : Nat) (ws : List Word) (m : List Host.Cell) (h : j < i ∨ i + ws.length ≤ j) :
    readWord j (writeWords i ws m) = readWord j m := by
  induction ws generalizing i m with
  | nil => rfl
  | cons w ws ih =>
    simp only [List.length_cons] at h
    rw [writeWords, ih (i + 1) _ (by omega), readWord_writeWord_ne _ _ _ _ (by omega)]

/-- A run of words written is read back. -/
theorem readWord_writeWords (i k : Nat) (ws : List Word) (m : List Host.Cell) (hi : i + ws.length ≤ 12288)
    (hk : k < ws.length) (h : bufferWf m = true) : readWord (i + k) (writeWords i ws m) = ws[k] := by
  induction ws generalizing i k m with
  | nil => simp at hk
  | cons w ws ih =>
    simp only [List.length_cons] at hi hk
    have hw : bufferWf (writeWord i w m) = true := writeWord_wf i w m (by omega) h
    cases k with
    | zero =>
      rw [writeWords, readWord_writeWords_ne _ _ _ _ (by omega)]
      exact readWord_writeWord_self i w m (by omega) h
    | succ k =>
      have := ih (i + 1) k (writeWord i w m) (by omega) (by omega) hw
      rw [writeWords, show i + (k + 1) = i + 1 + k by omega, this]
      rfl

/-- Below the first cell every byte reads 0. -/
theorem readByte_below (a low top : Nat) (m : List Host.Cell) (ha : a < low) (h : cellsWf low top m = true) :
    readByte a m = 0 := by
  induction m generalizing low with
  | nil => rfl
  | cons c rest ih =>
    obtain ⟨b, x⟩ := c
    simp only [cellsWf, Bool.and_eq_true, decide_eq_true_eq] at h
    have hne : ¬ b = a := by omega
    simp only [readByte, hne, if_false]
    exact ih (b + 1) (by omega) h.2

/-- The bytes taken from a canonical buffer are the bytes it reads. -/
theorem bytesFrom_eq (a n top : Nat) (m : List Host.Cell) (h : cellsWf a top m = true) :
    bytesFrom a n m = (List.range' a n).map (fun j => readByte j m) := by
  induction n generalizing a m with
  | zero => simp [bytesFrom]
  | succ n ih =>
    cases m with
    | nil =>
      rw [bytesFrom, ih (a + 1) [] rfl]
      simp [List.range'_succ, readByte]
    | cons c rest =>
      obtain ⟨b, x⟩ := c
      simp only [cellsWf, Bool.and_eq_true, decide_eq_true_eq] at h
      obtain ⟨⟨⟨hab, hbt⟩, hx⟩, hrest⟩ := h
      rw [bytesFrom, List.range'_succ, List.map_cons]
      by_cases hb : b = a
      · subst hb
        simp only [if_true, readByte]
        rw [ih (b + 1) rest hrest]
        congr 1
        apply List.map_congr_left
        intro j hj
        have : ¬ b = j := by
          have := List.mem_range'_1.mp hj
          omega
        simp [this]
      · have hw : cellsWf (a + 1) top ((b, x) :: rest) = true := by
          simp only [cellsWf, Bool.and_eq_true, decide_eq_true_eq]
          exact ⟨⟨⟨by omega, hbt⟩, hx⟩, hrest⟩
        simp only [hb, if_false]
        rw [ih (a + 1) _ hw]
        congr 1
        simp only [readByte, hb, if_false]
        exact (readByte_below a (b + 1) top rest (by omega) hrest).symm

/-- Bytes taken two by two. -/
theorem wordsOf_range (a n : Nat) (m : List Host.Cell) :
    wordsOf ((List.range' (2 * a) (2 * n)).map (fun j => readByte j m))
      = (List.range' a n).map (fun i => readWord i m) := by
  induction n generalizing a with
  | zero => rfl
  | succ n ih =>
    rw [show 2 * (n + 1) = 2 * n + 1 + 1 by omega, List.range'_succ, List.range'_succ, List.range'_succ]
    simp only [List.map_cons, wordsOf]
    rw [show 2 * a + 1 + 1 = 2 * (a + 1) by omega, ih (a + 1)]
    rfl

/-- The words of a canonical buffer are the words it reads. -/
theorem bufferWords_eq (m : List Host.Cell) (h : bufferWf m = true) :
    bufferWords m = (List.range' 0 12288).map (fun i => readWord i m) := by
  unfold bufferWords
  rw [bytesFrom_eq 0 imageBytes imageBytes m h, show imageBytes = 2 * 12288 from rfl]
  exact wordsOf_range 0 12288 m

/-- Words written over the whole buffer are its words. -/
theorem bufferWords_writeWords (ws : List Word) (m : List Host.Cell) (hl : ws.length = 12288) (h : bufferWf m = true) :
    bufferWords (writeWords 0 ws m) = ws := by
  rw [bufferWords_eq _ (writeWords_wf 0 ws m (by omega) h)]
  apply List.ext_getElem
  · simp [hl]
  · intro k h1 h2
    have := readWord_writeWords 0 k ws m (by omega) h2 h
    simp only [Nat.zero_add] at this
    simp [this]

/-- The words of an image before its CRC. -/
theorem imageBody_length (n : BitVec 32) (m : Image) : (imageBody n m).length = 12287 := by
  unfold imageBody padTo
  rw [List.length_take, List.length_append, List.length_replicate]
  omega

/-- The empty buffer, as it stands at reset, has the canonical form. -/
theorem bufferWf_reset : bufferWf State.reset.store.buffer = true := rfl

end Sys2Proof.Machine
end

