-- ==== Sys2Proof/Laws/Responses.lean ====
section
/-! SUPPORT. What a response that hands a capacity on keeps, whatever order the world takes, and what putting a run of
records in schedule order leaves. -/

namespace Sys2Proof.Machine

/-! ### Capacities handed on (R115, R142) -/

/-- What the new figure, the recut, the step cut and the shares keep, the whole response keeps. -/
theorem handWithdrawal_preserves (P : State → Prop) (s : State)
    (hrecut : ∀ t, P t → P (recut t)) (hcut : ∀ c t, P t → P (receiveWdr c t))
    (hshare : ∀ t, P t → P (reshare t)) (hworld : ∀ t n, P t → P (t.setWorld n))
    (h : P (s.setDry { s.dry with capacity := withdrawalCapacity s })) : P (handWithdrawal s) := by
  unfold handWithdrawal
  refine hshare _ (inAnyOrder_preserves P _ ?_ hworld _ h)
  intro f hf
  simp only [List.mem_append] at hf
  rcases hf with hf | hf
  · split at hf
    · simp only [List.mem_singleton] at hf
      subst hf
      exact hrecut
    · simp at hf
  · split at hf
    · simp at hf
    · simp only [List.mem_singleton] at hf
      subst hf
      exact hcut _

/-- What the new figures, the recut and the step cut keep, the whole response keeps. -/
theorem handInjection_preserves (P : State → Prop) (s : State)
    (hrecut : ∀ t, P t → P (recut t)) (hcut : ∀ c t, P t → P (receiveInj c t))
    (hworld : ∀ t n, P t → P (t.setWorld n))
    (h : P (s.setDuty { s.duty with declared := declaredInjection s, ready := readyInjection s })) :
    P (handInjection s) := by
  unfold handInjection
  refine inAnyOrder_preserves P _ ?_ hworld _ h
  intro f hf
  simp only [List.mem_append] at hf
  rcases hf with hf | hf
  · split at hf
    · simp only [List.mem_singleton] at hf
      subst hf
      exact hrecut
    · simp at hf
  · split at hf
    · simp at hf
    · simp only [List.mem_singleton] at hf
      subst hf
      exact hcut _

/-! ### The schedule's order (R50) -/

theorem insertByRank_perm (r : SchedRec) (rs : List SchedRec) : (insertByRank r rs).Perm (r :: rs) := by
  induction rs with
  | nil => exact List.Perm.refl _
  | cons q qs ih =>
    simp only [insertByRank]
    split
    · exact List.Perm.refl _
    · exact (List.Perm.cons q ih).trans (List.Perm.swap r q qs)

theorem insertByRank_sorted (r : SchedRec) (rs : List SchedRec) (h : rs.Pairwise (fun a b => a.rank ≤ b.rank)) :
    (insertByRank r rs).Pairwise (fun a b => a.rank ≤ b.rank) := by
  induction rs with
  | nil => simp [insertByRank]
  | cons q qs ih =>
    have hq := List.pairwise_cons.mp h
    simp only [insertByRank]
    split
    · next hle =>
      refine List.pairwise_cons.mpr ⟨fun x hx => ?_, h⟩
      rcases List.mem_cons.mp hx with rfl | hx
      · exact hle
      · exact Nat.le_trans hle (hq.1 x hx)
    · next hgt =>
      refine List.pairwise_cons.mpr ⟨fun x hx => ?_, ih hq.2⟩
      rcases List.mem_cons.mp ((insertByRank_perm r qs).mem_iff.mp hx) with rfl | hx
      · exact Nat.le_of_lt (Nat.lt_of_not_le hgt)
      · exact hq.1 x hx

/-- A run put in schedule order holds the same records, in order. -/
theorem orderedSchedule_spec (rs : List SchedRec) :
    (orderedSchedule rs).Perm rs ∧ (orderedSchedule rs).Pairwise (fun a b => a.rank ≤ b.rank) := by
  induction rs with
  | nil => exact ⟨List.Perm.refl _, List.Pairwise.nil⟩
  | cons r rs ih =>
    exact ⟨(insertByRank_perm r _).trans (List.Perm.cons r ih.1), insertByRank_sorted r _ ih.2⟩

end Sys2Proof.Machine
end

