-- ==== Sys2Proof/Laws/Store.lean ====
section
/-! SUPPORT. The copies of the account store: what each holds, what a failed restore leaves, and the words of a copy that is
not whole. -/

namespace Sys2Proof.Machine

@[simp] theorem Copy.written_whole (n : BitVec 32) (m : Image) : (Copy.whole n m).written = some (n, m) := rfl
@[simp] theorem Copy.written_failed (n : BitVec 32) (m : Image) (d : Nat) : (Copy.failed n m d).written = some (n, m) := rfl
@[simp] theorem Copy.written_notWhole : Copy.notWhole.written = none := rfl

/-- What a failed restore does to the store: a whole marked copy fails, under the counter of the world's choices; any other
copy stays, and then nothing changes. -/
theorem failMarked_cases (s : State) :
    (∃ (n : BitVec 32) (m : Image), s.store.copies[s.store.mark] = .whole n m
      ∧ failMarked s = (s.setStore { s.store with
          copies := setVec s.store.copies s.store.mark (.failed n m s.world) }).setWorld (s.world + 1))
    ∨ ((∀ (n : BitVec 32) (m : Image), s.store.copies[s.store.mark] ≠ .whole n m) ∧ failMarked s = s) := by
  unfold failMarked
  split
  · exact .inl ⟨_, _, ‹_›, rfl⟩
  · exact .inr ⟨by assumption, rfl⟩

@[simp] theorem failingWords_length (word : Nat → Word) : (failingWords word).length = 12288 := by
  simp [failingWords]

/-- The words of a copy that is not whole fail the check. -/
theorem failingWords_crc (word : Nat → Word) : crcHolds (failingWords word) = false := by
  have hl : ((List.range 12287).map word).length = 12287 := by simp
  have hx (x : Word) : x ^^^ 1 ≠ x := by
    intro h
    have := congrArg (fun y => x ^^^ y) h
    simp at this
  simp only [crcHolds, failingWords]
  rw [List.take_append_of_le_length (by simp), List.take_of_length_le (by simp),
    List.getD_append_right _ _ _ _ (by simp), hl]
  simp only [Nat.sub_self, List.getD_cons_zero, beq_eq_false_iff_ne]
  split
  · rename_i h
    rw [h]
    exact fun e => hx _ e.symm
  · rename_i h
    exact fun e => h e.symm

end Sys2Proof.Machine
end

