-- ==== Sys2Proof/Tests/Slice0.lean ====
section
/-! SUPPORT. Tests: the smoke test of well-formedness, the spec's worked figures, and for every statement with
hypotheses a concrete state and operands that meet them. -/

namespace Sys2Proof.Tests

open Sys2Proof.Machine

/-! ### Well-formedness refuses each ill-formed command -/

theorem test_wf_block_too_long : (Instr.clockRead (List.replicate 65 0)).wf = false := by decide
theorem test_wf_block_of_64 : (Instr.clockRead (List.replicate 64 0)).wf = true := by decide
theorem test_wf_suspend_with_resume_action : (Instr.accountSuspend [7, 1]).wf = false := by decide
theorem test_wf_resume_with_suspend_action : (Instr.accountResume [7, 0]).wf = false := by decide
theorem test_wf_disable_with_enable_action : (Instr.unitDisable [0, 1]).wf = false := by decide
theorem test_wf_enable_with_disable_action : (Instr.unitEnable [0, 0]).wf = false := by decide
theorem test_wf_service_out_with_in_action : (Instr.trainServiceOut [0, 1]).wf = false := by decide
theorem test_wf_service_in_with_out_action : (Instr.trainServiceIn [0, 0]).wf = false := by decide
theorem test_wf_no_bytes : (Instr.frameReceived []).wf = false := by decide
set_option maxRecDepth 20000 in
theorem test_wf_too_many_bytes : (Instr.frameReceived (List.replicate 135 0)).wf = false := by decide
theorem test_wf_abandoning_length :
    (Instr.frameAbandoned (.length 64)).wf = false ∧ (Instr.frameAbandoned (.length 65)).wf = true := by decide

/-! ### The words of the table: no row has bits -/

theorem test_no_word_spells_a_command : decodeTableWord 16 0x10 = none := rfl

/-! ### Small states -/

/-- After a restore of the default image. -/
def ready : State := State.reset.setStore { State.reset.store with phase := .idle }

/-- In gas hour 10, 100 s into it. -/
def running : State := ready.setClock ⟨.running, 10, 100, 3600, 0, 9⟩

/-- In FALLBACK. -/
def fallen : State := ready.setSup { ready.sup with linkMode := .fallback }

/-- In UNRESTORED mode. -/
def unrestoredPart : State := ready.setStore { ready.store with unrestored := true }

/-- With the settlement of hour 9 in flight. -/
def settlingPart : State := running.setSettle { running.settle with inFlight := some ⟨9, 500, 1, 2, []⟩ }

/-- With a commit in flight. -/
def committingPart : State := ready.setStore { ready.store with phase := .committing 1 Image.default }

/-- Shipper 7 in slot 0, shipper 8 in slot 1, in gas hour 10; the SBA balances them. -/
def acme : Account := ⟨7, .opened, 500, 1000, 5000, 5000, none, none, true, false⟩
def bolt : Account := ⟨8, .opened, 100, 1000, 5000, 5000, none, none, false, false⟩
def trading : State := running.setAcct { running.acct with
  slots := setVec (setVec running.acct.slots 0 (some acme)) 1 (some bolt), sba := -600 }

/-- The book holds an entry of shipper 7 for the hours 13 to 17, and the hours to 12 are confirmed. -/
def entry : Entry := ⟨3, 0, 7, .inject, .firm, 13, 17, 13, 400⟩
def booked : State := trading.setBook { trading.book with entries := [entry], nextArrival := 4, confirmedThrough := 12 }

/-- Unit 0 configured and in a state, with curve 0 written. -/
def unitIn (st : UnitState) (timer loadedFor : Nat) : State :=
  (ready.setCurves (setVec ready.curves 0 [⟨0, 100⟩, ⟨1000, 900⟩])).setDuty { ready.duty with
    units := setVec ready.duty.units 0 { CUnit.unconfigured with
      configured := true, cfg := ⟨1000, some 0, true, true, 3⟩, state := st, phaseTimer := timer
      loadedSeconds := loadedFor, startAges := [3599] } }

/-- Train A configured and in a state, with curve 1 written. -/
def trainIn (st : TrainState) (x : Train) : State :=
  (ready.setCurves (setVec ready.curves 1 [⟨0, 900⟩, ⟨600, 300⟩])).setDry { ready.dry with
    trains := setVec ready.dry.trains 0 { x with
      configured := true, cfg := ⟨1000, 500, some 1, 900, 600, 600, 7, 0, -80, -120, 120, 300, 180⟩, state := st } }

/-- The field of a next state. -/
def after {α : Type} (o : Host.Outcome State Fault Refusal) (f : State → α) : Option α :=
  match o with
  | .next t => some (f t)
  | _ => none

/-- The status and the block of the reply built last. -/
def answer (s : State) : Option (Status × Block) := s.link.reply.map (fun r => (r.status, r.block))

/-! ### The spec's worked figures -/

set_option maxRecDepth 20000 in
/-- Section 8.2. -/
theorem test_crc : crc [49, 50, 51, 52, 53, 54, 55, 56, 57] = 0x29B1#16 := by decide

/-- Section 1.4.1. -/
theorem test_divider : divide 1501 [.start 0 60000 (some 60000), .start 1 30000 (some 30000)] = ⟨[1001, 500], 0⟩ := by decide

/-- Section 1.4.2. -/
theorem test_divider_caps :
    divide 50000 [.start 0 40000 (some 12000), .start 1 25000 (some 25000), .start 2 10000 (some 10000)]
      = ⟨[12000, 25000, 10000], 3000⟩ := by decide

/-- Section 1.3.1. -/
theorem test_curve_falling : evalCurve [⟨0, 1100⟩, ⟨250, 900⟩, ⟨600, 650⟩] 337 = 837 := by decide
theorem test_curve_rising : evalCurve [⟨0, 300⟩, ⟨200, 600⟩, ⟨600, 1000⟩, ⟨1000, 1000⟩] 137 = 505 := by decide

/-- Section 4.10: deviation and consumption. -/
theorem test_deviation : deviate [60000, 30000, -10000] (-2501) 1000 = ⟨-1000, 0, [58999, 29500, -10000]⟩ := by decide
/-- An excess opposed to the net beyond its side's reach, and one with no side to bear it (R78, R79). -/
theorem test_deviation_uncovered : deviate [50, -20] (-100) 10 = ⟨-10, -40, [0, -20]⟩
    ∧ deviate [30, -30, 0] 25 5 = ⟨5, 0, [50, -30, 0]⟩ ∧ deviate [0, 0] 25 5 = ⟨5, 20, [0, 0]⟩ := by decide
theorem test_consumption : consume [60000, 30000, -10000] 1200 0 = ⟨[800, 400, 0], 0, 0⟩ := by decide

/-- Section 1.1.7: the first and the second request. -/
theorem test_trim_taken :
    after (exec (.clockTrim (outI (-40))) (running.setClock ⟨.running, 10, 1000, 3600, 0, 9⟩)) answer
      = some (some (.ok, [3560, 2560])) := by decide
theorem test_trim_used_up :
    after (exec (.clockTrim (outI (-30))) (running.setClock ⟨.running, 10, 2000, 3560, -40, 9⟩)) answer
      = some (some (.range, [])) := by decide

/-- Section 1.2.4, reports 1 and 4. -/
def metered : State := (ready.setSite { ready.site with injRight := 600000, wdrRight := 900000 }).setMeter
  ⟨⟨9999995000, 4210000, true⟩, ⟨0, 0, false⟩, some 0, 12000, 0, 0, false⟩
theorem test_meter_wrap : (takeReading 3000 4210000 (metered.setElapsed 10)).meter.bucket = 20000 := by decide
theorem test_meter_rebase :
    (takeReading 2700 4210000 ((metered.setMeter { metered.meter with
      base := ⟨3000, 4210000, true⟩, refusals := 2 }).setElapsed 30)).meter.base.forward = 2700 := by decide

/-- Section 9.1: the expiry at 442 s. -/
theorem test_supervision_expiry :
    after (exec .supervisionTimerSecond (ready.setSup ⟨3, 30, .normal, some 1, 30, true⟩))
      (fun t => (t.sup.linkMode, t.sup.timer, (t.evq.entries.drop 1).map (fun e => (e.kind, e.value))))
      = some (.fallback, none, [(.fallbackEntered, some 30)]) := by decide

/-- Section 8.6.1: F3 finds the holding slot full. -/
theorem test_overrun :
    (validFrame 0x27 3 [] (ready.setLink { ready.link with
      counter := 15, inHand := some ⟨0x30, 1, 14, []⟩, holding := some ⟨0x01, 2, 15, []⟩ })).link.overruns = 1
    ∧ (validFrame 0x27 3 [] (ready.setLink { ready.link with
      counter := 15, inHand := some ⟨0x30, 1, 14, []⟩, holding := some ⟨0x01, 2, 15, []⟩ })).link.counter = 0 := by
  decide

/-! ### Witnesses: states and operands that meet the hypotheses of the statements -/

theorem witness_step : (ready.setPending [.rampStep]).pending = .rampStep :: [] ∧ ready.pending = [] := by decide

theorem witness_refused_request :
    (Instr.clockTrim []).request = some (0x11, [])
    ∧ after (exec (.clockTrim []) ready) (fun t => t.link.reply.map (fun r => r.status)) = some (some .badLength)
    ∧ restoring State.reset = true ∧ restoring ready = false ∧ ([1] : Block).length ≠ catalogueWords 0x12 [1] := by decide

theorem witness_modes :
    (isUnrestored unrestoredPart = true ∧ restoring unrestoredPart = false ∧ (0x11 : Byte) ∈ unrestoredRefuses)
    ∧ (inFallback fallen = true ∧ isUnrestored fallen = false ∧ (0x11 : Byte) ∈ fallbackRefuses)
    ∧ (settling settlingPart = true ∧ settlingPart.plain ∧ (0x27 : Byte) ∈ settlingRefuses)
    ∧ (committing committingPart = true ∧ inFallback committingPart = false ∧ (0x50 : Byte) ∈ committingRefuses)
    ∧ ([0] : Block).length = catalogueWords 0x11 [0] ∧ ([] : Block).length = catalogueWords 0x27 [] := by decide

theorem witness_modes_end :
    after (exec .rampStep fallen) inFallback = some true ∧ after (exec .rampStep unrestoredPart) isUnrestored = some true
    ∧ after (exec .rampStep ready) clockIsUnset = some true := by decide

theorem witness_events_appended :
    after (exec .reportGap (ready.setElapsed 59)) (fun t => t.evq.entries.length) = some 2 := by decide

theorem witness_balance :
    everyImage Image.balanced trading = true
    ∧ after (step (trading.setPending [.rampStep])) (everyImage Image.balanced) = some true := by decide

theorem witness_book_sound :
    everyImage Image.bookSound booked = true
    ∧ after (step (booked.setPending [.rampStep])) (everyImage Image.bookSound) = some true := by decide

theorem witness_accounts_sound :
    everyImage Image.accountsSound trading = true
    ∧ after (step (trading.setPending [.rampStep])) (everyImage Image.accountsSound) = some true := by decide

/-- S at 400 of 1,000 while injecting. -/
def injecting : State := (unitIn .loaded 0 5).setFlow ⟨800, 800, 400, .injecting, some .inject, 0, none, 1000, 0⟩

theorem witness_setpoint :
    setpointSafe injecting.flow = true
    ∧ after (step (injecting.setPending [.rampStep])) (fun t => setpointSafe t.flow) = some true := by decide

theorem witness_capacities :
    capacitiesCurrent ready = true ∧ after (step (ready.setPending [.rampStep])) capacitiesCurrent = some true := by decide

theorem witness_clock :
    clockSafe running.clock = true
    ∧ after (step (running.setPending [.gasClockSecond])) (fun t => clockSafe t.clock) = some true := by decide

theorem witness_queue :
    queueSafe ready.evq = true
    ∧ after (step ((ready.setElapsed 59).setPending [.reportGap])) (fun t => queueSafe t.evq) = some true := by decide

/-- Events of one block keep their order, whatever the world takes, and a full queue loses its oldest entry (R167). -/
theorem test_one_block :
    interleave 2 [⟨0, none, .bedSwap, some 0, none⟩, ⟨1, none, .dewWarning, some 1, none⟩] 9
      = ([⟨0, none, .bedSwap, some 0, none⟩, ⟨1, none, .dewWarning, some 1, none⟩], 9) := by decide

set_option maxRecDepth 20000 in
theorem test_full_queue :
    let q : EventQueue := ⟨List.replicate 64 ⟨0, none, .recut, none, none⟩, 64, 0, false⟩
    let p := q.push none .stepCut none (some 5)
    p.entries.length = 64 ∧ p.overwrites = 1 ∧ p.entries.getLast? = some ⟨64, none, .stepCut, none, some 5⟩ := by decide

theorem witness_alert :
    alertSafe trading = true
    ∧ after (step (trading.setPending [.accountAdjust (out1 7 ++ outI3 10)])) alertSafe = some true := by decide

set_option maxRecDepth 20000 in
theorem witness_buffer :
    bufferWf (writeWord 12287 0xFFFF []) = true
    ∧ after (step (ready.setPending [.storeLoad (out1 383 ++ List.replicate 32 0xFFFF)]))
        (fun t => bufferWf t.store.buffer && decide (readWord 12287 t.store.buffer = 0xFFFF)) = some true := by decide

/-- Train A stands by with a bed at its swap point and the other in its last second of cooling: a deferred swap. -/
def swapDue : State := trainIn .standby { Train.unconfigured with
  lo := ⟨.cooling, 40, 1⟩, hi := ⟨.adsorbing, 900 * 3600000000, 0⟩, bedCap := 900, deferred := true, degraded := true }

set_option maxRecDepth 20000 in
theorem witness_beds_starts_and_shares :
    (bedsSound swapDue && oneStarting (unitIn .starting 1 0) && sharesCurrent swapDue) = true
    ∧ after (step (swapDue.setPending [.coolingEnd 0])) (fun t => bedsSound t && sharesCurrent t) = some true
    ∧ after (step ((unitIn .starting 1 0).setPending [.warmUpExpiry 0])) oneStarting = some true := by decide

set_option maxRecDepth 20000 in
/-- A bed set heating in a drying second keeps the whole of its time (section 7.5.4), whichever of the two it is. -/
theorem test_heating_begins_whole :
    after (exec .dryingSecond swapDue) (fun t => ((t.dry.trains[(0 : Fin 2)]).lo, (t.dry.trains[(0 : Fin 2)]).hi))
      = some (⟨.adsorbing, 0, 0⟩, ⟨.heating, 900 * 3600000000, 600⟩) := by decide

/-- Equal remainders go to the lower index, wherever its participant stands (R19 step 3). -/
theorem test_divider_tie : divide 3 [.start 4 1 none, .start 1 1 none] = ⟨[1, 2], 0⟩ := by decide

/-- Records in the order of R50, whatever order they come in. -/
theorem test_schedule_order :
    (orderedSchedule [⟨5, 1, .inject, .firm, 1, 1, .confirmed, none, 0⟩, ⟨5, 0, .withdraw, .firm, 1, 1, .confirmed, none, 0⟩,
      ⟨5, 0, .inject, .interruptible, 1, 1, .confirmed, none, 0⟩, ⟨4, 9, .withdraw, .firm, 1, 1, .confirmed, none, 0⟩]).map
        (fun r => (r.hour, r.slot.val, r.dir)) = [(4, 9, .withdraw), (5, 0, .inject), (5, 0, .withdraw), (5, 1, .inject)] := by
  decide

/-- A record of hour 11 is cut to the declared capacity of 0. -/
theorem test_recut :
    let s := running.setSched [⟨11, 0, .inject, .firm, 400, 400, .confirmed, none, 0⟩]
    (recut s).sched = [⟨11, 0, .inject, .firm, 400, 0, .rejected, some .capacity, 1⟩]
    ∧ (recut s).evq.entries.getLast? = some ⟨1, some ⟨10, 100⟩, .recut, none, some 11⟩ := by decide

theorem witness_confirmed_counts :
    ∀ (d : Direction) (c : Sys2Proof.Machine.Class) (st : RecordState), st = .confirmed ∨ st = .curtailed ∨ st = .rejected →
      (booked.book.stats.counts[kindIndex d c]).ofState st ≤ 65535 := by
  intro d c st _
  cases d <;> cases c <;> cases st <;> decide

set_option maxRecDepth 20000 in
/-- Shipper 7 asks 400 for hour 13, is confirmed at 400 within its limits and cut to the declared capacity of 0 (R54, R56). -/
theorem witness_shipper_stage :
    booked.acct.slots[(0 : Fin 24)] = some acme ∧ booked.acct.slots[(1 : Fin 24)] = some bolt
    ∧ (stagedRecords booked 13).map (fun r => (r.slot.val, r.confirmed, r.reason)) = [(0, 400, none)]
    ∧ (confirmedRecords booked 13).map (fun r => (r.requested, r.confirmed, r.reason)) = [(400, 0, some .capacity)]
    ∧ (confirmHour 17 booked).book.entries = []
    ∧ ((confirmHour 17 booked).evq.entries.drop 1).map (fun e => (e.kind, e.subject, e.value))
        = [(.completed, some 0, some 3)] := by decide

set_option maxRecDepth 20000 in
/-- The worked limits of section 2.3.1, the shipper low in store: 202,000 out, 300,000 in. -/
theorem test_hourly_limits :
    let a : Account := ⟨2210, .opened, 6400000, 50000000, 300000, 400000, some 3, some 2, false, false⟩
    let s := (running.setAcct { running.acct with slots := setVec running.acct.slots 4 (some a) }).setSched
      [⟨10, 4, .inject, .firm, 250000, 250000, .confirmed, none, 0⟩, ⟨11, 4, .inject, .firm, 200000, 200000, .confirmed, none, 0⟩]
    let t := s.setCurves (setVec (setVec s.curves 2 [⟨0, 300⟩, ⟨200, 600⟩, ⟨600, 1000⟩, ⟨1000, 1000⟩]) 3
      [⟨0, 1000⟩, ⟨700, 1000⟩, ⟨1000, 400⟩])
    (hourlyLimit t 4 12 .withdraw).value = 202000 ∧ (hourlyLimit t 4 12 .inject).value = 300000 := by decide

theorem witness_divider_proportion :
    let ps : List Participant := [.start 5 3 (some 7), .start 2 2 none]
    0 < (ps.map (fun p => p.weight)).sum ∧ (∀ p ∈ ps, ∀ c ∈ p.cap, 10 * p.weight / (ps.map (fun p => p.weight)).sum < c) := by
  decide

theorem witness_divider :
    ∀ p ∈ ([.start 5 3 (some 1), .start 2 0 none] : List Participant), p.total = 0 ∧ p.isOpen = true := by decide

theorem witness_curve :
    (([⟨-5, 9⟩, ⟨7, 2⟩] : Curve).map (fun p => p.x)).Pairwise (fun u v => u < v)
    ∧ ([⟨-5, 9⟩, ⟨7, 2⟩] : Curve).head? = some ⟨-5, 9⟩ ∧ ([⟨-5, 9⟩, ⟨7, 2⟩] : Curve).getLast? = some ⟨7, 2⟩ := by decide

theorem witness_fields :
    fieldW (out1 65535) 0 = 65535 ∧ field2 (out2 4294967295) 0 = 4294967295
    ∧ field3 (out3 281474976710655) 0 = 281474976710655 ∧ field4 (out4 18446744073709551615) 0 = 18446744073709551615
    ∧ fieldI (outI (-32768)) 0 = -32768 ∧ fieldI2 (outI2 (-2147483648)) 0 = -2147483648 := by decide

theorem witness_image_fits : (snapshot booked).fits = true ∧ Image.default.fits = true := by decide

theorem witness_frame : ([] : Block).length ≤ 64 ∧ ready.link.receiver = .hunting
    ∧ (List.replicate 64 (0 : Word)).length ≤ 64 := by decide

theorem witness_placement :
    ready.link.inHand = none ∧ restoring ready = false ∧ restoring State.reset = true ∧ (requestOf 0x13).isNone = true
    ∧ (requestOf 0x12).isSome = true := by decide

set_option maxRecDepth 20000 in
theorem witness_line_events :
    (crc [0, 0x12, 9] ≠ (0#8).append 0#8) ∧ (ready.setLink { ready.link with receiver := .assembling }).link.receiver
      = .assembling ∧ ready.link.reply = none := by decide

theorem witness_clock_set :
    ready.settled ∧ clockIsUnset ready = true ∧ ([0, 23, 3599] : Block).length = 3 ∧ fieldW [0, 23, 3599] 1 ≤ 23
    ∧ fieldW [0, 23, 3599] 2 ≤ 3599 ∧ ready.clock.lastSettled < fieldHour [0, 23, 3599] 0 := by decide

set_option maxRecDepth 20000 in
/-- With the clock UNSET, CLOCK SET to hour 14 leaves the entry of the hours 13 to 17 with hour 17 (R3). -/
theorem witness_clock_set_trims_the_book :
    let s := booked.setClock ready.clock
    s.settled ∧ clockIsUnset s = true ∧ capacitiesCurrent s = true ∧ (∀ e ∈ s.book.entries, e.next ≤ e.last)
    ∧ s.clock.lastSettled < fieldHour [0, 14, 0] 0
    ∧ after (exec (.clockSet [0, 14, 0]) s) (fun t => (t.book.confirmedThrough, t.book.entries.map (fun e => (e.next, e.last))))
        = some (16, [(17, 17)]) := by decide

theorem witness_clock_trim : restoring running = false ∧ clockSafe running.clock = true := by decide

theorem witness_curve_write :
    let b : Block := out1 15 ++ out1 2 ++ outI (-3) ++ out1 5 ++ outI 4 ++ out1 6
    ready.plain ∧ fieldW b 0 = (15 : Fin 16).val ∧ 2 ≤ fieldW b 1 ∧ fieldW b 1 ≤ 8 ∧ b.length = 2 + 2 * fieldW b 1
    ∧ ∀ k < fieldW b 1, ∀ j < k, fieldI b (2 + 2 * j) < fieldI b (2 + 2 * k) := by decide

theorem witness_curve_clear :
    (unitIn .disabled 0 0).plain ∧ curveReferenced (unitIn .disabled 0 0) 0 = true ∧ curveReferenced ready 15 = false
    ∧ fieldW [15] 0 = (15 : Fin 16).val ∧ 15 < fieldW [16] 0 := by decide

theorem witness_account_open :
    let b : Block := out1 65534 ++ out3 999999999999 ++ out2 16000000 ++ out2 0 ++ out1 65535 ++ out1 65535
    trading.settled ∧ b.length = 10 ∧ fieldW b 0 ≤ 65534 ∧ field3 b 1 ≤ 999999999999 ∧ field2 b 4 ≤ 16000000
    ∧ fieldW b 8 = 65535 ∧ fieldW b 9 = 65535
    ∧ (∀ j : Fin 24, ∀ a ∈ trading.acct.slots[j], a.shipper ≠ fieldW b 0)
    ∧ trading.acct.slots[(2 : Fin 24)] = none ∧ ∀ j : Fin 24, j < 2 → trading.acct.slots[j] ≠ none := by decide

theorem witness_account_requests :
    let b : Block := out1 7 ++ out3 500 ++ out2 0 ++ out2 0 ++ out1 65535 ++ out1 65535
    trading.settled ∧ findShipper (fieldW b 0) trading = some (0, acme) ∧ b.length = 10 ∧ acme.state ≠ .closing
    ∧ acme.inventory ≤ field3 b 1 ∧ fieldW b 8 = 65535
    ∧ (after (exec (.accountSuspend [7, 0]) trading) (fun t => (t.acct.slots[(0 : Fin 24)]).map (fun a => a.state)))
        = some (some .suspended)
    ∧ clockIsUnset trading = false := by decide

theorem witness_account_close :
    let s := trading.setAcct { trading.acct with slots := setVec trading.acct.slots 0 (some { acme with inventory := 0 }) }
    s.settled ∧ findShipper 7 s = some (0, { acme with inventory := 0 }) ∧ ∀ r ∈ s.sched, r.slot = 0 → r.hour ≤ s.clock.hour := by
  decide

theorem witness_adjust_and_read :
    let b : Block := out1 7 ++ outI3 (-500)
    trading.settled ∧ b.length = 4 ∧ findShipper (fieldW b 0) trading = some (0, acme) ∧ fieldI3 b 1 = -500
    ∧ 0 ≤ acme.inventory + fieldI3 b 1 ∧ (trading.acct.sba - fieldI3 b 1).natAbs ≤ 1000000000000000
    ∧ trading.acct.slots[(0 : Fin 24)] = some acme ∧ trading.acct.slots[(23 : Fin 24)] = none := by decide

theorem witness_transfer :
    let b : Block := out1 7 ++ out1 8 ++ out3 1
    trading.settled ∧ b.length = 5 ∧ findShipper (fieldW b 0) trading = some (0, acme)
    ∧ findShipper (fieldW b 1) trading = some (1, bolt) ∧ 1 ≤ field3 b 2 ∧ trading.acct.transfers.length < 16
    ∧ findShipper 9 trading = none := by decide

theorem witness_nominate_and_cancel :
    let b : Block := out1 7 ++ out1 0 ++ out1 0 ++ outHour 13 ++ outHour 36 ++ out2 16000000
    let d : Block := out1 7 ++ out1 0 ++ out1 0 ++ outHour 11 ++ outHour 13
    booked.settled ∧ clockIsUnset booked = false ∧ findShipper (fieldW b 0) booked = some (0, acme)
    ∧ b.length = 9 ∧ fieldHour b 5 - fieldHour b 3 + 1 ≤ 24 ∧ booked.book.confirmedThrough + 1 ≤ fieldHour b 3
    ∧ fieldHour b 5 ≤ booked.clock.hour + 36 ∧ field2 b 7 ≤ 16000000
    ∧ (removeHours 0 .inject .firm (fieldHour b 3) (fieldHour b 5) booked.book.entries).length + 1 ≤ 256
    ∧ d.length = 7 ∧ booked.book.confirmedThrough + 1 ≤ fieldHour d 5 ∧ booked.book.entries.length < 256
    ∧ (booked.book.stats.counts[kindIndex .inject .firm]).accepted ≤ 65535
    ∧ ∀ e ∈ booked.book.entries, e.hasKey 0 .withdraw .firm = true → 20 < e.next ∨ e.last < 18 := by decide

/-- A cancellation that meets no entry leaves the statistics' mark as it is (section 3.9, R67). -/
theorem test_mark_stands :
    let b : Block := out1 7 ++ out1 1 ++ out1 0 ++ outHour 18 ++ outHour 20
    after (exec (.cancel b) (booked.setBook { booked.book with stats := { booked.book.stats with high := 0 } }))
      (fun t => (t.book.entries.length, t.book.stats.high)) = some (1, 0) := by decide

theorem witness_book_statistics :
    restoring ready = false ∧ ([65534, 256, 1] : Block).length = 3 ∧ fieldW [65534, 256, 1] 0 ≠ 65535
    ∧ fieldW [65534, 256, 1] 1 ≤ 256 ∧ fieldW [65534, 256, 1] 2 ≤ 1 := by decide

theorem witness_reads :
    restoring ready = false ∧ settling ready = false ∧ committing ready = false ∧ fieldW [5] 0 = (5 : Fin 6).val
    ∧ fieldW [1] 0 = (1 : Fin 2).val ∧ fieldW [23] 0 ≤ 23 ∧ fieldW [0, 255] 1 ≤ 255 ∧ fieldW [0, 23, 95] 2 ≤ 95
    ∧ fieldW [383] 0 ≤ 383 := by decide

set_option maxRecDepth 20000 in
theorem witness_site_set :
    let b := outSite { Site.default with injRight := 16000000, stopFraction := 300, startFraction := 500, lead := 4 }
    running.settled ∧ b.length = 29 ∧ siteInRange (siteOf b) = true ∧ fieldW b 28 ≤ 1
    ∧ (siteOf b).stopFraction < (siteOf b).startFraction := by decide

set_option maxRecDepth 20000 in
theorem witness_ramp_and_turnaround :
    injecting.flow.dir ≠ .turnaround
    ∧ after (exec .rampStep injecting) (fun t => t.flow.setpoint) = some 800
    ∧ (ready.setFlow ⟨5, 5, 0, .turnaround, none, 2, none, 9, 0⟩).flow.dir = .turnaround
    ∧ after (exec .turnaroundExpiry (ready.setFlow ⟨5, 5, 0, .turnaround, none, 1, none, 9, 0⟩)) (fun t => t.flow.dir)
        = some .injecting := by decide

set_option maxRecDepth 20000 in
/-- S of 400 cut to 300, and of -400 cut to -300 (R99). -/
theorem witness_step_cut :
    let s := ready.setFlow ⟨-800, -800, -400, .withdrawing, some .withdraw, 0, none, 0, 1000⟩
    (injecting.flow.cInj = 1000 ∧ injecting.flow.setpoint = 400)
    ∧ (receiveInj 300 injecting).flow.lastCut = some (400, 300)
    ∧ ((receiveInj 300 injecting).evq.entries.drop 1).map (fun e => (e.kind, e.value)) = [(.stepCut, some 300)]
    ∧ (s.flow.cWdr = 1000 ∧ s.flow.setpoint = -400) ∧ (receiveWdr 300 s).flow.lastCut = some (-400, -300) := by decide

theorem witness_gas_clock_second :
    running.clock.sec + 1 < running.clock.hourEnd ∧ ready.clock.state = .unset
    ∧ after (exec .gasClockSecond running) (fun t => t.clock.sec) = some 101 := by decide

/-- One second before the hour's end. -/
def closing (h : Nat) : State := running.setClock ⟨.running, h, 3599, 3600, 0, 9⟩

theorem witness_hour_boundary :
    (closing 10).clock.state = .running ∧ (closing 10).clock.hourEnd ≤ (closing 10).clock.sec + 1
    ∧ (closing 10).settle.inFlight = none
    ∧ after (exec .hourBoundary (closing 10)) (fun t => t.clock.hour) = some 11
    ∧ after (exec .hourBoundary (closing lastHour)) (fun t => t.clock.state) = some .unset := by decide

set_option maxRecDepth 20000 in
theorem witness_settlement_completion :
    settlingPart.settle.inFlight = some ⟨9, 500, 1, 2, []⟩
    ∧ after (exec .settlementCompletion settlingPart) (fun t => (t.acct.sba, t.acct.booked, t.acct.charged))
        = some (497, 500, 3) := by decide

set_option maxRecDepth 20000 in
/-- 700 kWh allocated to an inventory of 500 with a space right of 1,000, and 100 kWh of tolerance: 200 kWh beyond the
right go to the SBA (R82, R83, R86). -/
theorem test_posting :
    let s := trading.setSettle { trading.settle with
      inFlight := some ⟨9, 800, 0, 0, [⟨9, 0, .inject, .firm, 700, 700, .confirmed, none, 0⟩]⟩ }
    s.acct.transfers = [] ∧ (∀ i : Fin 24, ∀ a ∈ s.acct.slots[i], a.state ≠ .closing)
    ∧ after (exec .settlementCompletion s) (fun t => ((t.acct.slots[(0 : Fin 24)]).map (fun a => (a.inventory, a.fullClamp)),
        t.acct.sba, t.settle.alloc[(0 : Fin 24)])) = some (some (1000, true), -300, some ⟨9, 700, 700, 0, 200⟩) := by decide

set_option maxRecDepth 20000 in
theorem witness_station_report :
    restoring ready = false ∧ isUnrestored ready = false ∧ (List.replicate 30 (0 : Word)).length = 30 := by decide

/-- With the meter's base at 0. -/
def based (s : State) : State := s.setMeter { s.meter with base := ⟨0, 0, true⟩ }

/-- A report with the meter at 0, the words of unit 0 and the words of train A. -/
def report (unit train : Block) : Block := List.replicate 6 0 ++ unit ++ List.replicate 15 0 ++ train ++ List.replicate 3 0

/-- Unit 0 LOADED, with two reports of stopped and one above 1,100 thousandths behind it. -/
def strained : State :=
  let s := based (unitIn .loaded 0 5)
  let u := { s.duty.units[(0 : Fin 6)] with noRun := 2, overload := 1 }
  (s.setSite { s.site with overloadLimit := 2 }).setDuty { s.duty with units := setVec s.duty.units 0 u }

/-- Fault, the third report stopped, and the second report above 1,100 of 1,000: each trips the unit (R125 to R127). -/
theorem witness_report_trips :
    let trip (u : Block) := after (exec (.stationReport (report u [0, 0, 0])) strained)
      (fun t => ((t.duty.units[(0 : Fin 6)]).state, (t.duty.units[(0 : Fin 6)]).tripCause))
    restoring strained = false ∧ isUnrestored strained = false ∧ strained.site.overloadLimit ≤ 15
    ∧ (report (out1 2 ++ outI2 0) [0, 0, 0]).length = 30
    ∧ trip (out1 2 ++ outI2 0) = some (.tripped, some .feedback) ∧ trip (out1 0 ++ outI2 0) = some (.tripped, some .noRun)
    ∧ trip (out1 1 ++ outI2 1101) = some (.tripped, some .overload) ∧ trip (out1 1 ++ outI2 1100) = some (.loaded, none) := by
  decide +kernel

/-- Train A off specification, its low bed adsorbing a load and its high bed in a state. -/
def loadedBed (load : Nat) (st : BedState) : State := based (trainIn .offSpec { Train.unconfigured with
  lo := ⟨.adsorbing, load, 0⟩, hi := ⟨st, 0, 0⟩ })

/-- At 20 °C the bed capacity is 700: a bed at its swap point swaps or defers, and a saturated one degrades (R148, R149). -/
theorem witness_report_beds :
    let shown (s : State) := after (exec (.stationReport (report [0, 0, 0] [100, 200, 0xFFE2])) s) (fun t =>
      let x := t.dry.trains[(0 : Fin 2)]
      ((x.lo.state, x.hi.state), x.deferred, x.degraded, x.armed))
    (report [0, 0, 0] [100, 200, 0xFFE2]).length = 30 ∧ setpointSafe (loadedBed 0 .ready).flow = true
    ∧ shown (loadedBed (700 * 3240000000) .ready) = some ((.heating, .adsorbing), false, false, true)
    ∧ shown (loadedBed (700 * 3240000000) .cooling) = some ((.adsorbing, .cooling), true, false, false)
    ∧ shown (loadedBed (700 * 3600000000) .cooling) = some ((.adsorbing, .cooling), true, true, false) := by decide +kernel

set_option maxRecDepth 20000 in
theorem witness_unit_requests :
    let b : Block := out1 0 ++ out2 4000000 ++ out1 0 ++ out1 3 ++ out1 3
    (unitIn .disabled 0 0).plain ∧ capacitiesCurrent (unitIn .disabled 0 0) = true ∧ b.length = 6
    ∧ field2 b 1 ≤ 4000000 ∧ fieldW b 3 = (0 : Fin 16).val ∧ (unitIn .disabled 0 0).curves[(0 : Fin 16)] ≠ []
    ∧ after (exec (.unitEnable (out1 0 ++ out1 1)) (unitIn .disabled 0 0)) (fun t => (t.duty.units[(0 : Fin 6)]).state)
        = some .cold
    ∧ capacitiesCurrent (unitIn .lockedOut 0 0) = true
    ∧ after (exec (.unitDisable (out1 0 ++ out1 0)) (unitIn .lockedOut 0 0)) answer = some (some (.ok, [7])) := by decide

theorem witness_roster :
    let b : Block := out1 5 ++ out1 4 ++ out1 3 ++ out1 2 ++ out1 1 ++ out1 0
    let l : Vector (Fin 6) 6 := ⟨#[5, 4, 3, 2, 1, 0], rfl⟩
    b.length = 6 ∧ (∀ k : Fin 6, fieldW b k.val = (l[k]).val) ∧ ∀ i : Fin 6, i ∈ l.toList := by decide

theorem witness_unit_phases :
    (((unitIn .starting 1 0).duty.units[(0 : Fin 6)]).state = .starting)
    ∧ after (exec (.warmUpExpiry 0) (unitIn .starting 1 0)) (fun t => (t.duty.units[(0 : Fin 6)]).state) = some .loaded
    ∧ after (exec (.hotHoldExpiry 0) (unitIn .hot 1 0)) (fun t => (t.duty.units[(0 : Fin 6)]).state) = some .warm
    ∧ after (exec (.warmHoldExpiry 0) (unitIn .warm 1 0)) (fun t => (t.duty.units[(0 : Fin 6)]).state) = some .cold
    ∧ after (exec (.recoveryIntervalExpiry 0) (unitIn .tripped 1 0)) (fun t => (t.duty.units[(0 : Fin 6)]).attempts)
        = some 1
    ∧ after (exec (.startStampAged 0) (unitIn .cold 0 0)) (fun t => (t.duty.units[(0 : Fin 6)]).startAges) = some []
    ∧ (unitIn .loaded 0 3600).duty.units[(0 : Fin 6)].loadedSeconds = 3600
    ∧ after (exec (.hotHoldExpiry 0) (unitIn .hot 0 0)) (fun t => (t.duty.units[(0 : Fin 6)]).state) = some .hot := by decide

theorem witness_scheduler :
    ((unitIn .hot 9 0).duty.units[(0 : Fin 6)]).configured = true
    ∧ after (exec .schedulerSecond (unitIn .hot 9 0)) (fun t => t.duty.fuel) = some 100 := by decide

/-- Unit 0 in a state, past its minimum run with one start behind it, under a target and a start limit. -/
def evaluated (st : UnitState) (target : Int) (limit : Nat) : State :=
  let s := unitIn st 0 1800
  let u := { s.duty.units[(0 : Fin 6)] with startAges := [100] }
  ((s.setSite { s.site with injRight := 1000, startLimit := limit }).setDuty { s.duty with
    declared := 1000, ready := 1000, units := setVec s.duty.units 0 u }).setFlow
      ⟨target, target, 0, .hold, none, 0, none, 1000, 0⟩

set_option maxRecDepth 20000 in
/-- Unit 0 disabled while S is 400: C_inj_ready falls to 0, and S with it (R99, R130). -/
theorem witness_disable_cuts :
    let e := evaluated .loaded 800 3
    let s := e.setFlow { e.flow with dir := .injecting, setpoint := 400 }
    s.plain ∧ capacitiesCurrent s = true ∧ (s.duty.units[(0 : Fin 6)]).state ≠ .disabled
    ∧ after (exec (.unitDisable (out1 0 ++ out1 0)) s) (fun t => (t.duty.ready, t.flow.setpoint, t.flow.lastCut))
        = some (0, 0, some (400, 0)) := by decide

theorem witness_roster_distinct : (evaluated .loaded 0 3).duty.roster.toList.Nodup := by
  unfold List.Nodup
  decide

set_option maxRecDepth 20000 in
theorem witness_no_phase_ends : ∀ i : Fin 6, ¬(((evaluated .loaded 0 3).duty.units[i]).state.timed = true
    ∧ ((evaluated .loaded 0 3).duty.units[i]).phaseTimer = 1) := by decide

set_option maxRecDepth 20000 in
/-- With no demand the LOADED unit stops; on demand a WARM one starts, and at its start limit it is told (R117 to R119). -/
theorem witness_evaluation :
    let shown (s : State) := after (exec .schedulerSecond s) (fun t =>
      ((t.duty.units[(0 : Fin 6)]).state, (t.evq.entries.drop 1).map (fun e => (e.kind, e.value))))
    shown (evaluated .loaded 0 3) = some (.hot, [(.unitStopped, some (UnitState.hot.code : Int))])
    ∧ shown (evaluated .warm 800 3) = some (.starting, [(.unitStarted, some 2)])
    ∧ shown (evaluated .warm 800 1) = some (.warm, [(.startLimit, some 3499)]) := by decide

set_option maxRecDepth 20000 in
theorem witness_train_requests :
    let b : Block := out1 0 ++ outTrainCfg 0 ⟨8000000, 1000, some 1, 1000, 600, 600, 7, 0, -80, -120, 0, 0, 600⟩
    let s := trainIn .out Train.unconfigured
    s.plain ∧ capacitiesCurrent s = true ∧ setpointSafe s.flow = true ∧ fieldW b 0 = (0 : Fin 2).val ∧ b.length = 17
    ∧ trainCfgInRange (trainCfgOf b 1) = true ∧ (trainCfgOf b 1).warn < (trainCfgOf b 1).spec
    ∧ fieldW b 4 = (1 : Fin 16).val ∧ s.curves[(1 : Fin 16)] ≠ []
    ∧ after (exec (.trainServiceIn (out1 0 ++ out1 1)) s) (fun t => (t.dry.trains[(0 : Fin 2)]).state) = some .standby := by
  decide

set_option maxRecDepth 20000 in
/-- Train A stands by. Its capacity is 0 since the site right is 0. -/
theorem witness_train_out :
    let s := trainIn .standby Train.unconfigured
    s.plain ∧ capacitiesCurrent s = true
    ∧ after (exec (.trainServiceOut (out1 0 ++ out1 0)) s) (fun t => (t.dry.trains[(0 : Fin 2)]).state) = some .out := by
  decide

set_option maxRecDepth 20000 in
/-- While the part withdraws, a train brought in comes online with its mask loaded. -/
theorem witness_train_in_withdrawing :
    let x := trainIn .out Train.unconfigured
    let s := x.setFlow { x.flow with dir := .withdrawing }
    s.plain ∧ capacitiesCurrent s = true ∧ setpointSafe s.flow = true
    ∧ (s.dry.trains[(0 : Fin 2)]).cfg.maskChoice ≠ 0
    ∧ after (exec (.trainServiceIn (out1 0 ++ out1 1)) s) (fun t =>
        ((t.dry.trains[(0 : Fin 2)]).state, (t.dry.trains[(0 : Fin 2)]).mask)) = some (.online, 180) := by decide

/-- Train A with a bed adsorbing 5 units and the other heating or cooling, its last second at hand. -/
def bedsIn (st : BedState) : State := trainIn .standby { Train.unconfigured with
  lo := ⟨.adsorbing, 5, 0⟩, hi := ⟨st, 40, 1⟩, bedCap := 900, share := 2, water := 3 }

set_option maxRecDepth 20000 in
theorem witness_drying_second :
    ((bedsIn .heating).dry.trains[(0 : Fin 2)].bed .lo).state = .adsorbing
    ∧ after (exec .dryingSecond (bedsIn .heating)) (fun t => (t.dry.gas, (t.dry.trains[(0 : Fin 2)]).lo.load)) = some (7, 11) := by
  decide

set_option maxRecDepth 20000 in
/-- Bed 0 adsorbs 5 units and is at its swap point with bed capacity 0: a swap with a READY partner, a deferral before one
that heats on, a swap with one that cools to its end (R146, R148, R150). -/
theorem witness_drying_second_beds :
    let beds (hi : Bed) := after (exec .dryingSecond (trainIn .standby { Train.unconfigured with lo := ⟨.adsorbing, 5, 0⟩, hi }))
      (fun t => let y := t.dry.trains[(0 : Fin 2)]; (y.lo, y.hi, y.degraded, y.deferred, y.mask))
    beds ⟨.ready, 0, 0⟩ = some (⟨.heating, 5, 600⟩, ⟨.adsorbing, 0, 0⟩, false, false, 179)
    ∧ beds ⟨.heating, 9, 2⟩ = some (⟨.adsorbing, 5, 0⟩, ⟨.heating, 9, 1⟩, true, true, 0)
    ∧ (beds ⟨.cooling, 9, 1⟩).map (fun r => (r.1, r.2.1)) = some (⟨.heating, 5, 600⟩, ⟨.adsorbing, 0, 0⟩) := by decide

set_option maxRecDepth 20000 in
/-- A cooled bed in the second: READY below the partner's swap point, and in a train that is OUT; the lower-indexed READY bed
adsorbs in one that is not (R150, R151). -/
theorem witness_drying_second_cooled :
    let beds (st : TrainState) (lo : Bed) := after (exec .dryingSecond (trainIn st { Train.unconfigured with
        bedCap := 900, lo, hi := ⟨.cooling, 9, 1⟩ })) (fun t => let y := t.dry.trains[(0 : Fin 2)]; (y.lo.state, y.hi))
    beds .standby ⟨.adsorbing, 5, 0⟩ = some (.adsorbing, ⟨.ready, 0, 0⟩)
    ∧ beds .out ⟨.ready, 0, 0⟩ = some (.ready, ⟨.ready, 0, 0⟩)
    ∧ beds .standby ⟨.ready, 0, 0⟩ = some (.adsorbing, ⟨.ready, 0, 0⟩) := by decide

/-- Train A's state, mask and dew-point timers after a drying second. -/
def dewAfter (st : TrainState) (x : Train) : Option (TrainState × List (Option Nat)) :=
  after (exec .dryingSecond (trainIn st x)) (fun t =>
    let y := t.dry.trains[(0 : Fin 2)]; (y.state, [some y.mask, y.excursion, y.recovery]))

set_option maxRecDepth 20000 in
/-- The timers of step 5 of R146, running and in their last second. -/
theorem witness_drying_second_timers :
    dewAfter .online { Train.unconfigured with excursion := some 2 } = some (.online, [some 0, some 1, none])
    ∧ dewAfter .online { Train.unconfigured with excursion := some 1 } = some (.offSpec, [some 0, none, none])
    ∧ dewAfter .offSpec { Train.unconfigured with recovery := some 2 } = some (.offSpec, [some 0, none, some 1])
    ∧ dewAfter .offSpec { Train.unconfigured with recovery := some 1 } = some (.standby, [some 180, none, none])
    ∧ dewAfter .standby { Train.unconfigured with mask := 2 } = some (.standby, [some 1, none, none]) := by decide

set_option maxRecDepth 20000 in
/-- A mask's end in the second, the dew point on either side of its level; the timer it loads falls at once (log entry 22). -/
theorem witness_drying_second_mask :
    dewAfter .online { Train.unconfigured with mask := 1, dew := -80 } = some (.online, [some 0, none, none])
    ∧ dewAfter .online { Train.unconfigured with mask := 1, dew := -79 } = some (.online, [some 0, some 119, none])
    ∧ dewAfter .offSpec { Train.unconfigured with mask := 1, dew := -120 } = some (.offSpec, [some 0, none, none])
    ∧ dewAfter .offSpec { Train.unconfigured with mask := 1, dew := -121 } = some (.offSpec, [some 0, none, some 299]) := by decide

set_option maxRecDepth 20000 in
theorem witness_bed_phases :
    after (exec (.heatingEnd 1) (bedsIn .heating)) (fun t => (t.dry.trains[(0 : Fin 2)]).hi) = some ⟨.cooling, 40, 600⟩
    ∧ after (exec (.coolingEnd 1) (bedsIn .cooling)) (fun t => (t.dry.trains[(0 : Fin 2)]).hi) = some ⟨.ready, 0, 0⟩ := by decide

set_option maxRecDepth 20000 in
/-- A cooled bed: READY in a train that is OUT, else adsorbing where the train has none, the lower-indexed READY bed first
(R151). -/
theorem witness_cooled_bed :
    let cooled (st : TrainState) (lo hi : BedState) (i : Fin 4) :=
      after (exec (.coolingEnd i) (trainIn st { Train.unconfigured with lo := ⟨lo, 0, 1⟩, hi := ⟨hi, 0, 1⟩ }))
        (fun t => ((t.dry.trains[(0 : Fin 2)]).lo.state, (t.dry.trains[(0 : Fin 2)]).hi.state))
    cooled .out .cooling .heating 0 = some (.ready, .heating)
    ∧ cooled .standby .cooling .heating 0 = some (.adsorbing, .heating)
    ∧ cooled .standby .ready .cooling 1 = some (.adsorbing, .ready) := by decide

theorem witness_mask :
    after (exec (.maskExpiry 0) (trainIn .online { Train.unconfigured with mask := 1, dew := -79 }))
      (fun t => (t.dry.trains[(0 : Fin 2)]).excursion) = some (some 120)
    ∧ after (exec (.maskExpiry 0) (trainIn .offSpec { Train.unconfigured with mask := 1, dew := -121 }))
      (fun t => (t.dry.trains[(0 : Fin 2)]).recovery) = some (some 300) := by decide

set_option maxRecDepth 20000 in
/-- A mask's end with both delays 0: the excursion and the recovery are taken at once (R153, R155). -/
theorem witness_mask_no_delay :
    let ended (st : TrainState) (dew : Int) : State :=
      let s := trainIn st { Train.unconfigured with mask := 1, dew }
      let x := s.dry.trains[(0 : Fin 2)]
      putTrain 0 { x with cfg := { x.cfg with excursionDelay := 0, recoveryDelay := 0 } } s
    let state (s : State) := after (exec (.maskExpiry 0) s) (fun t => (t.dry.trains[(0 : Fin 2)]).state)
    state (ended .online (-79)) = some .offSpec ∧ state (ended .offSpec (-121)) = some .standby
    ∧ capacitiesCurrent (ended .offSpec (-121)) = true ∧ setpointSafe (ended .offSpec (-121)).flow = true := by decide

theorem witness_off_and_on_spec :
    after (exec (.offSpec 0) (trainIn .online { Train.unconfigured with excursion := some 1 }))
      (fun t => (t.dry.trains[(0 : Fin 2)]).state) = some .offSpec
    ∧ capacitiesCurrent (trainIn .offSpec { Train.unconfigured with recovery := some 1 }) = true
    ∧ after (exec (.onSpec 0) (trainIn .offSpec { Train.unconfigured with recovery := some 1 }))
      (fun t => ((t.dry.trains[(0 : Fin 2)]).state, (t.dry.trains[(0 : Fin 2)]).mask)) = some (.standby, 180) := by decide

theorem witness_link_status_and_drain :
    restoring ready = false ∧ fieldW [1] 0 ≤ 1 ∧ 1 < fieldW [2] 0
    ∧ after (exec (.eventDrain []) ready) (fun t => (t.evq.entries, attention t)) = some ([], false) := by decide

theorem witness_supervision_set :
    after (exec (.supervisionSet [3, 120]) ready) (fun t => t.sup.timer) = some (some 120)
    ∧ after (exec (.supervisionSet [3, 120]) fallen) (fun t => t.sup.timer) = some none
    ∧ after (exec (.supervisionSet [4, 120]) ready) answer = some (some (.range, [])) := by decide

theorem witness_resume :
    inFallback fallen = true ∧ isUnrestored fallen = false ∧ restoring fallen = false
    ∧ after (exec (.resume []) fallen) inFallback = some false
    ∧ (ready.setSup ⟨1, 10, .normal, some 2, 10, true⟩).sup.timer = some 2 := by decide

theorem witness_restart :
    restoring ready = false ∧ committing committingPart = true
    ∧ after (exec (.restart []) ready) (fun t => t.link.restartDue && t.link.reply.isSome) = some true := by decide

/-- The first restore after a commit of the default image to copy 0. -/
def committed0 : State := State.reset.setStore { State.reset.store with
  copies := setVec State.reset.store.copies 0 (.whole 5 Image.default) }

set_option maxRecDepth 20000 in
theorem witness_restore_and_commit :
    committed0.store.phase = .restoring false ∧ committed0.store.copies[committed0.store.mark] = .whole 5 Image.default
    ∧ after (exec (.restoreReadDone true) committed0) (fun t => t.store.held) = some 5
    ∧ committed0.flow = State.reset.flow ∧ committed0.duty.declared = 0 ∧ committed0.dry.capacity = 0
    ∧ ((Image.default.trains[(0 : Fin 2)]).service = false ∧ (Image.default.trains[(0 : Fin 2)]).lo.state ≠ .adsorbing)
    ∧ State.reset.store.copies[State.reset.store.mark] = .notWhole
    ∧ committingPart.store.phase = .committing 1 Image.default
    ∧ after (exec (.commitEnd true) committingPart) (fun t => t.store.mark) = some 1 := by decide

/-- The committed copy 0 after two failed reads: UNRESTORED, with words that fail the check (R177, R179; log entry 40). -/
def failed0 : State := failMarked committed0

set_option maxRecDepth 20000 in
theorem witness_restore_fails :
    let s := committed0.setStore { committed0.store with phase := .restoring true }
    let again := failed0.setStore { failed0.store with phase := .restoring false }
    after (exec (.restoreReadDone false) s) (fun t => (isUnrestored t, t.store.copies[(0 : Fin 2)]))
      = some (true, .failed 5 Image.default committed0.world)
    ∧ again.store.copies[again.store.mark] = .failed 5 Image.default committed0.world
    ∧ after (exec (.restoreReadDone true) again) (fun t => (isUnrestored t, t.store.copies[(0 : Fin 2)]))
      = some (false, .whole 5 Image.default) := by decide

/-- The marked copy after a failed restore, and as delivered, is not whole. -/
theorem witness_store_read_failing :
    (∀ (n : BitVec 32) (m : Image), failed0.store.copies[failed0.store.mark] ≠ .whole n m)
    ∧ (∀ (n : BitVec 32) (m : Image), ready.store.copies[ready.store.mark] ≠ .whole n m)
    ∧ restoring ready = false ∧ committing ready = false := by
  refine ⟨fun n m h => ?_, fun n m h => ?_, by decide, by decide⟩ <;> cases h

theorem witness_store_load :
    restoring ready = false ∧ inFallback ready = false ∧ committing ready = false
    ∧ (out1 383 ++ List.replicate 32 (0xFFFF : Word)).length = 33
    ∧ fieldW (out1 383 ++ List.replicate 32 (0xFFFF : Word)) 0 ≤ 383 ∧ bufferWf ready.store.buffer = true := by decide

theorem witness_store_initialize :
    restoring unrestoredPart = false ∧ inFallback unrestoredPart = false ∧ committing unrestoredPart = false
    ∧ isUnrestored unrestoredPart = true ∧ isUnrestored ready = false := by decide

/-- The load buffer holds these words. -/
def loadable (ws : Block) : State := ready.setStore { ready.store with buffer := writeWords 0 ws [] }

theorem loadable_words (ws : Block) (h : ws.length = 12288) : bufferWords (loadable ws).store.buffer = ws :=
  bufferWords_writeWords ws [] h rfl

theorem loadable_modes (ws : Block) :
    restoring (loadable ws) = false ∧ inFallback (loadable ws) = false ∧ settling (loadable ws) = false
    ∧ committing (loadable ws) = false ∧ clockIsUnset (loadable ws) = true := ⟨rfl, rfl, rfl, rfl, rfl⟩

theorem imageWords_length (n : BitVec 32) (m : Image) : (imageWords n m).length = 12288 := by
  unfold imageWords
  simp only [List.length_append, imageBody_length, List.length_singleton]

theorem imageWords_crc (n : BitVec 32) (m : Image) : crcHolds (imageWords n m) = true := by
  have hl := imageBody_length n m
  unfold crcHolds imageWords
  simp only
  rw [← hl, List.take_left, List.getD_eq_getElem?_getD, List.getElem?_append_right (Nat.le_refl _)]
  simp

theorem default_read : imageRead (imageWords 7 Image.default) = some Image.default := by decide +kernel

theorem witness_store_load_end :
    ∃ (s : State) (m : Image), restoring s = false ∧ inFallback s = false ∧ settling s = false ∧ committing s = false
    ∧ clockIsUnset s = true ∧ crcHolds (bufferWords s.store.buffer) = true
    ∧ imageRead (bufferWords s.store.buffer) = some m ∧ m.consistent = true := by
  obtain ⟨h1, h2, h3, h4, h5⟩ := loadable_modes (imageWords 7 Image.default)
  have hw := loadable_words (imageWords 7 Image.default) (imageWords_length _ _)
  exact ⟨_, Image.default, h1, h2, h3, h4, h5, by rw [hw]; exact imageWords_crc _ _, by rw [hw]; exact default_read,
    by decide⟩

/-! ### Directions, cuts, confirmations and assessments -/

set_option maxRecDepth 20000 in
/-- The direction state suits T_raw (R101, R102): INJECTING with T_raw 0 while S is away from 0, and the end of the
direction when the ramp brings S to 0. -/
theorem witness_direction :
    let s := ready.setFlow ⟨0, 0, 400, .injecting, some .inject, 0, none, 1000, 0⟩
    directionSettled injecting.flow = true ∧ directionSettled s.flow = true ∧ setpointSafe s.flow = true
    ∧ s.flow.dir ≠ .hold ∧ s.flow.setpoint ≠ 0
    ∧ after (exec .rampStep s) (fun t => (t.flow.setpoint, t.flow.dir, t.evq.entries.getLast?.map (fun e => (e.kind, e.value))))
        = some (0, .hold, some (.directionChanged, some (FlowDir.hold.code : Int))) := by decide

/-- The three cases of a recut: an hour within the capacities, one beyond injection whose firm record is cut after the
interruptible one, one beyond withdrawal (R56, R61). -/
theorem witness_recut :
    let s := (running.setDuty { running.duty with declared := 300 }).setSched
      [⟨11, 0, .inject, .firm, 300, 300, .confirmed, none, 0⟩, ⟨12, 0, .inject, .firm, 400, 400, .confirmed, none, 0⟩,
       ⟨12, 1, .inject, .interruptible, 50, 50, .confirmed, none, 0⟩, ⟨13, 0, .inject, .firm, 9, 9, .confirmed, none, 0⟩,
       ⟨13, 1, .withdraw, .firm, 20, 20, .confirmed, none, 0⟩]
    (recut s).sched.map (fun r => r.confirmed) = [300, 300, 0, 9, 9] := by decide

/-- A lead that rises from 2 to 4 in gas hour 10 confirms the hours 13 and 14 (R58). -/
theorem witness_lead_rise :
    let b := outSite { booked.site with lead := 4 }
    booked.settled ∧ b.length = 29 ∧ siteInRange (siteOf b) = true ∧ (siteOf b).stopFraction < (siteOf b).startFraction
    ∧ booked.site.lead < (siteOf b).lead ∧ clockIsUnset booked = false ∧ capacitiesCurrent booked = true
    ∧ (siteOf b).injRight = booked.site.injRight ∧ (siteOf b).wdrRight = booked.site.wdrRight
    ∧ (∀ r ∈ booked.sched, r.hour ≤ booked.book.confirmedThrough)
    ∧ after (exec (.siteSet b) booked) (fun t => (t.book.confirmedThrough, t.sched.map (fun r => (r.hour, r.confirmed)),
        decide (t.dry.capacity = booked.dry.capacity))) = some (14, [(13, 0), (14, 0)], true) := by decide +kernel

/-- At the end of hour 23 with rotation on, unit 1 with 5 run seconds goes last of the units in service (R133). -/
theorem witness_day_rolled :
    let s := closing 23
    let d (u : CUnit) (n : Nat) : CUnit := { u with state := .cold, runSeconds := n }
    let r := (s.setSite { s.site with rotation := true }).setDuty { s.duty with
      units := setVec (setVec s.duty.units 1 (d s.duty.units[(1 : Fin 6)] 5)) 4 (d s.duty.units[(4 : Fin 6)] 0) }
    r.settle.inFlight = none ∧ (23 : Nat) ≠ lastHour ∧ r.site.rotation = true
    ∧ after (exec .hourBoundary r) (fun t => (t.duty.roster.toList, (t.evq.entries.drop 1).map (fun e => (e.kind, e.value))))
        = some ([4, 1, 0, 2, 3, 5], [(.dayRolled, some 410235)]) := by decide +kernel

/-- With 700 kWh of injection of slot 0 in settlement, a transfer from slot 0 and slot 1 CLOSING. -/
def posting : State := (trading.setAcct { trading.acct with
  slots := setVec trading.acct.slots 1 (some { bolt with state := .closing }), transfers := [⟨0, 0, 1, 50⟩] }).setSettle
    { trading.settle with inFlight := some ⟨9, 700, 0, 0, [⟨9, 0, .inject, .firm, 700, 700, .confirmed, none, 0⟩]⟩ }

/-- The clamp, the settled hour, the transfer a CLOSING slot does not take and the release come in this order, and the SBA takes
200 kWh of the clamp and the 100 of the release (R34 to R36, R82 to R87). -/
theorem witness_settlement_events :
    alertSafe posting = true
    ∧ after (exec .settlementCompletion posting) (fun t => (t.evq.entries.drop 1).map (fun e => (e.kind, e.subject, e.value)))
        = some [(.clampFull, some 0, some 200), (.hourSettled, none, some 9), (.transferFailed, none, some 1),
          (.slotReleased, some 1, some 100)]
    ∧ after (exec .settlementCompletion posting) (fun t => (t.acct.slots[(1 : Fin 24)], t.acct.sba)) = some (none, -300) := by
  decide +kernel

/-- Train A's beds and mask and the beds told, once it is brought in with two beds. -/
def broughtIn (lo hi : Bed) : Option (List BedState × Nat × List (Option Int)) :=
  after (exec (.trainServiceIn (out1 0 ++ out1 1)) (trainIn .out { Train.unconfigured with lo, hi })) (fun t =>
    let y := t.dry.trains[(0 : Fin 2)]
    ([y.lo.state, y.hi.state], y.mask, (t.evq.entries.filter (fun e => e.kind == .bedSwap)).map (fun e => e.value)))

set_option maxRecDepth 20000 in
/-- A train brought in without an ADSORBING bed takes its lowest-indexed READY bed (R151). -/
theorem witness_train_in_takes_a_bed :
    (1 : Fin 2) ≠ 0 ∧ sharesCurrent (trainIn .out Train.unconfigured) = true
    ∧ [broughtIn ⟨.ready, 0, 0⟩ ⟨.ready, 0, 0⟩, broughtIn ⟨.heating, 9, 5⟩ ⟨.ready, 0, 0⟩,
        broughtIn ⟨.heating, 9, 5⟩ ⟨.adsorbing, 9, 0⟩]
      = [some ([.adsorbing, .ready], 180, [some 0]), some ([.heating, .adsorbing], 180, [some 1]),
        some ([.heating, .adsorbing], 0, [])] := by decide

/-- Train A with dew-point timers and two delays, as the part withdraws. -/
def dewing (st : TrainState) (excursion recovery : Option Nat) (delay : Nat) : State :=
  let s := based (trainIn st { Train.unconfigured with excursion, recovery })
  let x := s.dry.trains[(0 : Fin 2)]
  (putTrain 0 { x with cfg := { x.cfg with excursionDelay := delay, recoveryDelay := delay } } s).setFlow
    ⟨0, 0, 0, .withdrawing, some .withdraw, 0, none, 0, 0⟩

/-- Train A's state and dew-point timers after a report of a dew point. -/
def assessed (s : State) (dew : Int) : Option (TrainState × List (Option Nat)) :=
  after (exec (.stationReport (report [0, 0, 0] ([100, 200] ++ outI dew))) s) (fun t =>
    let y := t.dry.trains[(0 : Fin 2)]; (y.state, [y.excursion, y.recovery]))

/-- The assessment a report brings: a dew point of -5 °C is above the spec of -8 °C, one of -13 °C below the warn level of
-12 °C. Each starts its timer, lets a running one run on, or stops it; without a delay the state changes at once (R153, R155). -/
theorem witness_report_assesses :
    setpointSafe (dewing .online none none 120).flow = true ∧ capacitiesCurrent (dewing .offSpec none none 0) = true
    ∧ [assessed (dewing .online none none 120) (-50), assessed (dewing .online (some 7) none 120) (-50),
        assessed (dewing .online (some 7) none 120) (-80), assessed (dewing .online none none 0) (-50)]
      = [some (.online, [some 120, none]), some (.online, [some 7, none]), some (.online, [none, none]),
        some (.offSpec, [none, none])]
    ∧ [assessed (dewing .offSpec none none 300) (-130), assessed (dewing .offSpec none (some 7) 300) (-120),
        assessed (dewing .offSpec none none 0) (-130)]
      = [some (.offSpec, [none, some 300]), some (.offSpec, [none, none]), some (.online, [none, none])] := by
  decide +kernel

/-- Train A is OUT with an ADSORBING bed of 700 kg and a partner; TRAIN SET gives it a bed capacity of 900 kg. -/
def setOn (swapPoint : Nat) (partner : BedState) : Option (List BedState × List Bool × List EventKind) :=
  let b : Block := out1 0 ++ outTrainCfg 0 ⟨8000000, 500, some 1, swapPoint, 600, 600, 7, 0, -80, -120, 0, 0, 600⟩
  after (exec (.trainSet b) (trainIn .out { Train.unconfigured with
    lo := ⟨.adsorbing, 700 * 3600000000, 0⟩, hi := ⟨partner, 0, 0⟩, degraded := true })) (fun t =>
      let y := t.dry.trains[(0 : Fin 2)]
      ([y.lo.state, y.hi.state], [y.degraded, y.deferred], (t.evq.entries.drop 1).map (fun e => e.kind)))

set_option maxRecDepth 20000 in
/-- The bed test of TRAIN SET: below the swap point, at it with a READY partner, and at it with none (R148, R149, R156). -/
theorem witness_train_set_tests_the_bed :
    [setOn 1000 .ready, setOn 500 .ready, setOn 500 .heating]
      = [some ([.adsorbing, .ready], [false, false], []), some ([.heating, .adsorbing], [false, false], [.bedSwap]),
        some ([.adsorbing, .heating], [false, true], [.bedSwapDeferred])] := by decide

/-- At a mask's end a dew point at the warn level is told, once (R154). -/
theorem witness_mask_warns :
    let shown (armed : Bool) (dew : Int) := after (exec (.maskExpiry 0) (trainIn .online { Train.unconfigured with
      mask := 1, armed, dew })) (fun t => ((t.dry.trains[(0 : Fin 2)]).armed, (t.evq.entries.drop 1).map (fun e => e.value)))
    [shown true (-120), shown false (-120), shown false (-121)]
      = [some (false, [some (-120)]), some (false, []), some (true, [])] := by decide

/-- A share equal to its cap is no excess (R19 step 5): 7 among weights 3 and 4 with the caps 3 and 4. -/
theorem witness_divider_at_its_caps :
    let ps : List Participant := [.start 5 3 (some 3), .start 2 4 (some 4)]
    0 < (ps.map (fun p => p.weight)).sum ∧ (ps.map (fun p => p.index)).eraseDups.length = 2
    ∧ divide 7 ps = ⟨[3, 4], 0⟩ := by decide

set_option maxRecDepth 20000 in
/-- The direction that train A's excursion ends is not followed by train B after it: S is 0 and the part stands in HOLD, so that
B stands by (R141). -/
theorem test_direction_ended_by_the_first_train :
    let x : Train := { Train.unconfigured with state := .standby, dew := 0 }
    let s := (ready.setDry { ready.dry with
      trains := setVec (setVec ready.dry.trains 0 { x with cfg := { x.cfg with nominal := 5, spec := -80, excursionDelay := 0, maskChoice := 0 } }) 1 x
      capacity := 5 }).setFlow ⟨0, 0, -1, .withdrawing, some .withdraw, 0, none, 0, 5⟩
    let t := followDirection handWithdrawal (s.setSite { s.site with wdrRight := 9 })
    (t.flow.dir, (t.dry.trains[(0 : Fin 2)]).state, (t.dry.trains[(1 : Fin 2)]).state) = (.hold, .offSpec, .standby) := by
  decide

/-- RESUME in mode 2 loads the timeout of 30 s, a valid frame in mode 1 likewise (R171, R174). -/
theorem witness_loaded_timeout :
    after (exec (.resume []) (ready.setSup ⟨2, 30, .fallback, none, 9, true⟩)) (fun t => (t.sup.timer, t.sup.loaded))
      = some (some 30, 30)
    ∧ (let t := validFrame 0x12 0 [] (ready.setSup ⟨1, 30, .normal, none, 9, false⟩)
       (t.sup.timer, t.sup.loaded, t.sup.firstFrame) = (some 30, 30, true)) := by decide

theorem witness_adoption_keeps_the_schedule :
    (loadable []).flow.dir = .hold ∧ (loadable []).duty.declared ≤ 0 ∧ (loadable []).dry.capacity ≤ 0
    ∧ ((Image.default.trains[(0 : Fin 2)]).service = false) := by decide

/-! ### Checks in order, codes, frames and recuts -/

/-- The status a request row's table gives, and the status of the reply it is answered with. -/
def statuses (c : Instr) (s : State) : Option Status × Option Status :=
  (((requestChecks s c).find? (fun x => !x.1)).map (fun x => x.2), (after (exec c s) (fun t => t.link.reply.map (fun r => r.status))).join)

set_option maxRecDepth 20000 in
/-- The check that fails first gives the status (R2, R17, R24, R26 to R28, R30, R33). -/
theorem witness_account_checks :
    [statuses (.clockSet [0, 24, 0]) ready, statuses (.clockSet [0, 0, 0]) ready, statuses (.clockSet [0, 24, 0]) running,
      statuses (.curveWrite [16, 2, 0, 0, 1, 0]) ready, statuses (.curveWrite [0, 2, 1, 0, 1, 0]) ready,
      statuses (.accountOpen ([7, 0, 0, 9] ++ List.replicate 4 0 ++ [65535, 65535])) trading,
      statuses (.accountSuspend [9, 2]) trading, statuses (.accountSuspend [7, 2]) trading,
      statuses (.accountClose [7]) trading, statuses (.accountAdjust [7, 0, 0, 501]) trading,
      statuses (.accountRead [24]) trading, statuses (.transfer [7, 7, 0, 0, 1]) trading]
    = [.range, .range, .state, .range, .range, .state, .unknownShipper, .range, .state, .range, .range, .range].map
        (fun st => (some st, some st)) := by decide +kernel

set_option maxRecDepth 20000 in
/-- The check that fails first gives the status (R45, R48, R68, R109, R129, R131, R132, R140, R156). -/
theorem witness_book_and_configuration_checks :
    [statuses (.nominate [7, 0, 0, 0, 12, 0, 13, 0, 5]) booked, statuses (.nominate [7, 2, 0, 0, 12, 0, 13, 0, 5]) booked,
      statuses (.nominate [7, 0, 0, 0, 13, 0, 13, 0, 5])
        (booked.setBook { booked.book with entries := List.replicate 256 { entry with next := 14 } }),
      statuses (.cancel [7, 0, 0, 0, 9, 0, 12]) booked, statuses (.bookStatistics [65535, 0, 0]) booked,
      statuses (.siteSet (outSite { booked.site with lead := 5 })) booked,
      statuses (.siteSet (outSite { booked.site with startFraction := 500, stopFraction := 500 })) booked,
      statuses (.unitSet [6, 0, 1, 0, 0, 0]) ready, statuses (.unitSet [0, 0, 1, 0, 0, 0]) ready,
      statuses (.unitEnable [0, 1]) ready, statuses (.rosterSet [0, 1, 2, 3, 4, 4]) ready,
      statuses (.trainServiceIn [0, 2]) ready, statuses (.trainServiceIn [0, 1]) ready]
    = [.late, .range, .noRoom, .late, .range, .range, .range, .range, .range, .state, .range, .range, .state].map
        (fun st => (some st, some st)) := by decide +kernel

/-- No row has the code 0x13: it is outside the catalogue (section 8.4). -/
theorem witness_unknown_code : ∀ (c : Instr) (b : Block), c.request ≠ some (0x13, b) := by
  intro c b
  cases c <;> simp [Instr.request]

set_option maxRecDepth 20000 in
/-- A frame waits while a reply is sent (R161); the link byte of counter 5 in FALLBACK with the clock UNSET, and the bytes of
the reply frame that carries it (section 8.2). -/
theorem witness_reply_frame :
    (let s := ready.setLink { ready.link with
        reply := some ⟨0x12, 9, .ok, 0, []⟩, inHand := some ⟨0x12, 9, 4, []⟩, holding := some ⟨0x13, 8, 5, []⟩ }
     s.link.reply ≠ none ∧ s.link.restartDue = false ∧ restoring s = false
     ∧ after (exec .replySent s) (fun t => t.link.reply) = some (some ⟨0x13, 8, .unknownRequest, 0x54, []⟩))
    ∧ linkByte 5 fallen = 0x55
    ∧ replyBytes ⟨0x22, 7, .state, 0x55, [0x0102]⟩ = [0x3C, 1, 0x22, 7, 4, 0x55, 1, 2] ++ wordBytes (crc [1, 0x22, 7, 4, 0x55, 1, 2])
    := by decide

/-- Unit 0, LOADED with 1000 kW declared, and 900 kWh of injection confirmed for hour 11, in gas hour 10. -/
def planned : State := ((evaluated .loaded 0 3).setClock ⟨.running, 10, 100, 3600, 0, 9⟩).setSched
  [⟨10, 0, .inject, .firm, 700, 700, .confirmed, none, 0⟩, ⟨11, 0, .inject, .firm, 900, 900, .confirmed, none, 0⟩]

set_option maxRecDepth 20000 in
/-- Disabling the unit takes the declared capacity to 0: the later hour is recut to it, and the current one is not (R60, R61,
R130). -/
theorem witness_disable_recuts :
    planned.plain ∧ capacitiesCurrent planned = true ∧ planned.duty.declared = 1000
    ∧ after (exec (.unitDisable [0, 0]) planned) (fun t => (t.duty.declared, t.sched.map (fun r => (r.confirmed, r.recuts)),
        t.evq.entries.map (fun e => (e.kind, e.value)))) = some (0, [(700, 0), (0, 1)], [(.restarted, some 1), (.recut, some 11)]) := by
  decide

set_option maxRecDepth 20000 in
/-- A SITE SET that lowers the injection right to 600 at the same lead recuts the later hour to 600, and one that lowers nothing
leaves the schedule (R59, R109). -/
theorem witness_site_set_recuts :
    let lower := outSite { planned.site with injRight := 600 }
    let same := outSite planned.site
    planned.settled ∧ lower.length = 29 ∧ siteInRange (siteOf lower) = true ∧ (siteOf lower).lead ≤ planned.site.lead
    ∧ after (exec (.siteSet lower) planned) (fun t => (t.duty.declared, t.sched.map (fun r => r.confirmed)))
      = some (600, [700, 600])
    ∧ after (exec (.siteSet same) planned) (fun t => (t.duty.declared, decide (t.sched = planned.sched)))
      = some (1000, true) := by
  decide +kernel

/-- A consistent image and two that R180's list refuses: a roster that names a unit twice, and a balance that is off. -/
theorem witness_consistency :
    Image.default.consistent = true
    ∧ ({ Image.default with roster := ⟨#[0, 1, 2, 3, 4, 4], rfl⟩ } : Image).consistent = false
    ∧ ({ Image.default with sba := 1 } : Image).consistent = false := by decide

end Sys2Proof.Tests
end

section
/-! SUPPORT. The clock and curve requests of chapter 1: what each comes to check by check, and from that what CLOCK TRIM,
CURVE CLEAR and CURVE READ answer. -/

namespace Sys2Proof.Machine

/-! ### Checks and fields -/

/-- Requests apply their checks one by one (R163). -/
theorem checked_cons (holds : Bool) (st : Status) (l : List (Bool × Status)) (s : State) (e : Answer) :
    checked ((holds, st) :: l) s e = if holds = false then refuse st s else checked l s e := by
  cases holds <;> rfl

theorem checked_nil (s : State) (e : Answer) : checked [] s e = e := rfl

theorem firstFailure_cons (holds : Bool) (st : Status) (l : List (Bool × Status)) :
    firstFailure ((holds, st) :: l) = if holds = false then some st else firstFailure l := by
  cases holds <;> rfl

theorem firstFailure_nil : firstFailure [] = none := rfl

/-- The leading checks of a configuration request, in their order (R163). -/
theorem firstFailure_modeChecks (lengthOk : Bool) (s : State) :
    firstFailure (modeChecks lengthOk s) = if lengthOk = false then some .badLength
      else if isUnrestored s = true then some .unrestored else if inFallback s = true then some .fallback else none := by
  simp only [modeChecks, firstFailure_cons, firstFailure_nil, Bool.not_eq_false']

theorem fieldFin_eq_none {n : Nat} {b : Block} {i : Nat} (h : n ≤ fieldW b i) : fieldFin n b i = none :=
  dif_neg (Nat.not_lt.mpr h)

theorem fieldFin_eq_some {n : Nat} {b : Block} {i : Nat} {k : Fin n} (h : fieldW b i = k.val) :
    fieldFin n b i = some k := by
  simp [fieldFin, h]

/-! ### CLOCK TRIM (R7) -/

/-- The gas hour that remains is the new hour end less the second, as an integer or in the model's counting numbers. -/
theorem clockTrimEffect_eq (t : Int) (s : State) :
    clockTrimEffect t s =
      taken (out1 (s.clock.hourEnd + t).toNat ++ out1 (s.clock.hourEnd + t - s.clock.sec).toNat)
        (s.setClock { s.clock with hourEnd := (s.clock.hourEnd + t).toNat, trim := s.clock.trim + t }) := by
  have hleft : (s.clock.hourEnd + t).toNat - s.clock.sec = (s.clock.hourEnd + t - s.clock.sec).toNat := by omega
  simp only [clockTrimEffect, hleft]

/-- CLOCK TRIM check by check. -/
theorem reqClockTrim_eq (b : Block) (s : State) :
    reqClockTrim b s =
      if b.length ≠ 1 then refuse .badLength s
      else if isUnrestored s = true then refuse .unrestored s
      else if inFallback s = true then refuse .fallback s
      else if s.clock.state = .unset then refuse .clockUnset s
      else if ¬(-60 ≤ fieldI b 0 ∧ fieldI b 0 ≤ 60) then refuse .range s
      else if ¬(-60 ≤ s.clock.trim + fieldI b 0 ∧ s.clock.trim + fieldI b 0 ≤ 60) then refuse .range s
      else if s.clock.hourEnd + fieldI b 0 - s.clock.sec < 60 then refuse .range s
      else taken (out1 (s.clock.hourEnd + fieldI b 0).toNat ++ out1 (s.clock.hourEnd + fieldI b 0 - s.clock.sec).toNat)
        (s.setClock { s.clock with
          hourEnd := (s.clock.hourEnd + fieldI b 0).toNat, trim := s.clock.trim + fieldI b 0 }) := by
  simp only [reqClockTrim, modeChecks, List.cons_append, List.nil_append, checked_cons, checked_nil, clockIsUnset,
    Bool.not_eq_false', beq_iff_eq, beq_eq_false_iff_ne, ← Bool.decide_and, decide_eq_false_iff_not, not_le, ne_eq,
    clockTrimEffect_eq]

/-- A gas hour that the trim alone has moved stays within 3,540 to 3,660 s while the trim used stays within 60 s. -/
theorem hourEnd_trimmed_bounds {c : Clock} {t : Int} (hsafe : clockSafe c = true) (hrun : c.state = .running)
    (hlow : -60 ≤ c.trim + t) (hhigh : c.trim + t ≤ 60) : 3540 ≤ c.hourEnd + t ∧ c.hourEnd + t ≤ 3660 := by
  have hend : (c.hourEnd : Int) = 3600 + c.trim := by
    simp only [clockSafe, hrun, Bool.and_eq_true, decide_eq_true_eq] at hsafe
    obtain ⟨⟨⟨⟨_, hend⟩, _⟩, _⟩, _⟩ := hsafe
    exact hend
  omega

/-- Settles O29: the statement's branches are those of `reqClockTrim_eq`, one by one, and the bound on the hour is the bound
on the trim used. -/
theorem clockTrimMovesTheHourEnd : Obligations.ClockTrimMovesTheHourEnd := by
  intro s b hs
  have row : answers (.clockTrim b) 0x11 (reqClockTrim b s).status (reqClockTrim b s).out s (reqClockTrim b s).after :=
    answers_of_serve rfl hs rfl
  refine ⟨?_, hourEnd_trimmed_bounds⟩
  rw [reqClockTrim_eq] at row
  split_ifs at row ⊢ <;> exact row

/-! ### The curve requests (R15, R18) -/

theorem any_toList_iff_exists {α : Type} {n : Nat} (v : Vector α n) (p : α → Bool) :
    v.toList.any p = true ↔ ∃ j : Fin n, p v[j] = true := by
  rw [Vector.any_toList, Vector.any_eq_true]
  exact (Fin.exists_iff (p := fun j : Fin n => p v[j] = true)).symm

/-- A curve is referenced where a record of an account, a unit or a train names it (R15). -/
theorem curveReferenced_iff (s : State) (i : Fin 16) :
    curveReferenced s i = true ↔
      (∃ (j : Fin 24) (a : Account), s.acct.slots[j] = some a ∧ (a.injCurve = some i ∨ a.wdrCurve = some i))
      ∨ (∃ j : Fin 6, (s.duty.units[j]).cfg.curve = some i) ∨ ∃ j : Fin 2, (s.dry.trains[j]).cfg.curve = some i := by
  rw [curveReferenced, Bool.or_eq_true, Bool.or_eq_true, or_assoc]
  simp only [any_toList_iff_exists, beq_iff_eq]
  refine or_congr_left (exists_congr fun j => ?_)
  cases s.acct.slots[j] <;> simp

/-- A curve replaced by the points it has leaves the part as it was: so a clear of an unwritten one (R18). -/
theorem putCurve_self (s : State) (i : Fin 16) : putCurve i s.curves[i] s = s := by
  rw [putCurve, setVec_self]
  rfl

section
variable {s : State} {b : Block}

theorem reqCurveClear_refused {st : Status} (h : firstFailure (modeChecks (b.length == 1) s) = some st) :
    reqCurveClear b s = refuse st s := by
  simp only [reqCurveClear, h]

theorem reqCurveClear_unknown (h : firstFailure (modeChecks (b.length == 1) s) = none) (hi : 15 < fieldW b 0) :
    reqCurveClear b s = refuse .range s := by
  simp only [reqCurveClear, h, fieldFin_eq_none hi]

theorem reqCurveClear_named {i : Fin 16} (h : firstFailure (modeChecks (b.length == 1) s) = none)
    (hi : fieldW b 0 = i.val) :
    reqCurveClear b s = if curveReferenced s i = true then refuse .state s else taken [] (putCurve i [] s) := by
  simp only [reqCurveClear, h, fieldFin_eq_some hi, checked_cons, checked_nil, Bool.not_eq_false']

theorem reqCurveRead_misfit (h : b.length ≠ 1) : reqCurveRead b s = refuse .badLength s := if_neg h

theorem reqCurveRead_unknown (h : b.length = 1) (hi : 15 < fieldW b 0) : reqCurveRead b s = refuse .range s := by
  simp only [reqCurveRead, if_pos h, fieldFin_eq_none hi]

theorem reqCurveRead_named {i : Fin 16} (h : b.length = 1) (hi : fieldW b 0 = i.val) :
    reqCurveRead b s = taken (out1 (s.curves[i]).length ++ (s.curves[i]).flatMap (fun p => outI p.x ++ out1 p.y)) s := by
  simp only [reqCurveRead, if_pos h, fieldFin_eq_some hi]
end

/-- Settles O31: the checks of both requests in their order, then the curve named. -/
theorem curveClearAndCurveRead : Obligations.CurveClearAndCurveRead := by
  intro s b hs
  have clear : ∀ a, reqCurveClear b s = a → answers (.curveClear b) 0x16 a.status a.out s a.after :=
    fun _ => answers_of_serve rfl hs
  have read : ∀ a, reqCurveRead b s = a → answers (.curveRead b) 0x15 a.status a.out s a.after :=
    fun _ => answers_of_serve rfl hs
  have modes := firstFailure_modeChecks (b.length == 1) s
  have modesHold (hlen : b.length = 1) (hp : s.plain) : firstFailure (modeChecks (b.length == 1) s) = none := by
    obtain ⟨_, hunrest, hfall⟩ := hp
    rw [modes, hlen, hunrest, hfall]
    rfl
  refine ⟨fun hlen => ⟨clear (refuse .badLength s) (reqCurveClear_refused ?_), read _ (reqCurveRead_misfit hlen)⟩,
    fun hlen hunrest => clear (refuse .unrestored s) (reqCurveClear_refused ?_),
    fun hlen hunrest hfall => clear (refuse .fallback s) (reqCurveClear_refused ?_),
    fun hlen hp hi => clear _ (reqCurveClear_unknown (modesHold hlen hp) hi),
    fun hlen hi => read _ (reqCurveRead_unknown hlen hi),
    fun i hlen hi => ⟨fun hp href => clear (refuse .state s) ?_, fun hp href => clear (taken [] (putCurve i [] s)) ?_,
      fun hempty => ?_, read _ (reqCurveRead_named hlen hi), curveReferenced_iff s i⟩⟩
  case refine_1 => rw [modes, beq_false_of_ne hlen, if_pos rfl]
  case refine_2 => rw [modes, hlen, hunrest]; rfl
  case refine_3 => rw [modes, hlen, hunrest, hfall]; rfl
  case refine_4 => rw [reqCurveClear_named (modesHold hlen hp) hi, if_pos href]
  case refine_5 => rw [reqCurveClear_named (modesHold hlen hp) hi, href]; rfl
  case refine_6 => exact hempty ▸ putCurve_self s i

end Sys2Proof.Machine
end

section
/-! SUPPORT. What a recomputed target leaves alone (R93, R101 to R106, R141): the flow controller, the trains that follow the
direction, and the recut write only the flow, the drying, the schedule and the event queue. -/

namespace Sys2Proof.Machine

/-- A predicate of the part that no write to the flow, the drying, the schedule or the event queue breaks. -/
structure KeptByFlow (P : State → Prop) : Prop where
  setFlow : ∀ s x, P s → P (s.setFlow x)
  setDry : ∀ s x, P s → P (s.setDry x)
  setSched : ∀ s x, P s → P (s.setSched x)
  setEvq : ∀ s x, P s → P (s.setEvq x)

namespace KeptByFlow

variable {P : State → Prop} (hP : KeptByFlow P) {s : State}
include hP

theorem raise (k : EventKind) (a : Option Nat) (b : Option Int) (h : P s) : P (raise k a b s) := hP.setEvq _ _ h

theorem putTrain (t : Fin 2) (x : Train) (h : P s) : P (putTrain t x s) := hP.setDry _ _ h

theorem reshare (h : P s) : P (reshare s) := hP.setDry _ _ h

/-! ### The recut and the withdrawal capacity (R61, R142) -/

theorem recutHour (n : Nat) (h : P s) : P (recutHour n s) := by
  dsimp only [Machine.recutHour]
  split
  · exact h
  · exact hP.raise _ _ _ (hP.setSched _ _ h)

theorem recut (h : P s) : P (recut s) :=
  foldl_preserves P Machine.recutHour _ (fun n _ _ ht => hP.recutHour n ht) s h

theorem handWithdrawalAtZero (h : P s) : P (handWithdrawalAtZero s) := by
  have hdry := hP.setDry s { s.dry with capacity := withdrawalCapacity s } h
  refine hP.setFlow _ _ ?_
  split
  · exact hP.recut hdry
  · exact hdry

/-! ### The trains: the dew point and the following of the direction (R141, R152 to R155) -/

theorem dewWarning (t : Fin 2) (h : P s) : P (dewWarning t s) := by
  dsimp only [Machine.dewWarning]
  split_ifs
  · exact hP.putTrain _ _ h
  · exact hP.raise _ _ _ (hP.putTrain _ _ h)
  · exact h

theorem sendStandby (t : Fin 2) (h : P s) : P (sendStandby t s) := by
  dsimp only [Machine.sendStandby]
  split
  · exact hP.putTrain _ _ h
  · exact h

section
variable {hand : Hand} (hhand : ∀ s, P s → P (hand s)) (t : Fin 2)
include hhand

theorem takeExcursion (h : P s) : P (takeExcursion hand t s) :=
  hP.raise _ _ _ (hhand _ (hP.reshare (hP.putTrain _ _ h)))

theorem assessSpec (h : P s) : P (assessSpec hand t s) := by
  dsimp only [Machine.assessSpec]
  split_ifs
  · split
    · exact h
    · exact hP.takeExcursion hhand t h
  · split
    · exact h
    · exact hP.putTrain _ _ h
  · exact hP.putTrain _ _ h

theorem assessOnline (h : P s) : P (assessOnline hand t s) := by
  dsimp only [Machine.assessOnline]
  split
  · exact hP.dewWarning t (hP.assessSpec hhand t h)
  · exact h

theorem takeRecovery (h : P s) : P (takeRecovery hand t s) := by
  have hback (x : Train) : P (Machine.raise .onSpec (some t.val) (some (s.dry.trains[t]).dew)
      (hand (Machine.reshare (Machine.putTrain t x s)))) :=
    hP.raise _ _ _ (hhand _ (hP.reshare (hP.putTrain t x h)))
  dsimp only [Machine.takeRecovery]
  split
  · exact hP.assessOnline hhand t (hback _)
  · exact hback _

theorem assessRecovery (h : P s) : P (assessRecovery hand t s) := by
  dsimp only [Machine.assessRecovery]
  split_ifs
  · split
    · exact h
    · exact hP.takeRecovery hhand t h
  · split
    · exact h
    · exact hP.putTrain _ _ h
  · exact hP.putTrain _ _ h

theorem assessOffSpec (h : P s) : P (assessOffSpec hand t s) := by
  dsimp only [Machine.assessOffSpec]
  split
  · exact hP.assessRecovery hhand t (hP.dewWarning t h)
  · exact h

theorem assess (h : P s) : P (assess hand t s) := by
  dsimp only [Machine.assess]
  split
  · exact hP.assessOnline hhand t h
  · exact hP.assessOffSpec hhand t h
  · exact h

theorem loadMask (h : P s) : P (loadMask hand t s) := by
  dsimp only [Machine.loadMask]
  split
  · exact hP.assess hhand t (hP.putTrain _ _ h)
  · exact hP.putTrain _ _ h

theorem bringOnline (h : P s) : P (bringOnline hand t s) := by
  dsimp only [Machine.bringOnline]
  split
  · exact hP.loadMask hhand t (hP.reshare (hP.putTrain _ _ h))
  · exact h

theorem followDirection (h : P s) : P (followDirection hand s) := by
  dsimp only [Machine.followDirection]
  split
  · exact hP.reshare (hP.bringOnline hhand 1 (hP.bringOnline hhand 0 h))
  · exact hP.reshare (hP.sendStandby 1 (hP.sendStandby 0 h))
end

/-! ### The direction machine (R101 to R105) -/

theorem followAtZero (h : P s) : P (Machine.followDirection Machine.handWithdrawalAtZero s) :=
  hP.followDirection (fun _ => hP.handWithdrawalAtZero) h

theorem enterDir (d : FlowDir) (h : P s) : P (enterDir d s) := hP.followAtZero (hP.raise _ _ _ (hP.setFlow _ _ h))

theorem expireTurnaround (h : P s) : P (expireTurnaround s) := hP.enterDir _ (hP.setFlow _ _ h)

theorem enterTurnaround (h : P s) : P (enterTurnaround s) := by
  have hturn (x : Flow) : P (Machine.followDirection Machine.handWithdrawalAtZero
      (Machine.raise .turnaroundBegin none (some (s.site.turnHold : Int)) (s.setFlow x))) :=
    hP.followAtZero (hP.raise _ _ _ (hP.setFlow s x h))
  dsimp only [Machine.enterTurnaround]
  split
  · exact hP.expireTurnaround (hturn _)
  · exact hturn _

theorem endAtZero (h : P s) : P (endAtZero s) := by
  have hleave (d : Prop) [Decidable d] : P (if d then Machine.enterDir .hold s else Machine.enterTurnaround s) := by
    split
    · exact hP.enterDir _ h
    · exact hP.enterTurnaround h
  dsimp only [Machine.endAtZero]
  split
  case h_1 =>
    split
    · exact hleave _
    · exact h
  case h_2 =>
    split
    · exact hleave _
    · exact h
  case h_3 => exact h
  case h_4 => exact h

theorem assessHold (h : P s) : P (assessHold s) := by
  dsimp only [Machine.assessHold]
  split_ifs
  · exact h
  · exact hP.enterDir _ h
  · exact hP.enterDir _ h
  · exact hP.enterTurnaround h

theorem actOnTarget (h : P s) : P (actOnTarget s) := by
  dsimp only [Machine.actOnTarget]
  split
  · exact hP.assessHold h
  · exact hP.endAtZero h
  · exact hP.endAtZero h
  · exact h

theorem recomputeTarget (h : P s) : P (recomputeTarget s) := hP.actOnTarget (hP.setFlow _ _ h)

end KeptByFlow

/-- A recomputed target leaves the supervision as it is. -/
@[simp] theorem recomputeTarget_sup (s : State) : (recomputeTarget s).sup = s.sup :=
  KeptByFlow.recomputeTarget (P := fun t => t.sup = s.sup)
    ⟨fun _ _ h => h, fun _ _ h => h, fun _ _ h => h, fun _ _ h => h⟩ rfl

end Sys2Proof.Machine
end

section
/-! SUPPORT. SUPERVISION SET (R172) and the RESUME after it (R174): the timer set by the mode, the new settings in either link
mode, and what each request comes to. -/

namespace Sys2Proof.Machine

/-! ### The timer set by the mode -/

section
variable (x : Supervision)

@[simp] theorem Supervision.reloaded_mode : x.reloaded.mode = x.mode := by unfold reloaded; split <;> rfl

@[simp] theorem Supervision.reloaded_timeout : x.reloaded.timeout = x.timeout := by unfold reloaded; split <;> rfl

@[simp] theorem Supervision.reloaded_linkMode : x.reloaded.linkMode = x.linkMode := by unfold reloaded; split <;> rfl

@[simp] theorem Supervision.reloaded_firstFrame : x.reloaded.firstFrame = x.firstFrame := by
  unfold reloaded; split <;> rfl

@[simp] theorem Supervision.reloaded_timer :
    x.reloaded.timer = if x.mode = 0 then none else some x.timeout := by
  unfold reloaded; split <;> rfl

theorem Supervision.reloaded_loaded (h : x.mode ≠ 0) : x.reloaded.loaded = x.timeout := by
  rw [reloaded, if_neg h]
end

/-! ### SUPERVISION SET -/

/-- The settings replaced: in NORMAL the timer is set anew, in FALLBACK it stays (R172). -/
def Supervision.replaced (x : Supervision) (mode timeout : Nat) : Supervision :=
  match x.linkMode with
  | .normal => { x with mode := mode, timeout := timeout }.reloaded
  | .fallback => { x with mode := mode, timeout := timeout }

section
variable (x : Supervision) (mode timeout : Nat)

theorem Supervision.replaced_normal (h : x.linkMode = .normal) :
    x.replaced mode timeout = { x with mode := mode, timeout := timeout }.reloaded := by
  simp only [replaced, h]

theorem Supervision.replaced_fallback (h : x.linkMode = .fallback) :
    x.replaced mode timeout = { x with mode := mode, timeout := timeout } := by
  simp only [replaced, h]

/-- In either link mode the new settings stand, and the link mode and the first-frame flag stay. -/
theorem Supervision.replaced_settings :
    (x.replaced mode timeout).mode = mode ∧ (x.replaced mode timeout).timeout = timeout
      ∧ (x.replaced mode timeout).linkMode = x.linkMode ∧ (x.replaced mode timeout).firstFrame = x.firstFrame := by
  cases h : x.linkMode with
  | normal => simp [replaced_normal, h]
  | fallback => simp [replaced_fallback, h]
end

/-- SUPERVISION SET check by check. -/
theorem reqSupervisionSet_eq (b : Block) (s : State) :
    reqSupervisionSet b s =
      if b.length ≠ 2 then refuse .badLength s
      else if isUnrestored s = true then refuse .unrestored s
      else if ¬(fieldW b 0 ≤ 3
        ∧ (fieldW b 1 = 10 ∨ fieldW b 1 = 30 ∨ fieldW b 1 = 60 ∨ fieldW b 1 = 120)) then refuse .range s
      else taken [] (s.setSup (s.sup.replaced (fieldW b 0) (fieldW b 1))) := by
  have effect : reqSupervisionSet b s =
      checked [(b.length == 2, .badLength), (!isUnrestored s, .unrestored),
        (decide (fieldW b 0 ≤ 3) && [10, 30, 60, 120].contains (fieldW b 1), .range)]
        s (taken [] (s.setSup (s.sup.replaced (fieldW b 0) (fieldW b 1)))) := rfl
  have range : (decide (fieldW b 0 ≤ 3) && [10, 30, 60, 120].contains (fieldW b 1)) = false
      ↔ ¬(fieldW b 0 ≤ 3 ∧ (fieldW b 1 = 10 ∨ fieldW b 1 = 30 ∨ fieldW b 1 = 60 ∨ fieldW b 1 = 120)) := by
    simp [← Bool.not_eq_true]
  simp only [effect, checked_cons, checked_nil, range, beq_eq_false_iff_ne, Bool.not_eq_false']

/-! ### RESUME (R174) -/

/-- RESUME in FALLBACK is taken. -/
theorem reqResume_fallback {s : State} (hunrest : isUnrestored s = false) (hfall : inFallback s = true) :
    reqResume [] s = taken [] (gathered resumeEffect s) :=
  checked_ok s _ (by simp [hunrest, hfall])

/-- RESUME taken brings NORMAL back with the timer set by the mode. -/
theorem gathered_resumeEffect_sup (s : State) :
    (gathered resumeEffect s).sup = { s.sup with linkMode := .normal }.reloaded := by
  simp [resumeEffect]

/-- A RESUME taken after the settings were replaced in FALLBACK takes the new settings (R172). -/
theorem resume_takes_settings {t : State} (hs : restoring t = false) (hunrest : isUnrestored t = false)
    (hfall : t.sup.linkMode = .fallback) :
    ∃ u : State, answers (.resume []) 0x05 .ok [] t u ∧ u.sup.mode = t.sup.mode ∧ u.sup.timeout = t.sup.timeout
      ∧ u.sup.timer = if t.sup.mode = 0 then none else some t.sup.timeout := by
  have hreq := reqResume_fallback hunrest (by simp [inFallback, hfall])
  exact ⟨_, answers_of_serve rfl hs hreq, by simp only [taken, gathered_resumeEffect_sup, Supervision.reloaded_mode,
    Supervision.reloaded_timeout, Supervision.reloaded_timer, and_self]⟩

/-- A write to the supervision changes the supervision alone. -/
theorem setSup_changesOnly (s : State) (x : Supervision) : s.changesOnly [.sup] (s.setSup x) := by
  intro p hp
  cases p
  case sup => exact absurd List.mem_cons_self hp
  all_goals rfl

/-- Settles O55: the refusals are the branches of `reqSupervisionSet_eq`; taken, the link mode says which of the two forms of
`Supervision.replaced` stands, and in FALLBACK the RESUME starts from it. -/
theorem supervisionSetReplacesTheSettings : Obligations.SupervisionSetReplacesTheSettings := by
  intro s b hs
  have row : answers (.supervisionSet b) 0x04 (reqSupervisionSet b s).status (reqSupervisionSet b s).out s
      (reqSupervisionSet b s).after := answers_of_serve rfl hs rfl
  rw [reqSupervisionSet_eq] at row
  dsimp only
  split_ifs at row with hlen hunrest hrange
  · rw [if_pos hlen]
    exact row
  · rw [if_neg hlen, if_pos hunrest]
    exact row
  · rw [if_neg hlen, if_neg hunrest, if_neg (not_not_intro hrange)]
    obtain ⟨hmode, htimeout, hlink, hfirst⟩ := s.sup.replaced_settings (fieldW b 0) (fieldW b 1)
    refine ⟨s.setSup (s.sup.replaced (fieldW b 0) (fieldW b 1)), row, hmode, htimeout, hlink, hfirst, fun hnormal => ?_,
      fun hfall => ⟨?_, ?_⟩, setSup_changesOnly s _⟩
    case refine_1 =>
      rw [State.setSup_sup, Supervision.replaced_normal _ _ _ hnormal]
      exact ⟨Supervision.reloaded_timer _, fun hne => Supervision.reloaded_loaded _ hne⟩
    case refine_2 => rw [State.setSup_sup, Supervision.replaced_fallback _ _ _ hfall]
    case refine_3 =>
      have hresume := resume_takes_settings (t := s.setSup (s.sup.replaced (fieldW b 0) (fieldW b 1))) hs
        (Bool.eq_false_of_not_eq_true hunrest) (hlink.trans hfall)
      simpa only [State.setSup_sup, hmode, htimeout] using hresume
  · rw [if_neg hlen, if_neg hunrest, if_pos hrange]
    exact row

end Sys2Proof.Machine
end

section
/-! SUPPORT. RESTART (R182): what the request comes to check by check, what the last byte of a reply brings, and the values a
restart of any cause leaves in the blocks it resets. -/

namespace Sys2Proof.Machine

/-! ### What a restart leaves (R177) -/

section
variable (c : Cause) (s : State)

@[simp] theorem restartWith_link : (restartWith c s).link = { State.reset.link with cause := c } := rfl

@[simp] theorem restartWith_settle : (restartWith c s).settle = State.reset.settle := rfl

@[simp] theorem restartWith_evq :
    (restartWith c s).evq = ⟨[⟨0, none, .restarted, none, some (c.code : Int)⟩], 1, 0, false⟩ := rfl

@[simp] theorem restartWith_store :
    (restartWith c s).store =
      { State.reset.store with copies := abandonedCopies s.store, mark := s.store.mark, held := s.store.held } := rfl

/-- A restart begins the restore, whatever the store was doing. -/
theorem restoring_restartWith : restoring (restartWith c s) = true := by
  rw [restoring, restartWith_store]
  rfl
end

/-! ### RESTART and its reply (R182) -/

/-- RESTART check by check. -/
theorem reqRestart_eq (b : Block) (s : State) :
    reqRestart b s =
      if b.length ≠ 0 then refuse .badLength s
      else if committing s = true then refuse .busy s
      else taken [] (s.setLink { s.link with restartDue := true }) := by
  simp only [reqRestart, checked_cons, checked_nil, beq_eq_false_iff_ne, Bool.not_eq_false']

/-- The last byte of a reply begins the restart that is due. -/
theorem replySent_of_restartDue {s : State} (hdue : s.link.restartDue = true) (hreply : s.link.reply ≠ none) :
    replySent s = restartWith .restartRequest s := by
  obtain ⟨r, hr⟩ := Option.ne_none_iff_exists'.mp hreply
  simp only [replySent, hr, hdue, if_true]

/-- Settles O58: the request's branches are those of `reqRestart_eq`; the restart then follows from the reply's end, and what it
leaves is read off the restart's link, settlement, events and store. -/
theorem restartBeginsWhenItsReplyIsSent : Obligations.RestartBeginsWhenItsReplyIsSent := by
  intro s b hs
  have row : answers (.restart b) 0x06 (reqRestart b s).status (reqRestart b s).out s (reqRestart b s).after :=
    answers_of_serve rfl hs rfl
  have sent (hdue : s.link.restartDue = true) (hreply : s.link.reply ≠ none) :
      exec .replySent s = .next (restartWith .restartRequest s) :=
    congrArg Host.Outcome.next (replySent_of_restartDue hdue hreply)
  refine ⟨?_, sent, ?cause, ?settlement, ?holding, ?entries, restoring_restartWith .restartRequest s⟩
  · rw [reqRestart_eq] at row
    split_ifs at row ⊢ <;> exact row
  case cause => rw [restartWith_link]
  case settlement => rw [restartWith_settle]; rfl
  case holding => rw [restartWith_link]; rfl
  case entries => rw [restartWith_evq]; rfl

end Sys2Proof.Machine
end

section
/-! SUPPORT. The step, the reset and the restarts: what the queue's front command is, what State.reset holds, and what a restart
of any cause leaves (R177). -/

namespace Sys2Proof.Machine

/-- Settles O1: the two cases of `step`, the queue's front and the empty queue. -/
theorem stepTakesTheFrontCommand : Obligations.StepTakesTheFrontCommand := by
  refine ⟨fun c rest s h => ?_, fun s h => ?_⟩
  · rw [step, h]
  · rw [step, h]

/-! ### What the blocks hold after a restart -/

/-- What the reset state holds of the restart rules does not depend on queue, counter, cause, copies, mark or held number. -/
theorem restartValues_restartWith (c : Cause) (s : State) : restartValues (restartWith c s) := by
  have hunit : ∀ i : Fin 6, State.reset.duty.units[i] = CUnit.unconfigured := by decide
  have htrain : ∀ j : Fin 2, State.reset.dry.trains[j] = Train.unconfigured := by decide
  have halloc : ∀ i : Fin 24, State.reset.settle.alloc[i] = none := by decide
  refine ⟨⟨rfl, rfl, rfl, rfl, rfl⟩, ⟨rfl, rfl, rfl, rfl, rfl⟩, rfl, ⟨rfl, rfl, halloc⟩,
    ⟨rfl, rfl, rfl, rfl, rfl, rfl, rfl⟩, ⟨rfl, fun i => ?units⟩, ⟨rfl, fun j => ?trains⟩,
    ⟨rfl, rfl, rfl, rfl, rfl, rfl, rfl⟩, ⟨rfl, rfl, rfl⟩, ⟨rfl, rfl, rfl⟩, ⟨rfl, rfl, fun n => ?permits, fun j => ?diverts, rfl⟩⟩
  case units =>
    simp only [show (restartWith c s).duty = State.reset.duty from rfl, hunit i, CUnit.unconfigured, and_self]
  case trains =>
    simp only [show (restartWith c s).dry = State.reset.dry from rfl, htrain j, Train.unconfigured, and_self]
  case permits =>
    change (State.reset.duty.units[n]).state.runs = false
    rw [hunit n]
    rfl
  case diverts =>
    change ((State.reset.dry.trains[j]).state == .offSpec) = false
    rw [htrain j]
    rfl

/-- The part right after supply is applied holds the restart values. -/
theorem restartValues_reset : restartValues State.reset := restartValues_restartWith .powerOn State.reset

/-- Settles O2. -/
theorem resetLeavesRestartValues : Obligations.ResetLeavesRestartValues :=
  ⟨restartValues_reset, rfl, rfl, by decide, by decide⟩

/-- Settles O3: each invariant evaluated at the reset state. -/
theorem resetMeetsEveryInvariant : Obligations.ResetMeetsEveryInvariant := by
  refine ⟨?_, ?_, ?_, ?_, ?_, ?_, ?_, ?_, ?_, ?_, ?_, ?_, ?_⟩ <;> decide

/-- Settles O57: the rows are the restart of their cause, and its fields are those of the reset state but for the cause, the
copies, the mark, the held number and the queue of commands. -/
theorem restartsBeginTheRestore : Obligations.RestartsBeginTheRestore := by
  intro s
  refine ⟨rfl, rfl, rfl, rfl, fun c => ⟨restartValues_restartWith c s, rfl, rfl, rfl, rfl, fun h => ?_, fun h => ?_, rfl⟩⟩
  · rw [restartWith_store]
    unfold committing at h
    unfold abandonedCopies
    split <;> simp_all
  · rw [restartWith_store]
    unfold committing at h
    unfold abandonedCopies otherCopy
    split <;> simp_all

end Sys2Proof.Machine
end

section
/-! SUPPORT. The pro-rata divider (R19, R20): ranks in a strict total order, one round, and the rounds. -/

namespace Sys2Proof.Machine

/-! ### Ranks -/

/-- In a strict total order the members of a finite set with fewer than `m` members before them are `m` of them, or all. -/
theorem card_rank_lt {ι : Type} (S : Finset ι) (r : ι → ι → Prop) [DecidableRel r] (m : Nat)
    (irrefl : ∀ i, ¬ r i i) (trans : ∀ i j k, r i j → r j k → r i k) (total : ∀ i j, i ≠ j → r i j ∨ r j i) :
    (S.filter (fun i => (S.filter (fun j => r j i)).card < m)).card = min m S.card := by
  classical
  let rank (i : ι) : Nat := (S.filter (fun j => r j i)).card
  have mono (i j : ι) (hi : i ∈ S) (h : r i j) : rank i < rank j := by
    refine Finset.card_lt_card ⟨fun k hk => ?_, fun hsub => ?_⟩
    · rw [Finset.mem_filter] at hk ⊢
      exact ⟨hk.1, trans _ _ _ hk.2 h⟩
    · exact irrefl i (Finset.mem_filter.mp (hsub (Finset.mem_filter.mpr ⟨hi, h⟩))).2
  have inj : Set.InjOn rank S := by
    intro i hi j hj hij
    by_contra hne
    rcases total i j hne with h | h
    · exact absurd hij (mono i j hi h).ne
    · exact absurd hij (mono j i hj h).ne'
  have himage : S.image rank = Finset.range S.card := by
    refine Finset.eq_of_subset_of_card_le (fun k hk => ?_) (by rw [Finset.card_range, Finset.card_image_of_injOn inj])
    obtain ⟨i, hi, rfl⟩ := Finset.mem_image.mp hk
    refine Finset.mem_range.mpr (Finset.card_lt_card ⟨Finset.filter_subset _ _, fun hsub => ?_⟩)
    exact irrefl i (Finset.mem_filter.mp (hsub hi)).2
  calc (S.filter (fun i => rank i < m)).card
      = ((S.filter (fun i => rank i < m)).image rank).card :=
        (Finset.card_image_of_injOn (inj.mono (Finset.coe_subset.mpr (Finset.filter_subset _ _)))).symm
    _ = ((S.image rank).filter (· < m)).card := by rw [Finset.filter_image]
    _ = min m S.card := by
        rw [himage]
        have : (Finset.range S.card).filter (· < m) = Finset.range (min m S.card) := by
          ext k
          simp only [Finset.mem_filter, Finset.mem_range]
          omega
        rw [this, Finset.card_range]

/-- The members of a list that a test of member and place picks, counted over the places. -/
theorem length_filter_zipIdx {α : Type} (l : List α) (P : α → Nat → Bool) (k : Nat) :
    ((l.zipIdx k).filter (fun x => P x.1 x.2)).length
      = ((Finset.range l.length).filter (fun j => (l[j]?).any (fun q => P q (j + k)) = true)).card := by
  induction l generalizing k with
  | nil => rfl
  | cons x l ih =>
    have hshift := ih (k + 1)
    rw [Finset.card_filter] at hshift ⊢
    rw [List.zipIdx_cons, List.filter_cons, List.length_cons, Finset.sum_range_succ']
    simp only [List.getElem?_cons_succ, List.getElem?_cons_zero, Option.any_some, Nat.zero_add, Nat.add_assoc,
      Nat.add_comm 1 k]
    split <;> simp [hshift]

/-! ### One round -/

/-- The units a round has left after the quotients (step 3). -/
def unitsLeft (a : Nat) (ps : List Participant) : Nat := a - (ps.map (quotientOf a (openWeight ps))).sum

/-- What a round deals the participant at a place: its quotient, and a unit where the units reach it (steps 2 to 4). -/
def dealtShare (a : Nat) (ps : List Participant) (i : Nat) (p : Participant) : Nat :=
  if p.isOpen then
    quotientOf a (openWeight ps) p + (if aheadOf a (openWeight ps) ps i p < unitsLeft a ps then 1 else 0)
  else 0

theorem dealRound_eq (a : Nat) (ps : List Participant) :
    dealRound a ps = ps.zipIdx.map (fun x => { x.1 with total := x.1.total + dealtShare a ps x.2 x.1 }) := by
  refine List.map_congr_left fun x _ => ?_
  obtain ⟨⟨index, weight, cap, total, isOpen⟩, i⟩ := x
  cases isOpen with
  | false => rfl
  | true =>
    simp only [dealtShare, unitsLeft, if_true, Nat.add_assoc]
    rfl

theorem dealRound_getElem? (a : Nat) (ps : List Participant) (i : Nat) :
    (dealRound a ps)[i]? = (ps[i]?).map (fun p => { p with total := p.total + dealtShare a ps i p }) := by
  simp only [dealRound_eq, List.getElem?_map, List.getElem?_zipIdx, Option.map_map, Nat.zero_add, Function.comp_def]

@[simp] theorem dealRound_length (a : Nat) (ps : List Participant) : (dealRound a ps).length = ps.length := by
  simp [dealRound]

section
variable (a w : Nat) (ps : List Participant)

/-- The places of the open participants. -/
def openPlaces : Finset Nat := (Finset.range ps.length).filter (fun j => (ps[j]?).any (·.isOpen) = true)

/-- The remainder at a place; 0 where the list has none. -/
def remainderAt (i : Nat) : Nat := (ps[i]?).elim 0 (remainderOf a w)

/-- The slot index at a place. -/
def indexAt (i : Nat) : Nat := (ps[i]?).elim 0 (·.index)

/-- Place `j` stands before place `i` in the order of step 3. -/
def placeBefore (j i : Nat) : Prop :=
  remainderAt a w ps i < remainderAt a w ps j
  ∨ (remainderAt a w ps i = remainderAt a w ps j
    ∧ (indexAt ps j < indexAt ps i ∨ (indexAt ps j = indexAt ps i ∧ j < i)))

theorem standsBefore_iff {i j : Nat} {p q : Participant} (hp : ps[i]? = some p) (hq : ps[j]? = some q) :
    standsBefore a w q j p i = true ↔ placeBefore a w ps j i := by
  simp only [standsBefore, placeBefore, remainderAt, indexAt, hp, hq, Option.elim_some, Bool.or_eq_true,
    Bool.and_eq_true, decide_eq_true_eq]

open Classical in
/-- The participants ahead of one, counted over the places. -/
theorem aheadOf_eq {i : Nat} {p : Participant} (hp : ps[i]? = some p) :
    aheadOf a w ps i p = ((openPlaces ps).filter (fun j => placeBefore a w ps j i)).card := by
  have h := length_filter_zipIdx ps (fun q j => q.isOpen && standsBefore a w q j p i) 0
  rw [show aheadOf a w ps i p = _ from h]
  refine congrArg Finset.card (Finset.ext fun j => ?_)
  simp only [openPlaces, Finset.mem_filter, Finset.mem_range, and_assoc, Nat.add_zero]
  refine and_congr_right fun hj => ?_
  have hq : ps[j]? = some ps[j] := List.getElem?_eq_getElem hj
  simp only [hq, Option.any_some, Bool.and_eq_true, standsBefore_iff a w ps hp hq]

open Classical in
/-- As many open participants have fewer than `m` ahead of them as there are, up to `m`. -/
theorem card_aheadOf_lt (m : Nat) :
    ((ps.zipIdx.filter (fun x => x.1.isOpen && decide (aheadOf a w ps x.2 x.1 < m))).length)
      = min m (openPlaces ps).card := by
  have h := length_filter_zipIdx ps (fun q j => q.isOpen && decide (aheadOf a w ps j q < m)) 0
  refine h.trans (Eq.trans (congrArg Finset.card (Finset.ext fun j => ?_))
    (card_rank_lt (openPlaces ps) (placeBefore a w ps) m (fun i => ?irrefl) (fun i j k => ?trans) (fun i j => ?total)))
  case irrefl => unfold placeBefore; omega
  case trans => unfold placeBefore; omega
  case total => unfold placeBefore; omega
  simp only [Finset.mem_filter, Finset.mem_range, Nat.add_zero]
  rw [openPlaces, Finset.mem_filter, Finset.mem_range, and_assoc]
  refine and_congr_right fun hj => ?_
  have hq : ps[j]? = some ps[j] := List.getElem?_eq_getElem hj
  simp only [hq, Option.any_some, Bool.and_eq_true, decide_eq_true_eq, aheadOf_eq a w ps hq, openPlaces]

end

end Sys2Proof.Machine
end

section
/-! SUPPORT. The divider's rounds (R19, R20): what a round deals in all, and what the rounds keep. -/

namespace Sys2Proof.Machine

/-! ### Sums over lists and places -/

theorem sum_map_eq_sum_range {α : Type} (l : List α) (f : α → Nat) :
    (l.map f).sum = ∑ j ∈ Finset.range l.length, (l[j]?).elim 0 f := by
  induction l with
  | nil => rfl
  | cons x l ih => simp [Finset.sum_range_succ', ih, Nat.add_comm]

theorem sum_map_boole {α : Type} (l : List α) (p : α → Bool) :
    (l.map (fun x => if p x then 1 else 0)).sum = (l.filter p).length := by
  induction l with
  | nil => rfl
  | cons x l ih => cases h : p x <;> simp [h, ih, Nat.add_comm]

theorem sum_map_fst_zipIdx {α : Type} (l : List α) (f : α → Nat) : (l.zipIdx.map (fun x => f x.1)).sum = (l.map f).sum := by
  rw [show (fun x : α × Nat => f x.1) = f ∘ Prod.fst from rfl, ← List.map_map, List.zipIdx_map_fst]

/-! ### The whole amount is dealt -/

section
variable (a : Nat) (ps : List Participant)

/-- Quotients and remainders make up the amount times the weights (step 2). -/
theorem quotients_add_remainders (w : Nat) :
    (ps.map (quotientOf a w)).sum * w + (ps.map (remainderOf a w)).sum = a * openWeight ps := by
  induction ps with
  | nil => simp [openWeight]
  | cons p ps ih =>
    have hp : quotientOf a w p * w + remainderOf a w p = a * (if p.isOpen then p.weight else 0) := by
      cases h : p.isOpen <;> simp [quotientOf, remainderOf, h, Nat.div_add_mod']
    simp only [List.map_cons, List.sum_cons, openWeight] at ih ⊢
    rw [Nat.mul_add, ← ih, ← hp]
    ring

variable (hw : 0 < openWeight ps)
include hw

theorem quotients_le : (ps.map (quotientOf a (openWeight ps))).sum ≤ a := by
  have h := quotients_add_remainders a ps (openWeight ps)
  exact Nat.le_of_mul_le_mul_right (by omega) hw

theorem unitsLeft_mul : unitsLeft a ps * openWeight ps = (ps.map (remainderOf a (openWeight ps))).sum := by
  have h := quotients_add_remainders a ps (openWeight ps)
  have hle := Nat.mul_le_mul_right (openWeight ps) (quotients_le a ps hw)
  rw [unitsLeft, Nat.sub_mul]
  omega

/-- No more units are left than there are open participants with a remainder. -/
theorem unitsLeft_le :
    unitsLeft a ps ≤ ((openPlaces ps).filter (fun j => 0 < remainderAt a (openWeight ps) ps j)).card := by
  refine Nat.le_of_mul_le_mul_right (c := openWeight ps) ?_ hw
  rw [unitsLeft_mul a ps hw, sum_map_eq_sum_range, openPlaces, Finset.filter_filter, Finset.card_filter, Finset.sum_mul]
  refine Finset.sum_le_sum fun j hj => ?_
  have hq : ps[j]? = some (ps[j]'(Finset.mem_range.mp hj)) := List.getElem?_eq_getElem _
  simp only [remainderAt, hq, Option.elim_some, Option.any_some]
  have hlt := Nat.mod_lt (a * (ps[j]'(Finset.mem_range.mp hj)).weight) hw
  cases h : (ps[j]'(Finset.mem_range.mp hj)).isOpen with
  | false => simp [remainderOf, h]
  | true =>
    simp only [remainderOf, h, if_true, true_and]
    split <;> omega

/-- A participant without a remainder gets no unit (step 3). -/
theorem unitsLeft_le_aheadOf {i : Nat} {p : Participant} (hp : ps[i]? = some p)
    (hr : remainderOf a (openWeight ps) p = 0) : unitsLeft a ps ≤ aheadOf a (openWeight ps) ps i p := by
  classical
  rw [aheadOf_eq a (openWeight ps) ps hp]
  refine (unitsLeft_le a ps hw).trans (Finset.card_le_card fun j hj => ?_)
  rw [Finset.mem_filter] at hj ⊢
  refine ⟨hj.1, Or.inl ?_⟩
  rw [remainderAt, hp, Option.elim_some, hr]
  exact hj.2

/-- The participants a round deals get the amount in all. -/
theorem sum_dealtShare : (ps.zipIdx.map (fun x => dealtShare a ps x.2 x.1)).sum = a := by
  have hsplit : (fun x : Participant × Nat => dealtShare a ps x.2 x.1)
      = fun x => quotientOf a (openWeight ps) x.1
        + (if x.1.isOpen && decide (aheadOf a (openWeight ps) ps x.2 x.1 < unitsLeft a ps) then 1 else 0) := by
    funext x
    cases h : x.1.isOpen <;> simp [dealtShare, quotientOf, h]
  have hopen := (unitsLeft_le a ps hw).trans (Finset.card_filter_le _ _)
  rw [hsplit, List.sum_map_add, sum_map_fst_zipIdx, sum_map_boole, card_aheadOf_lt, min_eq_left hopen, unitsLeft]
  have := quotients_le a ps hw
  omega

theorem dealRound_total : ((dealRound a ps).map (·.total)).sum = (ps.map (·.total)).sum + a := by
  rw [dealRound_eq, List.map_map]
  have : ((·.total) ∘ fun x : Participant × Nat => { x.1 with total := x.1.total + dealtShare a ps x.2 x.1 })
      = fun x => x.1.total + dealtShare a ps x.2 x.1 := rfl
  rw [this, List.sum_map_add, sum_dealtShare a ps hw, sum_map_fst_zipIdx]

/-- A weight of 0 is dealt nothing. -/
theorem dealtShare_zero {i : Nat} {p : Participant} (hp : ps[i]? = some p) (h0 : p.weight = 0) :
    dealtShare a ps i p = 0 := by
  have hr : remainderOf a (openWeight ps) p = 0 := by simp [remainderOf, h0]
  have hle := unitsLeft_le_aheadOf a ps hw hp hr
  simp [dealtShare, quotientOf, h0, Nat.not_lt.mpr hle]
end

/-! ### Caps (step 5) -/

/-- Cutting to the caps takes off the excess, and no more. -/
theorem closeOver_total (p : Participant) : (closeOver p).total + excessOf p = p.total := by
  unfold closeOver excessOf
  split
  · rfl
  · split
    · next h => simp only [Bool.and_eq_true, decide_eq_true_eq] at h; simp only; omega
    · rfl

theorem sum_closeOver (ps : List Participant) :
    ((ps.map closeOver).map (·.total)).sum + (ps.map excessOf).sum = (ps.map (·.total)).sum := by
  rw [List.map_map, ← List.sum_map_add]
  exact congrArg List.sum (List.map_congr_left fun p _ => closeOver_total p)

theorem closeOver_of_excess_zero {p : Participant} (h : excessOf p = 0) : closeOver p = p := by
  unfold closeOver excessOf at *
  split
  · rfl
  · split
    · next c _ hlt =>
      simp only [*, Bool.and_eq_true, decide_eq_true_eq] at hlt
      simp_all
      omega
    · rfl

/-- How a participant stands between rounds: within its cap, and at it where it is closed. -/
def Participant.sound (p : Participant) : Prop :=
  (∀ c : Nat, p.cap = some c → p.total ≤ c) ∧ (p.isOpen = false → p.cap = some p.total)

/-- A participant dealt to and cut to its cap is sound again. -/
theorem closeOver_sound {p : Participant} (hs : p.sound) (n : Nat) (hn : p.isOpen = false → n = 0) :
    (closeOver { p with total := p.total + n }).sound := by
  obtain ⟨hcap, hclosed⟩ := hs
  obtain ⟨index, weight, cap, total, isOpen⟩ := p
  cases cap with
  | none =>
    cases isOpen with
    | false => simpa [hn rfl] using hclosed rfl
    | true => exact ⟨by simp [closeOver], by simp [closeOver]⟩
  | some c =>
    cases isOpen with
    | false =>
      rw [hn rfl]
      exact ⟨by simpa [closeOver] using hcap, by simpa [closeOver] using hclosed⟩
    | true =>
      unfold Participant.sound closeOver
      simp only [Bool.true_and, decide_eq_true_eq]
      split
      · exact ⟨by simp, by simp⟩
      · exact ⟨by simp; omega, by simp⟩

/-- How many participants are open. -/
def openCount (ps : List Participant) : Nat := (ps.filter (·.isOpen)).length

theorem openCount_dealRound (a : Nat) (ps : List Participant) : openCount (dealRound a ps) = openCount ps := by
  rw [openCount, openCount, ← List.countP_eq_length_filter, ← List.countP_eq_length_filter, dealRound_eq, List.countP_map]
  conv_rhs => rw [← List.zipIdx_map_fst 0 ps, List.countP_map]
  rfl

/-- A round with an excess closes a participant. -/
theorem openCount_closeOver (ps : List Participant) :
    openCount (ps.map closeOver) + (if (ps.map excessOf).sum = 0 then 0 else 1) ≤ openCount ps := by
  induction ps with
  | nil => simp [openCount]
  | cons p ps ih =>
    have hp : (if (closeOver p).isOpen then 1 else 0) + (if excessOf p = 0 then 0 else 1) ≤ if p.isOpen then 1 else 0 := by
      obtain ⟨index, weight, cap, total, isOpen⟩ := p
      cases cap with
      | none => cases isOpen <;> simp [closeOver, excessOf]
      | some c => cases isOpen <;> simp only [closeOver, excessOf] <;> split_ifs <;> simp_all
    have hcons (x : Participant) (l : List Participant) :
        openCount (x :: l) = (if x.isOpen then 1 else 0) + openCount l := by
      cases h : x.isOpen <;> simp [openCount, h, Nat.add_comm]
    simp only [List.map_cons, List.sum_cons, Nat.add_eq_zero_iff] at ih ⊢
    rw [hcons, hcons]
    split_ifs at ih hp ⊢ <;> omega

/-! ### The rounds -/

theorem weight_zero_of_openWeight {ps : List Participant} (h : openWeight ps = 0) {p : Participant} (hp : p ∈ ps) :
    p.weight = 0 ∨ p.isOpen = false := by
  have := List.sum_eq_zero_iff.mp h _ (List.mem_map.mpr ⟨p, hp, rfl⟩)
  cases ho : p.isOpen
  · exact .inr rfl
  · exact .inl (by simpa [ho] using this)

/-- One round, cut to the caps, place by place. -/
theorem closed_getElem? (a : Nat) (ps : List Participant) (i : Nat) :
    ((dealRound a ps).map closeOver)[i]?
      = (ps[i]?).map (fun p => closeOver { p with total := p.total + dealtShare a ps i p }) := by
  rw [List.getElem?_map, dealRound_getElem?, Option.map_map]
  rfl

theorem closeOver_cap (p : Participant) : (closeOver p).cap = p.cap := by
  unfold closeOver; split <;> [rfl; split <;> simp_all]

theorem closeOver_weight (p : Participant) : (closeOver p).weight = p.weight := by
  unfold closeOver; split <;> [rfl; split <;> rfl]

/-- What the rounds leave of a participant: its cap and weight, sound, a weight of 0 untouched, and closed where an amount is
left that it could take. -/
structure Settled (p q : Participant) (left : Nat) : Prop where
  cap : q.cap = p.cap
  weight : q.weight = p.weight
  sound : q.sound
  weightless : p.weight = 0 → q.total = p.total
  closed : left ≠ 0 → q.weight = 0 ∨ q.isOpen = false

/-- The rounds of the divider lose nothing, keep every participant within its cap and give a weight of 0 nothing; an amount is
left only where no open participant has a weight (R19, R20). -/
theorem divideRounds_spec (fuel a : Nat) (ps : List Participant) (hfuel : openCount ps < fuel)
    (hs : ∀ p ∈ ps, p.sound) :
    (divideRounds fuel a ps).1.length = ps.length
    ∧ ((divideRounds fuel a ps).1.map (·.total)).sum + (divideRounds fuel a ps).2 = (ps.map (·.total)).sum + a
    ∧ ∀ (i : Nat) (p : Participant), ps[i]? = some p →
      ∃ q, (divideRounds fuel a ps).1[i]? = some q ∧ Settled p q (divideRounds fuel a ps).2 := by
  induction fuel generalizing a ps with
  | zero => exact absurd hfuel (Nat.not_lt_zero _)
  | succ fuel ih =>
    by_cases hw : openWeight ps = 0
    · simp only [divideRounds, hw, if_true]
      exact ⟨trivial, trivial, fun i p hp => ⟨p, hp, rfl, rfl, hs p (List.mem_of_getElem? hp), fun _ => rfl,
        fun _ => weight_zero_of_openWeight hw (List.mem_of_getElem? hp)⟩⟩
    have hpos : 0 < openWeight ps := Nat.pos_of_ne_zero hw
    have htotal := dealRound_total a ps hpos
    have hcut := sum_closeOver (dealRound a ps)
    have hcount := openCount_closeOver (dealRound a ps)
    rw [openCount_dealRound] at hcount
    have hsound : ∀ p ∈ (dealRound a ps).map closeOver, p.sound := by
      intro x hx
      obtain ⟨i, hi⟩ := List.mem_iff_getElem?.mp hx
      rw [closed_getElem?, Option.map_eq_some_iff] at hi
      obtain ⟨p, hp, rfl⟩ := hi
      exact closeOver_sound (hs p (List.mem_of_getElem? hp)) _ (fun h => by simp [dealtShare, h])
    have hround (i : Nat) (p : Participant) (hp : ps[i]? = some p) : ∃ q, ((dealRound a ps).map closeOver)[i]? = some q
        ∧ q.cap = p.cap ∧ q.weight = p.weight ∧ (p.weight = 0 → q.total = p.total) := by
      refine ⟨closeOver { p with total := p.total + dealtShare a ps i p }, by rw [closed_getElem?, hp]; rfl, closeOver_cap _, closeOver_weight _, fun h0 => ?_⟩
      have hsd := dealtShare_zero a ps hpos hp h0
      have hx : excessOf p = 0 := by
        unfold excessOf
        split
        · rfl
        · next c hc =>
          have := (hs p (List.mem_of_getElem? hp)).1 c hc
          simp [Nat.not_lt.mpr this]
      rw [hsd, closeOver_of_excess_zero (by exact hx)]
      rfl
    simp only [divideRounds, hw, if_false]
    by_cases hx : ((dealRound a ps).map excessOf).sum = 0
    · simp only [hx, if_true, List.length_map, dealRound_length, true_and]
      refine ⟨by omega, fun i p hp => ?_⟩
      obtain ⟨q, hq, hcap, hweight, hzero⟩ := hround i p hp
      exact ⟨q, hq, hcap, hweight, hsound q (List.mem_of_getElem? hq), hzero, fun h => absurd rfl h⟩
    · simp only [hx, if_false] at hcount ⊢
      obtain ⟨hlen, hsum, hplace⟩ := ih _ _ (by omega) hsound
      refine ⟨by simpa using hlen, by omega, fun i p hp => ?_⟩
      obtain ⟨q, hq, hcap, hweight, hzero⟩ := hround i p hp
      obtain ⟨r, hr, hset⟩ := hplace i q hq
      exact ⟨r, hr, hset.cap.trans hcap, hset.weight.trans hweight, hset.sound,
        fun h => (hset.weightless (hweight.trans h)).trans (hzero h), hset.closed⟩

/-- Where no share of the first round is above its cap, that round is the division. -/
theorem divide_of_first_round (a : Nat) (ps : List Participant) (hw : 0 < openWeight ps)
    (h : ∀ (i : Nat) (p : Participant), ps[i]? = some p → p.total = 0 → ∀ c, p.cap = some c → dealtShare a ps i p ≤ c)
    (h0 : ∀ p ∈ ps, p.total = 0) :
    (divide a ps).uncovered = 0
      ∧ ∀ (i : Nat) (p : Participant), ps[i]? = some p → (divide a ps).shares[i]? = some (dealtShare a ps i p) := by
  have hx : ∀ x ∈ dealRound a ps, excessOf x = 0 := by
    intro x hx
    obtain ⟨i, hi⟩ := List.mem_iff_getElem?.mp hx
    rw [dealRound_getElem?, Option.map_eq_some_iff] at hi
    obtain ⟨p, hp, rfl⟩ := hi
    have hz := h0 p (List.mem_of_getElem? hp)
    unfold excessOf
    split
    · rfl
    · next c hc =>
      have := h i p hp hz c hc
      simp [hz, Nat.not_lt.mpr this]
  have hsum : ((dealRound a ps).map excessOf).sum = 0 :=
    List.sum_eq_zero_iff.mpr (fun n hn => by obtain ⟨x, hm, rfl⟩ := List.mem_map.mp hn; exact hx x hm)
  have hclosed : (dealRound a ps).map closeOver = dealRound a ps := by
    conv_rhs => rw [← List.map_id (dealRound a ps)]
    exact List.map_congr_left (fun x hm => closeOver_of_excess_zero (hx x hm))
  have hdiv : divide a ps = ⟨(dealRound a ps).map (·.total), 0⟩ := by
    simp only [divide, divideRounds, Nat.pos_iff_ne_zero.mp hw, if_false, hsum, if_true, hclosed]
  rw [hdiv]
  refine ⟨rfl, fun i p hp => ?_⟩
  rw [List.getElem?_map, dealRound_getElem?, hp]
  simp [h0 p (List.mem_of_getElem? hp)]

end Sys2Proof.Machine
end

section
/-! SUPPORT. What a division comes to (R19, R20) and the value of a written curve (R16). -/

namespace Sys2Proof.Machine

/-! ### Divisions that begin with open participants -/

section
variable (a : Nat) (ps : List Participant) (h : ∀ p ∈ ps, p.total = 0 ∧ p.isOpen = true)
include h

theorem openWeight_of_open : openWeight ps = (ps.map (·.weight)).sum :=
  congrArg List.sum (List.map_congr_left fun p hp => by simp [(h p hp).2])

omit h in
theorem openCount_lt_fuel : openCount ps < ps.length + 1 := Nat.lt_succ_of_le (List.length_filter_le _ _)

theorem sound_of_open : ∀ p ∈ ps, p.sound := fun p hp => ⟨fun c _ => by simp [(h p hp).1], fun ho => by simp [(h p hp).2] at ho⟩

theorem divide_length : (divide a ps).shares.length = ps.length := by
  obtain ⟨hlen, _, _⟩ := divideRounds_spec _ a ps (openCount_lt_fuel ps) (sound_of_open ps h)
  simpa [divide] using hlen

/-- Shares and uncovered amount make up the amount. -/
theorem divide_sum : (divide a ps).shares.sum + (divide a ps).uncovered = a := by
  obtain ⟨_, hsum, _⟩ := divideRounds_spec _ a ps (openCount_lt_fuel ps) (sound_of_open ps h)
  have h0 : (ps.map (·.total)).sum = 0 :=
    List.sum_eq_zero_iff.mpr fun n hn => by obtain ⟨p, hp, rfl⟩ := List.mem_map.mp hn; exact (h p hp).1
  rw [h0, Nat.zero_add] at hsum
  exact hsum

/-- Each share lies within its cap; a weight of 0 has none; an amount is left only where a weight is at its cap. -/
theorem divide_share {i : Nat} {p : Participant} (hp : ps[i]? = some p) :
    ∃ x : Nat, (divide a ps).shares[i]? = some x ∧ (∀ c : Nat, p.cap = some c → x ≤ c) ∧ (p.weight = 0 → x = 0)
      ∧ ((divide a ps).uncovered ≠ 0 → p.weight = 0 ∨ p.cap = some x) := by
  obtain ⟨_, _, hplace⟩ := divideRounds_spec _ a ps (openCount_lt_fuel ps) (sound_of_open ps h)
  obtain ⟨q, hq, hset⟩ := hplace i p hp
  refine ⟨q.total, by simp only [divide, List.getElem?_map, hq, Option.map_some], fun c hc => hset.sound.1 c (hset.cap.trans hc),
    fun h0 => (hset.weightless h0).trans (h p (List.mem_of_getElem? hp)).1, fun hleft => ?_⟩
  rcases hset.closed hleft with hw | ho
  · exact .inl (hset.weight.symm.trans hw)
  · exact .inr (hset.cap.symm.trans (hset.sound.2 ho))

/-- What the first round deals an open participant. -/
theorem dealtShare_of_open {i : Nat} {p : Participant} (hp : ps[i]? = some p) :
    dealtShare a ps i p = a * p.weight / (ps.map (·.weight)).sum
      + (if aheadOf a (openWeight ps) ps i p < unitsLeft a ps then 1 else 0) := by
  simp only [dealtShare, quotientOf, (h p (List.mem_of_getElem? hp)).2, if_true, openWeight_of_open ps h]

theorem unitsLeft_of_open :
    unitsLeft a ps = a - (ps.map (fun p => a * p.weight / (ps.map (·.weight)).sum)).sum := by
  rw [unitsLeft, openWeight_of_open ps h]
  exact congrArg (fun l : List Nat => a - l.sum) (List.map_congr_left fun p hp => by simp [quotientOf, (h p hp).2])

open Classical in
/-- A place with a unit stands before a place of another index without one (step 3). -/
theorem unit_before {i j : Nat} {p q : Participant} (hp : ps[i]? = some p) (hq : ps[j]? = some q)
    (hne : p.index ≠ q.index) (hi : aheadOf a (openWeight ps) ps i p < unitsLeft a ps)
    (hj : ¬aheadOf a (openWeight ps) ps j q < unitsLeft a ps) :
    a * q.weight % (ps.map (·.weight)).sum < a * p.weight % (ps.map (·.weight)).sum
      ∨ (a * q.weight % (ps.map (·.weight)).sum = a * p.weight % (ps.map (·.weight)).sum ∧ p.index < q.index) := by
  by_contra hnot
  have hrem {x : Participant} (hx : x ∈ ps) :
      remainderOf a (openWeight ps) x = a * x.weight % (ps.map (·.weight)).sum := by
    simp [remainderOf, (h x hx).2, openWeight_of_open ps h]
  have hbefore : placeBefore a (openWeight ps) ps j i := by
    simp only [placeBefore, remainderAt, indexAt, hp, hq, Option.elim_some, hrem (List.mem_of_getElem? hp),
      hrem (List.mem_of_getElem? hq)]
    omega
  have hle : aheadOf a (openWeight ps) ps j q ≤ aheadOf a (openWeight ps) ps i p := by
    rw [aheadOf_eq a _ ps hp, aheadOf_eq a _ ps hq]
    refine Finset.card_le_card fun k hk => ?_
    rw [Finset.mem_filter] at hk ⊢
    refine ⟨hk.1, ?_⟩
    have hkj := hk.2
    unfold placeBefore at hkj hbefore ⊢
    omega
  omega

/-- Of distinct slots, those ahead are those of a greater remainder, or of the same remainder and a lower index. -/
theorem aheadOf_of_nodup (hn : (ps.map (·.index)).Nodup) {i : Nat} {p : Participant} (hp : ps[i]? = some p) :
    aheadOf a (openWeight ps) ps i p
      = (ps.filter (fun q => decide (a * p.weight % (ps.map (·.weight)).sum < a * q.weight % (ps.map (·.weight)).sum
        ∨ (a * q.weight % (ps.map (·.weight)).sum = a * p.weight % (ps.map (·.weight)).sum ∧ q.index < p.index)))).length := by
  have hrem {x : Participant} (hx : x ∈ ps) :
      remainderOf a (openWeight ps) x = a * x.weight % (ps.map (·.weight)).sum := by
    simp [remainderOf, (h x hx).2, openWeight_of_open ps h]
  conv_rhs => rw [← List.countP_eq_length_filter, ← List.zipIdx_map_fst 0 ps, List.countP_map]
  rw [aheadOf, ← List.countP_eq_length_filter]
  refine List.countP_congr fun x hx => ?_
  obtain ⟨q, j⟩ := x
  have hq : ps[j]? = some q := List.mem_zipIdx_iff_getElem?.mp hx
  have hsame : q.index = p.index → j = i := by
    intro hidx
    have hj := List.getElem?_map (f := fun x : Participant => x.index) (l := ps) (i := j)
    have hi := List.getElem?_map (f := fun x : Participant => x.index) (l := ps) (i := i)
    rw [hq] at hj
    rw [hp] at hi
    have hlt : j < (ps.map (·.index)).length := (List.getElem?_eq_some_iff.mp hj).1
    exact (List.getElem?_inj hlt hn).mp (by rw [hj, hi]; simp [hidx])
  simp only [Function.comp, standsBefore, (h q (List.mem_of_getElem? hq)).2, Bool.true_and, Bool.or_eq_true,
    Bool.and_eq_true, decide_eq_true_eq, hrem (List.mem_of_getElem? hq), hrem (List.mem_of_getElem? hp),
    List.zipIdx_map_fst]
  omega
end

/-- Settles O17: the sums and caps from the rounds' lemma; where the first round is within the caps, from that round. -/
theorem dividerDealsTheWholeAmount : Obligations.DividerDealsTheWholeAmount := by
  intro a ps h w
  have howeight : openWeight ps = w := openWeight_of_open ps h
  have hzero : ∀ p ∈ ps, p.total = 0 := fun p hp => (h p hp).1
  refine ⟨divide_length a ps h, divide_sum a ps h, fun i p hp => divide_share a ps h hp, fun hw hcaps => ?_,
    fun hw hn => ?_⟩
  · have hpos : 0 < openWeight ps := howeight ▸ hw
    obtain ⟨hu, hshare⟩ := divide_of_first_round a ps hpos (fun i p hp _ c hc => by
      have hmem := List.mem_of_getElem? hp
      rcases Nat.eq_zero_or_pos p.weight with h0 | hpw
      · rw [dealtShare_zero a ps hpos hp h0]
        exact Nat.zero_le c
      · have := hcaps p hmem hpw c hc
        rw [dealtShare_of_open a ps h hp]
        change a * p.weight / w + _ ≤ c
        split <;> omega) hzero
    refine ⟨hu, fun i p hp => ?_, fun i j p q hp hq hne hi hj => ?_⟩
    · rw [hshare i p hp, dealtShare_of_open a ps h hp]
      change some (a * p.weight / w + _) = _ ∨ some (a * p.weight / w + _) = _
      split
      · exact .inr rfl
      · exact .inl rfl
    · rw [hshare i p hp, dealtShare_of_open a ps h hp, Option.some_inj] at hi
      rw [hshare j q hq, dealtShare_of_open a ps h hq, Option.some_inj] at hj
      change a * p.weight / w + _ = _ at hi
      change a * q.weight / w + _ = _ at hj
      split at hi
      · split at hj
        · omega
        · exact unit_before a ps h hp hq hne ‹_› ‹_›
      · omega
  · intro left ahead dealt hcaps
    have hpos : 0 < openWeight ps := howeight ▸ hw
    have hdealt {i : Nat} {p : Participant} (hp : ps[i]? = some p) : dealtShare a ps i p = dealt p := by
      rw [dealtShare_of_open a ps h hp, unitsLeft_of_open a ps h, aheadOf_of_nodup a ps h hn hp]
    obtain ⟨hu, hshare⟩ := divide_of_first_round a ps hpos
      (fun i p hp _ c hc => by rw [hdealt hp]; exact hcaps p (List.mem_of_getElem? hp) c hc) hzero
    refine ⟨hu, List.ext_getElem? fun i => ?_⟩
    rw [List.getElem?_map]
    cases hp : ps[i]? with
    | none =>
      rw [Option.map_none, List.getElem?_eq_none_iff, divide_length a ps h]
      exact List.getElem?_eq_none_iff.mp hp
    | some p => rw [hshare i p hp, hdealt hp, Option.map_some]

/-! ### Curves (R16) -/

/-- The interpolation between two points, rounded down, lies between their values. -/
theorem interpolation_between (y0 y1 : Nat) (dx w : Int) (h0 : 0 ≤ dx) (h1 : dx < w) :
    (min y0 y1 : Int) ≤ y0 + ((y1 : Int) - y0) * dx / w ∧ y0 + ((y1 : Int) - y0) * dx / w ≤ (max y0 y1 : Int) := by
  have hw : 0 < w := by omega
  rcases le_total (y0 : Int) y1 with h | h
  · have hlo : 0 ≤ ((y1 : Int) - y0) * dx / w := Int.ediv_nonneg (mul_nonneg (by omega) h0) hw.le
    have hhi : ((y1 : Int) - y0) * dx / w ≤ y1 - y0 := by
      refine Int.ediv_le_of_le_mul hw ?_
      nlinarith
    omega
  · have hhi : ((y1 : Int) - y0) * dx / w ≤ 0 := by
      refine Int.ediv_le_of_le_mul hw ?_
      nlinarith
    have hlo : (y1 : Int) - y0 ≤ ((y1 : Int) - y0) * dx / w := by
      refine Int.le_ediv_of_mul_le hw ?_
      nlinarith
    omega

/-- The value at or beyond a point is that of the segment that holds the argument. -/
theorem curveFrom_segment (p : CurvePoint) (rest : List CurvePoint) (x : Int)
    (hinc : ((p :: rest).map (fun p => p.x)).Pairwise (fun u v => u < v)) :
    (∀ q, (p :: rest).getLast? = some q → q.x ≤ x → curveFrom p rest x = q.y)
    ∧ ∀ (k : Nat) (q r : CurvePoint), (p :: rest)[k]? = some q → (p :: rest)[k + 1]? = some r → q.x ≤ x → x < r.x →
      curveFrom p rest x = ((q.y : Int) + ((r.y : Int) - q.y) * (x - q.x) / (r.x - q.x)).toNat := by
  induction rest generalizing p with
  | nil =>
    refine ⟨fun q hq _ => ?_, fun k q r _ hr => by simp at hr⟩
    obtain rfl : p = q := by simpa using hq
    rfl
  | cons n rest ih =>
    rw [List.map_cons, List.pairwise_cons] at hinc
    obtain ⟨hfirst, htail⟩ := hinc
    obtain ⟨hlast, hseg⟩ := ih n htail
    have hge {q : CurvePoint} (hq : q ∈ n :: rest) : n.x ≤ q.x := by
      rw [List.map_cons, List.pairwise_cons] at htail
      rcases List.mem_cons.mp hq with rfl | hm
      · exact le_refl _
      · exact (htail.1 q.x (List.mem_map.mpr ⟨q, hm, rfl⟩)).le
    refine ⟨fun q hq hx => ?_, fun k q r hq hr hle hlt => ?_⟩
    · rw [List.getLast?_cons_cons] at hq
      have := hge (List.mem_of_getLast? hq)
      rw [curveFrom, if_neg (by omega)]
      exact hlast q hq hx
    · cases k with
      | zero =>
        obtain rfl : p = q := by simpa using hq
        obtain rfl : n = r := by simpa using hr
        rw [curveFrom, if_pos hlt]
      | succ k =>
        rw [List.getElem?_cons_succ] at hq hr
        have := hge (List.mem_of_getElem? hq)
        rw [curveFrom, if_neg (by omega)]
        exact hseg k q r hq hr hle hlt

/-- Settles O18: below the first point by definition, beyond it by the segment that holds the argument. -/
theorem curveGivesTheInterpolatedValue : Obligations.CurveGivesTheInterpolatedValue := by
  intro pts x hinc
  cases pts with
  | nil => exact ⟨by simp, by simp, by simp⟩
  | cons p rest =>
    obtain ⟨hlast, hseg⟩ := curveFrom_segment p rest x hinc
    have hfirst {q : CurvePoint} (hq : q ∈ p :: rest) (hle : q.x ≤ x) : x ≤ p.x → q = p ∧ x = p.x := by
      intro hx
      rw [List.map_cons, List.pairwise_cons] at hinc
      rcases List.mem_cons.mp hq with rfl | hm
      · exact ⟨rfl, by omega⟩
      · have := hinc.1 q.x (List.mem_map.mpr ⟨q, hm, rfl⟩)
        omega
    refine ⟨fun q hq hx => ?_, fun q hq hx => ?_, fun k q r hq hr hle hlt => ?_⟩
    · obtain rfl : p = q := by simpa using hq
      rw [evalCurve, if_pos hx]
    · rw [evalCurve]
      split
      · next h => rw [(hfirst (List.mem_of_getLast? hq) hx h).1]
      · exact hlast q hq hx
    · have hvalue : (evalCurve (p :: rest) x : Int) = q.y + ((r.y : Int) - q.y) * (x - q.x) / (r.x - q.x) := by
        have hb := interpolation_between q.y r.y (x - q.x) (r.x - q.x) (by omega) (by omega)
        rw [evalCurve]
        split
        · next h =>
          obtain ⟨rfl, hx⟩ := hfirst (List.mem_of_getElem? hq) hle h
          simp [hx]
        · rw [hseg k q r hq hr hle hlt, Int.toNat_of_nonneg (by omega)]
      have hb := interpolation_between q.y r.y (x - q.x) (r.x - q.x) (by omega) (by omega)
      rw [← hvalue] at hb
      exact ⟨hvalue, by omega, by omega⟩

end Sys2Proof.Machine
end

section
/-! SUPPORT. What an action does besides its own effect: the parts it leaves alone and the events it appends, for the
operations of every block. -/

namespace Sys2Proof.Machine

/-! ### Actions and the events they append -/

/-- From `s` to `t` the parts `ps` alone may change, and the events `l` are appended to the queue. -/
structure Acts (ps : List Part) (s : State) (l : List Raised) (t : State) : Prop where
  parts : s.changesOnly ps t
  told : t.evq = s.evq.pushAll l

/-- From `s` to `t` the parts `ps` alone may change, and events are only appended. -/
def Does (ps : List Part) (s t : State) : Prop := ∃ l : List Raised, Acts ps s l t

section
variable {ps qs : List Part} {s t u : State} {l m : List Raised}

theorem Acts.refl (ps : List Part) (s : State) : Acts ps s [] s := ⟨changesOnly_refl s ps, rfl⟩

theorem Acts.trans (h : Acts ps s l t) (h' : Acts ps t m u) : Acts ps s (l ++ m) u :=
  ⟨changesOnly_trans h.parts h'.parts, by rw [pushAll_append, ← h.told, h'.told]⟩

theorem Acts.mono (h : Acts ps s l t) (hq : ps ⊆ qs) : Acts qs s l t := ⟨changesOnly_mono h.parts fun _ hp => hq hp, h.told⟩

theorem Acts.does (h : Acts ps s l t) : Does ps s t := ⟨l, h⟩

theorem Does.refl (ps : List Part) (s : State) : Does ps s s := (Acts.refl ps s).does

theorem Does.trans (h : Does ps s t) (h' : Does ps t u) : Does ps s u := by
  obtain ⟨l, hl⟩ := h
  obtain ⟨m, hm⟩ := h'
  exact (hl.trans hm).does

theorem Does.mono (h : Does ps s t) (hq : ps ⊆ qs) : Does qs s t := by
  obtain ⟨l, hl⟩ := h
  exact (hl.mono hq).does

theorem Does.parts (h : Does ps s t) : s.changesOnly ps t := by
  obtain ⟨l, hl⟩ := h
  exact hl.parts

theorem Does.appends (h : Does ps s t) : ∃ l : List Raised, t.evq = s.evq.pushAll l := by
  obtain ⟨l, hl⟩ := h
  exact ⟨l, hl.told⟩

/-- A part that is not among those that may change stands. -/
theorem Does.same (h : Does ps s t) {p : Part} (hp : p ∉ ps) : p.same s t := h.parts p hp

/-- A change of one part alone, the event queue aside. -/
theorem Acts.of_same {p : Part} (hp : p ∈ ps) (hs : ∀ q, q ≠ p → q.same s t) (he : t.evq = s.evq) : Acts ps s [] t :=
  ⟨fun q hq => hs q fun h => hq (h ▸ hp), he⟩
end

/-! ### The named updates -/

section
variable {ps : List Part} (s : State)

theorem acts_setWorld (x : Nat) (h : Part.world ∈ ps) : Acts ps s [] (s.setWorld x) :=
  .of_same h (fun q hq => by cases q <;> first | rfl | exact absurd rfl hq) rfl

theorem acts_setElapsed (x : Nat) (h : Part.elapsed ∈ ps) : Acts ps s [] (s.setElapsed x) :=
  .of_same h (fun q hq => by cases q <;> first | rfl | exact absurd rfl hq) rfl

theorem acts_setClock (x : Clock) (h : Part.clock ∈ ps) : Acts ps s [] (s.setClock x) :=
  .of_same h (fun q hq => by cases q <;> first | rfl | exact absurd rfl hq) rfl

theorem acts_setMeter (x : Meter) (h : Part.meter ∈ ps) : Acts ps s [] (s.setMeter x) :=
  .of_same h (fun q hq => by cases q <;> first | rfl | exact absurd rfl hq) rfl

theorem acts_setCurves (x : Vector Curve 16) (h : Part.curves ∈ ps) : Acts ps s [] (s.setCurves x) :=
  .of_same h (fun q hq => by cases q <;> first | rfl | exact absurd rfl hq) rfl

theorem acts_setSite (x : Site) (h : Part.site ∈ ps) : Acts ps s [] (s.setSite x) :=
  .of_same h (fun q hq => by cases q <;> first | rfl | exact absurd rfl hq) rfl

theorem acts_setAcct (x : Accounts) (h : Part.acct ∈ ps) : Acts ps s [] (s.setAcct x) :=
  .of_same h (fun q hq => by cases q <;> first | rfl | exact absurd rfl hq) rfl

theorem acts_setBook (x : Book) (h : Part.book ∈ ps) : Acts ps s [] (s.setBook x) :=
  .of_same h (fun q hq => by cases q <;> first | rfl | exact absurd rfl hq) rfl

theorem acts_setSched (x : List SchedRec) (h : Part.sched ∈ ps) : Acts ps s [] (s.setSched x) :=
  .of_same h (fun q hq => by cases q <;> first | rfl | exact absurd rfl hq) rfl

theorem acts_setSettle (x : Settlement) (h : Part.settle ∈ ps) : Acts ps s [] (s.setSettle x) :=
  .of_same h (fun q hq => by cases q <;> first | rfl | exact absurd rfl hq) rfl

theorem acts_setFlow (x : Flow) (h : Part.flow ∈ ps) : Acts ps s [] (s.setFlow x) :=
  .of_same h (fun q hq => by cases q <;> first | rfl | exact absurd rfl hq) rfl

theorem acts_setDuty (x : Duty) (h : Part.duty ∈ ps) : Acts ps s [] (s.setDuty x) :=
  .of_same h (fun q hq => by cases q <;> first | rfl | exact absurd rfl hq) rfl

theorem acts_setDry (x : Drying) (h : Part.dry ∈ ps) : Acts ps s [] (s.setDry x) :=
  .of_same h (fun q hq => by cases q <;> first | rfl | exact absurd rfl hq) rfl

theorem acts_setLink (x : Link) (h : Part.link ∈ ps) : Acts ps s [] (s.setLink x) :=
  .of_same h (fun q hq => by cases q <;> first | rfl | exact absurd rfl hq) rfl

theorem acts_setSup (x : Supervision) (h : Part.sup ∈ ps) : Acts ps s [] (s.setSup x) :=
  .of_same h (fun q hq => by cases q <;> first | rfl | exact absurd rfl hq) rfl

theorem acts_setStore (x : Store) (h : Part.store ∈ ps) : Acts ps s [] (s.setStore x) :=
  .of_same h (fun q hq => by cases q <;> first | rfl | exact absurd rfl hq) rfl

theorem acts_raise (k : EventKind) (a : Option Nat) (b : Option Int) (h : Part.evq ∈ ps) :
    Acts ps s [⟨gasTime s, k, a, b⟩] (raise k a b s) :=
  ⟨fun q hq => by cases q <;> first | rfl | exact absurd h hq, by rw [raise_eq, State.setEvq_evq]⟩
end

/-! ### Folds, the order the world takes, gathered responses -/

section
variable {ps : List Part}

theorem does_foldl {α : Type} (f : α → State → State) (l : List α) (hf : ∀ a ∈ l, ∀ s, Does ps s (f a s)) (s : State) :
    Does ps s (l.foldl (fun t a => f a t) s) :=
  foldl_preserves (Does ps s) f l (fun a ha t ht => ht.trans (hf a ha t)) s (.refl ps s)

theorem does_oneOf (f : State → State) (gs : List (State → State)) (hw : Part.world ∈ ps)
    (hf : ∀ g ∈ f :: gs, ∀ s, Does ps s (g s)) (s : State) : Does ps s (oneOf f gs s) :=
  oneOf_preserves (Does ps s) f gs (fun t ht => ht.trans (hf f List.mem_cons_self t))
    (fun g hg t ht => ht.trans (hf g (List.mem_cons_of_mem f hg) t))
    (fun t n ht => ht.trans (acts_setWorld t n hw).does) s (.refl ps s)

theorem does_inAnyOrder (fs : List (State → State)) (hw : Part.world ∈ ps) (hf : ∀ f ∈ fs, ∀ s, Does ps s (f s))
    (s : State) : Does ps s (inAnyOrder fs s) :=
  inAnyOrder_preserves (Does ps s) fs (fun f hm t ht => ht.trans (hf f hm t))
    (fun t n ht => ht.trans (acts_setWorld t n hw).does) s (.refl ps s)

/-- A gathered response that raises the events `l` appends them in an order the world takes. -/
theorem Acts.gathered {f : State → State} {s : State} {l : List Raised} (hw : Part.world ∈ ps) (he : Part.evq ∈ ps)
    (h : Acts ps s.gatheringEvents l (f s.gatheringEvents)) :
    ∃ m : List Raised, Acts ps s m (Machine.gathered f s) ∧ m.Perm l
      ∧ ∀ b : EventSource, m.filter (fun r => r.kind.source == b) = l.filter (fun r => r.kind.source == b) := by
  obtain ⟨m, hm, hperm, hfilter⟩ := gathered_pushAll f s l h.told
  refine ⟨m, ⟨fun p hp => ?_, hm⟩, hperm, hfilter⟩
  have := h.parts p hp
  cases p
  case world => exact absurd hw hp
  case evq => exact absurd he hp
  all_goals exact this

theorem Does.gathered {f : State → State} {s : State} (hw : Part.world ∈ ps) (he : Part.evq ∈ ps)
    (h : Does ps s.gatheringEvents (f s.gatheringEvents)) : Does ps s (Machine.gathered f s) := by
  obtain ⟨l, hl⟩ := h
  obtain ⟨m, hm, _⟩ := hl.gathered hw he
  exact hm.does

theorem does_checked {s : State} {a : Answer} (l : List (Bool × Status)) (h : Does ps s a.after) :
    Does ps s (checked l s a).after := by
  rcases checked_cases l s a with ⟨he, _⟩ | ⟨st, _, he⟩ <;> rw [he]
  · exact h
  · exact .refl ps s
end

end Sys2Proof.Machine
end

section
/-! SUPPORT. One induction over the flow controller, the trains that follow the direction and the recut: what the writes these
make cannot break, they keep (R93 to R106, R141 to R144, R152 to R155). -/

namespace Sys2Proof.Machine

/-- The kinds of event that the flow controller, the drying supervisor and the schedule raise. -/
def EventKind.ofFlow (k : EventKind) : Bool := [EventSource.schedule, .flowController, .dryingSupervisor].contains k.source

/-- What the flow controller and the dew point leave of a train record: all but its state, its share, its mask and what its dew point
arms and times. -/
def Train.body (x : Train) : Train :=
  { x with state := .out, armed := false, share := 0, excursion := none, recovery := none, mask := 0 }

/-- What the bed tests leave of it too: all but the flags DEGRADED and swap-deferred. -/
def Train.core (x : Train) : Train := { x.body with degraded := false, deferred := false }

/-- A move of the flow controller or of the dew point: the body stands, the mask stands or is loaded with its choice, and
the warning stands or is armed as the dew point gives it. -/
structure DewMove (x y : Train) : Prop where
  body : y.body = x.body
  mask : y.mask = x.mask ∨ y.mask = x.cfg.maskChoice
  armed : y.armed = x.armed ∨ y.armed = decide (x.dew < x.cfg.warn)

theorem DewMove.core {x y : Train} (h : DewMove x y) : y.core = x.core :=
  congrArg (fun z : Train => { z with degraded := false, deferred := false }) h.body

theorem DewMove.degraded {x y : Train} (h : DewMove x y) : y.degraded = x.degraded := by
  have hb := congrArg Train.degraded h.body
  exact hb

theorem Train.masked_move (x : Train) (st : TrainState) (n : Option Nat) : DewMove x { x with state := st, recovery := n }.masked := by
  unfold Train.masked
  split
  · next h => exact ⟨rfl, .inr h.symm, .inl rfl⟩
  · exact ⟨rfl, .inr rfl, .inl rfl⟩

theorem Train.masked_keeps (x : Train) : x.masked.state = x.state ∧ x.masked.share = x.share := by
  unfold Train.masked
  split <;> exact ⟨rfl, rfl⟩

/-- A predicate of the part that an event of the flow and a train's working fields cannot break. -/
structure DewFree (P : State → Prop) : Prop where
  raise : ∀ s k a b, k.ofFlow = true → P s → P (raise k a b s)
  putTrain : ∀ s t x, DewMove s.dry.trains[t] x → P s → P (putTrain t x s)

theorem DewFree.reshare {P : State → Prop} (hP : DewFree P) {s : State} (h : P s) : P (reshare s) := by
  have ha := hP.putTrain s 0 { s.dry.trains[(0 : Fin 2)] with share := (flowShares s).1 } ⟨rfl, .inl rfl, .inl rfl⟩ h
  exact hP.putTrain _ 1 { s.dry.trains[(1 : Fin 2)] with share := (flowShares s).2 }
    ⟨by simp [Machine.putTrain, setVec_getElem, Train.body], .inl (by simp [Machine.putTrain, setVec_getElem]),
      .inl (by simp [Machine.putTrain, setVec_getElem])⟩ ha

theorem DewFree.sendStandby {P : State → Prop} (hP : DewFree P) (t : Fin 2) {s : State} (h : P s) : P (sendStandby t s) := by
  dsimp only [Machine.sendStandby]
  split
  · exact hP.putTrain s t _ ⟨rfl, .inl rfl, .inl rfl⟩ h
  · exact h

/-- A warning raised is of the train `t`, at or above its warn level. -/
def warnsOf (t : Fin 2) (s : State) (k : EventKind) (a : Option Nat) : Prop :=
  k = .dewWarning → a = some t.val ∧ (s.dry.trains[t]).cfg.warn ≤ (s.dry.trains[t]).dew

/-- A predicate that the moves of the train `t` at its dew point keep, one that leaves or enters the capacity with what `hand`
re-forms. -/
structure DewKept (hand : Hand) (t : Fin 2) (P : State → Prop) : Prop where
  raise : ∀ s k a b, k.ofFlow = true → warnsOf t s k a → P s → P (raise k a b s)
  quiet : ∀ s x, DewMove s.dry.trains[t] x → x.state = (s.dry.trains[t]).state → x.share = (s.dry.trains[t]).share → P s →
    P (putTrain t x s)
  leave : ∀ s x, DewMove s.dry.trains[t] x → x.state ≠ .out → P s → P (hand (reshare (putTrain t x s)))
  join : ∀ s x, DewMove s.dry.trains[t] x → (s.dry.trains[t]).state = .standby → x.state = .online → P s →
    P (reshare (putTrain t x s))
  reshare : ∀ s, P s → P (reshare s)

/-- What no train's working field can break, the dew point keeps. -/
theorem DewFree.kept {P : State → Prop} (hP : DewFree P) {hand : Hand} (hhand : ∀ s, P s → P (hand s)) (t : Fin 2) :
    DewKept hand t P where
  raise s k a b hk _ h := hP.raise s k a b hk h
  quiet s x hx _ _ h := hP.putTrain s t x hx h
  leave s x hx _ h := hhand _ (hP.reshare (hP.putTrain s t x hx h))
  join s x hx _ _ h := hP.reshare (hP.putTrain s t x hx h)
  reshare _ h := hP.reshare h

namespace DewKept

variable {hand : Hand} {t : Fin 2} {P : State → Prop} (hP : DewKept hand t P) {s : State}
include hP

/-! ### The dew point (R152 to R155) -/

theorem dewWarning (h : P s) : P (dewWarning t s) := by
  dsimp only [Machine.dewWarning]
  split_ifs with hwarn harmed
  · exact hP.quiet s _ ⟨rfl, .inl rfl, .inr (decide_eq_true hwarn).symm⟩ rfl rfl h
  · refine hP.raise _ _ _ _ rfl (fun _ => ⟨rfl, ?_⟩) (hP.quiet s _ ⟨rfl, .inl rfl, .inr (decide_eq_false hwarn).symm⟩ rfl rfl h)
    simpa [Machine.putTrain, setVec_getElem] using hwarn
  · exact h

theorem takeExcursion (h : P s) : P (takeExcursion hand t s) := hP.raise _ _ _ _ rfl nofun (hP.leave s _ ⟨rfl, .inl rfl, .inl rfl⟩ nofun h)

theorem assessSpec (h : P s) : P (assessSpec hand t s) := by
  dsimp only [Machine.assessSpec]
  split_ifs
  · split
    · exact h
    · exact hP.takeExcursion h
  · split
    · exact h
    · exact hP.quiet s _ ⟨rfl, .inl rfl, .inl rfl⟩ rfl rfl h
  · exact hP.quiet s _ ⟨rfl, .inl rfl, .inl rfl⟩ rfl rfl h

theorem assessOnline (h : P s) : P (assessOnline hand t s) := by
  dsimp only [Machine.assessOnline]
  split
  · exact hP.dewWarning (hP.assessSpec h)
  · exact h

theorem takeRecovery (h : P s) : P (takeRecovery hand t s) := by
  have hback (st : TrainState) (hst : st ≠ .out) := hP.raise _ .onSpec (some t.val) (some (s.dry.trains[t]).dew) rfl nofun
    (hP.leave s _ (Train.masked_move s.dry.trains[t] st none) ((Train.masked_keeps _).1.trans_ne hst) h)
  have hst : (if s.flow.dir == .withdrawing then TrainState.online else .standby) ≠ .out := by split <;> exact nofun
  dsimp only [Machine.takeRecovery]
  split
  · exact hP.assessOnline (hback _ hst)
  · exact hback _ hst

theorem assessRecovery (h : P s) : P (assessRecovery hand t s) := by
  dsimp only [Machine.assessRecovery]
  split_ifs
  · split
    · exact h
    · exact hP.takeRecovery h
  · split
    · exact h
    · exact hP.quiet s _ ⟨rfl, .inl rfl, .inl rfl⟩ rfl rfl h
  · exact hP.quiet s _ ⟨rfl, .inl rfl, .inl rfl⟩ rfl rfl h

theorem assessOffSpec (h : P s) : P (assessOffSpec hand t s) := by
  dsimp only [Machine.assessOffSpec]
  split
  · exact hP.assessRecovery (hP.dewWarning h)
  · exact h

theorem assess (h : P s) : P (assess hand t s) := by
  dsimp only [Machine.assess]
  split
  · exact hP.assessOnline h
  · exact hP.assessOffSpec h
  · exact h

theorem loadMask (h : P s) : P (loadMask hand t s) := by
  obtain ⟨hstate, hshare⟩ := Train.masked_keeps s.dry.trains[t]
  have hmask := hP.quiet s _ (Train.masked_move s.dry.trains[t] (s.dry.trains[t]).state (s.dry.trains[t]).recovery) hstate hshare h
  dsimp only [Machine.loadMask]
  split
  · exact hP.assess hmask
  · exact hmask

theorem bringOnline (h : P s) : P (bringOnline hand t s) := by
  dsimp only [Machine.bringOnline]
  split
  · next hstandby =>
    exact hP.loadMask (hP.join s _ ⟨rfl, .inl rfl, .inl rfl⟩ (beq_iff_eq.mp ((Bool.and_eq_true _ _).mp hstandby).1) rfl h)
  · exact h

end DewKept

/-- What the moves of both trains keep, and the trains sent to STANDBY, the trains that follow the direction keep (R141). -/
theorem followDirection_kept {hand : Hand} {P : State → Prop} (hP : ∀ t, DewKept hand t P)
    (hrest : ∀ s, P s → P (reshare (sendStandby 1 (sendStandby 0 s)))) {s : State} (h : P s) : P (followDirection hand s) := by
  dsimp only [followDirection]
  split
  · exact (hP 1).reshare _ ((hP 1).bringOnline ((hP 0).bringOnline h))
  · exact hrest s h

theorem DewFree.rest {P : State → Prop} (hP : DewFree P) (s : State) (h : P s) :
    P (Machine.reshare (Machine.sendStandby 1 (Machine.sendStandby 0 s))) :=
  hP.reshare (hP.sendStandby 1 (hP.sendStandby 0 h))

/-- A predicate `P` that the direction machine keeps, but for the capacities that it is handed; a write to the setpoint or to the
direction can break it to a weaker `B` until the trains have followed, or the shares are formed again. -/
structure FlowKept (B P : State → Prop) : Prop where
  weaken : ∀ s, P s → B s
  raise : ∀ s k a b, k.ofFlow = true → k ≠ .dewWarning → B s → B (raise k a b s)
  setFlow : ∀ s x, x.cInj = s.flow.cInj → x.cWdr = s.flow.cWdr → B s → B (s.setFlow x)
  quiet : ∀ s x, x.cInj = s.flow.cInj → x.cWdr = s.flow.cWdr → x.setpoint = s.flow.setpoint → x.dir = s.flow.dir → P s →
    P (s.setFlow x)
  follow : ∀ s, B s → P (followDirection handWithdrawalAtZero s)
  reshare : ∀ s, B s → P (reshare s)

namespace FlowKept

variable {B P : State → Prop} (hP : FlowKept B P) {s : State}
include hP

/-! ### The direction machine (R101 to R105) -/

theorem enterDir (d : FlowDir) (h : B s) : P (enterDir d s) :=
  hP.follow _ (hP.raise _ _ _ _ rfl nofun (hP.setFlow s _ rfl rfl h))

theorem expireTurnaround (h : B s) : P (expireTurnaround s) := hP.enterDir _ (hP.setFlow s _ rfl rfl h)

theorem enterTurnaround (h : B s) : P (enterTurnaround s) := by
  have hturn : P (Machine.followDirection Machine.handWithdrawalAtZero (Machine.raise .turnaroundBegin none
      (some (s.site.turnHold : Int)) (s.setFlow { s.flow with dir := .turnaround, timer := s.site.turnHold }))) :=
    hP.follow _ (hP.raise _ _ _ _ rfl nofun (hP.setFlow s _ rfl rfl h))
  dsimp only [Machine.enterTurnaround]
  split
  · exact hP.expireTurnaround (hP.weaken _ hturn)
  · exact hturn

theorem endAtZero (h : P s) : P (endAtZero s) := by
  have hleave (d : Prop) [Decidable d] : P (if d then Machine.enterDir .hold s else Machine.enterTurnaround s) := by
    split
    · exact hP.enterDir _ (hP.weaken _ h)
    · exact hP.enterTurnaround (hP.weaken _ h)
  dsimp only [Machine.endAtZero]
  split
  case h_1 =>
    split
    · exact hleave _
    · exact h
  case h_2 =>
    split
    · exact hleave _
    · exact h
  case h_3 => exact h
  case h_4 => exact h

theorem assessHold (h : P s) : P (assessHold s) := by
  dsimp only [Machine.assessHold]
  split_ifs
  · exact h
  · exact hP.enterDir _ (hP.weaken _ h)
  · exact hP.enterDir _ (hP.weaken _ h)
  · exact hP.enterTurnaround (hP.weaken _ h)

theorem actOnTarget (h : P s) : P (actOnTarget s) := by
  dsimp only [Machine.actOnTarget]
  split
  · exact hP.assessHold h
  · exact hP.endAtZero h
  · exact hP.endAtZero h
  · exact h

theorem recomputeTarget (h : P s) : P (recomputeTarget s) := hP.actOnTarget (hP.quiet s _ rfl rfl rfl rfl h)

/-! ### Step cuts and the second (R95, R98, R99, R103) -/

theorem stepCut (x : Int) (h : B s) : P (stepCut x s) :=
  hP.endAtZero (hP.reshare _ (hP.raise _ _ _ _ rfl nofun (hP.setFlow s _ rfl rfl h)))

theorem receiveInj (c : Nat) (h : P (s.setFlow (limitT { s.flow with cInj := c }))) : P (receiveInj c s) := by
  dsimp only [Machine.receiveInj]
  split
  · exact hP.stepCut _ (hP.weaken _ h)
  · exact h

theorem receiveWdr (c : Nat) (h : P (s.setFlow (limitT { s.flow with cWdr := c }))) : P (receiveWdr c s) := by
  dsimp only [Machine.receiveWdr]
  split
  · exact hP.stepCut _ (hP.weaken _ h)
  · exact h

theorem flowSecond (h : P s) : P (flowSecond s) := by
  have hramp : P (if ramping s.flow then Machine.endAtZero (Machine.reshare (s.setFlow
      { s.flow with setpoint := rampTo (goal s.flow) s.flow.setpoint (rampRate s) })) else s) := by
    split
    · exact hP.endAtZero (hP.reshare _ (hP.setFlow s _ rfl rfl (hP.weaken _ h)))
    · exact h
  dsimp only [Machine.flowSecond]
  split
  · split
    · exact hP.expireTurnaround (hP.weaken _ h)
    · exact hP.quiet s _ rfl rfl rfl rfl h
  all_goals exact hramp

end FlowKept

/-! ### Both capacities handed on (R95, R115, R142) -/

/-- A predicate that no event of the flow, no working field of a train, no write to the flow, no recut and no order of the world can
break, nor a new withdrawal capacity. -/
structure FlowFree (P : State → Prop) : Prop extends DewFree P where
  setFlow : ∀ s x, P s → P (s.setFlow x)
  recut : ∀ s, P s → P (recut s)
  setWorld : ∀ s n, P s → P (s.setWorld n)
  capacity : ∀ s n, P s → P (s.setDry { s.dry with capacity := n })

namespace FlowFree

variable {P : State → Prop} (hP : FlowFree P) {s : State}
include hP

theorem handAtZero (h : P s) : P (handWithdrawalAtZero s) := by
  have hcap := hP.capacity s (withdrawalCapacity s) h
  dsimp only [handWithdrawalAtZero]
  split
  · exact hP.setFlow _ _ (hP.recut _ hcap)
  · exact hP.setFlow _ _ hcap

theorem flow : FlowKept P P where
  weaken _ h := h
  raise s k a b hk _ h := hP.raise s k a b hk h
  setFlow s x _ _ h := hP.setFlow s x h
  quiet s x _ _ _ _ h := hP.setFlow s x h
  follow _ h := followDirection_kept (hP.kept fun _ => hP.handAtZero) hP.rest h
  reshare _ h := hP.reshare h

theorem receiveInj (c : Nat) (h : P s) : P (receiveInj c s) := hP.flow.receiveInj c (hP.setFlow s _ h)

theorem receiveWdr (c : Nat) (h : P s) : P (receiveWdr c s) := hP.flow.receiveWdr c (hP.setFlow s _ h)

theorem handWithdrawal (h : P s) : P (handWithdrawal s) :=
  handWithdrawal_preserves P s hP.recut (fun c _ hu => hP.receiveWdr c hu) (fun _ hu => hP.reshare hu) hP.setWorld (hP.capacity s _ h)

theorem handInjection (h : P (s.setDuty { s.duty with declared := declaredInjection s, ready := readyInjection s })) :
    P (handInjection s) :=
  handInjection_preserves P s hP.recut (fun c _ hu => hP.receiveInj c hu) hP.setWorld h

theorem dew (t : Fin 2) : DewKept Machine.handWithdrawal t P := hP.kept (fun _ => hP.handWithdrawal) t

end FlowFree

/-! ### What these write (R61, R142) -/

section
variable {ps : List Part}

theorem recutHour_dry (n : Nat) (s : State) : (recutHour n s).dry = s.dry := by
  dsimp only [recutHour]
  split <;> rfl

theorem recut_dry (s : State) : (recut s).dry = s.dry :=
  foldl_preserves (fun t => t.dry = s.dry) recutHour _ (fun n _ t ht => (recutHour_dry n t).trans ht) s rfl

theorem does_recutHour (n : Nat) (hs : Part.sched ∈ ps) (he : Part.evq ∈ ps) (s : State) : Does ps s (recutHour n s) := by
  dsimp only [recutHour]
  split
  · exact .refl ps s
  · exact ((acts_setSched s _ hs).trans (acts_raise _ _ _ _ he)).does

theorem does_recut (hs : Part.sched ∈ ps) (he : Part.evq ∈ ps) (s : State) : Does ps s (recut s) :=
  does_foldl recutHour _ (fun n _ => does_recutHour n hs he) s

theorem does_putTrain (t : Fin 2) (x : Train) (hd : Part.dry ∈ ps) (s : State) : Does ps s (putTrain t x s) :=
  (acts_setDry s _ hd).does

end

/-- The parts that the flow machinery may change. -/
def flowParts : List Part := [.world, .flow, .dry, .sched, .evq]

/-- The parts that a change of a unit may change. -/
def dutyParts : List Part := [.world, .duty, .flow, .dry, .sched, .evq]

/-- The flow machinery changes no part but those. -/
theorem flowFree_of_subset {ps : List Part} (h : flowParts ⊆ ps) (s : State) : FlowFree (Does ps s) where
  raise t k a b _ ht := ht.trans (acts_raise t k a b (h (by decide))).does
  setFlow t x ht := ht.trans (acts_setFlow t x (h (by decide))).does
  putTrain t i x _ ht := ht.trans (does_putTrain i x (h (by decide)) t)
  recut t ht := ht.trans (does_recut (h (by decide)) (h (by decide)) t)
  setWorld t n ht := ht.trans (acts_setWorld t n (h (by decide))).does
  capacity t n ht := ht.trans (acts_setDry t _ (h (by decide))).does

section
variable {ps : List Part} (h : flowParts ⊆ ps) (s : State)
include h

theorem does_recomputeTarget : Does ps s (recomputeTarget s) := (flowFree_of_subset h s).flow.recomputeTarget (.refl ps s)

theorem does_receiveInj (c : Nat) : Does ps s (receiveInj c s) := (flowFree_of_subset h s).receiveInj c (.refl ps s)

theorem does_receiveWdr (c : Nat) : Does ps s (receiveWdr c s) := (flowFree_of_subset h s).receiveWdr c (.refl ps s)

theorem does_handWithdrawal : Does ps s (handWithdrawal s) := (flowFree_of_subset h s).handWithdrawal (.refl ps s)

theorem does_handInjection (hd : Part.duty ∈ ps) : Does ps s (handInjection s) :=
  (flowFree_of_subset h s).handInjection (acts_setDuty s _ hd).does

theorem does_assess (t : Fin 2) : Does ps s (assess handWithdrawal t s) := ((flowFree_of_subset h s).dew t).assess (.refl ps s)

end

end Sys2Proof.Machine
end

section
/-! SUPPORT. One induction over the drying supervisor and one over the duty scheduler: what their writes and the hand-over of
the capacities cannot break, their rows keep (chapters 6 and 7). -/

namespace Sys2Proof.Machine

/-! ### A train record -/

theorem Train.bedsSound_iff (x : Train) : x.bedsSound = true ↔
    ¬(x.lo.state = .adsorbing ∧ x.hi.state = .adsorbing) ∧ ¬(x.lo.regenerates = true ∧ x.hi.regenerates = true)
    ∧ (x.lo.state = .ready → x.lo.load = 0) ∧ (x.hi.state = .ready → x.hi.load = 0) := by
  simp only [Train.bedsSound, Bool.and_eq_true, Bool.not_eq_true', Bool.and_eq_false_iff, Bool.or_eq_true, bne_iff_ne, beq_iff_eq,
    beq_eq_false_iff_ne, not_and_or, Bool.not_eq_true, imp_iff_not_or, and_assoc, ne_eq]

/-- What every write to a train record but TRAIN SET and an image leaves alone, and what it keeps. -/
structure TrainMove (x y : Train) : Prop where
  configured : y.configured = x.configured
  cfg : y.cfg = x.cfg
  beds : x.bedsSound = true → y.bedsSound = true

theorem TrainMove.of_core {x y : Train} (h : y.core = x.core) : TrainMove x y := by
  simp only [Train.core, Train.body, Train.mk.injEq] at h
  obtain ⟨hconf, hcfg, _, _, _, _, _, _, _, _, _, _, _, _, _, hlo, hhi⟩ := h
  exact ⟨hconf, hcfg, fun hx => by rw [Train.bedsSound_iff] at hx ⊢; rw [hlo, hhi]; exact hx⟩

/-- A bed replaced. -/
theorem TrainMove.setBed {x : Train} {i : Side} {b : Bed}
    (hads : b.state = .adsorbing → (x.bed i).state = .adsorbing ∨ (x.bed i.partner).state ≠ .adsorbing)
    (hregen : b.regenerates = true → (x.bed i).regenerates = true ∨ (x.bed i.partner).regenerates = false)
    (hready : b.state = .ready → b.load = 0) : TrainMove x (x.setBed i b) := by
  refine ⟨by cases i <;> rfl, by cases i <;> rfl, fun hx => ?_⟩
  obtain ⟨hx1, hx2, hx3, hx4⟩ := (Train.bedsSound_iff x).mp hx
  rw [Train.bedsSound_iff]
  cases i
  · simp only [Train.setBed, Train.bed, Side.partner] at hads hregen ⊢
    refine ⟨fun h => ?_, fun h => ?_, hready, hx4⟩
    · rcases hads h.1 with h' | h'
      · exact hx1 ⟨h', h.2⟩
      · exact h' h.2
    · rcases hregen h.1 with h' | h'
      · exact hx2 ⟨h', h.2⟩
      · exact absurd h.2 (by simp [h'])
  · simp only [Train.setBed, Train.bed, Side.partner] at hads hregen ⊢
    refine ⟨fun h => ?_, fun h => ?_, hx3, hready⟩
    · rcases hads h.2 with h' | h'
      · exact hx1 ⟨h.1, h'⟩
      · exact h' h.1
    · rcases hregen h.2 with h' | h'
      · exact hx2 ⟨h.1, h'⟩
      · exact absurd h.1 (by simp [h'])

/-- Both beds replaced at a swap. -/
theorem TrainMove.swap {x y : Train} (i : Side) (hconf : y.configured = x.configured) (hcfg : y.cfg = x.cfg)
    (hi : (y.bed i).state = .heating) (hp : (y.bed i.partner).state = .adsorbing) : TrainMove x y := by
  refine ⟨hconf, hcfg, fun _ => ?_⟩
  rw [Train.bedsSound_iff]
  cases i <;> simp_all [Train.bed, Side.partner, Bed.regenerates]

theorem Train.adsorbing_none (x : Train) : x.adsorbing = none ↔ x.lo.state ≠ .adsorbing ∧ x.hi.state ≠ .adsorbing := by
  unfold Train.adsorbing
  split_ifs with hlo hhi <;> simp_all

/-! ### The drying supervisor -/

/-- A predicate `P` that the moves of the train `t` keep, where a bed or the flag DEGRADED can break it to a weaker `B` until `hand` has
re-formed the capacity. -/
structure TrainKept (hand : Hand) (t : Fin 2) (B P : State → Prop) : Prop extends DewKept hand t P where
  weaken : ∀ s, P s → B s
  raiseB : ∀ s k a b, k.ofFlow = true → B s → B (Machine.raise k a b s)
  moveB : ∀ s x, TrainMove s.dry.trains[t] x → B s → B (putTrain t x s)
  move : ∀ s x, TrainMove s.dry.trains[t] x → x.state = (s.dry.trains[t]).state → x.degraded = (s.dry.trains[t]).degraded →
    x.share = (s.dry.trains[t]).share → P s → P (putTrain t x s)
  handed : ∀ s, B s → P (hand s)

/-- What no working field and no move of the train can break. -/
theorem TrainKept.whole {hand : Hand} {t : Fin 2} {P : State → Prop} (hP : DewFree P)
    (hmove : ∀ s x, TrainMove s.dry.trains[t] x → P s → P (putTrain t x s)) (hhand : ∀ s, P s → P (hand s)) :
    TrainKept hand t P P where
  toDewKept := hP.kept hhand t
  weaken _ h := h
  raiseB := hP.raise
  moveB := hmove
  move s x hx _ _ _ h := hmove s x hx h
  handed := hhand

namespace TrainKept

variable {hand : Hand} {t : Fin 2} {B P : State → Prop} (hP : TrainKept hand t B P) {s : State}
include hP

/-! #### Beds (R148 to R151) -/

/-- A move that clears DEGRADED, with the capacity re-formed where it was set. -/
theorem clear (x : Train) (hx : TrainMove s.dry.trains[t] x) (hstate : x.state = (s.dry.trains[t]).state)
    (hdeg : x.degraded = false) (hshare : x.share = (s.dry.trains[t]).share) (h : P s) :
    P (if (s.dry.trains[t]).degraded then hand (putTrain t x s) else putTrain t x s) := by
  split
  · exact hP.handed _ (hP.moveB s x hx (hP.weaken s h))
  · next hclear => exact hP.move s x hx hstate (hdeg.trans (Bool.not_eq_true _ ▸ hclear).symm) hshare h

theorem swapBeds (i : Side) (h : P s) : P (swapBeds hand t i s) := by
  refine hP.raise _ _ _ _ rfl nofun (hP.loadMask (hP.clear _ (.swap i ?_ ?_ ?_ ?_) ?_ rfl ?_ h)) <;> cases i <;> rfl

theorem takeUpBed {i : Side} (hready : ((s.dry.trains[t]).bed i.partner).state ≠ .adsorbing) (h : P s) : P (takeUpBed hand t i s) := by
  have hbed := TrainMove.setBed (x := s.dry.trains[t]) (i := i) (b := ⟨.adsorbing, 0, 0⟩) (fun _ => .inr hready) nofun nofun
  refine hP.raise _ _ _ _ rfl nofun (hP.loadMask (hP.clear _ ⟨hbed.configured, hbed.cfg, fun hx => hbed.beds hx⟩ ?_ rfl ?_ h))
    <;> cases i <;> rfl

theorem takeUp (h : P s) : P (takeUp hand t s) := by
  dsimp only [Machine.takeUp]
  split
  · exact h
  · split
    · next i hnone hi =>
      refine hP.takeUpBed ?_ h
      obtain ⟨hlo, hhi⟩ := (Train.adsorbing_none _).mp hnone
      cases i
      · exact hhi
      · exact hlo
    · exact h

theorem deferSwap (i : Side) (h : P s) : P (deferSwap t i s) := by
  dsimp only [Machine.deferSwap]
  split
  · exact h
  · exact hP.raise _ _ _ _ rfl nofun (hP.move s _ (.of_core rfl) rfl rfl rfl h)

theorem testSaturation (i : Side) (h : P s) : P (testSaturation hand t i s) := by
  have hset (p : Bool) := hP.moveB s { s.dry.trains[t] with degraded := p } ⟨rfl, rfl, fun hx => hx⟩ (hP.weaken s h)
  dsimp only [Machine.testSaturation]
  split
  · exact hP.handed _ (hP.raiseB _ _ _ _ rfl (hset true))
  · split
    · exact hP.handed _ (hset false)
    · exact h

theorem bedTest (h : P s) : P (bedTest hand t s) := by
  dsimp only [Machine.bedTest]
  split
  · exact h
  · split
    · split
      · exact hP.swapBeds _ h
      · exact hP.testSaturation _ (hP.deferSwap _ h)
    · exact hP.testSaturation _ (hP.move s _ (.of_core rfl) rfl rfl rfl h)

theorem endHeating {i : Side} (hi : ((s.dry.trains[t]).bed i).regenerates = true) (h : P s) : P (endHeating t i s) := by
  refine hP.move s _ (.setBed nofun (fun _ => .inl hi) nofun) ?_ ?_ ?_ h <;> cases i <;> rfl

end TrainKept

namespace TrainKept

variable {t : Fin 2} {B P : State → Prop} (hP : TrainKept handWithdrawal t B P) {s : State}
include hP

theorem endCooling (i : Side) (h : P s) : P (endCooling t i s) := by
  refine hP.takeUp (hP.bedTest (hP.move s _ (.setBed nofun nofun fun _ => rfl) ?_ ?_ ?_ h)) <;> cases i <;> rfl

/-! #### Reports and timers (R145, R146) -/

theorem reportTrain (water temp dew : Int) (h : P s) : P (reportTrain t water temp dew s) :=
  hP.assess (hP.bedTest (hP.move s _ ⟨rfl, rfl, fun hx => hx⟩ rfl rfl rfl h))

theorem bedTimer (i : Side) (h : P s) : P (bedTimer t i s) := by
  have hfall {b : BedState} (hb : ((s.dry.trains[t]).bed i).state = b) (hr : b = .heating ∨ b = .cooling) (n : Nat) :
      P (Machine.putTrain t ((s.dry.trains[t]).setBed i { (s.dry.trains[t]).bed i with timer := n }) s) := by
    refine hP.move s _ (.setBed (fun _ => .inl ‹_›) (fun hr => .inl hr) (fun hready => ?_)) ?_ ?_ ?_ h
    · exact absurd (hb.symm.trans hready) (by rcases hr with rfl | rfl <;> decide)
    all_goals cases i <;> rfl
  dsimp only [Machine.bedTimer]
  split
  · next hb =>
    split
    · exact hP.endHeating (Bool.or_eq_true _ _ ▸ .inl (beq_iff_eq.mpr hb)) h
    · exact hfall hb (.inl rfl) _
  · next hb =>
    split
    · exact hP.endCooling i h
    · exact hfall hb (.inr rfl) _
  · exact h

theorem endMask (h : P s) : P (endMask t s) := hP.assess (hP.move s _ (.of_core rfl) rfl rfl rfl h)

theorem maskTimer (h : P s) : P (maskTimer t s) := by
  dsimp only [Machine.maskTimer]
  split_ifs
  · exact h
  · exact hP.endMask h
  · exact hP.move s _ (.of_core rfl) rfl rfl rfl h

theorem excursionTimer (h : P s) : P (excursionTimer t s) := by
  dsimp only [Machine.excursionTimer]
  split
  · exact h
  · split
    · exact hP.takeExcursion h
    · exact hP.quiet s _ ⟨rfl, .inl rfl, .inl rfl⟩ rfl rfl h

theorem recoveryTimer (h : P s) : P (recoveryTimer t s) := by
  dsimp only [Machine.recoveryTimer]
  split
  · exact h
  · split
    · exact hP.takeRecovery h
    · exact hP.quiet s _ ⟨rfl, .inl rfl, .inl rfl⟩ rfl rfl h

end TrainKept

/-- What a train that enters service keeps until the capacity is handed on, it keeps. -/
theorem TrainKept.enterService {t : Fin 2} {P : State → Prop} (hP : TrainKept handWithdrawal t P P) {s : State} (h : P s) :
    P (enterService t s) := hP.handed _ (hP.bringOnline (hP.takeUp h))

/-! #### What is done for one train leaves the other's record (R145, R146) -/

/-- The body of a train's record is kept by the flow and the other train's moves. -/
theorem bodyKept (t : Fin 2) (x : Train) : FlowFree (fun s => (s.dry.trains[t]).body = x.body) where
  raise _ _ _ _ _ h := h
  setFlow _ _ h := h
  putTrain s i y hy h := by
    show ((setVec s.dry.trains i y)[t]).body = x.body
    rw [Fin.getElem_fin, setVec_getElem]
    split
    · next hi => rw [hy.body, ← h]; exact congrArg (fun j : Fin 2 => (s.dry.trains[j]).body) (Fin.ext hi)
    · exact h
  recut s h := (congrArg (fun d : Drying => (d.trains[t]).body) (recut_dry s)).trans h
  setWorld _ _ h := h
  capacity _ _ h := h

/-- What is done for the train `i` keeps the body of the other. -/
theorem otherKept {t i : Fin 2} (hti : t ≠ i) (x : Train) :
    TrainKept handWithdrawal i (fun s => (s.dry.trains[t]).body = x.body) (fun s => (s.dry.trains[t]).body = x.body) :=
  .whole (bodyKept t x).toDewFree
    (fun s y _ h => by
      show ((setVec s.dry.trains i y)[t]).body = x.body
      rw [Fin.getElem_fin, setVec_getElem, if_neg (fun hi => hti (Fin.ext hi.symm))]
      exact h)
    fun _ h => (bodyKept t x).handWithdrawal h

/-! #### Both trains -/

/-- A predicate `P` that the moves of both trains, the two accruals of a second, a report and a train that enters service keep. -/
structure DryKept (B P : State → Prop) : Prop where
  train : ∀ t, TrainKept handWithdrawal t B P
  accrue : ∀ s, P s → P (accrueGas s)
  load : ∀ s, P s → P (loadBeds s)
  reportTrains : ∀ b s, P s → P (reportTrains b s)
  enterService : ∀ t s, B s → P (enterService t s)
  rest : ∀ s, P s → P (reshare (sendStandby 1 (sendStandby 0 s)))

/-- What the moves of both trains cannot break, a report and a train that enters service keep. -/
theorem DryKept.whole {P : State → Prop} (hfree : DewFree P) (htrain : ∀ t, TrainKept handWithdrawal t P P)
    (haccrue : ∀ s, P s → P (accrueGas s)) (hload : ∀ s, P s → P (loadBeds s)) : DryKept P P where
  train := htrain
  accrue := haccrue
  load := hload
  reportTrains b s h := by
    have hA := (htrain 0).reportTrain (fieldI b 24) (fieldI b 25) (fieldI b 26) h
    have hbody := (otherKept (t := 1) (i := 0) (by decide) s.dry.trains[(1 : Fin 2)]).reportTrain (s := s) (fieldI b 24) (fieldI b 25)
      (fieldI b 26) rfl
    dsimp only [Machine.reportTrains]
    split
    · exact (htrain 1).reportTrain _ _ _ hA
    · refine followDirection_kept (fun t => (htrain t).toDewKept) hfree.rest (hfree.sendStandby 1 ((htrain 1).reportTrain _ _ _
        ((htrain 1).moveB _ _ (.of_core ?_) hA)))
      exact (congrArg (fun z : Train => { z with degraded := false, deferred := false }) hbody).symm
  enterService t _ h := (htrain t).enterService h
  rest := hfree.rest

namespace DryKept

variable {B P : State → Prop} (hP : DryKept B P) {s : State}
include hP

theorem hand (s : State) (h : B s) : P (handWithdrawal s) := (hP.train 0).handed s h

theorem followDirection (h : P s) : P (followDirection handWithdrawal s) :=
  followDirection_kept (fun t => (hP.train t).toDewKept) hP.rest h

/-- Trains taken from an image: what the beds keep until the capacity is handed on, it establishes (R139). -/
theorem tested (hid : ∀ t, TrainKept id t B B) (h : B s) :
    P (Machine.followDirection handWithdrawal (handWithdrawal (bothTrains (fun t u => bedTest id t (takeUp id t u)) s))) := by
  have htaken (t : Fin 2) {u : State} (hu : B u) : B (bedTest id t (takeUp id t u)) := (hid t).bedTest ((hid t).takeUp hu)
  dsimp only [bothTrains]
  exact hP.followDirection (hP.hand _ (htaken 1 (htaken 0 h)))

theorem bedTimers (h : P s) : P (bedTimers s) := by
  refine foldl_preserves P (fun (p : Fin 2 × Side) u =>
    if ((s.dry.trains[p.1]).bed p.2).regenerates then Machine.bedTimer p.1 p.2 u else u) _ (fun p _ u hu => ?_) s h
  split
  · exact (hP.train p.1).bedTimer _ hu
  · exact hu

theorem dryingSecond (h : P s) : P (dryingSecond s) := by
  have hloaded := hP.load _ (hP.accrue _ h)
  have htested := (hP.train 1).bedTest ((hP.train 0).bedTest (hP.bedTimers hloaded))
  dsimp only [Machine.dryingSecond, bothTrains]
  exact (hP.train 1).recoveryTimer ((hP.train 0).recoveryTimer ((hP.train 1).excursionTimer ((hP.train 0).excursionTimer
    ((hP.train 1).maskTimer ((hP.train 0).maskTimer htested)))))

end DryKept

theorem trainKept_of_subset {ps : List Part} (h : flowParts ⊆ ps) (s : State) {hand : Hand} (hhand : ∀ u, Does ps s u → Does ps s (hand u))
    (t : Fin 2) : TrainKept hand t (Does ps s) (Does ps s) :=
  .whole (flowFree_of_subset h s).toDewFree (fun u x _ hu => hu.trans (does_putTrain t x (h (by decide)) u)) hhand

theorem dryKept_of_subset {ps : List Part} (h : flowParts ⊆ ps) (s : State) : DryKept (Does ps s) (Does ps s) :=
  .whole (flowFree_of_subset h s).toDewFree
    (trainKept_of_subset h s fun _ hu => (flowFree_of_subset h s).handWithdrawal hu)
    (fun u hu => hu.trans (acts_setDry u _ (h (by decide))).does) fun u hu => hu.trans (acts_setDry u _ (h (by decide))).does

/-! ### The duty scheduler -/

/-- Two units STARTING are one (R118). -/
def Duty.oneStarting (d : Duty) : Prop := ∀ i j : Fin 6, (d.units[i]).state = .starting → (d.units[j]).state = .starting → i = j

/-- What every write to a unit record but UNIT SET and an image leaves alone, and what state it gives. -/
structure UnitMove (d : Duty) (i : Fin 6) (v : CUnit) : Prop where
  configured : v.configured = (d.units[i]).configured
  cfg : v.cfg = (d.units[i]).cfg
  starting : v.state = .starting → (d.units[i]).state = .starting ∨ ∀ j : Fin 6, (d.units[j]).state ≠ .starting

theorem putUnit_units (i : Fin 6) (u : CUnit) (s : State) :
    (putUnit i u s).duty.units = setVec s.duty.units i (u.renote s.site.startLimit) := rfl

theorem noneStarting_iff (s : State) : noneStarting s = true ↔ ∀ j : Fin 6, (s.duty.units[j]).state ≠ .starting := by
  rw [noneStarting, Vector.all_toList, Vector.all_eq_true]
  simp only [bne_iff_ne]
  exact (Fin.forall_iff (p := fun j : Fin 6 => (s.duty.units[j]).state ≠ .starting)).symm

theorem noteLimit_state (i j : Fin 6) (s : State) : ((noteLimit i s).duty.units[j]).state = (s.duty.units[j]).state := by
  dsimp only [noteLimit]
  split
  · rfl
  · show ((setVec s.duty.units i _)[j]).state = _
    rw [Fin.getElem_fin, setVec_getElem]
    split
    · next hij => exact congrArg (fun k : Fin 6 => (s.duty.units[k]).state) (Fin.ext hij)
    · rfl

theorem noteLimits_state (l : List (Fin 6)) (j : Fin 6) (s : State) :
    ((l.foldl (fun t i => noteLimit i t) s).duty.units[j]).state = (s.duty.units[j]).state :=
  foldl_preserves (fun t => (t.duty.units[j]).state = (s.duty.units[j]).state) noteLimit l
    (fun i _ t ht => (noteLimit_state i j t).trans ht) s rfl

theorem standbyEntry_state (g : Site) (c : UnitCfg) : (standbyEntry g c).1 ≠ .starting := by
  dsimp only [standbyEntry]
  split_ifs <;> exact nofun

/-- A predicate `P` that the moves of the unit `i` keep, where a change of its state can break it to a weaker `B` until both injection
capacities are re-formed. -/
structure UnitKept (i : Fin 6) (B P : State → Prop) : Prop where
  weaken : ∀ s, P s → B s
  raise : ∀ s k a b, k.source = .dutyScheduler → P s → P (raise k a b s)
  raiseB : ∀ s k a b, k.source = .dutyScheduler → B s → B (Machine.raise k a b s)
  moveB : ∀ s v, UnitMove s.duty i v → B s → B (putUnit i v s)
  move : ∀ s v, UnitMove s.duty i v → v.state = (s.duty.units[i]).state → P s → P (putUnit i v s)
  hand : ∀ s, B s → P (handInjection s)

/-- What no move of the unit can break. -/
theorem UnitKept.whole {i : Fin 6} {P : State → Prop} (hraise : ∀ s k a b, k.source = .dutyScheduler → P s → P (Machine.raise k a b s))
    (hmove : ∀ s v, UnitMove s.duty i v → P s → P (putUnit i v s)) (hhand : ∀ s, P s → P (handInjection s)) : UnitKept i P P where
  weaken _ h := h
  raise := hraise
  raiseB := hraise
  moveB := hmove
  move s v hv _ h := hmove s v hv h
  hand := hhand

namespace UnitKept

variable {i : Fin 6} {B P : State → Prop} (hP : UnitKept i B P) {s : State}
include hP

theorem settle (v : CUnit) (hconf : v.configured = (s.duty.units[i]).configured) (hcfg : v.cfg = (s.duty.units[i]).cfg)
    (hstate : v.state ≠ .starting) (h : P s) : B (putUnit i v s) :=
  hP.moveB s v ⟨hconf, hcfg, fun hv => absurd hv hstate⟩ (hP.weaken s h)

theorem keepState (v : CUnit) (hconf : v.configured = (s.duty.units[i]).configured) (hcfg : v.cfg = (s.duty.units[i]).cfg)
    (hstate : v.state = (s.duty.units[i]).state) (h : P s) : P (putUnit i v s) :=
  hP.move s v ⟨hconf, hcfg, fun hv => .inl (hstate ▸ hv)⟩ hstate h

/-! #### Starts, stops, phases, trips (R118 to R128) -/

theorem startUnit (hnone : ∀ j : Fin 6, (s.duty.units[j]).state ≠ .starting) (h : P s) : P (startUnit i s) :=
  hP.hand _ (hP.raiseB _ _ _ _ rfl (hP.moveB s _ ⟨rfl, rfl, fun _ => .inr hnone⟩ (hP.weaken s h)))

theorem endWarmUp (h : P s) : P (endWarmUp i s) := hP.hand _ (hP.raiseB _ _ _ _ rfl (hP.settle _ rfl rfl nofun h))

theorem stopUnit (h : P s) : P (stopUnit i s) :=
  hP.hand _ (hP.raiseB _ _ _ _ rfl (hP.settle _ rfl rfl (standbyEntry_state _ _) h))

theorem endHotHold (h : P s) : P (endHotHold i s) := by
  dsimp only [Machine.endHotHold]
  split
  · exact hP.hand _ (hP.settle _ rfl rfl nofun h)
  · exact hP.hand _ (hP.settle _ rfl rfl nofun h)

theorem endWarmHold (h : P s) : P (endWarmHold i s) := hP.hand _ (hP.settle _ rfl rfl nofun h)

theorem tripUnit (cause : TripCause) (h : P s) : P (tripUnit cause i s) := by
  dsimp only [Machine.tripUnit]
  split
  · exact hP.hand _ (hP.raiseB _ _ _ _ rfl (hP.settle _ rfl rfl nofun h))
  · exact hP.hand _ (hP.raiseB _ _ _ _ rfl (hP.raiseB _ _ _ _ rfl (hP.settle _ rfl rfl nofun h)))

theorem endRecovery (h : P s) : P (endRecovery i s) := hP.hand _ (hP.raiseB _ _ _ _ rfl (hP.settle _ rfl rfl nofun h))

theorem reportUnit (feedback : Nat) (load : Int) (h : P s) : P (reportUnit i feedback load s) := by
  have hput (u : CUnit) (hconf : u.configured = (s.duty.units[i]).configured) (hcfg : u.cfg = (s.duty.units[i]).cfg)
      (hstate : u.state = (s.duty.units[i]).state) : P (putUnit i u (putUnit i ((s.duty.units[i]).takeReport feedback load) s)) := by
    refine hP.keepState u ?_ ?_ ?_ (hP.keepState _ rfl rfl rfl h) <;> rw [putUnit_units, Fin.getElem_fin, setVec_getElem, if_pos rfl]
    · exact hconf
    · exact hcfg
    · exact hstate
  dsimp only [Machine.reportUnit]
  split_ifs
  · exact hP.tripUnit _ (hP.keepState _ rfl rfl rfl h)
  · exact hP.tripUnit _ (hput _ rfl rfl rfl)
  · exact hP.tripUnit _ (hput _ rfl rfl rfl)
  · exact hput _ rfl rfl rfl
  · exact hP.keepState _ rfl rfl rfl h

/-! #### The second (R117) -/

theorem phaseExpiry (h : P s) : P (phaseExpiry i s) := by
  dsimp only [Machine.phaseExpiry]
  split
  · exact hP.endWarmUp h
  · exact hP.endHotHold h
  · exact hP.endWarmHold h
  · exact hP.endRecovery h
  · exact h

theorem unitTimer (h : P s) : P (unitTimer i s) := by
  dsimp only [Machine.unitTimer]
  split_ifs
  · exact hP.phaseExpiry (hP.keepState _ rfl rfl rfl h)
  · exact hP.keepState _ rfl rfl rfl h
  · exact hP.keepState _ rfl rfl rfl h
  · exact h

theorem noteLimit (h : P s) : P (noteLimit i s) := by
  dsimp only [Machine.noteLimit]
  split
  · exact h
  · exact hP.raise _ _ _ _ rfl (hP.keepState _ rfl rfl rfl h)

end UnitKept

/-- A predicate of the part that the moves of every unit, the accrual, the ageing and the figures of an evaluation cannot break. -/
structure DutyKept (B P : State → Prop) : Prop where
  unit : ∀ i, UnitKept i B P
  accrue : ∀ s, P s → P (accrueFuel s)
  age : ∀ s, P s → P (countAndAge s)
  note : ∀ s d k, P s → P (s.setDuty { s.duty with dInj := d, k := k })

namespace DutyKept

variable {B P : State → Prop} (hP : DutyKept B P) {s : State}
include hP

theorem reportUnits (b : Block) (h : P s) : P (reportUnits b s) :=
  foldl_preserves P (fun i t => Machine.reportUnit i (fieldW b (6 + 3 * i.val)) (fieldI2 b (7 + 3 * i.val)) t) _
    (fun i _ _ hu => (hP.unit i).reportUnit _ _ hu) s h

theorem unitTimers (h : P s) : P (unitTimers s) :=
  foldl_preserves P Machine.unitTimer _ (fun i _ _ hu => (hP.unit i).unitTimer hu) s h

theorem startRule (h : P s) : P (startRule s) := by
  have hnoted := foldl_preserves P Machine.noteLimit (blockedAhead s s.duty.roster.toList)
    (fun i _ _ hu => (hP.unit i).noteLimit hu) s h
  dsimp only [Machine.startRule]
  split
  · next hstart =>
    have hnone : ∀ j : Fin 6, (s.duty.units[j]).state ≠ .starting :=
      (noneStarting_iff s).mp ((Bool.and_eq_true _ _).mp hstart).2
    split
    · refine (hP.unit _).startUnit (fun j => ?_) hnoted
      rw [noteLimits_state]
      exact hnone j
    · exact hnoted
  · exact h

theorem evaluateDuty (h : P s) : P (evaluateDuty s) := by
  have hnoted := hP.note s (demand s) (committed s) h
  dsimp only [Machine.evaluateDuty]
  split
  · split
    · exact (hP.unit _).stopUnit hnoted
    · exact hP.startRule hnoted
  · exact hP.startRule hnoted

theorem schedulerSecond (h : P s) : P (schedulerSecond s) :=
  hP.evaluateDuty (hP.unitTimers (hP.age _ (hP.accrue _ h)))

end DutyKept

theorem dutyKept_of_subset {ps : List Part} (h : dutyParts ⊆ ps) (s : State) : DutyKept (Does ps s) (Does ps s) where
  unit i := .whole (fun t k a b _ ht => ht.trans (acts_raise t k a b (h (by decide))).does)
    (fun t _ _ ht => ht.trans (acts_setDuty t _ (h (by decide))).does)
    fun t ht => ht.trans (does_handInjection (List.Subset.trans (by decide) h) t (h (by decide)))
  accrue t ht := ht.trans (acts_setDuty t _ (h (by decide))).does
  age t ht := ht.trans (acts_setDuty t _ (h (by decide))).does
  note t _ _ ht := ht.trans (acts_setDuty t _ (h (by decide))).does

end Sys2Proof.Machine
end

section
/-! SUPPORT. The parts that each operation of the accounts, the book, the settlement, the clock, the store and the link may
change, and that they only append events. -/

namespace Sys2Proof.Machine

/-! ### Accounts (chapter 2) -/

section
variable (s : State)

theorem does_putSlot (i : Fin 24) (a : Option Account) : Does [.acct] s (putSlot i a s) := (acts_setAcct s _ (by decide)).does

theorem does_evaluateAlert : Does [.acct, .evq] s (evaluateAlert s) := by
  dsimp only [evaluateAlert]
  split
  · split
    · exact ((acts_setAcct s _ (by decide)).trans (acts_raise _ _ _ _ (by decide))).does
    · exact .refl _ s
  · exact (acts_setAcct s _ (by decide)).does

theorem does_addToSba (d : Int) : Does [.acct, .evq] s (addToSba d s) :=
  (acts_setAcct s _ (by decide)).does.trans (does_evaluateAlert _)

theorem does_addInventory (i : Fin 24) (d : Int) : Does [.acct] s (addInventory i d s) := by
  dsimp only [addInventory]
  split
  · exact .refl _ s
  · exact does_putSlot s _ _

theorem does_failTransfer (t : Transfer) (code : Nat) : Does [.acct, .evq] s (failTransfer t code s) :=
  (acts_raise s _ _ _ (by decide)).does

theorem does_executeTransfer (t : Transfer) : Does [.acct, .evq] s (executeTransfer t s) := by
  have hmove (i j : Fin 24) (d e : Int) (a : Option Nat) (b : Option Int) :
      Does [.acct, .evq] s (raise .transferDone a b (addInventory j d (addInventory i e s))) :=
    (((does_addInventory s i e).trans (does_addInventory _ j d)).mono (by decide)).trans (acts_raise _ _ _ _ (by decide)).does
  dsimp only [executeTransfer]
  split
  · split_ifs
    · exact does_failTransfer s t _
    · exact does_failTransfer s t _
    · exact does_failTransfer s t _
    · exact hmove _ _ _ _ _ _
  · exact does_failTransfer s t _

theorem does_executeTransfers : Does [.acct, .evq] s (executeTransfers s) :=
  (does_foldl executeTransfer _ (fun t _ u => does_executeTransfer u t) s).trans (acts_setAcct _ _ (by decide)).does

theorem does_releaseSlot (i : Fin 24) : Does [.acct, .settle, .evq] s (releaseSlot i s) := by
  dsimp only [releaseSlot]
  split
  · exact .refl _ s
  · split
    · refine Does.trans ?_ ((does_addToSba _ _).mono (by decide))
      exact (((does_putSlot s i none).mono (by decide)).trans (acts_setSettle _ _ (by decide)).does).trans
        (acts_raise _ _ _ _ (by decide)).does
    · exact .refl _ s

theorem does_accountStep : Does [.acct, .settle, .evq] s (accountStep s) :=
  ((does_executeTransfers s).mono (by decide)).trans
    (does_foldl releaseSlot _ (fun i _ u => does_releaseSlot u i) _)
end

/-! ### Book and confirmation (chapter 3) -/

section
variable (s : State)

theorem does_noteCount (n : Nat) : Does [.book] s (noteCount n s) := (acts_setBook s _ (by decide)).does

theorem does_setEntries (es : List Entry) : Does [.book] s (setEntries es s) :=
  (acts_setBook s _ (by decide)).does.trans (does_noteCount _ _)

theorem does_countKind (f : KindCounts → KindCounts) (id : Nat) (d : Direction) (c : Machine.Class) :
    Does [.book] s (countKind f id d c s) := by
  dsimp only [countKind]
  split
  · exact (acts_setBook s _ (by decide)).does
  · exact .refl _ s

theorem does_countRecord (r : SchedRec) : Does [.book] s (countRecord r s) := by
  dsimp only [countRecord]
  split
  · split
    · exact does_countKind s _ _ _ _
    · exact .refl _ s
  · exact does_countKind s _ _ _ _

theorem does_confirmHour (h : Nat) : Does [.sched, .book, .evq] s (confirmHour h s) := by
  have hdone (l : List Entry) (u : State) : Does [.sched, .book, .evq] u
      (l.foldl (fun t e => raise .completed (some e.slot.val) (some (e.arrival.toNat : Int)) t) u) :=
    does_foldl (fun (e : Entry) t => raise .completed (some e.slot.val) (some (e.arrival.toNat : Int)) t) l
      (fun e _ u => (acts_raise u _ _ _ (by decide)).does) u
  dsimp only [confirmHour]
  refine Does.trans ?_ (does_foldl countRecord _ (fun r _ u => (does_countRecord u r).mono (by decide)) _)
  refine Does.trans ?_ (acts_setBook _ _ (by decide)).does
  refine Does.trans ?_ (hdone _ _)
  exact (acts_setSched s _ (by decide)).does.trans ((does_setEntries _ _).mono (by decide))

theorem does_confirmHours (n : Nat) : Does [.sched, .book, .evq] s (confirmHours n s) := by
  induction n generalizing s with
  | zero => exact .refl _ s
  | succ n ih => exact (does_confirmHour s _).trans (ih _)

theorem does_confirmation : Does [.sched, .book, .evq] s (confirmation s) := by
  dsimp only [confirmation]
  split
  · exact .refl _ s
  · exact does_confirmHours s _
end

/-! ### Settlement (chapter 4) -/

section
variable (s : State)

theorem does_postSba (d : Int) : Does [.acct, .evq] s (postSba d s) := by
  dsimp only [postSba]
  split
  · exact .refl _ s
  · exact does_addToSba s d

theorem does_postSlot (i : Fin 24) (change : Int) : Does [.acct, .evq] s (postSlot i change s) := by
  have hclamp (a : Option Account) (k : EventKind) (x : Option Nat) (y : Option Int) (d : Int) :
      Does [.acct, .evq] s (addToSba d (raise k x y (putSlot i a s))) :=
    (((does_putSlot s i a).mono (by decide)).trans (acts_raise _ _ _ _ (by decide)).does).trans (does_addToSba _ _)
  dsimp only [postSlot]
  split
  · exact .refl _ s
  · split_ifs
    · exact hclamp _ _ _ _ _
    · exact hclamp _ _ _ _ _
    · exact (does_putSlot s i _).mono (by decide)

theorem does_postHour (k : Intake) (dv : Deviation) (c : Consumption) (changes : List Int) :
    Does [.acct, .evq] s (postHour k dv c changes s) := by
  have hown := (((does_postSba s dv.tolerance).trans (does_postSba _ dv.uncovered)).trans
    (does_postSba _ (-(c.fuelLeft : Int)))).trans (does_postSba _ (-(c.dryingLeft : Int)))
  exact (hown.trans (does_foldl (fun i t => postSlot i (changes.getD i.val 0) t) _
    (fun i _ u => does_postSlot u i _) _)).trans (acts_setAcct _ _ (by decide)).does

theorem does_settleHour (k : Intake) : Does [.acct, .settle, .sched, .clock, .evq] s (settleHour k s) := by
  dsimp only [settleHour]
  refine Does.trans ?_ (acts_raise _ _ _ _ (by decide)).does
  refine Does.trans ?_ (acts_setClock _ _ (by decide)).does
  refine Does.trans ?_ (acts_setSched _ _ (by decide)).does
  refine Does.trans ?_ (acts_setSettle _ _ (by decide)).does
  exact (does_postHour s k _ _ _).mono (by decide)

theorem does_beginCommit : Does [.store] s (beginCommit s) := by
  dsimp only [beginCommit]
  split
  · exact .refl _ s
  · exact (acts_setStore s _ (by decide)).does

/-- The parts that the completion of a settlement may change. -/
def settlementParts : List Part := [.acct, .sched, .book, .settle, .clock, .evq, .store]

theorem does_completionStep : Does settlementParts s (completionStep s) := by
  have hstep := ((does_accountStep s).mono (by decide : _ ⊆ settlementParts)).trans
    ((does_confirmation (accountStep s)).mono (by decide))
  exact (hstep.trans (acts_setSettle _ _ (by decide)).does).trans ((does_beginCommit _).mono (by decide))

theorem does_completeSettlement : Does settlementParts s (completeSettlement s) := by
  dsimp only [completeSettlement]
  split
  · exact .refl _ s
  · exact ((does_settleHour s _).mono (by decide)).trans (does_completionStep _)
end

/-! ### The clock and the meter (chapter 1) -/

section
variable (s : State)

theorem does_beginSettlement : Does [.settle, .meter, .duty, .dry] s (beginSettlement s) :=
  ((((acts_setSettle s _ (by decide)).trans (acts_setMeter _ _ (by decide))).trans (acts_setDuty _ _ (by decide))).trans
    (acts_setDry _ _ (by decide))).does

theorem does_endHour : Does [.settle, .meter, .duty, .dry, .clock] s (endHour s) :=
  ((does_beginSettlement s).mono (by decide)).trans (acts_setClock _ _ (by decide)).does

theorem does_settleFirst : Does settlementParts s (settleFirst s) := by
  dsimp only [settleFirst]
  split
  · exact does_completeSettlement s
  · exact .refl _ s

theorem does_dayBoundary : Does [.duty, .evq] s (dayBoundary s) := by
  dsimp only [dayBoundary]
  split
  · exact ((acts_setDuty s _ (by decide)).trans (acts_raise _ _ _ _ (by decide))).does
  · exact .refl _ s

theorem does_advanceClock : Does [.settle, .meter, .duty, .dry, .clock] s (advanceClock s) := by
  dsimp only [advanceClock]
  split
  · exact .refl _ s
  · split
    · exact does_endHour s
    · exact (acts_setClock s _ (by decide)).does

theorem does_noteGap : Does [.meter, .evq] s (noteGap s) :=
  ((acts_setMeter s _ (by decide)).trans (acts_raise _ _ _ _ (by decide))).does

theorem does_gapWatch : Does [.meter, .evq] s (gapWatch s) := by
  dsimp only [gapWatch]
  split
  · exact does_noteGap s
  · exact .refl _ s

/-- The parts that the blocks' acts at an hour boundary may change. -/
theorem does_boundaryActs (h : Nat) : ∀ f ∈ boundaryActs h, ∀ s, Does dutyParts s (f s) := by
  intro f hf s
  rcases List.mem_cons.mp hf with rfl | hf
  · exact does_recomputeTarget (by decide) s
  · split at hf
    · obtain rfl := List.mem_singleton.mp hf
      exact (does_dayBoundary s).mono (by decide)
    · exact absurd hf List.not_mem_nil

/-- The parts that the hour boundary may change, a settlement in flight aside. -/
def hourParts : List Part := [.world, .clock, .meter, .settle, .duty, .dry, .flow, .sched, .evq]

theorem does_clockSecond : Does hourParts s (clockSecond s) := by
  refine ((does_advanceClock s).mono (by decide)).trans (Does.gathered (by decide) (by decide) ?_)
  refine does_inAnyOrder _ (by decide) (fun f hf u => ?_) _
  rcases List.mem_cons.mp hf with rfl | hf
  · exact (does_gapWatch u).mono (by decide)
  · split at hf
    · exact (does_boundaryActs _ f hf u).mono (by decide)
    · exact absurd hf List.not_mem_nil

theorem does_takeReading (tf tr : Nat) : Does [.meter, .evq] s (takeReading tf tr s) := by
  have hnote (x : Meter) (k : EventKind) (a : Option Nat) (b : Option Int) :
      Does [.meter, .evq] s (raise k a b (s.setMeter x)) :=
    ((acts_setMeter s x (by decide)).trans (acts_raise _ _ _ _ (by decide))).does
  dsimp only [takeReading, assessReading]
  split_ifs
  · exact (acts_setMeter s _ (by decide)).does
  · exact hnote _ _ _ _
  · exact hnote _ _ _ _
  · exact hnote _ _ _ _

theorem does_reportMeter (b : Block) : Does [.meter, .evq] s (reportMeter b s) :=
  (acts_setMeter s _ (by decide)).does.trans (does_takeReading _ _ _)

theorem does_startClock (h sec : Nat) : Does [.clock, .evq] s (startClock h sec s) := by
  dsimp only [startClock]
  split
  · exact ((acts_setClock s _ (by decide)).trans (acts_raise _ _ _ _ (by decide))).does
  · exact (acts_setClock s _ (by decide)).does

theorem does_discardBefore (h : Nat) : Does [.sched, .evq] s (discardBefore h s) := by
  dsimp only [discardBefore]
  split
  · exact ((acts_setSched s _ (by decide)).trans (acts_raise _ _ _ _ (by decide))).does
  · exact (acts_setSched s _ (by decide)).does

theorem does_trimBook (h : Nat) : Does [.book] s (trimBook h s) :=
  (acts_setBook s _ (by decide)).does.trans (does_setEntries _ _)

/-- The parts that CLOCK SET may change. -/
def clockSetParts : List Part := [.world, .clock, .sched, .book, .flow, .dry, .evq]

theorem does_clockSetEffect (h sec : Nat) : Does clockSetParts s (clockSetEffect h sec s).after := by
  have hset := ((((does_startClock s h sec).mono (by decide : _ ⊆ clockSetParts)).trans
    ((does_discardBefore _ h).mono (by decide))).trans ((does_trimBook _ h).mono (by decide))).trans
    ((does_confirmation _).mono (by decide))
  exact hset.trans (Does.gathered (by decide) (by decide) (does_recomputeTarget (by decide) _))
end

/-! ### The store (chapter 10) -/

section
variable (s : State)

theorem does_endCommit (whole : Bool) : Does [.store, .evq] s (endCommit whole s) := by
  dsimp only [endCommit]
  split
  · split
    · exact ((acts_setStore s _ (by decide)).trans (acts_raise _ _ _ _ (by decide))).does
    · exact ((acts_setStore s _ (by decide)).trans (acts_raise _ _ _ _ (by decide))).does
  · exact .refl _ s

/-- The parts that an image taken may change. -/
def imageParts : List Part :=
  [.world, .acct, .curves, .site, .book, .sched, .settle, .meter, .clock, .sup, .duty, .dry, .flow, .evq]

theorem does_takeImage (m : Image) : Does imageParts s (takeImage m s) :=
  ((((((((acts_setAcct s _ (by decide)).trans (acts_setCurves _ _ (by decide))).trans (acts_setSite _ _ (by decide))).trans
    (acts_setBook _ _ (by decide))).trans (acts_setSched _ _ (by decide))).trans (acts_setSettle _ _ (by decide))).trans
    (acts_setMeter _ _ (by decide))).trans ((acts_setClock _ _ (by decide)).trans (acts_setSup _ _ (by decide)))).does

theorem does_takeUnits (ages : CUnit → List Nat) (m : Image) : Does dutyParts s (takeUnits ages m s) :=
  (acts_setDuty s _ (by decide)).does.trans (does_handInjection (by decide) _ (by decide))

theorem does_takeTrains (held : Train → Held) (m : Image) : Does flowParts s (takeTrains held m s) := by
  have hP := dryKept_of_subset (List.Subset.refl flowParts) s
  dsimp only [takeTrains]
  exact hP.tested (trainKept_of_subset (List.Subset.refl _) s fun _ hu => hu) (acts_setDry s _ (by decide)).does

theorem does_takeUnitsAndTrains (ages : CUnit → List Nat) (held : Train → Held) (m : Image) :
    Does dutyParts s (gathered (inAnyOrder [takeUnits ages m, takeTrains held m]) s) := by
  refine Does.gathered (by decide) (by decide) (does_inAnyOrder _ (by decide) (fun f hf u => ?_) _)
  rcases List.mem_pair.mp hf with rfl | rfl
  · exact does_takeUnits u _ _
  · exact (does_takeTrains u _ _).mono (by decide)

theorem does_restoreBlocks (m : Image) : Does imageParts s (restoreBlocks m s) :=
  ((does_takeImage s m).trans ((does_takeUnitsAndTrains _ _ _ m).mono (by decide))).trans (acts_setSup _ _ (by decide)).does

/-- The parts that a restore or an adoption may change. -/
def storeParts : List Part :=
  [.world, .acct, .curves, .site, .book, .sched, .settle, .meter, .clock, .sup, .duty, .dry, .flow, .evq, .store]

theorem does_failMarked : Does [.world, .store] s (failMarked s) := by
  dsimp only [failMarked]
  split
  · exact ((acts_setStore s _ (by decide)).trans (acts_setWorld _ _ (by decide))).does
  · exact .refl _ s

theorem does_restoreRead (readOk : Bool) : Does storeParts s (restoreRead readOk s) := by
  have hblocks (m : Image) : Does storeParts s (restoreBlocks m s) := (does_restoreBlocks s m).mono (by decide)
  dsimp only [restoreRead]
  split
  · split
    · exact (hblocks _).trans (acts_setStore _ _ (by decide)).does
    · split
      · refine Does.trans ?_ ((acts_setStore _ _ (by decide)).trans (acts_raise _ _ _ _ (by decide))).does
        exact (hblocks _).trans ((does_failMarked _).mono (by decide))
      · exact (acts_setStore s _ (by decide)).does
  · exact .refl _ s

theorem does_adopt (n : BitVec 32) (m : Image) : Does storeParts s (adopt n m s) := by
  have htaken := ((does_takeImage s m).mono (by decide : _ ⊆ storeParts)).trans
    ((does_noteCount (takeImage m s) (filteredCount s)).mono (by decide))
  refine (htaken.trans ((does_takeUnitsAndTrains _ (fun u => u.startAges) Train.held m).mono (by decide))).trans ?_
  exact (((acts_setSup _ _ (by decide)).trans (acts_setStore _ _ (by decide))).trans (acts_setStore _ _ (by decide))).does
end

/-! ### The site settings, supervision and the report -/

section
variable (s : State)

/-- The parts that SITE SET may change. -/
def siteParts : List Part := [.world, .site, .acct, .book, .sched, .flow, .duty, .dry, .evq]

theorem does_renoteUnits : Does [.duty] s (renoteUnits s) := (acts_setDuty s _ (by decide)).does

theorem does_applySite (g : Site) : Does siteParts s (applySite g s) := by
  have hset : Does siteParts s (renoteUnits (s.setSite g)) :=
    (acts_setSite s g (by decide)).does.trans ((does_renoteUnits _).mono (by decide))
  dsimp only [applySite]
  refine hset.trans (Does.gathered (by decide) (by decide) ?_)
  refine (does_recomputeTarget (by decide) _).trans (does_inAnyOrder _ (by decide) (fun f hf u => ?_) _)
  simp only [List.mem_append, List.mem_cons, List.not_mem_nil, or_false] at hf
  rcases hf with ((rfl | rfl) | hf) | rfl
  · exact does_handInjection (by decide) u (by decide)
  · exact does_handWithdrawal (by decide) u
  · split at hf
    · obtain rfl := List.mem_singleton.mp hf
      exact (does_confirmation u).mono (by decide)
    · exact absurd hf List.not_mem_nil
  · exact (does_evaluateAlert u).mono (by decide)

/-- The parts that a change of the link mode may change. -/
def supervisionParts : List Part := [.world, .sup, .flow, .dry, .sched, .evq]

theorem does_enterFallback : Does supervisionParts s (enterFallback s) :=
  ((acts_setSup s _ (by decide)).trans (acts_raise _ _ _ _ (by decide))).does.trans (does_recomputeTarget (by decide) _)

theorem does_resumeEffect : Does supervisionParts s (resumeEffect s) :=
  ((acts_setSup s _ (by decide)).trans (acts_raise _ _ _ _ (by decide))).does.trans (does_recomputeTarget (by decide) _)

theorem does_supervisionSecond : Does supervisionParts s (supervisionSecond s) := by
  dsimp only [supervisionSecond]
  split
  · exact .refl _ s
  · split
    · exact does_enterFallback s
    · exact (acts_setSup s _ (by decide)).does

/-- The parts that a station report may change. -/
def reportParts : List Part := [.world, .meter, .duty, .dry, .flow, .sched, .evq]

theorem does_takeReport (b : Block) : Does reportParts s (takeReport b s) := by
  refine Does.gathered (by decide) (by decide) (does_inAnyOrder _ (by decide) (fun f hf u => ?_) _)
  simp only [List.mem_cons, List.not_mem_nil, or_false] at hf
  rcases hf with rfl | rfl | rfl
  · exact (does_reportMeter u b).mono (by decide)
  · exact (dutyKept_of_subset (by decide) u).reportUnits b (.refl _ u)
  · exact (dryKept_of_subset (by decide) u).reportTrains b _ (.refl _ u)
end

end Sys2Proof.Machine
end

section
/-! SUPPORT. The requests: the parts each may change; that a request row runs the request of its code; and one rule for what
every command keeps. -/

namespace Sys2Proof.Machine

/-! ### The parts that a request may change -/

/-- The parts that the request of a code may change (section 8.4). -/
def requestParts (code : Byte) : List Part :=
  match code.toNat with
  | 0x01 => reportParts
  | 0x02 | 0x06 => [.link]
  | 0x03 => [.evq]
  | 0x04 => [.sup]
  | 0x05 => supervisionParts
  | 0x10 => clockSetParts
  | 0x11 => [.clock]
  | 0x14 | 0x16 => [.curves]
  | 0x20 | 0x21 | 0x22 | 0x24 | 0x26 => [.acct]
  | 0x23 => [.acct, .book]
  | 0x25 => [.acct, .evq]
  | 0x30 => [.book, .evq]
  | 0x31 | 0x34 => [.book]
  | 0x38 => siteParts
  | 0x40 | 0x41 => dutyParts
  | 0x43 => [.duty]
  | 0x48 | 0x49 => flowParts
  | 0x51 => [.store]
  | 0x52 | 0x53 => storeParts
  | _ => []

section
variable (b : Block) (s : State)

theorem does_reqStationReport : Does reportParts s (reqStationReport b s).after := does_checked _ (does_takeReport s b)

theorem does_reqLinkStatus : Does [.link] s (reqLinkStatus b s).after := by
  refine does_checked _ ?_
  dsimp only [taken]
  split
  · exact (acts_setLink s _ (by decide)).does
  · exact .refl _ s

theorem does_reqSupervisionSet : Does [.sup] s (reqSupervisionSet b s).after :=
  does_checked _ (acts_setSup s _ (by decide)).does

theorem does_reqResume : Does supervisionParts s (reqResume b s).after :=
  does_checked _ (Does.gathered (by decide) (by decide) (does_resumeEffect _))

theorem does_reqRestart : Does [.link] s (reqRestart b s).after := does_checked _ (acts_setLink s _ (by decide)).does

theorem does_reqClockSet : Does clockSetParts s (reqClockSet b s).after := does_checked _ (does_clockSetEffect s _ _)

theorem does_reqClockTrim : Does [.clock] s (reqClockTrim b s).after := does_checked _ (acts_setClock s _ (by decide)).does

theorem does_reqClockRead : Does [] s (reqClockRead b s).after := does_checked _ (.refl _ s)

theorem does_reqCurveWrite : Does [.curves] s (reqCurveWrite b s).after := by
  dsimp only [reqCurveWrite]
  split
  · exact .refl _ s
  · split
    · exact .refl _ s
    · exact does_checked _ (acts_setCurves s _ (by decide)).does

theorem does_reqCurveRead : Does [] s (reqCurveRead b s).after := by
  dsimp only [reqCurveRead]
  split
  · split <;> exact .refl _ s
  · exact .refl _ s

theorem does_reqCurveClear : Does [.curves] s (reqCurveClear b s).after := by
  dsimp only [reqCurveClear]
  split
  · exact .refl _ s
  · split
    · exact .refl _ s
    · exact does_checked _ (acts_setCurves s _ (by decide)).does

theorem does_reqAccountOpen : Does [.acct] s (reqAccountOpen b s).after := by
  dsimp only [reqAccountOpen]
  split
  · exact .refl _ s
  · split
    · exact .refl _ s
    · exact does_putSlot s _ _

theorem does_reqAccountAmend : Does [.acct] s (reqAccountAmend b s).after := by
  dsimp only [reqAccountAmend]
  split
  · exact .refl _ s
  · split
    · exact .refl _ s
    · exact does_checked _ (does_putSlot s _ _)

theorem does_moveAccount (i : Fin 24) (a : Account) (source target : AccountState) :
    Does [.acct] s (moveAccount i a source target s).after := by
  dsimp only [moveAccount]
  split
  · exact does_putSlot s _ _
  · exact .refl _ s

theorem does_reqAccountSuspend : Does [.acct] s (reqAccountSuspend b s).after := by
  dsimp only [reqAccountSuspend]
  split
  · exact .refl _ s
  · split
    · exact .refl _ s
    · split
      · exact does_moveAccount s _ _ _ _
      · exact does_moveAccount s _ _ _ _
      · exact .refl _ s

theorem does_reqAccountClose : Does [.acct, .book] s (reqAccountClose b s).after := by
  dsimp only [reqAccountClose]
  split
  · exact .refl _ s
  · split
    · exact .refl _ s
    · exact does_checked _ (((does_putSlot s _ _).mono (by decide)).trans ((does_setEntries _ _).mono (by decide)))

theorem does_reqAccountRead : Does [.acct] s (reqAccountRead b s).after := by
  dsimp only [reqAccountRead]
  split
  · exact .refl _ s
  · split
    · exact .refl _ s
    · split
      · exact .refl _ s
      · exact does_putSlot s _ _

theorem does_reqAccountAdjust : Does [.acct, .evq] s (reqAccountAdjust b s).after := by
  dsimp only [reqAccountAdjust]
  split
  · exact .refl _ s
  · split
    · exact .refl _ s
    · exact does_checked _ (((does_putSlot s _ _).mono (by decide)).trans (does_addToSba _ _))

theorem does_reqTransfer : Does [.acct] s (reqTransfer b s).after := does_checked _ (acts_setAcct s _ (by decide)).does

theorem does_reqSbaRead : Does [] s (reqSbaRead b s).after := does_checked _ (.refl _ s)

theorem does_reqSettlementRead : Does [] s (reqSettlementRead b s).after := does_checked _ (.refl _ s)

theorem does_reqAllocationRead : Does [] s (reqAllocationRead b s).after := by
  dsimp only [reqAllocationRead]
  split
  · exact .refl _ s
  · split <;> exact .refl _ s

theorem does_nominateEffect (i : Fin 24) (d : Direction) (c : Machine.Class) :
    Does [.book, .evq] s (nominateEffect i d c b s).after := by
  have hnote (e : Entry) (t : State) : Does [.book, .evq] t (noteSuperseded e t) :=
    (acts_raise t _ _ _ (by decide)).does.trans ((does_countKind _ _ _ _ _).mono (by decide))
  have hset (es : List Entry) (t : State) : Does [.book, .evq] t (setEntries es t) := (does_setEntries t es).mono (by decide)
  dsimp only [nominateEffect, taken]
  refine Does.trans ?_ ((does_countKind _ _ _ _ _).mono (by decide))
  refine Does.trans ?_ (acts_setBook _ _ (by decide)).does
  refine Does.trans ?_ (hset _ _)
  exact (hset _ s).trans (does_foldl noteSuperseded _ (fun e _ t => hnote e t) _)

theorem does_reqNominate : Does [.book, .evq] s (reqNominate b s).after := by
  dsimp only [reqNominate]
  split
  · exact .refl _ s
  · split
    · exact .refl _ s
    · split
      · exact does_checked _ (does_nominateEffect b s _ _ _)
      · exact does_checked _ (.refl _ s)

theorem does_cancelEffect (i : Fin 24) (d : Direction) (c : Machine.Class) : Does [.book] s (cancelEffect i d c b s).after := by
  dsimp only [cancelEffect, taken]
  exact (does_setEntries s _).trans (does_foldl
    (fun (e : Entry) t => countKind KindCounts.addCancelled e.shipper e.dir e.cls t) _ (fun e _ t => does_countKind t _ _ _ _) _)

theorem does_reqCancel : Does [.book] s (reqCancel b s).after := by
  dsimp only [reqCancel]
  split
  · exact .refl _ s
  · split
    · exact .refl _ s
    · split
      · exact does_checked _ (does_cancelEffect b s _ _ _)
      · exact does_checked _ (.refl _ s)

theorem does_reqBookRead : Does [] s (reqBookRead b s).after := does_checked _ (.refl _ s)

theorem does_reqScheduleRead : Does [] s (reqScheduleRead b s).after := does_checked _ (.refl _ s)

theorem does_reqBookStatistics : Does [.book] s (reqBookStatistics b s).after := by
  refine does_checked _ ?_
  dsimp only [taken]
  split
  · exact .refl _ s
  · exact (acts_setBook s _ (by decide)).does

theorem does_reqSiteSet : Does siteParts s (reqSiteSet b s).after := does_checked _ (does_applySite s _)

theorem does_reqFlowRead : Does [] s (reqFlowRead b s).after := does_checked _ (.refl _ s)

/-- A unit record replaced and the injection capacities handed on. -/
theorem does_putUnit_hand (i : Fin 6) (u : CUnit) : Does dutyParts s (gathered handInjection (putUnit i u s)) :=
  ((acts_setDuty s _ (by decide)).does).trans
    (Does.gathered (by decide) (by decide) (does_handInjection (by decide) _ (by decide)))

theorem does_reqUnitSet : Does dutyParts s (reqUnitSet b s).after := by
  dsimp only [reqUnitSet]
  split
  · exact .refl _ s
  · split
    · exact .refl _ s
    · exact does_checked _ (does_putUnit_hand s _ _)

theorem does_disableUnit (i : Fin 6) : Does dutyParts s (disableUnit i s).after := by
  dsimp only [disableUnit, taken]
  split
  · exact .refl _ s
  · exact does_putUnit_hand s _ _

theorem does_enableUnit (i : Fin 6) : Does dutyParts s (enableUnit i s).after := by
  dsimp only [enableUnit]
  split
  · exact does_putUnit_hand s _ _
  · exact .refl _ s

theorem does_reqUnitEnable : Does dutyParts s (reqUnitEnable b s).after := by
  dsimp only [reqUnitEnable]
  split
  · exact .refl _ s
  · split
    · exact does_disableUnit s _
    · exact does_enableUnit s _
    · exact .refl _ s

theorem does_reqUnitRead : Does [] s (reqUnitRead b s).after := by
  dsimp only [reqUnitRead]
  split
  · split <;> exact .refl _ s
  · exact .refl _ s

theorem does_reqRosterSet : Does [.duty] s (reqRosterSet b s).after := does_checked _ (acts_setDuty s _ (by decide)).does

/-- A train record replaced and a response of the drying supervisor after it. -/
theorem does_putTrain_gathered (t : Fin 2) (x : Train) (f : State → State) (hf : ∀ u, Does flowParts u (f u)) :
    Does flowParts s (gathered f (putTrain t x s)) :=
  (does_putTrain t x (by decide) s).trans (Does.gathered (by decide) (by decide) (hf _))

theorem does_reqTrainSet : Does flowParts s (reqTrainSet b s).after := by
  dsimp only [reqTrainSet]
  split
  · exact .refl _ s
  · split
    · exact .refl _ s
    · next t _ =>
      refine does_checked _ (does_putTrain_gathered s t _ _ fun u => ?_)
      have hP := dryKept_of_subset (List.Subset.refl flowParts) u
      exact (hP.train t).bedTest (.refl _ u)

theorem does_serviceOut (t : Fin 2) : Does flowParts s (serviceOut t s).after := by
  dsimp only [serviceOut]
  split
  · exact .refl _ s
  · exact does_putTrain_gathered s t _ _ (does_handWithdrawal (List.Subset.refl _))

theorem does_serviceIn (t : Fin 2) : Does flowParts s (serviceIn t s).after := by
  dsimp only [serviceIn]
  split
  · exact does_putTrain_gathered s t _ _ fun u => (dryKept_of_subset (List.Subset.refl flowParts) u).enterService t _ (.refl _ u)
  · exact .refl _ s

theorem does_reqTrainService : Does flowParts s (reqTrainService b s).after := by
  dsimp only [reqTrainService]
  split
  · exact .refl _ s
  · split
    · exact does_serviceOut s _
    · exact does_serviceIn s _
    · exact .refl _ s

theorem does_reqTrainRead : Does [] s (reqTrainRead b s).after := by
  dsimp only [reqTrainRead]
  split
  · split <;> exact .refl _ s
  · exact .refl _ s

theorem does_reqStoreRead : Does [] s (reqStoreRead b s).after := does_checked _ (.refl _ s)

theorem does_reqStoreLoad : Does [.store] s (reqStoreLoad b s).after := does_checked _ (acts_setStore s _ (by decide)).does

theorem does_reqStoreLoadEnd : Does storeParts s (reqStoreLoadEnd b s).after := by
  dsimp only [reqStoreLoadEnd]
  split
  · exact .refl _ s
  · split
    · exact .refl _ s
    · exact does_checked _ ((acts_setStore s _ (by decide)).does.trans (does_adopt _ _ _))

theorem does_reqStoreInitialize : Does storeParts s (reqStoreInitialize b s).after := does_checked _ (does_adopt s _ _)
end

/-- EVENT DRAIN changes the event queue alone, though it does not append to it. -/
theorem reqEventDrain_parts (b : Block) (s : State) : s.changesOnly [.evq] (reqEventDrain b s).after := by
  unfold reqEventDrain
  rcases checked_cases [(b.length == 0, .badLength)] s (taken (out1 s.evq.overwrites ++ out1 (s.evq.entries.drop 4).length
    ++ (s.evq.entries.take 4).flatMap outEvent) (s.setEvq { s.evq with entries := s.evq.entries.drop 4, overwrites := 0 }))
    with ⟨h, _⟩ | ⟨st, _, h⟩ <;> rw [h]
  · intro p hp
    cases p <;> first | rfl | exact absurd List.mem_cons_self hp
  · exact changesOnly_refl s _

/-- Every request but EVENT DRAIN changes its parts and appends events. -/
theorem does_request {code : Byte} {req : Block → State → Answer} (h : requestOf code = some req) (hc : code ≠ 0x03)
    (b : Block) (s : State) : Does (requestParts code) s (req b s).after := by
  unfold requestOf at h
  split at h
  case h_1 hn => cases h; rw [requestParts, hn]; exact does_reqStationReport b s
  case h_2 hn => cases h; rw [requestParts, hn]; exact does_reqLinkStatus b s
  case h_3 hn => exact absurd (BitVec.eq_of_toNat_eq hn) hc
  case h_4 hn => cases h; rw [requestParts, hn]; exact does_reqSupervisionSet b s
  case h_5 hn => cases h; rw [requestParts, hn]; exact does_reqResume b s
  case h_6 hn => cases h; rw [requestParts, hn]; exact does_reqRestart b s
  case h_7 hn => cases h; rw [requestParts, hn]; exact does_reqClockSet b s
  case h_8 hn => cases h; rw [requestParts, hn]; exact does_reqClockTrim b s
  case h_9 hn => cases h; rw [requestParts, hn]; exact does_reqClockRead b s
  case h_10 hn => cases h; rw [requestParts, hn]; exact does_reqCurveWrite b s
  case h_11 hn => cases h; rw [requestParts, hn]; exact does_reqCurveRead b s
  case h_12 hn => cases h; rw [requestParts, hn]; exact does_reqCurveClear b s
  case h_13 hn => cases h; rw [requestParts, hn]; exact does_reqAccountOpen b s
  case h_14 hn => cases h; rw [requestParts, hn]; exact does_reqAccountAmend b s
  case h_15 hn => cases h; rw [requestParts, hn]; exact does_reqAccountSuspend b s
  case h_16 hn => cases h; rw [requestParts, hn]; exact does_reqAccountClose b s
  case h_17 hn => cases h; rw [requestParts, hn]; exact does_reqAccountRead b s
  case h_18 hn => cases h; rw [requestParts, hn]; exact does_reqAccountAdjust b s
  case h_19 hn => cases h; rw [requestParts, hn]; exact does_reqTransfer b s
  case h_20 hn => cases h; rw [requestParts, hn]; exact does_reqSbaRead b s
  case h_21 hn => cases h; rw [requestParts, hn]; exact does_reqSettlementRead b s
  case h_22 hn => cases h; rw [requestParts, hn]; exact does_reqAllocationRead b s
  case h_23 hn => cases h; rw [requestParts, hn]; exact does_reqNominate b s
  case h_24 hn => cases h; rw [requestParts, hn]; exact does_reqCancel b s
  case h_25 hn => cases h; rw [requestParts, hn]; exact does_reqBookRead b s
  case h_26 hn => cases h; rw [requestParts, hn]; exact does_reqScheduleRead b s
  case h_27 hn => cases h; rw [requestParts, hn]; exact does_reqBookStatistics b s
  case h_28 hn => cases h; rw [requestParts, hn]; exact does_reqSiteSet b s
  case h_29 hn => cases h; rw [requestParts, hn]; exact does_reqFlowRead b s
  case h_30 hn => cases h; rw [requestParts, hn]; exact does_reqUnitSet b s
  case h_31 hn => cases h; rw [requestParts, hn]; exact does_reqUnitEnable b s
  case h_32 hn => cases h; rw [requestParts, hn]; exact does_reqUnitRead b s
  case h_33 hn => cases h; rw [requestParts, hn]; exact does_reqRosterSet b s
  case h_34 hn => cases h; rw [requestParts, hn]; exact does_reqTrainSet b s
  case h_35 hn => cases h; rw [requestParts, hn]; exact does_reqTrainService b s
  case h_36 hn => cases h; rw [requestParts, hn]; exact does_reqTrainRead b s
  case h_37 hn => cases h; rw [requestParts, hn]; exact does_reqStoreRead b s
  case h_38 hn => cases h; rw [requestParts, hn]; exact does_reqStoreLoad b s
  case h_39 hn => cases h; rw [requestParts, hn]; exact does_reqStoreLoadEnd b s
  case h_40 hn => cases h; rw [requestParts, hn]; exact does_reqStoreInitialize b s
  case h_41 => cases h

/-- A request row runs the request of its code (R163). -/
theorem request_serves {c : Instr} {code : Byte} {b : Block} (h : c.request = some (code, b)) :
    ∃ req : Block → State → Answer, requestOf code = some req ∧ ∀ s : State, exec c s = .next (serve code (req b) s) := by
  cases c <;> cases h <;> exact ⟨_, rfl, fun _ => rfl⟩

end Sys2Proof.Machine
end

section
/-! SUPPORT. One rule for what every command keeps, and from it the commands that answer a next state (O4), the modes (O7) and
the events (O8). -/

namespace Sys2Proof.Machine

/-! ### Commands of the blocks themselves -/

/-- The commands that are no request, no restart and nothing on the line: what the blocks do by themselves. -/
def ofBlocks : Instr → Bool
  | .restoreReadDone _ | .reportGap | .gasClockSecond | .hourBoundary | .settlementCompletion | .commitEnd _
  | .rampStep | .turnaroundExpiry | .schedulerSecond | .startStampAged _ | .warmUpExpiry _ | .hotHoldExpiry _
  | .warmHoldExpiry _ | .recoveryIntervalExpiry _ | .attemptsReset _ | .dryingSecond | .heatingEnd _ | .coolingEnd _
  | .maskExpiry _ | .offSpec _ | .onSpec _ | .statisticsSecond | .fallbackEntered | .supervisionTimerSecond => true
  | _ => false

/-- A command of the blocks that may have no effect. -/
theorem does_ite {ps : List Part} {s t : State} (c : Prop) [Decidable c] (h : Does ps s t) :
    Does ps s (if c then t else s) := by
  split
  · exact h
  · exact .refl ps s

/-- The parts that a command of the blocks may change. -/
def blockParts : Instr → List Part
  | .restoreReadDone _ => storeParts
  | .reportGap => [.meter, .evq]
  | .gasClockSecond | .hourBoundary =>
    [.elapsed, .acct, .book, .store, .world, .clock, .meter, .settle, .duty, .dry, .flow, .sched, .evq]
  | .settlementCompletion => settlementParts
  | .commitEnd _ => [.store, .evq]
  | .schedulerSecond | .warmUpExpiry _ | .hotHoldExpiry _ | .warmHoldExpiry _ | .recoveryIntervalExpiry _ => dutyParts
  | .startStampAged _ | .attemptsReset _ => [.duty]
  | .heatingEnd _ => [.dry]
  | .statisticsSecond => [.book]
  | .fallbackEntered | .supervisionTimerSecond => supervisionParts
  | _ => flowParts

theorem does_gathered_of {ps : List Part} {f : State → State} (hw : Part.world ∈ ps) (he : Part.evq ∈ ps)
    (hf : ∀ u, Does ps u (f u)) (s : State) : Does ps s (gathered f s) := Does.gathered hw he (hf _)

section
variable (s : State)

theorem does_flowSecond : Does flowParts s (flowSecond s) := (flowFree_of_subset (List.Subset.refl _) s).flow.flowSecond (.refl _ s)

theorem does_expireTurnaround : Does flowParts s (expireTurnaround s) :=
  (flowFree_of_subset (List.Subset.refl _) s).flow.expireTurnaround (.refl _ s)

/-- The gas clock's second, a settlement that it completes first among what it may change. -/
theorem does_gasClockSecond : Does (blockParts .gasClockSecond) s
    (oneOf clockSecond [fun t => clockSecond (gapWatch t)] (settleFirst (s.setElapsed (s.elapsed + 1)))) := by
  have hsecond (u : State) : Does (blockParts .gasClockSecond) u (clockSecond u) := (does_clockSecond u).mono (by decide)
  have hgap (u : State) : Does (blockParts .gasClockSecond) u (gapWatch u) := (does_gapWatch u).mono (by decide)
  refine ((acts_setElapsed s _ (by decide)).does.trans ((does_settleFirst _).mono (by decide))).trans
    (does_oneOf _ _ (by decide) (fun g hg u => ?_) _)
  rcases List.mem_pair.mp hg with rfl | rfl
  · exact hsecond u
  · exact (hgap u).trans (hsecond _)

theorem does_hourBoundary : Does (blockParts .hourBoundary) s
    (gathered (inAnyOrder (boundaryActs s.clock.hour)) (endHour (settleFirst s))) :=
  (((does_settleFirst s).mono (by decide)).trans ((does_endHour _).mono (by decide))).trans
    (does_gathered_of (by decide) (by decide) (fun u => does_inAnyOrder _ (by decide)
      (fun f hf v => (does_boundaryActs _ f hf v).mono (by decide)) u) _)
end

/-- A command of the blocks leaves a state in which it has changed its parts and appended events. -/
theorem does_block {c : Instr} (hc : ofBlocks c = true) (s : State) :
    ∃ t : State, exec c s = .next t ∧ Does (blockParts c) s t := by
  have hdry := dryKept_of_subset (List.Subset.refl flowParts) s
  have hduty (f : State → State) (hf : ∀ (P : State → Prop), DutyKept P P → ∀ u, P u → P (f u)) :
      Does dutyParts s (gathered f s) :=
    does_gathered_of (by decide) (by decide) (fun u => hf _ (dutyKept_of_subset (List.Subset.refl _) u) u (.refl _ u)) s
  have hdrying (f : State → State) (hf : ∀ (P : State → Prop), DryKept P P → ∀ u, P u → P (f u)) :
      Does flowParts s (gathered f s) :=
    does_gathered_of (by decide) (by decide) (fun u => hf _ (dryKept_of_subset (List.Subset.refl _) u) u (.refl _ u)) s
  cases c <;> first | exact absurd hc Bool.false_ne_true | refine ⟨_, rfl, ?_⟩
  case restoreReadDone readOk => exact does_restoreRead s readOk
  case reportGap => exact does_ite _ (does_noteGap s)
  case gasClockSecond => exact does_gasClockSecond s
  case hourBoundary => exact does_ite _ (does_hourBoundary s)
  case settlementCompletion => exact does_completeSettlement s
  case commitEnd whole => exact does_endCommit s whole
  case rampStep => exact does_gathered_of (by decide) (by decide) does_flowSecond s
  case turnaroundExpiry => exact does_ite _ (does_gathered_of (by decide) (by decide) does_expireTurnaround s)
  case schedulerSecond => exact hduty _ fun P hP u => hP.schedulerSecond
  case startStampAged i => exact (acts_setDuty (ps := [.duty]) s _ (by decide)).does
  case warmUpExpiry i => exact does_ite _ (hduty _ fun P hP u => (hP.unit i).endWarmUp)
  case hotHoldExpiry i => exact does_ite _ (hduty _ fun P hP u => (hP.unit i).endHotHold)
  case warmHoldExpiry i => exact does_ite _ (hduty _ fun P hP u => (hP.unit i).endWarmHold)
  case recoveryIntervalExpiry i => exact does_ite _ (hduty _ fun P hP u => (hP.unit i).endRecovery)
  case attemptsReset i => exact does_ite _ (acts_setDuty (ps := [.duty]) s _ (by decide)).does
  case dryingSecond => exact hdrying _ fun P hP u => hP.dryingSecond
  case heatingEnd i => exact does_ite _ (does_putTrain (ps := [.dry]) _ _ (by decide) s)
  case coolingEnd i => exact does_ite _ (hdrying _ fun P hP u => (hP.train _).endCooling _)
  case maskExpiry t => exact does_ite _ (hdrying _ fun P hP u => (hP.train t).endMask)
  case offSpec t => exact does_ite _ (hdrying _ fun P hP u => (hP.train t).takeExcursion)
  case onSpec t => exact does_ite _ (hdrying _ fun P hP u => (hP.train t).takeRecovery)
  case statisticsSecond => exact (acts_setBook s _ (by decide)).does
  case fallbackEntered => exact does_ite _ (does_gathered_of (by decide) (by decide) does_enterFallback s)
  case supervisionTimerSecond => exact does_gathered_of (by decide) (by decide) does_supervisionSecond s

/-! ### What every command keeps -/

/-- A predicate that a write to the link or to the supervision, a request, a restart and a command of the blocks keep. -/
structure ExecKept (P : State → Prop) : Prop where
  setLink : ∀ s x, P s → P (s.setLink x)
  setSup : ∀ s x, P s → P (s.setSup x)
  request : ∀ code req, requestOf code = some req → ∀ b s, P s → P (req b s).after
  restart : ∀ c s, P s → P (restartWith c s)
  blocks : ∀ c : Instr, ofBlocks c = true → ∀ s t, P s → exec c s = .next t → P t

namespace ExecKept

variable {P : State → Prop} (hP : ExecKept P) {s : State}
include hP

theorem reply (code tag : Byte) (n : BitVec 4) {a : Answer} (h : P a.after) : P (reply code tag n a) := hP.setLink _ _ h

omit hP in
theorem unlessRestoring {r : State → Answer} (h : P s) (hr : P (r s).after) : P (unlessRestoring r s).after := by
  dsimp only [Machine.unlessRestoring]
  split
  · exact h
  · exact hr

theorem passOn (code : Byte) (b : Block) (h : P s) : P (passOn code b s).after := by
  dsimp only [Machine.passOn]
  split
  · exact h
  · exact hP.request _ _ ‹_› b s h

/-! #### Frames and replies (R159 to R163) -/

theorem takeInHand (f : Frame) (h : P s) : P (takeInHand f s) := by
  have hheld := hP.setLink s { s.link with inHand := some f } h
  exact hP.reply _ _ _ (unlessRestoring hheld (hP.passOn _ _ hheld))

theorem abandon (h : P s) : P (abandon s) := hP.setLink _ _ h

theorem place (f : Frame) (h : P s) : P (place f s) := by
  dsimp only [Machine.place]
  split
  · exact hP.takeInHand f h
  · exact hP.setLink _ _ h
  · exact hP.setLink _ _ h

theorem validFrame (code tag : Byte) (b : Block) (h : P s) : P (validFrame code tag b s) :=
  hP.place _ (hP.setSup _ _ (hP.setLink _ _ h))

theorem completeFrame (bytes : List Byte) (h : P s) : P (completeFrame bytes s) := by
  dsimp only [Machine.completeFrame]
  split
  · exact hP.validFrame _ _ _ h
  · exact hP.abandon h

theorem rxByte (x : Byte) (h : P s) : P (rxByte x s) := by
  dsimp only [Machine.rxByte]
  split
  · split
    · exact hP.setLink _ _ h
    · exact h
  · split_ifs
    · exact hP.abandon h
    · exact hP.completeFrame _ h
    · exact hP.setLink _ _ h

theorem rxBytes (bytes : List Byte) (h : P s) : P (rxBytes bytes s) :=
  foldl_preserves P Machine.rxByte bytes (fun x _ _ hu => hP.rxByte x hu) s h

theorem nextInHand (h : P s) : P (nextInHand s) := by
  have hfree := hP.setLink s { s.link with reply := none, inHand := none, holding := none } h
  dsimp only [Machine.nextInHand]
  split
  · exact hfree
  · exact hP.takeInHand _ hfree

theorem replySent (h : P s) : P (replySent s) := by
  dsimp only [Machine.replySent]
  split
  · exact h
  · split
    · exact hP.restart _ s h
    · exact hP.nextInHand h

/-- A request row keeps what the request keeps. -/
theorem row {c : Instr} {code : Byte} {b : Block} (hc : c.request = some (code, b)) (h : P s) :
    ∃ t : State, exec c s = .next t ∧ P t := by
  obtain ⟨req, hreq, hrow⟩ := request_serves hc
  exact ⟨_, hrow s, hP.reply _ _ _ (unlessRestoring h (hP.request code req hreq b s h))⟩

/-- Every command keeps the predicate. -/
theorem exec (c : Instr) (h : P s) : ∃ t : State, exec c s = .next t ∧ P t := by
  have hif {q : Prop} [Decidable q] {u : State} (hu : P u) : P (if q then u else s) := by
    split
    · exact hu
    · exact h
  cases hb : ofBlocks c with
  | true =>
    obtain ⟨t, ht, _⟩ := does_block hb s
    exact ⟨t, ht, hP.blocks c hb s t h ht⟩
  | false =>
    cases hr : c.request with
    | some p => exact hP.row hr h
    | none =>
      cases c <;> first
        | exact absurd hb.symm Bool.false_ne_true
        | exact absurd hr (Option.some_ne_none _)
        | refine ⟨_, rfl, ?_⟩
      case powerOn => exact hP.restart _ s h
      case external => exact hP.restart _ s h
      case supplyDip => exact hP.restart _ s h
      case restartRequest => exact hif (hP.restart _ s h)
      case frameReceived bytes => exact hP.rxBytes bytes h
      case frameAbandoned why =>
        cases why
        · exact hif (hP.abandon h)
        · exact hif (hP.abandon h)
      case interByteTimeout => exact hif (hP.abandon h)
      case replySent => exact hP.replySent h
      case requestSyncByte => exact hP.rxByte _ h

/-- Every step keeps a predicate that does not see the queue of commands. -/
theorem step {t : State} (hpending : ∀ s x, P s → P (s.setPending x)) (h : P s) (ht : step s = .next t) : P t := by
  unfold Machine.step at ht
  split at ht
  · cases ht
    exact h
  · obtain ⟨u, hu, hPu⟩ := hP.exec _ (hpending s _ h)
    rw [hu] at ht
    cases ht
    exact hPu
end ExecKept

/-- No request and no command of the blocks touches the commands that wait. -/
theorem request_pending {code : Byte} {req : Block → State → Answer} (h : requestOf code = some req) (b : Block) (s : State) :
    (req b s).after.pending = s.pending := by
  by_cases hc : code = 0x03
  · subst hc
    cases h
    exact reqEventDrain_parts b s .pending (by decide)
  · refine (does_request h hc b s).same (p := .pending) ?_
    unfold requestParts
    split <;> decide

theorem blockParts_pending (c : Instr) : Part.pending ∉ blockParts c := by
  unfold blockParts
  split <;> decide

/-- Settles O4: each part that a command changes is named, and the queue of commands is in none. -/
theorem everyCommandAnswersANextState : Obligations.EveryCommandAnswersANextState := by
  intro c s
  have hP : ExecKept (fun t => t.pending = s.pending) :=
    { setLink := fun _ _ h => h
      setSup := fun _ _ h => h
      request := fun _ _ hreq b u h => (request_pending hreq b u).trans h
      restart := fun _ _ h => h
      blocks := fun c hc u t h ht => by
        obtain ⟨v, hv, hdoes⟩ := does_block hc u
        obtain rfl : v = t := by rw [ht] at hv; cases hv; rfl
        exact (hdoes.same (blockParts_pending c)).trans h }
  exact hP.exec c rfl

end Sys2Proof.Machine
end

section
/-! SUPPORT. The modes and the clock: which commands end FALLBACK, UNRESTORED and UNSET, which take events away, and the clock
within its hour (R1, R4, R7, R171, R174, R178). -/

namespace Sys2Proof.Machine

/-! ### The ways the world takes -/

/-- One of the ways is taken, the counter of the world's choices moved on or not. -/
theorem oneOf_cases (f : State → State) (gs : List (State → State)) (s : State) :
    ∃ g ∈ f :: gs, ∃ n : Nat, oneOf f gs s = g (s.setWorld n) := by
  dsimp only [oneOf]
  split
  · exact ⟨f, List.mem_cons_self, s.world, rfl⟩
  · have hlt : Config.worldOrder s.world % (f :: gs).length < (f :: gs).length :=
      Nat.mod_lt _ (Nat.zero_lt_succ _)
    refine ⟨_, List.getElem_mem hlt, s.world + 1, ?_⟩
    rw [List.getD_eq_getElem?_getD, List.getElem?_eq_getElem hlt, Option.getD_some]

theorem insertEach_perm {α : Type} {x : α} {l p : List α} (h : p ∈ insertEach x l) : p.Perm (x :: l) := by
  induction l generalizing p with
  | nil =>
    simp only [insertEach, List.mem_singleton] at h
    exact h ▸ .refl _
  | cons y ys ih =>
    simp only [insertEach, List.mem_cons, List.mem_map] at h
    rcases h with rfl | ⟨q, hq, rfl⟩
    · exact .refl _
    · exact ((ih hq).cons y).trans (.swap x y ys)

theorem orders_perm {α : Type} {l p : List α} (h : p ∈ orders l) : p.Perm l := by
  induction l generalizing p with
  | nil =>
    simp only [orders, List.mem_singleton] at h
    exact h ▸ .refl _
  | cons x xs ih =>
    simp only [orders, List.mem_flatMap] at h
    obtain ⟨q, hq, hp⟩ := h
    exact (insertEach_perm hp).trans ((ih hq).cons x)

/-- The actions are taken in one of their orders. -/
theorem inAnyOrder_cases (fs : List (State → State)) (s : State) :
    ∃ p : List (State → State), p.Perm fs ∧ ∃ n : Nat, inAnyOrder fs s = inOrder p (s.setWorld n) := by
  unfold inAnyOrder
  split
  · exact ⟨[], .refl _, s.world, rfl⟩
  · exact ⟨_, .refl _, s.world, rfl⟩
  · obtain ⟨g, hg, n, he⟩ := oneOf_cases (inOrder fs) ((orders fs).map inOrder) s
    rcases List.mem_cons.mp hg with rfl | hg
    · exact ⟨fs, .refl _, n, he⟩
    · obtain ⟨p, hp, rfl⟩ := List.mem_map.mp hg
      exact ⟨p, orders_perm hp, n, he⟩

/-! ### The parts that an action leaves -/

section
variable {ps : List Part} {s t : State} (h : Does ps s t)
include h
theorem Does.pending_eq (hp : Part.pending ∉ ps) : t.pending = s.pending := h.same hp
theorem Does.elapsed_eq (hp : Part.elapsed ∉ ps) : t.elapsed = s.elapsed := h.same hp
theorem Does.clock_eq (hp : Part.clock ∉ ps) : t.clock = s.clock := h.same hp
theorem Does.meter_eq (hp : Part.meter ∉ ps) : t.meter = s.meter := h.same hp
theorem Does.curves_eq (hp : Part.curves ∉ ps) : t.curves = s.curves := h.same hp
theorem Does.site_eq (hp : Part.site ∉ ps) : t.site = s.site := h.same hp
theorem Does.acct_eq (hp : Part.acct ∉ ps) : t.acct = s.acct := h.same hp
theorem Does.book_eq (hp : Part.book ∉ ps) : t.book = s.book := h.same hp
theorem Does.sched_eq (hp : Part.sched ∉ ps) : t.sched = s.sched := h.same hp
theorem Does.settle_eq (hp : Part.settle ∉ ps) : t.settle = s.settle := h.same hp
theorem Does.flow_eq (hp : Part.flow ∉ ps) : t.flow = s.flow := h.same hp
theorem Does.duty_eq (hp : Part.duty ∉ ps) : t.duty = s.duty := h.same hp
theorem Does.dry_eq (hp : Part.dry ∉ ps) : t.dry = s.dry := h.same hp
theorem Does.link_eq (hp : Part.link ∉ ps) : t.link = s.link := h.same hp
theorem Does.evq_eq (hp : Part.evq ∉ ps) : t.evq = s.evq := h.same hp
theorem Does.sup_eq (hp : Part.sup ∉ ps) : t.sup = s.sup := h.same hp
theorem Does.store_eq (hp : Part.store ∉ ps) : t.store = s.store := h.same hp
end

/-! ### What an image taken gives the blocks that hold it as it stands -/

section
variable (s : State) (m : Image) (n : BitVec 32)

theorem adopt_sup : (adopt n m s).sup = { s.sup with mode := m.supMode, timeout := m.supTimeout }.reloaded := by
  unfold adopt
  simp only [beginNumbered, State.setStore_sup, State.setSup_sup]
  rw [(does_takeUnitsAndTrains _ _ _ m).sup_eq (by decide)]
  rfl

theorem adopt_clock : (adopt n m s).clock = { s.clock with lastSettled := m.lastSettled } := by
  unfold adopt
  simp only [beginNumbered, State.setStore_clock, State.setSup_clock]
  rw [(does_takeUnitsAndTrains _ _ _ m).clock_eq (by decide)]
  rfl

theorem restoreBlocks_sup : (restoreBlocks m s).sup = { s.sup with mode := m.supMode, timeout := m.supTimeout }.armed := by
  unfold restoreBlocks
  simp only [State.setSup_sup]
  rw [(does_takeUnitsAndTrains _ _ _ m).sup_eq (by decide)]
  rfl

theorem restoreBlocks_clock : (restoreBlocks m s).clock = { s.clock with lastSettled := m.lastSettled } := by
  unfold restoreBlocks
  simp only [State.setSup_clock]
  rw [(does_takeUnitsAndTrains _ _ _ m).clock_eq (by decide)]
  rfl

theorem restoreBlocks_store : (restoreBlocks m s).store = s.store := (does_restoreBlocks s m).store_eq (by decide)
end

/-! ### The hour -/

/-- The clock shows the same hour, whatever the hour last settled. -/
def SameHour (s t : State) : Prop := ∃ n : Nat, t.clock = { s.clock with lastSettled := n }

theorem SameHour.of_eq {s t : State} (h : t.clock = s.clock) : SameHour s t := ⟨s.clock.lastSettled, h⟩

theorem SameHour.trans {s t u : State} (h : SameHour s t) (h' : SameHour t u) : SameHour s u := by
  obtain ⟨m, hm⟩ := h
  obtain ⟨n, hn⟩ := h'
  exact ⟨n, by rw [hn, hm]⟩

theorem SameHour.state {s t : State} (h : SameHour s t) : t.clock.state = s.clock.state := by
  obtain ⟨n, hn⟩ := h
  rw [hn]

theorem SameHour.clockSafe {s t : State} (h : SameHour s t) (hs : clockSafe s.clock = true) : clockSafe t.clock = true := by
  obtain ⟨n, hn⟩ := h
  rw [hn]
  exact hs

section
variable (s : State)

theorem sameHour_settleHour (k : Intake) : SameHour s (settleHour k s) := by
  refine ⟨k.hour, ?_⟩
  unfold settleHour
  simp only [raise_clock, State.setSched_clock, State.setClock_clock, State.setSettle_clock]
  rw [(does_postHour s k _ _ _).clock_eq (by decide)]

theorem completionStep_clock : (completionStep s).clock = s.clock := by
  unfold completionStep
  rw [(does_beginCommit _).clock_eq (by decide), State.setSettle_clock, (does_confirmation _).clock_eq (by decide),
    (does_accountStep s).clock_eq (by decide)]

theorem sameHour_completeSettlement : SameHour s (completeSettlement s) := by
  unfold completeSettlement
  split
  · exact .of_eq rfl
  · exact (sameHour_settleHour s _).trans (.of_eq (completionStep_clock _))

theorem sameHour_settleFirst : SameHour s (settleFirst s) := by
  unfold settleFirst
  split
  · exact sameHour_completeSettlement s
  · exact .of_eq rfl

theorem sameHour_restoreRead (readOk : Bool) : SameHour s (restoreRead readOk s) := by
  have hblocks (m : Image) : SameHour s (restoreBlocks m s) := ⟨_, restoreBlocks_clock s m⟩
  unfold restoreRead
  split
  · split
    · exact (hblocks _).trans (.of_eq (State.setStore_clock ..))
    · split
      · refine (hblocks Image.default).trans (.of_eq ?_)
        simp only [raise_clock, State.setStore_clock]
        exact (does_failMarked _).clock_eq (by decide)
      · exact .of_eq rfl
  · exact .of_eq rfl

theorem clockSecond_clock : (clockSecond s).clock = (advanceClock s).clock := by
  have hdoes : Does [.world, .meter, .duty, .dry, .flow, .sched, .evq] (advanceClock s) (clockSecond s) := by
    refine does_gathered_of (by decide) (by decide) (fun u => does_inAnyOrder _ (by decide) (fun f hf v => ?_) u) _
    rcases List.mem_cons.mp hf with rfl | hf
    · exact (does_gapWatch v).mono (by decide)
    · split at hf
      · exact (does_boundaryActs _ f hf v).mono (by decide)
      · exact absurd hf List.not_mem_nil
  exact hdoes.clock_eq (by decide)

/-- An UNSET clock stands through a second. -/
theorem advanceClock_unset {s : State} (h : s.clock.state = .unset) : advanceClock s = s := by
  rw [advanceClock, h]

theorem advanceClock_running {s : State} (h : s.clock.state = .running) : (advanceClock s).clock =
    if boundaryDue s then s.clock.nextHour else { s.clock with sec := s.clock.sec + 1 } := by
  rw [advanceClock, h]
  dsimp only
  split <;> rfl

theorem advanceClock_clock_congr {s t : State} (h : t.clock = s.clock) : (advanceClock t).clock = (advanceClock s).clock := by
  have hdue : boundaryDue t = boundaryDue s := by simp only [boundaryDue, clockIsUnset, h]
  cases hs : s.clock.state with
  | unset => rw [advanceClock_unset hs, advanceClock_unset ((congrArg Clock.state h).trans hs), h]
  | running => rw [advanceClock_running hs, advanceClock_running ((congrArg Clock.state h).trans hs), hdue, h]

/-- A second of the gas clock: the hour shown as the blocks begin it. -/
def elapsedSecond : State := settleFirst (s.setElapsed (s.elapsed + 1))

theorem gapWatch_advance_clock (u : State) : (advanceClock (gapWatch u)).clock = (advanceClock u).clock :=
  advanceClock_clock_congr ((does_gapWatch u).clock_eq (by decide))

/-- Whichever way the world takes the report-gap watch, the clock is one second on. -/
theorem gasClockSecond_clock {t : State} (h : exec .gasClockSecond s = .next t) :
    t.clock = (advanceClock (elapsedSecond s)).clock := by
  cases h
  obtain ⟨g, hg, n, he⟩ := oneOf_cases clockSecond [fun t => clockSecond (gapWatch t)] (elapsedSecond s)
  rw [show settleFirst _ = elapsedSecond s from rfl, he]
  have hworld : (advanceClock ((elapsedSecond s).setWorld n)).clock = (advanceClock (elapsedSecond s)).clock :=
    advanceClock_clock_congr rfl
  rcases List.mem_pair.mp hg with rfl | rfl
  · exact (clockSecond_clock _).trans hworld
  · exact ((clockSecond_clock _).trans (gapWatch_advance_clock _)).trans hworld
end

end Sys2Proof.Machine
end

section
/-! SUPPORT. Which commands end FALLBACK, UNRESTORED and UNSET (O7), which take events away (O8), and the clock within its hour
(O14). -/

namespace Sys2Proof.Machine

/-! ### What a command other than a restart or the line's can change -/

/-- The parts that a request or a command of the blocks may change, the link aside. -/
def partsOf (c : Instr) : List Part :=
  match c.request with
  | some (code, _) => requestParts code
  | none => blockParts c

/-- A request row writes the reply to the link, of the part as it was or as the request leaves it. -/
theorem row_after {c : Instr} {code : Byte} {b : Block} {req : Block → State → Answer} {s t : State}
    (hc : c.request = some (code, b)) (hreq : requestOf code = some req) (h : exec c s = .next t) :
    ∃ x : Link, t = s.setLink x ∨ t = (req b s).after.setLink x := by
  obtain ⟨req', hreq', hrow⟩ := request_serves hc
  obtain rfl : req' = req := Option.some.inj (hreq'.symm.trans hreq)
  rw [hrow s] at h
  cases h
  cases hs : restoring s with
  | true => rw [serve_restoring _ _ _ hs]; exact ⟨_, .inl rfl⟩
  | false => rw [serve_eq _ _ _ hs]; exact ⟨_, .inr rfl⟩

/-- A request row other than EVENT DRAIN changes the link and the parts of its request, and appends events. -/
theorem row_does {c : Instr} {code : Byte} {b : Block} {s t : State} (hc : c.request = some (code, b)) (hcode : code ≠ 0x03)
    (h : exec c s = .next t) : Does (.link :: requestParts code) s t := by
  obtain ⟨req, hreq, _⟩ := request_serves hc
  obtain ⟨x, rfl | rfl⟩ := row_after hc hreq h
  · exact (acts_setLink s x (by simp)).does
  · exact ((does_request hreq hcode b s).mono (List.subset_cons_self _ _)).trans (acts_setLink _ x (by simp)).does

/-- A command of the blocks changes its parts and appends events. -/
theorem block_does {c : Instr} {s t : State} (hc : ofBlocks c = true) (h : exec c s = .next t) : Does (blockParts c) s t := by
  obtain ⟨u, hu, hdoes⟩ := does_block hc s
  rw [h] at hu
  cases hu
  exact hdoes

theorem request_eventDrain {c : Instr} {b : Block} (h : c.request = some (0x03, b)) : c = .eventDrain b := by
  cases c <;> simp [Instr.request] at h
  rw [h]

theorem abandon_does (s : State) : Does [.link] s (abandon s) := (acts_setLink s _ (by decide)).does

/-- The rows of a frame abandoned write the link alone. -/
theorem abandonRow_does {c : Instr} {s t : State} (hc : (∃ why, c = .frameAbandoned why) ∨ c = .interByteTimeout)
    (h : exec c s = .next t) : Does [.link] s t := by
  rcases hc with ⟨why, rfl⟩ | rfl
  · cases h
    cases why
    · exact does_ite _ (abandon_does s)
    · exact does_ite _ (abandon_does s)
  · cases h
    exact does_ite _ (abandon_does s)

/-- Settles O8: what a command may change is a run of events appended, by the rules for requests and for the commands of the
blocks. -/
theorem eventsAreOnlyAppended : Obligations.EventsAreOnlyAppended := by
  intro c s t h
  cases hb : ofBlocks c with
  | true =>
    have hdoes := block_does hb h
    split
    all_goals first | trivial | exact hdoes.appends
  | false =>
    cases hr : c.request with
    | some p =>
      obtain ⟨code, b⟩ := p
      by_cases hcode : code = 0x03
      · subst hcode
        rw [request_eventDrain hr]
        trivial
      · have hdoes := row_does hr hcode h
        split
        all_goals first | trivial | exact hdoes.appends
    | none =>
      cases c
      case frameAbandoned why => exact (abandonRow_does (.inl ⟨why, rfl⟩) h).appends
      case interByteTimeout => exact (abandonRow_does (.inr rfl) h).appends
      case powerOn | external | supplyDip | restartRequest | frameReceived | replySent | requestSyncByte => trivial
      all_goals first
        | exact absurd hb.symm Bool.false_ne_true
        | exact absurd hr (Option.some_ne_none _)

/-- A command that is no restart, nothing on the line and no EVENT DRAIN leaves the parts that it does not name. -/
theorem same_of_partsOf {c : Instr} {s t : State} {p : Part} (hc : (c.request.isSome || ofBlocks c) = true)
    (hdrain : (c.request.map Prod.fst != some 0x03) = true) (hp : ((Part.link :: partsOf c).contains p) = false)
    (h : exec c s = .next t) : p.same s t := by
  rw [List.contains_eq_mem, decide_eq_false_iff_not] at hp
  unfold partsOf at hp
  cases hr : c.request with
  | some q =>
    obtain ⟨code, b⟩ := q
    simp only [hr] at hp
    refine (row_does hr (fun hcode => ?_) h).same hp
    rw [hr, hcode] at hdrain
    exact absurd hdrain (by simp)
  | none =>
    simp only [hr] at hp
    simp only [hr, Option.isSome_none, Bool.false_or] at hc
    exact (block_does hc h).same fun hm => hp (List.mem_cons_of_mem _ hm)

theorem abandonRow_same {c : Instr} {s t : State} {p : Part} (hc : (∃ why, c = .frameAbandoned why) ∨ c = .interByteTimeout)
    (hp : p ≠ .link) (h : exec c s = .next t) : p.same s t :=
  (abandonRow_does hc h).same fun hm => hp (List.mem_singleton.mp hm)

/-! ### FALLBACK (R171, R174) -/

theorem inFallback_of_sup {s t : State} (h : t.sup.linkMode = s.sup.linkMode) (hs : inFallback s = true) :
    inFallback t = true := by
  simpa only [inFallback, h] using hs

theorem armed_linkMode (x : Supervision) : x.armed.linkMode = x.linkMode := rfl

theorem adopt_linkMode (n : BitVec 32) (m : Image) (s : State) : (adopt n m s).sup.linkMode = s.sup.linkMode := by
  rw [adopt_sup, Supervision.reloaded_linkMode]

theorem restoreRead_linkMode (readOk : Bool) (s : State) : (restoreRead readOk s).sup.linkMode = s.sup.linkMode := by
  have hblocks (m : Image) : (restoreBlocks m s).sup.linkMode = s.sup.linkMode := by
    rw [restoreBlocks_sup, armed_linkMode]
  unfold restoreRead
  split
  · split
    · rw [State.setStore_sup]
      exact hblocks _
    · split
      · simp only [raise_sup, State.setStore_sup]
        rw [(does_failMarked _).sup_eq (by decide)]
        exact hblocks _
      · rfl
  · rfl

theorem reqSupervisionSet_linkMode (b : Block) (s : State) : (reqSupervisionSet b s).after.sup.linkMode = s.sup.linkMode := by
  rw [reqSupervisionSet_eq]
  split_ifs with hlen hun hrange
  rotate_left 2
  · obtain ⟨_, _, hlink, _⟩ := s.sup.replaced_settings (fieldW b 0) (fieldW b 1)
    exact hlink
  all_goals rfl

theorem enterFallback_inFallback (s : State) : inFallback (enterFallback s) = true := by
  rw [inFallback, enterFallback, recomputeTarget_sup]
  rfl

theorem supervisionSecond_inFallback {s : State} (h : inFallback s = true) : inFallback (supervisionSecond s) = true := by
  unfold supervisionSecond
  split
  · exact h
  · split
    · exact enterFallback_inFallback s
    · exact h

/-- A gathered response ends in FALLBACK where the response does. -/
theorem gathered_inFallback {f : State → State} {s : State} (hf : ∀ u, inFallback u = true → inFallback (f u) = true)
    (h : inFallback s = true) : inFallback (gathered f s) = true := hf _ h

/-- A request row that keeps the link mode keeps FALLBACK. -/
theorem row_inFallback {c : Instr} {code : Byte} {b : Block} {req : Block → State → Answer} {s t : State}
    (hc : c.request = some (code, b)) (hreq : requestOf code = some req) (h : exec c s = .next t)
    (hmode : (req b s).after.sup.linkMode = s.sup.linkMode) (hs : inFallback s = true) : inFallback t = true := by
  obtain ⟨x, rfl | rfl⟩ := row_after hc hreq h
  · exact hs
  · exact inFallback_of_sup hmode hs

/-- What a request's effect and the state as it was have in common, its answer has. -/
theorem checked_after {P : State → Prop} {s : State} {a : Answer} (l : List (Bool × Status)) (hs : P s) 
    (ha : (∀ p ∈ l, p.1 = true) → P a.after) : P (checked l s a).after := by
  rcases checked_cases l s a with ⟨he, hl⟩ | ⟨st, _, he⟩ <;> rw [he]
  · exact ha hl
  · exact hs

/-- STORE LOAD END leaves the part as it was, or adopts the buffer's image with the buffer cleared. -/
theorem reqStoreLoadEnd_after {P : State → Prop} (b : Block) {s : State} (hs : P s)
    (hadopt : ∀ n m, imageRead (bufferWords s.store.buffer) = some m → m.consistent = true → P (adopt n m (s.setStore { s.store with buffer := [] }))) :
    P (reqStoreLoadEnd b s).after := by
  unfold reqStoreLoadEnd
  dsimp only
  split
  · exact hs
  · split
    · exact hs
    · rename_i m hread
      refine checked_after _ hs fun hl => ?_
      dsimp only [taken]
      exact hadopt _ m hread (hl _ List.mem_cons_self)

theorem reqStoreLoadEnd_linkMode (b : Block) (s : State) : (reqStoreLoadEnd b s).after.sup.linkMode = s.sup.linkMode :=
  reqStoreLoadEnd_after (P := fun t => t.sup.linkMode = s.sup.linkMode) b rfl fun n m _ _ => adopt_linkMode n m _

theorem reqStoreInitialize_linkMode (b : Block) (s : State) :
    (reqStoreInitialize b s).after.sup.linkMode = s.sup.linkMode :=
  checked_after (P := fun t => t.sup.linkMode = s.sup.linkMode) _ rfl fun _ => adopt_linkMode 1 Image.default s

/-- The commands that may end FALLBACK (R174, R177). -/
def mayEndFallback : Instr → Bool
  | .powerOn | .external | .supplyDip | .restartRequest | .resume _ | .frameReceived _ | .requestSyncByte | .replySent => true
  | _ => false

theorem exec_inFallback {c : Instr} {s t : State} (hc : mayEndFallback c = false) (h : exec c s = .next t)
    (hs : inFallback s = true) : inFallback t = true := by
  have hsame (hsup : Part.sup.same s t) : inFallback t = true := inFallback_of_sup (congrArg Supervision.linkMode hsup) hs
  cases c
  case frameAbandoned why => exact hsame (abandonRow_same (.inl ⟨why, rfl⟩) nofun h)
  case interByteTimeout => exact hsame (abandonRow_same (.inr rfl) nofun h)
  case eventDrain b => exact row_inFallback rfl rfl h (congrArg Supervision.linkMode (reqEventDrain_parts b s .sup nofun)) hs
  case supervisionSet b => exact row_inFallback rfl rfl h (reqSupervisionSet_linkMode b s) hs
  case storeLoadEnd b => exact row_inFallback rfl rfl h (reqStoreLoadEnd_linkMode b s) hs
  case storeInitialize b => exact row_inFallback rfl rfl h (reqStoreInitialize_linkMode b s) hs
  case restoreReadDone readOk => cases h; exact inFallback_of_sup (restoreRead_linkMode readOk s) hs
  case fallbackEntered =>
    cases h
    split
    · exact gathered_inFallback (fun u _ => enterFallback_inFallback u) hs
    · exact hs
  case supervisionTimerSecond => cases h; exact gathered_inFallback (fun _ => supervisionSecond_inFallback) hs
  case powerOn | external | supplyDip | restartRequest | resume | frameReceived | requestSyncByte | replySent =>
    exact absurd hc nofun
  all_goals exact hsame (same_of_partsOf rfl rfl rfl h)

end Sys2Proof.Machine
end

section
/-! SUPPORT. UNRESTORED and UNSET end only through their commands (O7), and the clock stays within its hour (O14). -/

namespace Sys2Proof.Machine

/-! ### UNRESTORED (R178) -/

section
variable (s : State)

theorem endCommit_unrestored (whole : Bool) : isUnrestored (endCommit whole s) = isUnrestored s := by
  unfold endCommit
  split
  · split <;> rfl
  · rfl

theorem beginCommit_unrestored : isUnrestored (beginCommit s) = isUnrestored s := by
  unfold beginCommit
  split <;> rfl

theorem isUnrestored_of_store {s t : State} (h : t.store = s.store) : isUnrestored t = isUnrestored s := by
  rw [isUnrestored, isUnrestored, h]

theorem settleHour_store (k : Intake) : (settleHour k s).store = s.store := by
  unfold settleHour
  simp only [raise_store, State.setSched_store, State.setClock_store, State.setSettle_store]
  rw [(does_postHour s k _ _ _).store_eq (by decide)]

theorem completionStep_unrestored : isUnrestored (completionStep s) = isUnrestored s := by
  unfold completionStep
  refine (beginCommit_unrestored _).trans (isUnrestored_of_store ?_)
  rw [State.setSettle_store, (does_confirmation _).store_eq (by decide), (does_accountStep s).store_eq (by decide)]

theorem completeSettlement_unrestored : isUnrestored (completeSettlement s) = isUnrestored s := by
  unfold completeSettlement
  split
  · rfl
  · exact (completionStep_unrestored _).trans (isUnrestored_of_store (settleHour_store s _))

theorem settleFirst_unrestored : isUnrestored (settleFirst s) = isUnrestored s := by
  unfold settleFirst
  split
  · exact completeSettlement_unrestored s
  · rfl

theorem clockSecond_store : (clockSecond s).store = s.store := (does_clockSecond s).store_eq (by decide)

theorem gasClockSecond_unrestored : isUnrestored (oneOf clockSecond [fun t => clockSecond (gapWatch t)] (elapsedSecond s))
    = isUnrestored s := by
  have hfirst : isUnrestored (elapsedSecond s) = isUnrestored s := settleFirst_unrestored _
  refine oneOf_preserves (fun u => isUnrestored u = isUnrestored s) _ _ (fun u hu => ?_) (fun g hg u hu => ?_)
    (fun _ _ hu => hu) _ hfirst
  · exact (isUnrestored_of_store (clockSecond_store u)).trans hu
  · obtain rfl := List.mem_singleton.mp hg
    refine (isUnrestored_of_store ?_).trans hu
    rw [clockSecond_store, (does_gapWatch u).store_eq (by decide)]

theorem hourBoundary_unrestored :
    isUnrestored (gathered (inAnyOrder (boundaryActs s.clock.hour)) (endHour (settleFirst s))) = isUnrestored s := by
  have hacts : Does hourParts (endHour (settleFirst s))
      (gathered (inAnyOrder (boundaryActs s.clock.hour)) (endHour (settleFirst s))) :=
    does_gathered_of (by decide) (by decide) (fun u => does_inAnyOrder _ (by decide)
      (fun f hf v => (does_boundaryActs _ f hf v).mono (by decide)) u) _
  refine (isUnrestored_of_store ?_).trans (settleFirst_unrestored s)
  rw [hacts.store_eq (by decide), (does_endHour _).store_eq (by decide)]

/-- A restore read clears nothing: the second failure of a restore sets the flag. -/
theorem restoreRead_unrestored (readOk : Bool) {s : State} (hs : isUnrestored s = true) :
    isUnrestored (restoreRead readOk s) = true := by
  unfold restoreRead
  split
  · split
    · simp only [isUnrestored, State.setStore_store, restoreBlocks_store]
      exact hs
    · split
      · rfl
      · exact hs
  · exact hs
end

theorem row_unrestored {c : Instr} {code : Byte} {b : Block} {req : Block → State → Answer} {s t : State}
    (hc : c.request = some (code, b)) (hreq : requestOf code = some req) (h : exec c s = .next t)
    (hstore : isUnrestored (req b s).after = isUnrestored s) : isUnrestored t = isUnrestored s := by
  obtain ⟨x, rfl | rfl⟩ := row_after hc hreq h
  · rfl
  · exact hstore

theorem reqStoreLoad_unrestored (b : Block) (s : State) : isUnrestored (reqStoreLoad b s).after = isUnrestored s :=
  checked_after (P := fun t => isUnrestored t = isUnrestored s) _ rfl fun _ => rfl

/-- The commands that may end UNRESTORED (R178). -/
def mayEndUnrestored : Instr → Bool
  | .powerOn | .external | .supplyDip | .restartRequest | .storeLoadEnd _ | .storeInitialize _ | .frameReceived _
  | .requestSyncByte | .replySent => true
  | _ => false

theorem exec_unrestored {c : Instr} {s t : State} (hc : mayEndUnrestored c = false) (h : exec c s = .next t)
    (hs : isUnrestored s = true) : isUnrestored t = true := by
  have hsame (hstore : Part.store.same s t) : isUnrestored t = true := (isUnrestored_of_store hstore).trans hs
  cases c
  case frameAbandoned why => exact hsame (abandonRow_same (.inl ⟨why, rfl⟩) nofun h)
  case interByteTimeout => exact hsame (abandonRow_same (.inr rfl) nofun h)
  case eventDrain b =>
    exact (row_unrestored rfl rfl h (isUnrestored_of_store (reqEventDrain_parts b s .store nofun))).trans hs
  case storeLoad b => exact (row_unrestored rfl rfl h (reqStoreLoad_unrestored b s)).trans hs
  case restoreReadDone readOk => cases h; exact restoreRead_unrestored readOk hs
  case commitEnd whole => cases h; exact (endCommit_unrestored s whole).trans hs
  case settlementCompletion => cases h; exact (completeSettlement_unrestored s).trans hs
  case gasClockSecond => cases h; exact (gasClockSecond_unrestored s).trans hs
  case hourBoundary =>
    cases h
    split
    · exact (hourBoundary_unrestored s).trans hs
    · exact hs
  case powerOn | external | supplyDip | restartRequest | storeLoadEnd | storeInitialize | frameReceived | requestSyncByte
      | replySent => exact absurd hc nofun
  all_goals exact hsame (same_of_partsOf rfl rfl rfl h)

/-! ### The clock (R1, R4, R7) -/

/-- The hour boundary moves the clock on, whatever settlement it completes first. -/
theorem endHour_clock (s : State) : (endHour s).clock = s.clock.nextHour := rfl

theorem hourBoundary_clock (s : State) :
    (gathered (inAnyOrder (boundaryActs s.clock.hour)) (endHour (settleFirst s))).clock = (settleFirst s).clock.nextHour := by
  have hacts : Does (.meter :: flowParts ++ dutyParts) (endHour (settleFirst s))
      (gathered (inAnyOrder (boundaryActs s.clock.hour)) (endHour (settleFirst s))) :=
    does_gathered_of (by decide) (by decide) (fun u => does_inAnyOrder _ (by decide)
      (fun f hf v => (does_boundaryActs _ f hf v).mono (by decide)) u) _
  rw [hacts.clock_eq (by decide), endHour_clock]

theorem clockSafe_nextHour {c : Clock} (h : clockSafe c = true) (hrun : c.state = .running) :
    clockSafe c.nextHour = true := by
  simp only [clockSafe, hrun, Bool.and_eq_true, decide_eq_true_eq] at h
  obtain ⟨_, hhour⟩ := h
  unfold Clock.nextHour
  split
  · simp [clockSafe]
  · have hlt : c.hour + 1 ≤ lastHour := by omega
    simp [clockSafe, hrun, hlt]

theorem advanceClock_safe {s : State} (h : clockSafe s.clock = true) : clockSafe (advanceClock s).clock = true := by
  cases hrun : s.clock.state with
  | unset => rw [advanceClock_unset hrun]; exact h
  | running =>
    rw [advanceClock_running hrun]
    split
    · exact clockSafe_nextHour h hrun
    · rename_i hdue
      simp only [boundaryDue, clockIsUnset, hrun, Bool.and_eq_true, decide_eq_true_eq, not_and, not_le] at hdue
      have hlt := hdue rfl
      simp only [clockSafe, hrun, Bool.and_eq_true, decide_eq_true_eq] at h ⊢
      obtain ⟨⟨⟨⟨_, hend⟩, hlow⟩, hhigh⟩, hhour⟩ := h
      exact ⟨⟨⟨⟨hlt, hend⟩, hlow⟩, hhigh⟩, hhour⟩

theorem sameHour_elapsedSecond (s : State) : SameHour s (elapsedSecond s) := sameHour_settleFirst (s.setElapsed (s.elapsed + 1))

theorem reqStoreLoadEnd_sameHour (b : Block) (s : State) : SameHour s (reqStoreLoadEnd b s).after :=
  reqStoreLoadEnd_after (P := SameHour s) b (.of_eq rfl) fun n m _ _ => ⟨_, adopt_clock _ m n⟩

theorem reqStoreInitialize_sameHour (b : Block) (s : State) : SameHour s (reqStoreInitialize b s).after :=
  checked_after (P := SameHour s) _ (.of_eq rfl) fun _ => ⟨_, adopt_clock s Image.default 1⟩

/-! ### UNSET ends only through CLOCK SET -/

theorem reqClockTrim_state (b : Block) (s : State) : (reqClockTrim b s).after.clock.state = s.clock.state :=
  checked_after (P := fun t => t.clock.state = s.clock.state) _ rfl fun _ => rfl

theorem unset_of_state {s t : State} (h : t.clock.state = s.clock.state) (hs : clockIsUnset s = true) :
    clockIsUnset t = true := by
  simpa only [clockIsUnset, h] using hs

theorem row_unset {c : Instr} {code : Byte} {b : Block} {req : Block → State → Answer} {s t : State}
    (hc : c.request = some (code, b)) (hreq : requestOf code = some req) (h : exec c s = .next t)
    (hstate : (req b s).after.clock.state = s.clock.state) (hs : clockIsUnset s = true) : clockIsUnset t = true := by
  obtain ⟨x, rfl | rfl⟩ := row_after hc hreq h
  · exact hs
  · exact unset_of_state hstate hs

/-- The commands that may end UNSET (R1). -/
def mayEndUnset : Instr → Bool
  | .clockSet _ | .frameReceived _ | .requestSyncByte | .replySent => true
  | _ => false

theorem exec_unset {c : Instr} {s t : State} (hc : mayEndUnset c = false) (h : exec c s = .next t)
    (hs : clockIsUnset s = true) : clockIsUnset t = true := by
  have hsame (hclock : Part.clock.same s t) : clockIsUnset t = true := unset_of_state (congrArg Clock.state hclock) hs
  have hnotDue : boundaryDue s = false := by rw [boundaryDue, hs]; rfl
  have hunset : s.clock.state = .unset := beq_iff_eq.mp hs
  cases c
  case frameAbandoned why => exact hsame (abandonRow_same (.inl ⟨why, rfl⟩) nofun h)
  case interByteTimeout => exact hsame (abandonRow_same (.inr rfl) nofun h)
  case eventDrain b => exact row_unset rfl rfl h (congrArg Clock.state (reqEventDrain_parts b s .clock nofun)) hs
  case clockTrim b => exact row_unset rfl rfl h (reqClockTrim_state b s) hs
  case storeLoadEnd b => exact row_unset rfl rfl h (reqStoreLoadEnd_sameHour b s).state hs
  case storeInitialize b => exact row_unset rfl rfl h (reqStoreInitialize_sameHour b s).state hs
  case restoreReadDone readOk => cases h; exact unset_of_state (sameHour_restoreRead s readOk).state hs
  case settlementCompletion => cases h; exact unset_of_state (sameHour_completeSettlement s).state hs
  case gasClockSecond =>
    have hstate : (elapsedSecond s).clock.state = s.clock.state := (sameHour_elapsedSecond s).state
    refine unset_of_state ?_ hs
    rw [gasClockSecond_clock s h, advanceClock_unset (hstate.trans hunset), hstate]
  case hourBoundary =>
    cases h
    rw [hnotDue]
    exact hs
  case powerOn | external | supplyDip => cases h; rfl
  case restartRequest =>
    cases h
    split
    · rfl
    · exact hs
  case clockSet | frameReceived | requestSyncByte | replySent => exact absurd hc nofun
  all_goals exact hsame (same_of_partsOf rfl rfl rfl h)

/-- Settles O7: each mode by the commands that can touch its part, `exec_inFallback`, `exec_unrestored` and `exec_unset`. -/
theorem modesEndOnlyAsStated : Obligations.ModesEndOnlyAsStated := by
  intro c s t h
  refine ⟨fun hs => ?_, fun hs => ?_, fun hs => ?_⟩
  · cases hc : mayEndFallback c
    · split <;> first | trivial | exact exec_inFallback hc h hs
    · unfold mayEndFallback at hc
      split at hc <;> trivial
  · cases hc : mayEndUnrestored c
    · split <;> first | trivial | exact exec_unrestored hc h hs
    · unfold mayEndUnrestored at hc
      split at hc <;> trivial
  · cases hc : mayEndUnset c
    · split <;> first | trivial | exact exec_unset hc h hs
    · unfold mayEndUnset at hc
      split at hc <;> trivial

/-! ### The clock within its hour (O14) -/

theorem fieldW_lt (b : Block) (i : Nat) : fieldW b i < 65536 := (b.getD i 0).isLt

theorem fieldHour_le {b : Block} {i : Nat} (h : fieldW b (i + 1) ≤ 23) : fieldHour b i ≤ lastHour := by
  have hday := fieldW_lt b i
  rw [fieldHour, lastHour]
  omega

theorem startClock_clock (h sec : Nat) (s : State) : (startClock h sec s).clock =
    { s.clock with state := .running, hour := h, sec := sec, hourEnd := 3600, trim := 0 } := by
  unfold startClock
  dsimp only
  split <;> rfl

theorem clockSetEffect_clock (h sec : Nat) (s : State) : (clockSetEffect h sec s).after.clock =
    { s.clock with state := .running, hour := h, sec := sec, hourEnd := 3600, trim := 0 } := by
  have hflow (u : State) : Does flowParts u (gathered recomputeTarget u) :=
    does_gathered_of (by decide) (by decide) (fun v => does_recomputeTarget (List.Subset.refl _) v) u
  dsimp only [clockSetEffect, taken]
  rw [(hflow _).clock_eq (by decide), (does_confirmation _).clock_eq (by decide), (does_trimBook _ h).clock_eq (by decide),
    (does_discardBefore _ h).clock_eq (by decide), startClock_clock]

theorem reqClockSet_safe (b : Block) {s : State} (hs : clockSafe s.clock = true) :
    clockSafe (reqClockSet b s).after.clock = true := by
  refine checked_after (P := fun t => clockSafe t.clock = true) _ hs fun hl => ?_
  have hrange : (decide (fieldW b 1 ≤ 23) && decide (fieldW b 2 ≤ 3599)) = true := 
    hl (decide (fieldW b 1 ≤ 23) && decide (fieldW b 2 ≤ 3599), .range) (List.mem_append_right _ (by simp))
  simp only [Bool.and_eq_true, decide_eq_true_eq] at hrange
  obtain ⟨hhour, hsec⟩ := hrange
  have hlt : fieldW b 2 < 3600 := by omega
  rw [clockSetEffect_clock]
  simp [clockSafe, hlt, fieldHour_le (i := 0) hhour]

theorem reqClockTrim_safe (b : Block) {s : State} (hs : clockSafe s.clock = true) :
    clockSafe (reqClockTrim b s).after.clock = true := by
  rw [reqClockTrim_eq]
  split_ifs with _ _ _ hrun _ htrim hleft
  all_goals first | exact hs | dsimp only [taken, State.setClock_clock]
  have hrun : s.clock.state = .running := by
    cases h : s.clock.state
    · exact absurd h hrun
    · rfl
  simp only [clockSafe, hrun, Bool.and_eq_true, decide_eq_true_eq] at hs ⊢
  omega

theorem clock_mem_requestParts :
    ∀ code : Byte, Part.clock ∈ requestParts code → code = 0x10 ∨ code = 0x11 ∨ code = 0x52 ∨ code = 0x53 := by
  decide

theorem request_clockSafe {code : Byte} {req : Block → State → Answer} (hreq : requestOf code = some req) (b : Block)
    (s : State) (hs : clockSafe s.clock = true) : clockSafe (req b s).after.clock = true := by
  by_cases hparts : Part.clock ∈ requestParts code
  · rcases clock_mem_requestParts code hparts with rfl | rfl | rfl | rfl <;> cases hreq
    · exact reqClockSet_safe b hs
    · exact reqClockTrim_safe b hs
    · exact (reqStoreLoadEnd_sameHour b s).clockSafe hs
    · exact (reqStoreInitialize_sameHour b s).clockSafe hs
  · by_cases hdrain : code = 0x03
    · subst hdrain
      cases hreq
      rw [reqEventDrain_parts b s .clock nofun]
      exact hs
    · rw [(does_request hreq hdrain b s).clock_eq hparts]
      exact hs

theorem boundary_running {s : State} (h : boundaryDue s = true) : s.clock.state = .running := by
  cases hc : s.clock.state
  · simp [boundaryDue, clockIsUnset, hc] at h
  · rfl

theorem block_clockSafe {c : Instr} (hc : ofBlocks c = true) {s t : State} (hs : clockSafe s.clock = true)
    (h : exec c s = .next t) : clockSafe t.clock = true := by
  cases c <;> first | exact absurd hc Bool.false_ne_true | skip
  case gasClockSecond =>
    rw [gasClockSecond_clock s h]
    exact advanceClock_safe ((sameHour_elapsedSecond s).clockSafe hs)
  case hourBoundary =>
    cases h
    split
    · rename_i hdue
      have hsame := sameHour_settleFirst s
      rw [hourBoundary_clock]
      exact clockSafe_nextHour (hsame.clockSafe hs) (hsame.state.trans (boundary_running hdue))
    · exact hs
  case settlementCompletion => cases h; exact (sameHour_completeSettlement s).clockSafe hs
  case restoreReadDone readOk => cases h; exact (sameHour_restoreRead s readOk).clockSafe hs
  all_goals
    have hclock := same_of_partsOf (p := .clock) rfl rfl rfl h
    rw [Part.same] at hclock
    rw [hclock]
    exact hs

/-- Settles O14: the requests and the commands of the blocks that touch the clock keep it within its hour. -/
theorem everyStepKeepsTheClockInItsHour : Obligations.EveryStepKeepsTheClockInItsHour := by
  intro s t hs ht
  have hP : ExecKept (fun u => clockSafe u.clock = true) :=
    { setLink := fun _ _ h => h
      setSup := fun _ _ h => h
      request := fun _ _ hreq b u h => request_clockSafe hreq b u h
      restart := fun _ _ _ => rfl
      blocks := fun _ hc _ _ h ht => block_clockSafe hc h ht }
  exact hP.step (fun _ _ h => h) hs ht

end Sys2Proof.Machine
end

section
/-! SUPPORT. Every request applies the checks of its rule in their order (R163): request by request, and then for all of
them. -/

namespace Sys2Proof.Machine

/-! ### Checks applied -/

/-- An answer applies the checks `l`: it refuses with the status of the first that fails, or is taken where none fails. -/
def AppliesChecks (l : List (Bool × Status)) (s : State) (a : Answer) : Prop :=
  (firstFailure l = none ∧ a.status = .ok) ∨ ∃ st, firstFailure l = some st ∧ a = refuse st s

section
variable {l m : List (Bool × Status)} {s t : State} {a : Answer} {holds : Bool} {st : Status}

theorem AppliesChecks.taken (out : Block) : AppliesChecks [] s (taken out t) := .inl ⟨rfl, rfl⟩

theorem AppliesChecks.refused (h : holds = false) : AppliesChecks ((holds, st) :: l) s (refuse st s) :=
  .inr ⟨st, by rw [h]; rfl, rfl⟩

/-- A check that holds is passed on to the rest. -/
theorem AppliesChecks.passed (h : holds = true) (ha : AppliesChecks l s a) : AppliesChecks ((holds, st) :: l) s a := by
  rw [AppliesChecks, h]
  exact ha

/-- A request that applies a first run of checks and then, where they hold, the rest. -/
theorem AppliesChecks.checked (ha : (∀ p ∈ l, p.1 = true) → AppliesChecks m s a) :
    AppliesChecks (l ++ m) s (checked l s a) := by
  induction l with
  | nil => exact ha (fun _ h => absurd h List.not_mem_nil)
  | cons p l ih =>
    obtain ⟨holds, st⟩ := p
    cases holds with
    | false => exact .refused rfl
    | true => exact .passed rfl (ih fun hl => ha (List.forall_mem_cons.mpr ⟨rfl, hl⟩))

/-- A first check that a request and its rule share. -/
theorem AppliesChecks.both (ha : holds = true → AppliesChecks m s (Machine.checked l s a)) :
    AppliesChecks ((holds, st) :: m) s (Machine.checked ((holds, st) :: l) s a) := by
  cases holds with
  | false => exact .refused rfl
  | true => exact .passed rfl (ha rfl)

/-- A request that applies its checks and is then taken. -/
theorem AppliesChecks.of_taken (out : Block) : AppliesChecks l s (Machine.checked l s (Machine.taken out t)) := by
  simpa using AppliesChecks.checked (m := []) (l := l) fun _ => AppliesChecks.taken (s := s) out

theorem AppliesChecks.of_eq (ha : AppliesChecks l s a) (h : m = l) : AppliesChecks m s a := h ▸ ha
end

/-- Two runs of checks are one. -/
theorem checked_append (l m : List (Bool × Status)) (s : State) (a : Answer) :
    checked (l ++ m) s a = checked l s (checked m s a) := by
  induction l with
  | nil => rfl
  | cons p l ih =>
    obtain ⟨holds, st⟩ := p
    rw [List.cons_append, checked_cons, checked_cons, ih]

/-- A request row keeps its checks where its request applies them. -/
theorem AppliesChecks.keepsItsChecks {c : Instr} {code : Byte} {b : Block} {r : State → Answer} {s : State}
    (h : AppliesChecks (requestChecks s c) s (r s)) (hc : c.request = some (code, b))
    (he : exec c s = .next (serve code r s)) : keepsItsChecks c s := by
  refine keepsItsChecks_of_serve hc he (fun st hst => ?_) fun hnone => ?_
  · obtain ⟨hnone, _⟩ | ⟨st', hst', ha⟩ := h
    · rw [hnone] at hst
      exact absurd hst nofun
    · rw [ha, Option.some.inj (hst'.symm.trans hst)]
  · obtain ⟨_, hok⟩ | ⟨st', hst', _⟩ := h
    · exact hok
    · rw [hnone] at hst'
      exact absurd hst' nofun

/-! ### The words of the checks -/

theorem configChecks_eq (n : Nat) (b : Block) (s : State) : configChecks n b s = modeChecks (b.length == n) s := rfl

theorem planChecks_eq (n : Nat) (b : Block) (s : State) : planChecks n b s = settledChecks (b.length == n) s := rfl

theorem nat_beq_eq (m n : Nat) : (m == n) = decide (m = n) := rfl

section
variable (s : State) (b : Block)

theorem checks_stationReport : AppliesChecks (requestChecks s (.stationReport b)) s (reqStationReport b s) := .of_taken _
theorem checks_linkStatus : AppliesChecks (requestChecks s (.linkStatus b)) s (reqLinkStatus b s) := .of_taken _
theorem checks_eventDrain : AppliesChecks (requestChecks s (.eventDrain b)) s (reqEventDrain b s) := .of_taken _
theorem checks_supervisionSet : AppliesChecks (requestChecks s (.supervisionSet b)) s (reqSupervisionSet b s) := .of_taken _
theorem checks_resume : AppliesChecks (requestChecks s (.resume b)) s (reqResume b s) := .of_taken _
theorem checks_restart : AppliesChecks (requestChecks s (.restart b)) s (reqRestart b s) := .of_taken _
theorem checks_clockRead : AppliesChecks (requestChecks s (.clockRead b)) s (reqClockRead b s) := .of_taken _
theorem checks_sbaRead : AppliesChecks (requestChecks s (.sbaRead b)) s (reqSbaRead b s) := .of_taken _
theorem checks_settlementRead : AppliesChecks (requestChecks s (.settlementRead b)) s (reqSettlementRead b s) := .of_taken _
theorem checks_bookRead : AppliesChecks (requestChecks s (.bookRead b)) s (reqBookRead b s) := .of_taken _
theorem checks_flowRead : AppliesChecks (requestChecks s (.flowRead b)) s (reqFlowRead b s) := .of_taken _
theorem checks_storeRead : AppliesChecks (requestChecks s (.storeRead b)) s (reqStoreRead b s) := .of_taken _
theorem checks_storeLoad : AppliesChecks (requestChecks s (.storeLoad b)) s (reqStoreLoad b s) := .of_taken _
theorem checks_storeInitialize : AppliesChecks (requestChecks s (.storeInitialize b)) s (reqStoreInitialize b s) := .of_taken _

theorem checks_clockSet : AppliesChecks (requestChecks s (.clockSet b)) s (reqClockSet b s) :=
  .of_eq (.of_taken _) (by simp [requestChecks, planChecks_eq, inRanges, fieldHour])
theorem checks_clockTrim : AppliesChecks (requestChecks s (.clockTrim b)) s (reqClockTrim b s) :=
  .of_eq (.of_taken _) (by simp [requestChecks, configChecks_eq, inRanges])
theorem checks_scheduleRead : AppliesChecks (requestChecks s (.scheduleRead b)) s (reqScheduleRead b s) :=
  .of_eq (.of_taken _) (by simp [requestChecks, ofLength, notSettling, inRanges, nat_beq_eq])
theorem checks_bookStatistics : AppliesChecks (requestChecks s (.bookStatistics b)) s (reqBookStatistics b s) := by
  have hlt := fieldW_lt b 0
  have hfilter : decide (fieldW b 0 ≤ 65534) = decide (fieldW b 0 ≠ 65535) := decide_eq_decide.mpr (by omega)
  refine .of_eq (.of_taken _) ?_
  simp [requestChecks, ofLength, inRanges, hfilter, Bool.and_assoc, nat_beq_eq]
theorem checks_siteSet : AppliesChecks (requestChecks s (.siteSet b)) s (reqSiteSet b s) := by
  refine .of_eq (.of_taken _) ?_
  simp [requestChecks, planChecks_eq, inRanges, siteRanges, siteBlockInRange, siteInRange, siteOf, Bool.and_assoc]
  exact ⟨by congr!, by congr!⟩
end

/-! ### Indices and words of a block -/

section
variable {n : Nat} {b : Block} {i : Nat}

theorem fieldFin_cases (n : Nat) (b : Block) (i : Nat) :
    (fieldFin n b i = none ∧ n ≤ fieldW b i) ∨ ∃ k : Fin n, fieldFin n b i = some k ∧ fieldW b i = k.val := by
  by_cases h : fieldW b i < n
  · exact .inr ⟨⟨fieldW b i, h⟩, fieldFin_eq_some rfl, rfl⟩
  · exact .inl ⟨fieldFin_eq_none (Nat.not_lt.mp h), Nat.not_lt.mp h⟩

theorem chunks_length (n k : Nat) (b : Block) : (chunks n k b).length = k := by
  induction k generalizing b with
  | zero => rfl
  | succ k ih => rw [chunks, List.length_cons, ih]

theorem chunks_getElem (n k : Nat) (b : Block) (i : Nat) (hi : i < (chunks n k b).length) :
    (chunks n k b)[i] = (b.drop (n * i)).take n := by
  induction k generalizing b i with
  | zero => exact absurd hi (Nat.not_lt_zero i)
  | succ k ih =>
    cases i with
    | zero => simp [chunks]
    | succ i =>
      have hi' : i < (chunks n k (b.drop n)).length := by simpa [chunks] using hi
      simp only [chunks, List.getElem_cons_succ]
      rw [ih (b.drop n) i hi', List.drop_drop, Nat.mul_succ, Nat.add_comm]

theorem fieldW_drop (b : Block) (j i : Nat) : fieldW (b.drop j) i = fieldW b (j + i) := by
  simp [fieldW, List.getD_eq_getElem?_getD, List.getElem?_drop]

theorem fieldW_take (b : Block) (n i : Nat) (h : i < n) : fieldW (b.take n) i = fieldW b i := by
  simp [fieldW, List.getD_eq_getElem?_getD, h]

theorem pairs_iff {α : Type} (r : α → α → Bool) (l : List α) : pairs r l = true ↔ l.Pairwise (fun x y => r x y = true) := by
  induction l with
  | nil => simp [pairs]
  | cons x l ih => simp [pairs, ih]
end

/-! ### Curves -/

theorem pointsOf_length (b : Block) : (pointsOf b).length = fieldW b 1 := by simp [pointsOf, chunks_length]

theorem pointsOf_getElem (b : Block) (k : Nat) (hk : k < (pointsOf b).length) :
    (pointsOf b)[k] = ⟨fieldI b (2 + 2 * k), fieldW b (3 + 2 * k)⟩ := by
  have hI (i : Nat) : fieldI ((b.drop (2 + 2 * k)).take 2) 0 = fieldI b (2 + 2 * k) := by
    rw [fieldI, fieldW_take _ _ _ (by omega), fieldW_drop]
    rfl
  have hW : fieldW ((b.drop (2 + 2 * k)).take 2) 1 = fieldW b (3 + 2 * k) := by
    rw [fieldW_take _ _ _ (by omega), fieldW_drop]
    congr 1
    omega
  simp [pointsOf, chunks_getElem, List.drop_drop, hI k, hW]

/-- The points of a block rise where each x is below the next one's. -/
theorem pointsOf_rise (b : Block) : pairs (fun p q => decide (p.x < q.x)) (pointsOf b)
    = (List.range (fieldW b 1 - 1)).all (fun k => decide (fieldI b (2 + 2 * k) < fieldI b (4 + 2 * k))) := by
  rw [Bool.eq_iff_iff, pairs_iff, List.all_eq_true]
  simp only [decide_eq_true_eq, List.mem_range]
  have htrans : Trans (fun p q : CurvePoint => p.x < q.x) (fun p q : CurvePoint => p.x < q.x) (fun p q : CurvePoint => p.x < q.x) :=
    ⟨fun h h' => lt_trans h h'⟩
  have hnext (k : Nat) : 2 + 2 * (k + 1) = 4 + 2 * k := by omega
  rw [← List.isChain_iff_pairwise, List.isChain_iff_getElem]
  constructor
  · intro h k hk
    have := h k (by rw [pointsOf_length]; omega)
    rw [pointsOf_getElem, pointsOf_getElem, hnext k] at this
    exact this
  · intro h k hk
    rw [pointsOf_getElem, pointsOf_getElem, hnext k]
    exact h k (by rw [pointsOf_length] at hk; omega)

section
variable (s : State) (b : Block)

theorem checks_curveWrite : AppliesChecks (requestChecks s (.curveWrite b)) s (reqCurveWrite b s) := by
  refine .of_eq (l := modeChecks (b.length == 2 + 2 * fieldW b 1 && decide (b.length ≤ 64)) s
    ++ [(inRanges [(0, fieldW b 0, 15), (2, fieldW b 1, 8)], .range),
      (pairs (fun p q => decide (p.x < q.x)) (pointsOf b), .range)]) ?_ ?_
  · refine .checked fun _ => ?_
    obtain ⟨hnone, hi⟩ | ⟨k, hsome, hi⟩ := fieldFin_cases 16 b 0
    · rw [hnone]
      exact .refused (by simp [inRanges]; omega)
    · rw [hsome]
      refine .of_eq (.of_taken _) ?_
      have hk : k.val ≤ 15 := by omega
      simp [inRanges, hi, hk]
  · rw [pointsOf_rise]
    simp [requestChecks, modeChecks, notUnrestored, notFallback, nat_beq_eq]

theorem checks_curveRead : AppliesChecks (requestChecks s (.curveRead b)) s (reqCurveRead b s) := by
  by_cases hlen : b.length = 1
  · refine .passed (by simp [hlen]) ?_
    obtain ⟨_, hi⟩ | ⟨k, _, hi⟩ := fieldFin_cases 16 b 0
    · rw [reqCurveRead_unknown hlen hi]
      exact .refused (by simp; omega)
    · rw [reqCurveRead_named hlen hi]
      exact .passed (by simp; omega) (.taken _)
  · rw [reqCurveRead_misfit hlen]
    exact .refused (by simp [hlen])

/-- A curve referenced, as the rule lists the records that can name it (R18). -/
theorem curveReferenced_eq (i : Fin 16) : curveReferenced s i =
    (s.acct.slots.toList.any (fun o => o.any (fun a => [a.injCurve, a.wdrCurve].any (fun c => c.any (fun k => k.val == i.val))))
      || (s.duty.units.toList.map (fun u => u.cfg.curve) ++ s.dry.trains.toList.map (fun x => x.cfg.curve)).any
          (fun c => c.any (fun k => k.val == i.val))) := by
  have hnames (c : Option (Fin 16)) : c.any (fun k => k.val == i.val) = (c == some i) := by
    cases c <;> simp [Fin.ext_iff]
  simp only [hnames, curveReferenced, List.any_append, List.any_map, List.any_cons, List.any_nil, Bool.or_false,
    Function.comp_def, Bool.or_assoc]
  congr 2
  funext o
  cases o <;> rfl

theorem checks_curveClear : AppliesChecks (requestChecks s (.curveClear b)) s (reqCurveClear b s) := by
  refine .checked (l := modeChecks (b.length == 1) s) fun _ => ?_
  obtain ⟨hnone, hi⟩ | ⟨k, hsome, hi⟩ := fieldFin_cases 16 b 0
  · rw [hnone]
    exact .refused (by simp; omega)
  · rw [hsome]
    refine .passed (by simp; omega) (.of_eq (.of_taken _) ?_)
    rw [curveReferenced_eq, hi]
end

/-! ### Shippers -/

section
variable (s : State)

theorem slotHolds_iff {id : Nat} {o : Option Account} : slotHolds id o = true ↔ ∃ a, o = some a ∧ a.shipper = id := by
  cases o <;> simp [slotHolds]

theorem slotHolding_eq (id : Nat) : slotHolding s id = findSlot id s := by
  unfold slotHolding findSlot
  congr
  funext i
  cases s.acct.slots[i] <;> rfl

/-- A shipper id that no slot holds, or the slot and the record that hold it. -/
theorem findShipper_cases (id : Nat) :
    (findShipper id s = none ∧ slotHolding s id = none ∧ recordHolding s id = none)
    ∨ ∃ i a, findShipper id s = some (i, a) ∧ s.acct.slots[i] = some a ∧ a.shipper = id ∧ slotHolding s id = some i
      ∧ recordHolding s id = some a := by
  unfold recordHolding
  rw [slotHolding_eq]
  cases h : findSlot id s with
  | none => exact .inl ⟨by simp [findShipper, h], rfl, rfl⟩
  | some i =>
    have hi : slotHolds id s.acct.slots[i] = true := List.find?_some (p := fun i : Fin 24 => slotHolds id s.acct.slots[i]) h
    obtain ⟨a, ha, hid⟩ := slotHolds_iff.mp hi
    exact .inr ⟨i, a, by simp [findShipper, h, ha], ha, hid, rfl, ha⟩

theorem writtenId_fin (i : Fin 16) : writtenId s i.val = curveWritten s i := by
  have hi : s.curves.toList[i.val]? = some s.curves[i] := by simp
  rw [writtenId, hi, Option.any_some, curveWritten]
  cases s.curves[i] <;> simp

theorem writtenId_of_le {s : State} {n : Nat} (h : 16 ≤ n) : writtenId s n = false := by
  have hn : s.curves.toList[n]? = none := List.getElem?_eq_none (by simpa using h)
  rw [writtenId, hn, Option.any_none]

/-- A curve field that is absent or names a written curve. -/
theorem ratchetFieldOk_eq (b : Block) (i : Nat) :
    ratchetFieldOk s (fieldCurve b i) = (fieldW b i == 65535 || writtenId s (fieldW b i)) := by
  unfold fieldCurve
  dsimp only
  split_ifs with hlt habs
  · have hne : ¬fieldW b i = 65535 := by omega
    have hw := writtenId_fin s ⟨fieldW b i, hlt⟩
    simp [ratchetFieldOk, hne, hw]
  · simp [ratchetFieldOk, habs]
  · simp [ratchetFieldOk, habs, writtenId_of_le (Nat.not_lt.mp hlt)]

theorem rightsOk_eq (b : Block) : rightsOk b s = rightsRanges b s := by
  simp [rightsOk, rightsRanges, inRanges, ratchetFieldOk_eq, Bool.and_assoc]

theorem emptySlot_spec {s : State} {i : Fin 24} (h : emptySlot s = some i) :
    s.acct.slots[i] = none ∧ ∀ j < i, s.acct.slots[j] ≠ none := by
  obtain ⟨hi, as, bs, hsplit, hbefore⟩ := List.find?_eq_some_iff_append.mp h
  have hsorted : (as ++ i :: bs).Pairwise (· < ·) := hsplit ▸ (List.sortedLT_finRange 24).pairwise
  refine ⟨Option.isNone_iff_eq_none.mp hi, fun j hj hnone => ?_⟩
  have hmem : j ∈ as ++ i :: bs := hsplit ▸ List.mem_finRange j
  rcases List.mem_append.mp hmem with hm | hm
  · have hne := hbefore j hm
    rw [hnone] at hne
    exact absurd hne nofun
  · rcases List.mem_cons.mp hm with rfl | hm
    · exact lt_irrefl _ hj
    · exact lt_asymm hj (List.rel_of_pairwise_cons (List.pairwise_append.mp hsorted).2.1 hm)

theorem emptySlot_cases : (emptySlot s = none ∧ s.acct.slots.toList.any (fun o => o.isNone) = false)
    ∨ ∃ i, emptySlot s = some i ∧ s.acct.slots[i] = none ∧ (∀ j < i, s.acct.slots[j] ≠ none)
      ∧ s.acct.slots.toList.any (fun o => o.isNone) = true := by
  cases h : emptySlot s with
  | none =>
    refine .inl ⟨rfl, Bool.eq_false_iff.mpr fun hany => ?_⟩
    obtain ⟨i, hi⟩ := (any_toList_iff_exists _ _).mp hany
    exact List.find?_eq_none.mp h i (List.mem_finRange i) hi
  | some i =>
    obtain ⟨hi, hbefore⟩ := emptySlot_spec h
    exact .inr ⟨i, rfl, hi, hbefore, (any_toList_iff_exists _ _).mpr ⟨i, by rw [hi]; rfl⟩⟩
end

section
variable (s : State) (b : Block)

theorem trades_eq (a : Account) : a.trades = decide (a.state ≠ .closing) := by
  unfold Account.trades
  cases a.state <;> rfl

theorem checks_accountOpen : AppliesChecks (requestChecks s (.accountOpen b)) s (reqAccountOpen b s) := by
  refine .of_eq (l := (settledChecks (b.length == 10) s
      ++ [(decide (1 ≤ fieldW b 0) && decide (fieldW b 0 ≤ 65534) && rightsOk b s, .range),
          ((findSlot (fieldW b 0) s).isNone, .state)]) ++ [(s.acct.slots.toList.any (fun o => o.isNone), .noRoom)])
          (.checked fun _ => ?_) ?_
  · obtain ⟨hnone, hany⟩ | ⟨i, hsome, _, _, hany⟩ := emptySlot_cases s
    · rw [hnone]
      exact .refused hany
    · rw [hsome]
      exact .passed hany (.taken _)
  · have hfind : (findSlot (fieldW b 0) s).isNone = (recordHolding s (fieldW b 0)).isNone := by
      rw [← slotHolding_eq]
      obtain ⟨_, hs, hr⟩ | ⟨i, a, _, _, _, hs, hr⟩ := findShipper_cases s (fieldW b 0) <;> rw [hs, hr] <;> rfl
    simp [requestChecks, planChecks_eq, inRanges, hfind, rightsOk_eq]

theorem checks_accountAmend : AppliesChecks (requestChecks s (.accountAmend b)) s (reqAccountAmend b s) := by
  refine .checked (l := settledChecks (b.length == 10) s) fun _ => ?_
  obtain ⟨hf, _, hr⟩ | ⟨i, a, hf, _, _, _, hr⟩ := findShipper_cases s (fieldW b 0)
  · rw [hf]
    exact .refused (by rw [hr]; rfl)
  · rw [hf]
    refine .passed (by rw [hr]; rfl) (.of_eq (.of_taken _) ?_)
    simp [hr, rightsOk_eq, trades_eq]

theorem checks_accountSuspend : AppliesChecks (requestChecks s (.accountSuspend b)) s (reqAccountSuspend b s) := by
  refine .checked (l := settledChecks (b.length == 2) s) fun _ => ?_
  obtain ⟨hf, _, hr⟩ | ⟨i, a, hf, _, _, _, hr⟩ := findShipper_cases s (fieldW b 0)
  · rw [hf]
    exact .refused (by rw [hr]; rfl)
  · rw [hf]
    refine .passed (by rw [hr]; rfl) ?_
    have hmove (source target : AccountState) :
        AppliesChecks [(a.state == source, .state)] s (moveAccount i a source target s) := by
      unfold moveAccount
      split
      · rename_i h; exact .passed (by rw [h]; simp) (.taken _)
      · rename_i h; exact .refused (by simpa using h)
    match hw : fieldW b 1 with
    | 0 => exact .passed rfl (.of_eq (hmove .opened .suspended) (by simp [hr]))
    | 1 => exact .passed rfl (.of_eq (hmove .suspended .opened) (by simp [hr]))
    | n + 2 => exact .refused (by simp)

theorem checks_accountResume : AppliesChecks (requestChecks s (.accountResume b)) s (reqAccountSuspend b s) :=
  checks_accountSuspend s b

theorem checks_accountClose : AppliesChecks (requestChecks s (.accountClose b)) s (reqAccountClose b s) := by
  refine .of_eq (l := (settledChecks (b.length == 1) s ++ [(!clockIsUnset s, .clockUnset)])
      ++ [((recordHolding s (fieldW b 0)).isSome, .unknownShipper),
        ((recordHolding s (fieldW b 0)).any (fun a => a.state ≠ .closing), .state),
        ((recordHolding s (fieldW b 0)).any (fun a => a.inventory == 0), .state),
        (s.sched.all (fun x => decide (slotHolding s (fieldW b 0) ≠ some x.slot ∨ x.hour ≤ s.clock.hour)), .state)])
    (.checked fun _ => ?_) ?_
  · obtain ⟨hf, _, hr⟩ | ⟨i, a, hf, _, _, hs, hr⟩ := findShipper_cases s (fieldW b 0)
    · rw [hf]
      exact .refused (by rw [hr]; rfl)
    · rw [hf]
      refine .passed (by rw [hr]; rfl) (.of_eq (.of_taken _) ?_)
      have hlater : (laterRecords s i == 0)
          = s.sched.all (fun x => decide (slotHolding s (fieldW b 0) ≠ some x.slot ∨ x.hour ≤ s.clock.hour)) := by
        rw [Bool.eq_iff_iff, laterRecords, hs, beq_iff_eq, List.length_eq_zero_iff, List.filter_eq_nil_iff,
          List.all_eq_true]
        refine forall₂_congr fun x _ => ?_
        simp [imp_iff_not_or, eq_comm (a := i)]
      simp [hr, trades_eq, hlater]
  · simp [requestChecks, planChecks_eq]

theorem checks_accountAdjust : AppliesChecks (requestChecks s (.accountAdjust b)) s (reqAccountAdjust b s) := by
  refine .checked (l := settledChecks (b.length == 4) s) fun _ => ?_
  obtain ⟨hf, _, hr⟩ | ⟨i, a, hf, _, _, _, hr⟩ := findShipper_cases s (fieldW b 0)
  · rw [hf]
    exact .refused (by rw [hr]; rfl)
  · rw [hf]
    refine .passed (by rw [hr]; rfl) (.of_eq (.of_taken _) ?_)
    have habs (x : Int) (n : Nat) : decide (x.natAbs ≤ n) = (decide (-(n : Int) ≤ x) && decide (x ≤ n)) := by
      rw [← Bool.decide_and]
      exact decide_eq_decide.mpr (by omega)
    simp [hr, trades_eq, habs, inRanges]

theorem checks_accountRead : AppliesChecks (requestChecks s (.accountRead b)) s (reqAccountRead b s) := by
  refine .checked (l := [(b.length == 1, .badLength), (!settling s, .busy)]) fun _ => ?_
  obtain ⟨hf, hi⟩ | ⟨i, hf, hi⟩ := fieldFin_cases 24 b 0
  · rw [hf]
    exact .refused (by simp; omega)
  · rw [hf]
    refine .passed (by simp; omega) ?_
    dsimp only
    split <;> exact .taken _

theorem notClosing_eq (id : Nat) (h : (recordHolding s id).isSome = true) :
    notClosing id s = !(recordHolding s id).any (fun a => a.state == .closing) := by
  obtain ⟨_, _, hr⟩ | ⟨i, a, hf, _, _, _, hr⟩ := findShipper_cases s id
  · rw [hr] at h
    exact absurd h Bool.false_ne_true
  · rw [notClosing, hf, hr]
    rfl

theorem findShipper_isSome (id : Nat) : (findShipper id s).isSome = (recordHolding s id).isSome := by
  obtain ⟨hf, _, hr⟩ | ⟨i, a, hf, _, _, _, hr⟩ := findShipper_cases s id <;> rw [hf, hr] <;> rfl

/-- The checks of TRANSFER that R33 puts before those of the two records' states. -/
def transferLeads : List (Bool × Status) :=
  settledChecks (b.length == 5) s
    ++ [(decide (1 ≤ field3 b 2) && decide (field3 b 2 ≤ 999999999999) && decide (fieldW b 0 ≠ fieldW b 1), .range),
      ((findShipper (fieldW b 0) s).isSome && (findShipper (fieldW b 1) s).isSome, .unknownShipper)]

/-- TRANSFER taken. -/
def transferEffect : Answer :=
  taken (out2 s.acct.nextTransfer.toNat ++ out1 (s.acct.transfers.length + 1))
    (s.setAcct { s.acct with
      transfers := s.acct.transfers ++ [⟨s.acct.nextTransfer, fieldW b 0, fieldW b 1, field3 b 2⟩]
      nextTransfer := s.acct.nextTransfer + 1 })

theorem reqTransfer_eq : reqTransfer b s = checked (transferLeads s b) s
    (checked [(notClosing (fieldW b 0) s && notClosing (fieldW b 1) s, .state),
      (decide (s.acct.transfers.length < 16), .noRoom)] s (transferEffect s b)) := by
  rw [← checked_append]
  rfl

theorem checks_transfer : AppliesChecks (requestChecks s (.transfer b)) s (reqTransfer b s) := by
  rw [reqTransfer_eq]
  refine .of_eq (.checked (m := [(!((recordHolding s (fieldW b 0)).any (fun a => a.state == .closing)
      || (recordHolding s (fieldW b 1)).any (fun a => a.state == .closing)), .state),
      (decide (s.acct.transfers.length < 16), .noRoom)]) fun hl => ?_) ?_
  · have hboth : ((findShipper (fieldW b 0) s).isSome && (findShipper (fieldW b 1) s).isSome) = true :=
      hl ((findShipper (fieldW b 0) s).isSome && (findShipper (fieldW b 1) s).isSome, .unknownShipper)
        (by simp [transferLeads])
    rw [findShipper_isSome, findShipper_isSome, Bool.and_eq_true] at hboth
    obtain ⟨hsource, htarget⟩ := hboth
    refine .of_eq (.of_taken _) ?_
    rw [notClosing_eq s _ hsource, notClosing_eq s _ htarget, Bool.not_or]
  · simp [requestChecks, transferLeads, planChecks_eq, inRanges, findShipper_isSome, Bool.and_assoc]
end

end Sys2Proof.Machine
end

section
/-! SUPPORT. The checks of the plan, the units, the trains and the store; every request row keeps its checks; refused requests
(O5) and the requests that a mode holds off (O6). -/

namespace Sys2Proof.Machine

/-! ### The book -/

theorem directionOf_cases (n : Nat) :
    (directionOf n = none ∧ 1 < n) ∨ (directionOf n = some (if n = 0 then .inject else .withdraw) ∧ n ≤ 1) := by
  match n with
  | 0 => exact .inr ⟨rfl, Nat.zero_le 1⟩
  | 1 => exact .inr ⟨rfl, le_rfl⟩
  | n + 2 => exact .inl ⟨rfl, by omega⟩

theorem classOf_cases (n : Nat) :
    (classOf n = none ∧ 1 < n) ∨ (classOf n = some (if n = 0 then .firm else .interruptible) ∧ n ≤ 1) := by
  match n with
  | 0 => exact .inr ⟨rfl, Nat.zero_le 1⟩
  | 1 => exact .inr ⟨rfl, le_rfl⟩
  | n + 2 => exact .inl ⟨rfl, by omega⟩

theorem cutEntry_length (a z : Nat) (e : Entry) :
    (cutEntry a z e).length + (if overlap a z e = .whole then 1 else 0) = 1 + (if overlap a z e = .split then 1 else 0) := by
  unfold cutEntry
  cases overlap a z e <;> rfl

/-- What a removal leaves of a book, counted: less the entries removed whole, and one more for each split. -/
theorem removeHours_length (i : Fin 24) (d : Direction) (c : Class) (a z : Nat) (es : List Entry) :
    (removeHours i d c a z es).length + (metBy .whole i d c a z es).length
      = es.length + (metBy .split i d c a z es).length := by
  induction es with
  | nil => rfl
  | cons e es ih =>
    have hcut := cutEntry_length a z e
    simp only [removeHours, metBy] at ih ⊢
    simp only [List.flatMap_cons, List.length_append, List.filter_cons, List.length_cons]
    cases hk : e.hasKey i d c with
    | false => simp only [Bool.false_and, Bool.false_eq_true, if_false, List.length_singleton]; omega
    | true =>
      simp only [Bool.true_and, if_true, beq_iff_eq] at hcut ⊢
      split_ifs at hcut ⊢ <;> (try simp only [List.length_cons]) <;> omega

theorem sizeAfterNominate_eq (i : Fin 24) (d : Direction) (c : Class) (a z : Nat) (es : List Entry) :
    sizeAfterNominate i d c a z es = (removeHours i d c a z es).length + 1 := by
  have hlen := removeHours_length i d c a z es
  have hmet : (metBy .whole i d c a z es).length ≤ es.length := List.length_filter_le _ _
  rw [sizeAfterNominate]
  omega

/-- An entry is split where the removed run lies inside the hours it holds. -/
theorem overlap_split_iff {a z : Nat} (h : a ≤ z) (e : Entry) : overlap a z e = .split ↔ e.next < a ∧ z < e.last := by
  unfold overlap
  split_ifs <;> simp <;> omega

section
variable (s : State) (b : Block)

/-- The leading checks of NOMINATE and CANCEL, the clock's among them. -/
def planLeads (words : Nat) : List (Bool × Status) := settledChecks (b.length == words) s ++ [(!clockIsUnset s, .clockUnset)]

/-- The ranges that NOMINATE and CANCEL share (R45, R48). -/
def sharedRanges : Bool :=
  inRanges [(0, fieldW b 1, 1), (0, fieldW b 2, 1), (0, fieldW b 4, 23), (0, fieldW b 6, 23),
    (fieldHour b 3, fieldHour b 5, s.clock.hour + 36)]

theorem bookChecks_eq (words : Nat) (state : Account → Bool) (ranges onTime : Bool)
    (room : Fin 24 → Direction → Class → Bool) :
    planChecks words b s ++ bookChecks b s state ranges onTime room = planLeads s b words
      ++ [((recordHolding s (fieldW b 0)).isSome, .unknownShipper), ((recordHolding s (fieldW b 0)).any state, .state),
        (sharedRanges s b && ranges, .range), (onTime, .late),
        ((slotHolding s (fieldW b 0)).any (fun i => room i (if fieldW b 1 = 0 then .inject else .withdraw)
          (if fieldW b 2 = 0 then .firm else .interruptible)), .noRoom)] := by
  simp [planLeads, planChecks_eq, bookChecks, sharedRanges]

theorem sharedRanges_of_code (h : 1 < fieldW b 1 ∨ 1 < fieldW b 2) : sharedRanges s b = false := by
  rw [Bool.eq_false_iff]
  simp only [sharedRanges, inRanges, List.all_cons, List.all_nil, Bool.and_eq_true, decide_eq_true_eq, ne_eq]
  omega

theorem nominateRanges_eq (hd : fieldW b 1 ≤ 1) (hc : fieldW b 2 ≤ 1) :
    (sharedRanges s b && inRanges [(0, field2 b 7, 16000000), (1, fieldHour b 5 + 1 - fieldHour b 3, 24)])
      = nominateInRange b s := by
  rw [Bool.eq_iff_iff]
  simp only [sharedRanges, nominateInRange, inRanges, List.all_cons, List.all_nil, Bool.and_eq_true, decide_eq_true_eq,
    and_true]
  constructor <;> (intro h; omega)

theorem cancelRanges_eq (hd : fieldW b 1 ≤ 1) (hc : fieldW b 2 ≤ 1) : (sharedRanges s b && true) = cancelInRange b s := by
  rw [Bool.eq_iff_iff]
  simp only [sharedRanges, cancelInRange, inRanges, List.all_cons, List.all_nil, Bool.and_eq_true, decide_eq_true_eq,
    and_true]
  constructor <;> (intro h; omega)

/-- A book request with a code outside its table is refused there, the state's check coming first. -/
theorem checks_badCode {state ranges : Bool} {l : List (Bool × Status)} (hr : ranges = false) :
    AppliesChecks ((state, .state) :: (ranges, .range) :: l) s (checked [(state, .state)] s (refuse .range s)) :=
  .checked (l := [(state, .state)]) fun _ => .refused hr

theorem checks_nominate : AppliesChecks (requestChecks s (.nominate b)) s (reqNominate b s) := by
  refine .of_eq (.checked (l := planLeads s b 9) fun _ => ?_) (bookChecks_eq s b 9 ..)
  obtain ⟨hf, _, hr⟩ | ⟨i, a, hf, _, _, hs, hr⟩ := findShipper_cases s (fieldW b 0)
  · rw [hf]
    exact .refused (by rw [hr]; rfl)
  · rw [hf]
    refine .passed (by rw [hr]; rfl) ?_
    obtain ⟨hd, hd1⟩ | ⟨hd, hd1⟩ := directionOf_cases (fieldW b 1)
    · rw [hd, hr]
      exact checks_badCode s (by rw [sharedRanges_of_code s b (.inl hd1), Bool.false_and])
    obtain ⟨hc, hc1⟩ | ⟨hc, hc1⟩ := classOf_cases (fieldW b 2)
    · rw [hd, hc, hr]
      exact checks_badCode s (by rw [sharedRanges_of_code s b (.inr hc1), Bool.false_and])
    · rw [hd, hc, hr, hs, nominateRanges_eq s b hd1 hc1]
      refine .of_eq (.of_taken _) ?_
      simp [sizeAfterNominate_eq, firstUnconfirmed]

/-- The room for a split, as R48 words it (check 10). -/
def splitRoom (i : Fin 24) (d : Direction) (c : Class) : Bool :=
  decide (s.book.entries.length < 256) || s.book.entries.all (fun e =>
    !(e.hasKey i d c && decide (e.next < max (fieldHour b 3) (s.book.confirmedThrough + 1))
      && decide (fieldHour b 5 < e.last)))

theorem cancelHasRoom_eq (i : Fin 24) (d : Direction) (c : Class) (hrun : fieldHour b 3 ≤ fieldHour b 5)
    (hlate : firstUnconfirmed s ≤ fieldHour b 5) : cancelHasRoom i d c b s = splitRoom s b i d c := by
  have hle : cancelFrom b s ≤ fieldHour b 5 := max_le hrun hlate
  have hempty : (metBy .split i d c (cancelFrom b s) (fieldHour b 5) s.book.entries).isEmpty
      = s.book.entries.all (fun e => !(e.hasKey i d c && decide (e.next < cancelFrom b s) && decide (fieldHour b 5 < e.last))) := by
    rw [Bool.eq_iff_iff, List.isEmpty_iff, metBy, List.filter_eq_nil_iff, List.all_eq_true]
    refine forall₂_congr fun e _ => ?_
    simp only [Bool.not_eq_true', Bool.and_eq_true, beq_iff_eq, overlap_split_iff hle, Bool.not_eq_true, Bool.and_eq_false_iff,
      decide_eq_false_iff_not, not_and_or]
    tauto
  rw [cancelHasRoom, hempty, Bool.or_comm]
  rfl

theorem cancelInRange_run (h : cancelInRange b s = true) : fieldHour b 3 ≤ fieldHour b 5 := by
  simp only [cancelInRange, Bool.and_eq_true, decide_eq_true_eq] at h
  omega

theorem checks_cancel : AppliesChecks (requestChecks s (.cancel b)) s (reqCancel b s) := by
  refine .of_eq (.checked (l := planLeads s b 7) fun _ => ?_) (bookChecks_eq s b 7 ..)
  obtain ⟨hf, _, hr⟩ | ⟨i, a, hf, _, _, hs, hr⟩ := findShipper_cases s (fieldW b 0)
  · rw [hf]
    exact .refused (by rw [hr]; rfl)
  · rw [hf]
    refine .passed (by rw [hr]; rfl) ?_
    obtain ⟨hd, hd1⟩ | ⟨hd, hd1⟩ := directionOf_cases (fieldW b 1)
    · rw [hd, hr, Option.any_some, ← trades_eq]
      exact checks_badCode s (by rw [sharedRanges_of_code s b (.inl hd1), Bool.false_and])
    obtain ⟨hc, hc1⟩ | ⟨hc, hc1⟩ := classOf_cases (fieldW b 2)
    · rw [hd, hc, hr, Option.any_some, ← trades_eq]
      exact checks_badCode s (by rw [sharedRanges_of_code s b (.inr hc1), Bool.false_and])
    · rw [hd, hc, hr, hs, Option.any_some, Option.any_some, ← trades_eq, cancelRanges_eq s b hd1 hc1]
      dsimp only
      generalize (if fieldW b 1 = 0 then Direction.inject else .withdraw) = d
      generalize (if fieldW b 2 = 0 then Class.firm else .interruptible) = c
      refine .both fun _ => .both fun hrange => .both fun hlate => .of_eq (.of_taken _) ?_
      rw [cancelHasRoom_eq s b i d c (cancelInRange_run s b hrange) (of_decide_eq_true hlate)]
      rfl
end

/-! ### The settlement, the units, the trains -/

theorem toList_getElem? {α : Type} {n : Nat} (v : Vector α n) (i : Fin n) : v.toList[i.val]? = some v[i] := by simp

theorem namesWritten_eq (s : State) (b : Block) (i : Nat) : namesWritten s b i = writtenId s (fieldW b i) := by
  obtain ⟨hnone, hi⟩ | ⟨k, hsome, hi⟩ := fieldFin_cases 16 b i
  · rw [namesWritten, hnone, writtenId_of_le hi]
  · rw [namesWritten, hsome, hi, writtenId_fin]

section
variable (s : State) (b : Block)

theorem checks_allocationRead : AppliesChecks (requestChecks s (.allocationRead b)) s (reqAllocationRead b s) := by
  refine .checked (l := [(b.length == 1, .badLength), (!settling s, .busy)]) fun _ => ?_
  obtain ⟨hf, hi⟩ | ⟨i, hf, hi⟩ := fieldFin_cases 24 b 0
  · rw [hf]
    exact .refused (by simp; omega)
  · rw [hf]
    exact .passed (by simp; omega) (.taken _)

theorem checks_unitRead : AppliesChecks (requestChecks s (.unitRead b)) s (reqUnitRead b s) := by
  unfold reqUnitRead
  split
  · rename_i hlen
    refine .passed (by simp [hlen]) ?_
    obtain ⟨hf, hi⟩ | ⟨i, hf, hi⟩ := fieldFin_cases 6 b 0
    · rw [hf]
      exact .refused (by simp; omega)
    · rw [hf]
      exact .passed (by simp; omega) (.taken _)
  · rename_i hlen
    exact .refused (by simp [hlen])

theorem checks_trainRead : AppliesChecks (requestChecks s (.trainRead b)) s (reqTrainRead b s) := by
  unfold reqTrainRead
  split
  · rename_i hlen
    refine .passed (by simp [hlen]) ?_
    obtain ⟨hf, hi⟩ | ⟨i, hf, hi⟩ := fieldFin_cases 2 b 0
    · rw [hf]
      exact .refused (by simp; omega)
    · rw [hf]
      exact .passed (by simp; omega) (.taken _)
  · rename_i hlen
    exact .refused (by simp [hlen])

theorem checks_unitSet : AppliesChecks (requestChecks s (.unitSet b)) s (reqUnitSet b s) := by
  refine .checked (l := modeChecks (b.length == 6) s) fun _ => ?_
  obtain ⟨hf, hi⟩ | ⟨i, hf, hi⟩ := fieldFin_cases 6 b 0
  · rw [hf]
    exact .refused (by simp; omega)
  · rw [hf, hi, toList_getElem?]
    refine .passed (by simp; omega) (.of_eq (.of_taken _) ?_)
    simp [inRanges, namesWritten_eq, Bool.and_assoc]

theorem checks_enableUnit (i : Fin 6) :
    AppliesChecks [((s.duty.units[i]).state == .disabled && (s.duty.units[i]).configured, .state)] s (enableUnit i s) := by
  unfold enableUnit
  dsimp only
  split
  · rename_i h; exact .passed h (.taken _)
  · rename_i h; exact .refused (Bool.eq_false_of_not_eq_true h)

theorem checks_unitEnable : AppliesChecks (requestChecks s (.unitEnable b)) s (reqUnitEnable b s) := by
  refine .checked (l := modeChecks (b.length == 2) s) fun _ => ?_
  obtain ⟨hf, hi⟩ | ⟨i, hf, hi⟩ := fieldFin_cases 6 b 0
  · rw [hf]
    exact .refused (by simp [inRanges]; omega)
  · rw [hf, hi, toList_getElem?]
    have hi5 : i.val ≤ 5 := by omega
    match hw : fieldW b 1 with
    | 0 => exact .passed (by simp [inRanges, hi5]) (.passed rfl (.taken _))
    | 1 =>
      exact .passed (by simp [inRanges, hi5]) (checks_enableUnit s i)
    | n + 2 => exact .refused (by simp [inRanges]; omega)

theorem checks_unitDisable : AppliesChecks (requestChecks s (.unitDisable b)) s (reqUnitEnable b s) := checks_unitEnable s b

/-- A ROSTER SET block names every unit where each index stands in a word of it. -/
theorem rosterField_complete : (decide ((rosterField b).length = 6) && (List.finRange 6).all (fun i => (rosterField b).contains i))
    = (List.range 6).all (fun n => (List.range 6).any (fun k => fieldW b k == n)) := by
  have hmem (i : Fin 6) : (rosterField b).contains i = (List.range 6).any (fun k => fieldW b k == i.val) := by
    rw [Bool.eq_iff_iff, List.contains_iff_mem, rosterField, List.mem_filterMap, List.any_eq_true]
    refine exists_congr fun k => and_congr_right fun _ => ?_
    obtain ⟨hf, hi⟩ | ⟨j, hf, hi⟩ := fieldFin_cases 6 b k
    · rw [hf]
      simp; omega
    · rw [hf, hi]
      simp [Fin.ext_iff]
  have hle : (rosterField b).length ≤ 6 := by
    simpa [rosterField] using List.length_filterMap_le (fun i => fieldFin 6 b i) (List.range 6)
  have hall : (List.finRange 6).all (fun i => (rosterField b).contains i)
      = (List.range 6).all (fun n => (List.range 6).any (fun k => fieldW b k == n)) := by
    simp only [hmem]
    rw [Bool.eq_iff_iff, List.all_eq_true, List.all_eq_true]
    exact ⟨fun h n hn => h ⟨n, List.mem_range.mp hn⟩ (List.mem_finRange _), fun h i _ => h i.val (List.mem_range.mpr i.isLt)⟩
  rw [hall]
  cases hr : (List.range 6).all (fun n => (List.range 6).any (fun k => fieldW b k == n)) with
  | false => rw [Bool.and_false]
  | true =>
    rw [← hall, List.all_eq_true] at hr
    have hsub : List.finRange 6 ⊆ rosterField b := fun i hi => List.contains_iff_mem.mp (hr i hi)
    have hge := ((List.nodup_finRange 6).subperm hsub).length_le
    rw [List.length_finRange] at hge
    rw [decide_eq_true (le_antisymm hle hge), Bool.true_and]

theorem checks_rosterSet : AppliesChecks (requestChecks s (.rosterSet b)) s (reqRosterSet b s) := by
  refine .of_eq (.of_taken _) ?_
  rw [rosterField_complete]
  rfl

theorem trainRanges_eq : trainRanges b = trainCfgInRange (trainCfgOf b 1) := by
  rw [Bool.eq_iff_iff]
  simp only [trainRanges, inRanges, List.all_cons, List.all_nil, List.contains_eq_mem, List.mem_cons, List.not_mem_nil,
    or_false, Bool.and_eq_true, decide_eq_true_eq, and_true]
  simp only [trainCfgInRange, trainSettingsInRange, heatingInRange, coolingInRange, Bool.and_eq_true, Bool.or_eq_true,
    beq_iff_eq, decide_eq_true_eq]
  simp only [trainCfgOf, Nat.reduceAdd]
  constructor <;> (intro h; omega)

theorem checks_trainSet : AppliesChecks (requestChecks s (.trainSet b)) s (reqTrainSet b s) := by
  refine .checked (l := modeChecks (b.length == 17) s) fun _ => ?_
  obtain ⟨hf, hi⟩ | ⟨i, hf, hi⟩ := fieldFin_cases 2 b 0
  · rw [hf]
    exact .refused (by simp; omega)
  · rw [hf, hi, toList_getElem?, ← namesWritten_eq, trainRanges_eq]
    exact .passed (by simp; omega) (.of_taken _)

theorem checks_serviceOut (t : Fin 2) : AppliesChecks [] s (serviceOut t s) := by
  unfold serviceOut
  dsimp only
  split <;> exact .taken _

theorem checks_serviceIn (t : Fin 2) :
    AppliesChecks [((s.dry.trains[t]).state == .out && (s.dry.trains[t]).configured, .state)] s (serviceIn t s) := by
  unfold serviceIn
  dsimp only
  split
  · rename_i h; exact .passed h (.taken _)
  · rename_i h; exact .refused (Bool.eq_false_of_not_eq_true h)

theorem checks_trainServiceIn : AppliesChecks (requestChecks s (.trainServiceIn b)) s (reqTrainService b s) := by
  refine .checked (l := modeChecks (b.length == 2) s) fun _ => ?_
  obtain ⟨hf, hi⟩ | ⟨i, hf, hi⟩ := fieldFin_cases 2 b 0
  · rw [hf]
    exact .refused (by simp [inRanges]; omega)
  · rw [hf, hi, toList_getElem?]
    have hi1 : i.val ≤ 1 := by omega
    match hw : fieldW b 1 with
    | 0 =>
      exact .passed (by simp [inRanges, hi1]) (.passed rfl (checks_serviceOut s i))
    | 1 => exact .passed (by simp [inRanges, hi1]) (checks_serviceIn s i)
    | n + 2 => exact .refused (by simp [inRanges]; omega)

theorem checks_trainServiceOut : AppliesChecks (requestChecks s (.trainServiceOut b)) s (reqTrainService b s) :=
  checks_trainServiceIn s b

/-- Two checks with one status are one check. -/
theorem AppliesChecks.join {p q : Bool} {st : Status} {l m : List (Bool × Status)} {a : Answer}
    (h : AppliesChecks (l ++ (p && q, st) :: m) s a) : AppliesChecks (l ++ (p, st) :: (q, st) :: m) s a := by
  have hfirst : firstFailure (l ++ (p, st) :: (q, st) :: m) = firstFailure (l ++ (p && q, st) :: m) := by
    clear h
    induction l with
    | nil => cases p <;> cases q <;> rfl
    | cons x l ih => rw [List.cons_append, List.cons_append, firstFailure_cons, firstFailure_cons, ih]
  unfold AppliesChecks at h ⊢
  rw [hfirst]
  exact h

/-- The checks of STORE LOAD END up to that of the buffer's CRC (R180). -/
def loadEndLeads : List (Bool × Status) :=
  [(b.length == 0, .badLength), (!inFallback s, .fallback), (!settling s && !committing s, .busy),
    (clockIsUnset s, .state), (crcHolds (bufferWords s.store.buffer), .range)]

theorem checks_storeLoadEnd : AppliesChecks (requestChecks s (.storeLoadEnd b)) s (reqStoreLoadEnd b s) := by
  refine .join (l := [ofLength 0 b, notFallback s]) s (.checked (l := loadEndLeads s b) fun _ => ?_)
  cases hread : imageRead (bufferWords s.store.buffer) with
  | none => exact .refused rfl
  | some m => exact .of_taken _
end

/-! ### All requests -/

/-- Every request row keeps its checks. -/
theorem keepsItsChecks_all (c : Instr) (s : State) : keepsItsChecks c s := by
  cases c
  case stationReport b => exact (checks_stationReport s b).keepsItsChecks rfl rfl
  case linkStatus b => exact (checks_linkStatus s b).keepsItsChecks rfl rfl
  case eventDrain b => exact (checks_eventDrain s b).keepsItsChecks rfl rfl
  case supervisionSet b => exact (checks_supervisionSet s b).keepsItsChecks rfl rfl
  case resume b => exact (checks_resume s b).keepsItsChecks rfl rfl
  case restart b => exact (checks_restart s b).keepsItsChecks rfl rfl
  case clockSet b => exact (checks_clockSet s b).keepsItsChecks rfl rfl
  case clockTrim b => exact (checks_clockTrim s b).keepsItsChecks rfl rfl
  case clockRead b => exact (checks_clockRead s b).keepsItsChecks rfl rfl
  case curveWrite b => exact (checks_curveWrite s b).keepsItsChecks rfl rfl
  case curveRead b => exact (checks_curveRead s b).keepsItsChecks rfl rfl
  case curveClear b => exact (checks_curveClear s b).keepsItsChecks rfl rfl
  case accountOpen b => exact (checks_accountOpen s b).keepsItsChecks rfl rfl
  case accountAmend b => exact (checks_accountAmend s b).keepsItsChecks rfl rfl
  case accountSuspend b => exact (checks_accountSuspend s b).keepsItsChecks rfl rfl
  case accountResume b => exact (checks_accountResume s b).keepsItsChecks rfl rfl
  case accountClose b => exact (checks_accountClose s b).keepsItsChecks rfl rfl
  case accountRead b => exact (checks_accountRead s b).keepsItsChecks rfl rfl
  case accountAdjust b => exact (checks_accountAdjust s b).keepsItsChecks rfl rfl
  case transfer b => exact (checks_transfer s b).keepsItsChecks rfl rfl
  case sbaRead b => exact (checks_sbaRead s b).keepsItsChecks rfl rfl
  case settlementRead b => exact (checks_settlementRead s b).keepsItsChecks rfl rfl
  case allocationRead b => exact (checks_allocationRead s b).keepsItsChecks rfl rfl
  case nominate b => exact (checks_nominate s b).keepsItsChecks rfl rfl
  case cancel b => exact (checks_cancel s b).keepsItsChecks rfl rfl
  case bookRead b => exact (checks_bookRead s b).keepsItsChecks rfl rfl
  case scheduleRead b => exact (checks_scheduleRead s b).keepsItsChecks rfl rfl
  case bookStatistics b => exact (checks_bookStatistics s b).keepsItsChecks rfl rfl
  case siteSet b => exact (checks_siteSet s b).keepsItsChecks rfl rfl
  case flowRead b => exact (checks_flowRead s b).keepsItsChecks rfl rfl
  case unitSet b => exact (checks_unitSet s b).keepsItsChecks rfl rfl
  case unitDisable b => exact (checks_unitDisable s b).keepsItsChecks rfl rfl
  case unitEnable b => exact (checks_unitEnable s b).keepsItsChecks rfl rfl
  case unitRead b => exact (checks_unitRead s b).keepsItsChecks rfl rfl
  case rosterSet b => exact (checks_rosterSet s b).keepsItsChecks rfl rfl
  case trainSet b => exact (checks_trainSet s b).keepsItsChecks rfl rfl
  case trainServiceOut b => exact (checks_trainServiceOut s b).keepsItsChecks rfl rfl
  case trainServiceIn b => exact (checks_trainServiceIn s b).keepsItsChecks rfl rfl
  case trainRead b => exact (checks_trainRead s b).keepsItsChecks rfl rfl
  case storeRead b => exact (checks_storeRead s b).keepsItsChecks rfl rfl
  case storeLoad b => exact (checks_storeLoad s b).keepsItsChecks rfl rfl
  case storeLoadEnd b => exact (checks_storeLoadEnd s b).keepsItsChecks rfl rfl
  case storeInitialize b => exact (checks_storeInitialize s b).keepsItsChecks rfl rfl
  all_goals exact fun _ _ hc _ => absurd hc nofun

/-- The first check of every request is the length of its block (R163). -/
theorem requestChecks_head {c : Instr} {code : Byte} {b : Block} (s : State) (hc : c.request = some (code, b)) :
    ∃ (lengthOk : Bool) (rest : List (Bool × Status)), requestChecks s c = (lengthOk, .badLength) :: rest
      ∧ (b.length ≠ catalogueWords code b → lengthOk = false)
      ∧ (b.length ≤ 64 → b.length = catalogueWords code b → lengthOk = true) := by
  cases c
  case curveWrite b' =>
    cases hc
    exact ⟨_, _, rfl, fun h => decide_eq_false fun ⟨h', _⟩ => h h', fun hle h => decide_eq_true ⟨h, hle⟩⟩
  all_goals first
    | (cases hc; exact ⟨_, _, rfl, fun h => decide_eq_false h, fun _ h => decide_eq_true h⟩)
    | cases hc

/-- Settles O5: a row is refused by the first of its checks that fails, and the first is the length. -/
theorem refusedRequestLeavesThePart : Obligations.RefusedRequestLeavesThePart := by
  intro c code b s hc
  obtain ⟨req, hreq, hrow⟩ := request_serves hc
  have hbusy (hs : restoring s = true) : exec c s = .next (refusedWith code .busy s) := by rw [hrow s, serve_busy hs]
  refine ⟨fun t r ht hr hne => ?_, hbusy, fun hs hlen => ?_⟩
  · cases hs : restoring s with
    | true =>
      rw [hbusy hs] at ht
      cases ht
      obtain rfl := Option.some.inj hr
      rfl
    | false =>
      have hkeeps := keepsItsChecks_all c s code b hc hs
      split at hkeeps
      · rw [hkeeps] at ht
        cases ht
        obtain rfl := Option.some.inj hr
        rfl
      · obtain ⟨out, u, hu⟩ := hkeeps
        rw [hu] at ht
        cases ht
        obtain rfl := Option.some.inj hr
        exact absurd rfl hne
  · obtain ⟨lengthOk, rest, hchecks, hbad, _⟩ := requestChecks_head s hc
    have hkeeps := keepsItsChecks_all c s code b hc hs
    rw [hchecks, hbad hlen] at hkeeps
    exact hkeeps

/-! ### The requests that a mode holds off (O6) -/

/-- A request row whose first failing check is known is refused with its status. -/
theorem refused_by {c : Instr} {code : Byte} {b : Block} {s : State} {l rest : List (Bool × Status)} {st : Status}
    (hc : c.request = some (code, b)) (hs : restoring s = false) (hchecks : requestChecks s c = l ++ (false, st) :: rest)
    (hl : ∀ p ∈ l, p.1 = true) : exec c s = .next (refusedWith code st s) := by
  have hkeeps := keepsItsChecks_all c s code b hc hs
  have hfind : (l ++ (false, st) :: rest).find? (fun x => !x.1) = some (false, st) := by
    rw [List.find?_append, List.find?_eq_none.mpr (fun p hp => by simp [hl p hp])]
    rfl
  rw [hchecks, hfind] at hkeeps
  exact hkeeps

section
variable {c : Instr} {code : Byte} {b : Block} (s : State) (hc : c.request = some (code, b))
include hc

/-- Where UNRESTORED holds a request off, that is its second check. -/
theorem checks_unrestored (h : code ∈ unrestoredRefuses) :
    ∃ x rest, requestChecks s c = [x] ++ notUnrestored s :: rest := by
  cases c <;> cases hc
  all_goals first
    | exact ⟨_, _, rfl⟩
    | exact absurd h (by decide)

/-- Where FALLBACK holds a request off, that is the check after UNRESTORED's, or after the length. -/
theorem checks_fallback (h : code ∈ fallbackRefuses) :
    (∃ x rest, requestChecks s c = [x, notUnrestored s] ++ notFallback s :: rest
      ∧ code ∉ ([0x51, 0x52, 0x53] : List Byte)) ∨ ∃ x rest, requestChecks s c = [x] ++ notFallback s :: rest := by
  cases c <;> cases hc
  all_goals first
    | exact .inr ⟨_, _, rfl⟩
    | exact .inl ⟨_, _, rfl, by decide⟩
    | exact absurd h (by decide)

/-- Where a settlement in flight holds a request off. -/
theorem checks_settling (h : code ∈ settlingRefuses) :
    (∃ x l rest, requestChecks s c = x :: l ++ notSettling s :: rest ∧ code ∉ ([0x24, 0x27, 0x28, 0x29, 0x32, 0x33] : List Byte)
      ∧ l ⊆ [notUnrestored s, notFallback s]) ∨ ∃ x rest, requestChecks s c = [x] ++ notSettling s :: rest := by
  cases c <;> cases hc
  all_goals first
    | exact .inr ⟨_, _, rfl⟩
    | exact .inl ⟨_, [notUnrestored s, notFallback s], _, rfl, by decide, List.Subset.refl _⟩
    | exact .inl ⟨_, [notFallback s], _, rfl, by decide, List.subset_cons_self _ _⟩
    | exact absurd h (by decide)

/-- Where a commit in flight holds a request off; STORE LOAD END asks for a settlement first, with the same status. -/
theorem checks_committing (h : code ∈ committingRefuses) :
    (∃ x rest, requestChecks s c = [x] ++ notCommitting s :: rest)
    ∨ (code ∉ ([0x50, 0x06] : List Byte) ∧ ((∃ x rest, requestChecks s c = [x, notFallback s] ++ notCommitting s :: rest)
      ∨ ∃ x rest, requestChecks s c = [x, notFallback s] ++ notSettling s :: notCommitting s :: rest)) := by
  cases c <;> cases hc
  all_goals first
    | exact .inl ⟨_, _, rfl⟩
    | exact .inr ⟨by decide, .inl ⟨_, _, rfl⟩⟩
    | exact .inr ⟨by decide, .inr ⟨_, _, rfl⟩⟩
    | exact absurd h (by decide)
end

/-- Settles O6: each mode's check stands in the table of every request it holds off, after checks that hold. -/
theorem modesHoldOffTheirRequests : Obligations.ModesHoldOffTheirRequests := by
  intro c code b s hc hs hle hlen
  obtain ⟨lengthOk, tail, hhead, _, hok⟩ := requestChecks_head s hc
  have hlead {x : Bool × Status} {l : List (Bool × Status)} (h : requestChecks s c = x :: l) : x.1 = true := by
    rw [hhead] at h
    obtain ⟨rfl, _⟩ := List.cons.inj h
    exact hok hle hlen
  refine ⟨fun hm hcode => ?_, fun hm hcode hor => ?_, fun hm hcode hor => ?_, fun hm hcode hor => ?_⟩
  · obtain ⟨x, rest, h⟩ := checks_unrestored s hc hcode
    refine refused_by (l := [x]) (rest := rest) hc hs (by rw [h, notUnrestored, hm]; rfl) ?_
    simpa using hlead h
  · obtain ⟨x, rest, h, hnot⟩ | ⟨x, rest, h⟩ := checks_fallback s hc hcode
    · have hun : isUnrestored s = false := hor.resolve_right hnot
      refine refused_by (l := [x, notUnrestored s]) (rest := rest) hc hs (by rw [h, notFallback, hm]; rfl) ?_
      simpa [notUnrestored, hun] using hlead h
    · refine refused_by (l := [x]) (rest := rest) hc hs (by rw [h, notFallback, hm]; rfl) ?_
      simpa using hlead h
  · obtain ⟨x, l, rest, h, hnot, hl⟩ | ⟨x, rest, h⟩ := checks_settling s hc hcode
    · obtain ⟨hun, hfall⟩ := hor.resolve_right hnot
      refine refused_by (l := x :: l) (rest := rest) hc hs (by rw [h, notSettling, hm]; rfl) ?_
      refine List.forall_mem_cons.mpr ⟨hlead h, fun p hp => ?_⟩
      rcases List.mem_pair.mp (hl hp) with rfl | rfl
      · rw [notUnrestored, hun]; rfl
      · rw [notFallback, hfall]; rfl
    · refine refused_by (l := [x]) (rest := rest) hc hs (by rw [h, notSettling, hm]; rfl) ?_
      simpa using hlead h
  · obtain ⟨x, rest, h⟩ | ⟨hnot, ⟨x, rest, h⟩ | ⟨x, rest, h⟩⟩ := checks_committing s hc hcode
    · refine refused_by (l := [x]) (rest := rest) hc hs (by rw [h, notCommitting, hm]; rfl) ?_
      simpa using hlead h
    · have hfall : inFallback s = false := hor.resolve_right hnot
      refine refused_by (l := [x, notFallback s]) (rest := rest) hc hs (by rw [h, notCommitting, hm]; rfl) ?_
      simpa [notFallback, hfall] using hlead h
    · have hfall : inFallback s = false := hor.resolve_right hnot
      have hx : ∀ p ∈ [x, notFallback s], p.1 = true := by simpa [notFallback, hfall] using hlead h
      cases hset : settling s with
      | true => exact refused_by hc hs (by rw [h, notSettling, hset]; rfl) hx
      | false =>
        refine refused_by (l := [x, notFallback s, notSettling s]) (rest := rest) hc hs (by rw [h, notCommitting, hm]; rfl) ?_
        simpa [notFallback, hfall, notSettling, hset] using hlead h

end Sys2Proof.Machine
end

section
/-! SUPPORT. Fields of one to four words read back (O19), and the requests that write curves (O30) and open accounts (O32). -/

namespace Sys2Proof.Machine

/-! ### Fields of a block (section 8.2) -/

section
variable (n : Nat) (b : Block)

theorem fieldW_cons_zero (w : Word) (b : Block) : fieldW (w :: b) 0 = w.toNat := rfl

theorem fieldW_cons_succ (w : Word) (b : Block) (i : Nat) : fieldW (w :: b) (i + 1) = fieldW b i := rfl

theorem fieldW_out1 (h : n < 65536) : fieldW (out1 n ++ b) 0 = n := by
  simp only [out1, List.cons_append, fieldW_cons_zero, BitVec.toNat_ofNat]
  omega

theorem field2_out2 (h : n < 65536 ^ 2) : field2 (out2 n ++ b) 0 = n ∧ fieldW (out2 n ++ b) 0 = n / 65536 := by
  simp only [field2, out2, List.cons_append, fieldW_cons_zero, fieldW_cons_succ, BitVec.toNat_ofNat]
  omega

theorem field3_out3 (h : n < 65536 ^ 3) : field3 (out3 n ++ b) 0 = n ∧ fieldW (out3 n ++ b) 0 = n / 65536 ^ 2 := by
  simp only [field3, field2, out3, out2, List.cons_append, fieldW_cons_zero, fieldW_cons_succ, BitVec.toNat_ofNat]
  omega

theorem field4_out4 (h : n < 65536 ^ 4) : field4 (out4 n ++ b) 0 = n ∧ fieldW (out4 n ++ b) 0 = n / 65536 ^ 3 := by
  simp only [field4, field3, field2, out4, out3, out2, List.cons_append, fieldW_cons_zero, fieldW_cons_succ,
    BitVec.toNat_ofNat]
  omega
end

/-- A figure in two's complement reads back. -/
theorem signed_twos {bits : Nat} (hbits : 0 < bits) {x : Int} (hlow : -(2 ^ (bits - 1)) ≤ x) (hhigh : x < 2 ^ (bits - 1)) :
    signed bits (twos bits x) = x := by
  have hpow : (2 : Int) ^ bits = 2 * 2 ^ (bits - 1) := by
    rw [← pow_succ', Nat.sub_add_cancel hbits]
  have hpos : (0 : Int) < 2 ^ (bits - 1) := by positivity
  have hcast : ((2 ^ (bits - 1) : Nat) : Int) = 2 ^ (bits - 1) := by push_cast; rfl
  have htwos : ((twos bits x : Nat) : Int) = x % 2 ^ bits := Int.toNat_of_nonneg (Int.emod_nonneg _ (by positivity))
  have hlt : (twos bits x < 2 ^ (bits - 1)) ↔ x % 2 ^ bits < 2 ^ (bits - 1) := by
    rw [← Int.ofNat_lt, htwos, hcast]
  rw [signed, htwos]
  rcases le_or_gt 0 x with h0 | h0
  · rw [Int.emod_eq_of_lt h0 (by omega)] at hlt ⊢
    rw [if_pos (hlt.mpr hhigh)]
  · have hmod : x % 2 ^ bits = x + 2 ^ bits := by
      rw [← Int.add_emod_right, Int.emod_eq_of_lt (by omega) (by omega)]
    rw [hmod] at hlt ⊢
    rw [if_neg (fun h => by have := hlt.mp h; omega)]
    omega

theorem twos_lt (bits : Nat) (x : Int) : twos bits x < 2 ^ bits := by
  have h := Int.emod_lt_of_pos x (show (0 : Int) < 2 ^ bits by positivity)
  have h0 := Int.emod_nonneg x (show (2 : Int) ^ bits ≠ 0 by positivity)
  have hcast : ((2 ^ bits : Nat) : Int) = 2 ^ bits := by push_cast; rfl
  rw [twos]
  omega

section
variable (x : Int) (b : Block)

theorem fieldI_outI (hlow : -(2 ^ 15) ≤ x) (hhigh : x < 2 ^ 15) : fieldI (outI x ++ b) 0 = x := by
  rw [fieldI, outI, fieldW_out1 _ b (twos_lt 16 x), signed_twos (by decide) hlow hhigh]

theorem fieldI2_outI2 (hlow : -(2 ^ 31) ≤ x) (hhigh : x < 2 ^ 31) : fieldI2 (outI2 x ++ b) 0 = x := by
  rw [fieldI2, outI2, (field2_out2 _ b (twos_lt 32 x)).1, signed_twos (by decide) hlow hhigh]

theorem fieldI3_outI3 (hlow : -(2 ^ 47) ≤ x) (hhigh : x < 2 ^ 47) : fieldI3 (outI3 x ++ b) 0 = x := by
  rw [fieldI3, outI3, (field3_out3 _ b (twos_lt 48 x)).1, signed_twos (by decide) hlow hhigh]

theorem fieldI4_outI4 (hlow : -(2 ^ 63) ≤ x) (hhigh : x < 2 ^ 63) : fieldI4 (outI4 x ++ b) 0 = x := by
  rw [fieldI4, outI4, (field4_out4 _ b (twos_lt 64 x)).1, signed_twos (by decide) hlow hhigh]
end

/-- Settles O19: the words of a field are the digits of its figure to the base 65,536. -/
theorem blockFieldsReadBack : Obligations.BlockFieldsReadBack := fun n x b =>
  ⟨fieldW_out1 n b, field2_out2 n b, field3_out3 n b, field4_out4 n b, fieldI_outI x b, fieldI2_outI2 x b,
    fieldI3_outI3 x b, fieldI4_outI4 x b⟩

/-! ### Requests taken -/

/-- Outside the restore a request row is its request, answered. -/
theorem exec_taken {c : Instr} {code : Byte} {r : State → Answer} {s t : State} {out : Block}
    (he : exec c s = .next (serve code r s)) (hs : restoring s = false) (hr : r s = taken out t) :
    exec c s = .next (answeredWith code .ok out s t) := by
  rw [he, serve_taken hs hr]

theorem modeChecks_hold {lengthOk : Bool} {s : State} (hs : s.plain) (hl : lengthOk = true) :
    ∀ p ∈ modeChecks lengthOk s, p.1 = true := by
  obtain ⟨_, hun, hfall⟩ := hs
  simp [modeChecks, hun, hfall, hl]

theorem settledChecks_hold {lengthOk : Bool} {s : State} (hs : s.settled) (hl : lengthOk = true) :
    ∀ p ∈ settledChecks lengthOk s, p.1 = true := by
  obtain ⟨hplain, hset⟩ := hs
  have h := modeChecks_hold hplain hl
  simpa [settledChecks, hset, or_imp, forall_and] using h

/-- A first run of checks that hold is passed. -/
theorem checked_passed {l : List (Bool × Status)} (hl : ∀ p ∈ l, p.1 = true) (s : State) (a : Answer) :
    checked l s a = a := checked_ok s a hl

/-- CURVE WRITE with a block in order. -/
theorem reqCurveWrite_taken {s : State} {b : Block} {i : Fin 16} (hs : s.plain) (hi : fieldW b 0 = i.val)
    (hlow : 2 ≤ fieldW b 1) (hhigh : fieldW b 1 ≤ 8) (hlen : b.length = 2 + 2 * fieldW b 1)
    (hrise : pairs (fun p q => decide (p.x < q.x)) (pointsOf b) = true) :
    reqCurveWrite b s = taken (out1 i.val ++ out1 (fieldW b 1)) (putCurve i (pointsOf b) s) := by
  have hle : b.length ≤ 64 := by omega
  have hmodes : firstFailure (modeChecks (b.length == 2 + 2 * fieldW b 1 && decide (b.length ≤ 64)) s) = none :=
    firstFailure_none.mpr (modeChecks_hold hs (by simp [hlen]; omega))
  simp only [reqCurveWrite, hmodes, fieldFin_eq_some hi, checked_cons, checked_nil, hrise, hlow, hhigh, decide_true,
    Bool.and_self, Bool.true_eq_false, if_false]

/-- Settles O30: the points of the block are read two words each, and rise where the block's do. -/
theorem curveWriteReplacesTheCurve : Obligations.CurveWriteReplacesTheCurve := by
  refine ⟨fun s b => keepsItsChecks_all _ s, fun s b i hs hi hlow hhigh hlen hrise => ⟨pointsOf b, ?_, pointsOf_length b, ?_⟩⟩
  · have hrises : pairs (fun p q => decide (p.x < q.x)) (pointsOf b) = true := by
      rw [pointsOf_rise, List.all_eq_true]
      intro k hk
      have hlt : k < fieldW b 1 - 1 := List.mem_range.mp hk
      have hnext : fieldI b (2 + 2 * k) < fieldI b (2 + 2 * (k + 1)) := hrise k (k + 1) (Nat.lt_succ_self k) (by omega)
      rw [show 2 + 2 * (k + 1) = 4 + 2 * k by omega] at hnext
      exact decide_eq_true hnext
    exact exec_taken rfl hs.1 (reqCurveWrite_taken hs hi hlow hhigh hlen hrises)
  · intro k hk
    rw [← pointsOf_length] at hk
    rw [List.getElem?_eq_getElem hk, pointsOf_getElem]

/-! ### Accounts (R24 to R30) -/

/-- What a ratchet field names is what the record takes of it. -/
theorem ratchetNames_spec {s : State} {b : Block} {k : Nat} {o : Option (Fin 16)} (h : ratchetNames s (fieldW b k) o) :
    ratchetFieldOk s (fieldCurve b k) = true ∧ (fieldCurve b k).id = o := by
  rcases h with ⟨habs, rfl⟩ | ⟨i, hi, hwritten, rfl⟩
  · simp [fieldCurve, habs, ratchetFieldOk, CurveField.id]
  · have hlt : fieldW b k < 16 := hi ▸ i.isLt
    have hcurve : fieldCurve b k = .curve i := by
      simp only [fieldCurve, hlt, dite_true]
      congr
    rw [hcurve]
    refine ⟨?_, rfl⟩
    simpa [ratchetFieldOk, curveWritten] using hwritten

theorem emptySlot_eq {s : State} {i : Fin 24} (hi : s.acct.slots[i] = none) (hbefore : ∀ j : Fin 24, j < i → s.acct.slots[j] ≠ none) :
    emptySlot s = some i := by
  obtain ⟨_, hany⟩ | ⟨j, hj, hempty, hfirst, _⟩ := emptySlot_cases s
  · rw [(any_toList_iff_exists s.acct.slots Option.isNone).mpr ⟨i, by rw [hi]; rfl⟩] at hany
    exact absurd hany nofun
  · rcases lt_trichotomy j i with hlt | rfl | hgt
    · exact absurd hempty (hbefore j hlt)
    · exact hj
    · exact absurd hi (hfirst i hgt)

/-- A shipper id that no record has is found nowhere. -/
theorem findSlot_eq_none {s : State} {id : Nat} (h : ∀ (j : Fin 24) (a : Account), s.acct.slots[j] = some a → a.shipper ≠ id) :
    findSlot id s = none := by
  refine List.find?_eq_none.mpr fun j _ hj => ?_
  obtain ⟨a, ha, hid⟩ := slotHolds_iff.mp hj
  exact h j a ha hid

theorem rightsOk_of {s : State} {b : Block} {ic wc : Option (Fin 16)} (hspace : 1 ≤ field3 b 1)
    (hmost : field3 b 1 ≤ 999999999999) (hinj : field2 b 4 ≤ 16000000) (hwdr : field2 b 6 ≤ 16000000)
    (hic : ratchetNames s (fieldW b 8) ic) (hwc : ratchetNames s (fieldW b 9) wc) : rightsOk b s = true := by
  simp [rightsOk, hspace, hmost, hinj, hwdr, (ratchetNames_spec hic).1, (ratchetNames_spec hwc).1]

/-- Settles O32: with its checks met the request takes the slot that `emptySlot` finds. -/
theorem accountOpenFillsTheLowestEmptySlot : Obligations.AccountOpenFillsTheLowestEmptySlot := by
  refine ⟨fun s b => keepsItsChecks_all _ s, fun s b i ic wc hs hlen hid hid' hspace hmost hinj hwdr hic hwc hfree hi hbefore => ?_⟩
  have hchecks : firstFailure (settledChecks (b.length == 10) s
      ++ [(decide (1 ≤ fieldW b 0) && decide (fieldW b 0 ≤ 65534) && rightsOk b s, .range),
          ((findSlot (fieldW b 0) s).isNone, .state)]) = none := by
    rw [firstFailure_none, List.forall_mem_append]
    refine ⟨settledChecks_hold hs (by simp [hlen]), ?_⟩
    simp [hid, hid', rightsOk_of hspace hmost hinj hwdr hic hwc, findSlot_eq_none hfree]
  refine exec_taken (r := reqAccountOpen b) rfl hs.1.1 ?_
  simp only [reqAccountOpen, hchecks, emptySlot_eq hi hbefore, putSlot, openedRecord, (ratchetNames_spec hic).2,
    (ratchetNames_spec hwc).2]

theorem trades_of_ne {a : Account} (h : a.state ≠ .closing) : a.trades = true := by
  rw [trades_eq, decide_eq_true h]

end Sys2Proof.Machine
end

section
/-! SUPPORT. The account requests: amending, suspending, resuming and closing (O33), adjusting and reading (O34), and transfers
(O35). -/

namespace Sys2Proof.Machine

/-! ### What the account requests come to -/

/-- Outside the restore a request row answers what its request comes to. -/
theorem exec_answer {c : Instr} {code : Byte} {r : State → Answer} {s : State} {a : Answer}
    (he : exec c s = .next (serve code r s)) (hs : restoring s = false) (hr : r s = a) :
    exec c s = .next (answeredWith code a.status a.out s a.after) := by
  rw [he, serve_answer hs hr]

/-- The leading checks of an account request hold. -/
theorem settledChecks_none {words : Nat} {b : Block} {s : State} (hs : s.settled) (hlen : b.length = words) :
    firstFailure (settledChecks (b.length == words) s) = none :=
  firstFailure_none.mpr (settledChecks_hold hs (by simp [hlen]))

section
variable {s : State} {b : Block} {i : Fin 24} {a : Account} (hs : s.settled) (hf : findShipper (fieldW b 0) s = some (i, a))
include hs hf

theorem reqAccountAmend_taken {ic wc : Option (Fin 16)} (hlen : b.length = 10) (hstate : a.state ≠ .closing)
    (hrights : rightsOk b s = true) (hic : (fieldCurve b 8).id = ic) (hwc : (fieldCurve b 9).id = wc)
    (hinv : a.inventory ≤ field3 b 1) :
    reqAccountAmend b s = taken (out1 i.val) (s.setAcct { s.acct with slots := setVec s.acct.slots i (some { a with
      spaceRight := field3 b 1, injRight := field2 b 4, wdrRight := field2 b 6, injCurve := ic, wdrCurve := wc }) }) := by
  simp only [reqAccountAmend, settledChecks_none hs hlen, hf]
  rw [checked_ok _ _ (by simp [trades_of_ne hstate, hrights, hinv]), Account.amended, hic, hwc]
  rfl

theorem reqAccountSuspend_moves {source target : AccountState} (hlen : b.length = 2)
    (haction : (fieldW b 1 = 0 ∧ source = .opened ∧ target = .suspended) ∨ (fieldW b 1 = 1 ∧ source = .suspended ∧ target = .opened)) :
    reqAccountSuspend b s = moveAccount i a source target s := by
  simp only [reqAccountSuspend, settledChecks_none hs hlen, hf]
  rcases haction with ⟨hw, rfl, rfl⟩ | ⟨hw, rfl, rfl⟩
  · rw [hw]; rfl
  · rw [hw]; rfl

theorem exec_suspend {c : Instr} {source target : AccountState} {word : Word} (hlen : b.length = 2)
    (he : exec c s = .next (serve 0x22 (reqAccountSuspend b) s)) (hword : accountStateCode target = word)
    (haction : (fieldW b 1 = 0 ∧ source = .opened ∧ target = .suspended) ∨ (fieldW b 1 = 1 ∧ source = .suspended ∧ target = .opened)) :
    exec c s = .next (if a.state = source then answeredWith 0x22 .ok [word] s (s.setAcct { s.acct with
        slots := setVec s.acct.slots i (some { a with state := target }) })
      else refusedWith 0x22 .state s) := by
  have hanswer := exec_answer he hs.1.1 (reqAccountSuspend_moves hs hf hlen haction)
  rw [hanswer, moveAccount, ← hword]
  split <;> rfl

theorem reqAccountClose_taken (hlen : b.length = 1) (hclock : clockIsUnset s = false) (hstate : a.state ≠ .closing)
    (hinv : a.inventory = 0) (hsched : ∀ r ∈ s.sched, r.slot = i → r.hour ≤ s.clock.hour) :
    reqAccountClose b s = taken (out1 i.val) (setEntries (s.book.entries.filter (fun e => !decide (e.slot = i)))
      (putSlot i (some { a with state := .closing }) s)) := by
  have hclocks : firstFailure (settledChecks (b.length == 1) s ++ [(!clockIsUnset s, .clockUnset)]) = none := by
    rw [firstFailure_none, List.forall_mem_append]
    exact ⟨settledChecks_hold hs (by simp [hlen]), by simp [hclock]⟩
  have hlater : laterRecords s i = 0 := by
    rw [laterRecords, List.length_eq_zero_iff, List.filter_eq_nil_iff]
    intro r hr
    simpa using hsched r hr
  simp only [reqAccountClose, hclocks, hf]
  exact checked_ok _ _ (by simp [trades_of_ne hstate, hinv, hlater])
end

/-- Settles O33: each request, taken, writes the record it found; a close also takes the slot's entries. -/
theorem accountRequestsChangeOneRecord : Obligations.AccountRequestsChangeOneRecord := by
  refine ⟨fun s b c _ => keepsItsChecks_all c s, fun s b i a hs hf => ⟨?_, ?_, ?_, ?_⟩⟩
  · intro ic wc hlen hstate hspace hmost hinj hwdr hic hwc hinv
    exact exec_taken rfl hs.1.1 (reqAccountAmend_taken hs hf hlen hstate (rightsOk_of hspace hmost hinj hwdr hic hwc)
      (ratchetNames_spec hic).2 (ratchetNames_spec hwc).2 hinv)
  · exact fun hlen hw => exec_suspend hs hf hlen rfl rfl (.inl ⟨hw, rfl, rfl⟩)
  · exact fun hlen hw => exec_suspend hs hf hlen rfl rfl (.inr ⟨hw, rfl, rfl⟩)
  · intro hlen hclock hstate hinv hsched
    refine ⟨_, exec_taken rfl hs.1.1 (reqAccountClose_taken hs hf hlen hclock hstate hinv hsched), rfl, ?_, rfl, rfl, rfl, ?_⟩
    · exact List.filter_congr fun e _ => by simp
    · exact ((acts_setAcct (ps := [.acct, .book]) s _ (by decide)).does.trans
        ((does_setEntries _ _).mono (by decide))).parts

/-! ### The SBA and its alert (R37, R38) -/

section
variable (s : State) (d : Int)

/-- A change of the SBA: the alert follows, with the event where it becomes RAISED. -/
theorem addToSba_eq : addToSba d s =
    if s.site.alertLimit < (s.acct.sba + d).natAbs ∧ s.acct.alert = .armed then
      raise .sbaLimit none (some (s.acct.sba + d)) (s.setAcct { s.acct with sba := s.acct.sba + d, alert := .raised })
    else s.setAcct { s.acct with
      sba := s.acct.sba + d, alert := if s.site.alertLimit < (s.acct.sba + d).natAbs then .raised else .armed } := by
  unfold addToSba evaluateAlert
  simp only [State.setAcct_acct, State.setAcct_site, Int.ofNat_lt]
  by_cases hlim : s.site.alertLimit < (s.acct.sba + d).natAbs
  · cases ha : s.acct.alert
    · simp only [hlim, if_true, true_and]
      rfl
    · simp only [hlim, if_true, reduceCtorEq, and_false, if_false]
  · simp only [hlim, if_false, false_and]
    rfl

theorem addToSba_acct : (addToSba d s).acct = { s.acct with
    sba := s.acct.sba + d, alert := if s.site.alertLimit < (s.acct.sba + d).natAbs then .raised else .armed } := by
  rw [addToSba_eq]
  split
  · rename_i h
    rw [if_pos h.1]
    rfl
  · rfl

theorem addToSba_evq : (addToSba d s).evq =
    if s.site.alertLimit < (s.acct.sba + d).natAbs ∧ s.acct.alert = .armed then
      s.evq.pushAll [⟨gasTime s, .sbaLimit, none, some (s.acct.sba + d)⟩] else s.evq := by
  rw [addToSba_eq]
  split <;> rfl
end

/-- ACCOUNT ADJUST with its checks met. -/
theorem reqAccountAdjust_taken {s : State} {b : Block} {i : Fin 24} {a : Account} (hs : s.settled)
    (hf : findShipper (fieldW b 0) s = some (i, a)) (hlen : b.length = 4) (hstate : a.state ≠ .closing)
    (hq : (fieldI3 b 1).natAbs ≤ 999999999999) (hlow : 0 ≤ a.inventory + fieldI3 b 1)
    (hhigh : a.inventory + fieldI3 b 1 ≤ a.spaceRight) (hsba : (s.acct.sba - fieldI3 b 1).natAbs ≤ 1000000000000000) :
    reqAccountAdjust b s = taken (outI3 (a.inventory + fieldI3 b 1) ++ outI4 (s.acct.sba - fieldI3 b 1))
      (addToSba (-(fieldI3 b 1)) (putSlot i (some { a with inventory := a.inventory + fieldI3 b 1 }) s)) := by
  simp only [reqAccountAdjust, settledChecks_none hs hlen, hf]
  exact checked_ok _ _ (by simp [trades_of_ne hstate, hq, hlow, hhigh, hsba])

theorem accountRead_none {s : State} {b : Block} (hset : settling s = false) (hlen : b.length = 1) :
    firstFailure [(b.length == 1, .badLength), (!settling s, .busy)] = none := by
  rw [firstFailure_none]
  simp [hlen, hset]

/-- ACCOUNT READ of an EMPTY slot. -/
theorem reqAccountRead_empty {s : State} {b : Block} {i : Fin 24} (hset : settling s = false) (hlen : b.length = 1)
    (hi : fieldW b 0 = i.val) (hslot : s.acct.slots[i] = none) :
    reqAccountRead b s = taken (Config.slotEmptyCode :: List.replicate 16 0) s := by
  simp only [reqAccountRead, accountRead_none hset hlen, fieldFin_eq_some hi, hslot]

/-- ACCOUNT READ of a slot that holds a record. -/
theorem reqAccountRead_found {s : State} {b : Block} {i : Fin 24} {a : Account} (hset : settling s = false)
    (hlen : b.length = 1) (hi : fieldW b 0 = i.val) (hslot : s.acct.slots[i] = some a) :
    reqAccountRead b s
      = taken (accountReadReply i a s) (putSlot i (some { a with emptyClamp := false, fullClamp := false }) s) := by
  simp only [reqAccountRead, accountRead_none hset hlen, fieldFin_eq_some hi, hslot]

/-- Settles O34: an adjustment is the slot's write and the SBA's change; a read is the record's words. -/
theorem accountAdjustAndAccountRead : Obligations.AccountAdjustAndAccountRead := by
  refine ⟨fun s b c _ => keepsItsChecks_all c s, ?_, ?_⟩
  · intro s b i a hs hlen hf hstate q hq hlow hhigh hsba
    refine ⟨_, exec_taken rfl hs.1.1 (reqAccountAdjust_taken hs hf hlen hstate hq hlow hhigh hsba), ?_, ?_, ?_⟩
    · rw [addToSba_acct]
      rfl
    · rw [addToSba_evq]
      rfl
    · exact (((does_putSlot s i _).mono (by decide)).trans (does_addToSba _ _)).parts
  · intro s b i hs hset hlen hi
    exact ⟨fun hempty => exec_taken rfl hs (reqAccountRead_empty hset hlen hi hempty),
      fun a ha => ⟨accountStateCode a.state, exec_taken rfl hs (reqAccountRead_found hset hlen hi ha)⟩⟩

/-! ### Transfers (R33, R34) -/

theorem findShipper_slot {s : State} {id : Nat} {i : Fin 24} {a : Account} (h : findShipper id s = some (i, a)) :
    s.acct.slots[i] = some a ∧ findSlot id s = some i ∧ a.shipper = id := by
  obtain ⟨hnone, _⟩ | ⟨j, c, hsome, hslot, hid, hfind, _⟩ := findShipper_cases s id
  · rw [hnone] at h
    exact absurd h nofun
  · rw [hsome] at h
    cases h
    exact ⟨hslot, slotHolding_eq s id ▸ hfind, hid⟩

theorem notClosing_of {s : State} {id : Nat} {i : Fin 24} {a : Account} (h : findShipper id s = some (i, a))
    (hstate : a.state ≠ .closing) : notClosing id s = true := by
  simp [notClosing, h, hstate]

/-- A transfer between two records moves its quantity, or is dropped with the reason of the first failing check. -/
theorem executeTransfer_found {s : State} {t : Transfer} {i j : Fin 24} {a c : Account}
    (hi : findShipper t.source s = some (i, a)) (hj : findShipper t.destination s = some (j, c)) (hne : i ≠ j) :
    executeTransfer t s =
      if a.state = .closing ∨ c.state = .closing then raise .transferFailed (some i.val) (some 2) s
      else if a.inventory < t.quantity then raise .transferFailed (some i.val) (some 3) s
      else if (c.spaceRight : Int) - c.inventory < t.quantity then raise .transferFailed (some i.val) (some 4) s
      else raise .transferDone (some i.val) (some (t.quantity : Int)) (s.setAcct { s.acct with
        slots := setVec (setVec s.acct.slots i (some { a with inventory := a.inventory - t.quantity })) j
          (some { c with inventory := c.inventory + t.quantity }) }) := by
  obtain ⟨hsi, hfind, _⟩ := findShipper_slot hi
  obtain ⟨hsj, _, _⟩ := findShipper_slot hj
  have hfail (code : Nat) : failTransfer t code s = raise .transferFailed (some i.val) (some (code : Int)) s := by
    rw [failTransfer, hfind]
    rfl
  have hout : addInventory i (-(t.quantity : Int)) s = s.setAcct { s.acct with
      slots := setVec s.acct.slots i (some { a with inventory := a.inventory - t.quantity }) } := by
    simp only [addInventory, hsi, putSlot, Int.sub_eq_add_neg]
  have hin : addInventory j t.quantity (addInventory i (-(t.quantity : Int)) s) = s.setAcct { s.acct with
      slots := setVec (setVec s.acct.slots i (some { a with inventory := a.inventory - t.quantity })) j
        (some { c with inventory := c.inventory + t.quantity }) } := by
    have hslot : (setVec s.acct.slots i (some { a with inventory := a.inventory - t.quantity }))[j] = some c := by
      rw [← hsj]
      exact setVec_getElem_ne _ _ _ _ _ (fun h => hne (Fin.ext h))
    rw [hout]
    simp only [addInventory, State.setAcct_acct, hslot, putSlot]
    rfl
  simp only [executeTransfer, hi, hj, hfail, hin, Bool.or_eq_true, beq_iff_eq]
  rfl

theorem executeTransfer_missing {s : State} {t : Transfer}
    (h : findShipper t.source s = none ∨ findShipper t.destination s = none) :
    executeTransfer t s = raise .transferFailed ((findSlot t.source s).map (fun i => i.val)) (some 1) s := by
  unfold executeTransfer
  rcases h with h | h
  · rw [h]; rfl
  · rw [h]
    cases findShipper t.source s <;> rfl

/-- Settles O35: the request's checks met, and the two outcomes of an execution. -/
theorem transferJoinsTheListAndMovesItsQuantity : Obligations.TransferJoinsTheListAndMovesItsQuantity := by
  refine ⟨fun s b => keepsItsChecks_all _ s, ?_, fun s t i j a c hi hj hne => executeTransfer_found hi hj hne,
    fun s t h => executeTransfer_missing h⟩
  intro s b i j a c hs hlen hi hj hne ha hc hlow hhigh hroom
  refine exec_taken rfl hs.1.1 (checked_ok _ _ (List.forall_mem_append.mpr ⟨settledChecks_hold hs (by simp [hlen]), ?_⟩))
  simp [hlow, hhigh, hne, hi, hj, notClosing_of hi ha, notClosing_of hj hc, hroom]

end Sys2Proof.Machine
end

section
/-! SUPPORT. Words in their place in a reply: blocks carried, pages of records, flag words; LINK STATUS and EVENT DRAIN (O54),
BOOK STATISTICS (O37), and the second of the gas clock (O41). -/

namespace Sys2Proof.Machine

/-! ### Words in their place -/

section
variable {a b c w : Block} {k : Nat}

theorem carries_append (h : a.length = k) : carries (a ++ (w ++ c)) k w := by
  rw [carries, ← h, List.drop_left, List.take_left]

theorem carries_prefix (h : carries b k w) (hk : k + w.length ≤ b.length) : carries (b ++ c) k w := by
  rw [carries, List.drop_append_of_le_length (by omega), List.take_append_of_le_length (by rw [List.length_drop]; omega)]
  exact h

theorem carries_suffix (h : carries b k w) {n : Nat} (hn : n = a.length + k) : carries (a ++ b) n w := by
  rw [carries, hn, List.drop_length_add_append]
  exact h
end

theorem flatMap_length {α : Type} {f : α → Block} {n : Nat} (hf : ∀ x, (f x).length = n) (l : List α) :
    (l.flatMap f).length = n * l.length := by
  induction l with
  | nil => simp
  | cons x l ih => rw [List.flatMap_cons, List.length_append, hf, ih, List.length_cons]; ring

/-- The words of the record at place `j` of a page. -/
theorem carries_flatMap {α : Type} {f : α → Block} {n : Nat} (hf : ∀ x, (f x).length = n) {l : List α} {j : Nat} {x : α}
    (hj : l[j]? = some x) {k : Nat} {w : Block} (h : carries (f x) k w) (hk : k + w.length ≤ n) :
    carries (l.flatMap f) (n * j + k) w := by
  induction l generalizing j with
  | nil => exact absurd hj nofun
  | cons y l ih =>
    rw [List.flatMap_cons]
    cases j with
    | zero =>
      obtain rfl : y = x := by simpa using hj
      rw [Nat.mul_zero, Nat.zero_add]
      exact carries_prefix h (by rw [hf]; exact hk)
    | succ j => exact carries_suffix (ih (by simpa using hj)) (by rw [hf]; ring)

theorem outFlags_eq (bs : List Bool) : outFlags bs = out1 (flagsFigure bs) := by
  unfold outFlags
  congr 1
  induction bs with
  | nil => rfl
  | cons b bs ih =>
    rw [List.foldr_cons, ih, flagsFigure]
    cases b
    · simp
    · simp; omega

theorem outTimer_eq (x : Option Nat) : outTimer x = out1 (x.getD 65535) := by cases x <;> rfl

theorem toList_four {α : Type} (v : Vector α 4) : v.toList = [v[0], v[1], v[2], v[3]] := by
  refine List.ext_getElem (by simp) fun i hi _ => ?_
  rw [Vector.length_toList] at hi
  match i with
  | 0 | 1 | 2 | 3 => simp
  | i + 4 => omega

/-! ### LINK STATUS and EVENT DRAIN (R165, R169) -/

theorem linkStatusReply_fields (s : State) : (linkStatusReply s).length = 11 ∧ linkFields s (linkStatusReply s) := by
  unfold linkFields linkStatusReply stateFlags
  rw [outFlags_eq, outTimer_eq]
  exact ⟨rfl, rfl, rfl, rfl, rfl, rfl, rfl, rfl, rfl, rfl, rfl⟩

theorem outEvent_length (e : Event) : (outEvent e).length = 11 := by
  unfold outEvent
  cases e.time <;> rfl

/-- The fields of an event entry, each within its eleven words. -/
theorem outEvent_fields (e : Event) : eventFields e 0 (outEvent e) := by
  unfold eventFields outEvent
  rw [outFlags_eq]
  cases ht : e.time with
  | none => exact ⟨rfl, rfl, nofun, fun _ => rfl, rfl, rfl, rfl⟩
  | some g => exact ⟨rfl, rfl, fun g' hg => by cases hg; exact ⟨rfl, rfl⟩, nofun, rfl, rfl, rfl⟩

/-- The fields of the event at place `j` of a page that stands from word `n` on. -/
theorem eventFields_page {l : List Event} {j n : Nat} {e : Event} (hj : l[j]? = some e) {a : Block} (ha : a.length = n) :
    eventFields e (n + 11 * j) (a ++ l.flatMap outEvent) := by
  have hplace {k : Nat} {w : Block} (h : carries (outEvent e) (0 + k) w) (hk : k + w.length ≤ 11) {m : Nat}
      (hm : m = n + 11 * j + k) : carries (a ++ l.flatMap outEvent) m w :=
    carries_suffix (carries_flatMap outEvent_length hj (Nat.zero_add k ▸ h) hk) (by rw [ha, hm]; ring)
  obtain ⟨hseq, hflags, htime, hnone, hkind, hsubject, hvalue⟩ := outEvent_fields e
  refine ⟨hplace (k := 0) hseq (by simp) rfl, hplace hflags (by simp [out1]) rfl, fun g hg => ?_, fun hn => ?_,
    hplace hkind (by simp [out1]) rfl, hplace hsubject (by simp [out1]) rfl, hplace hvalue (by simp [outI4, out4, out3, out2]) rfl⟩
  · obtain ⟨hday, hsec⟩ := htime g hg
    exact ⟨hplace hday (by simp [outHour, out1]) rfl, hplace hsec (by simp [out1]) rfl⟩
  · exact hplace (hnone hn) (by simp) rfl

/-- Settles O54: the replies' words are those of the link and of the oldest entries. -/
theorem linkStatusAndEventDrain : Obligations.LinkStatusAndEventDrain := by
  refine ⟨fun s b c _ => keepsItsChecks_all c s, fun s b hs => ⟨fun hlen hw => ?_, fun hlen hw => ?_, fun hlen => ?_, ?_⟩⟩
  · obtain ⟨hl, hfields⟩ := linkStatusReply_fields s
    exact ⟨linkStatusReply s, exec_taken rfl hs (checked_ok _ _ (by simp [hlen, hw])), hl, hfields⟩
  · refine refused_by (c := .linkStatus b) (l := [ofLength 1 b]) (rest := []) rfl hs ?_ (by simp [ofLength, hlen])
    rw [requestChecks, decide_eq_false (Nat.not_le.mpr hw)]
    rfl
  · refine ⟨_, exec_taken rfl hs (checked_ok _ _ (by simp [hlen])), ?_, ?_, ?_, fun j e hj => ?_⟩
    · rw [List.length_append, flatMap_length outEvent_length, List.length_take]
      rfl
    · exact carries_prefix (carries_append (a := []) rfl) (by simp [out1])
    · rw [← List.length_drop]
      exact carries_prefix (carries_append (a := out1 _) (c := []) rfl) (by simp [out1])
    · exact eventFields_page hj rfl
  · simp [attention]

/-! ### BOOK STATISTICS (R67, R68) -/

theorem bookStatisticsReply_fields (st : Stats) :
    (bookStatisticsReply st).length = 32 ∧ statisticsFields st (bookStatisticsReply st) := by
  unfold statisticsFields bookStatisticsReply
  rw [toList_four]
  refine ⟨rfl, rfl, rfl, fun j => ?_, rfl, rfl, rfl, rfl⟩
  match j with
  | 0 | 1 | 2 | 3 => exact ⟨rfl, rfl, rfl, rfl, rfl, rfl⟩

/-- Settles O37: the request's reply is the statistics' words, and the second is one write. -/
theorem bookStatisticsAreReadClearedAndCounted : Obligations.BookStatisticsAreReadClearedAndCounted := by
  refine ⟨fun s b => keepsItsChecks_all _ s, fun s b hs hlen hfilter hthreshold hclear => ?_, fun s => rfl⟩
  obtain ⟨hl, hfields⟩ := bookStatisticsReply_fields s.book.stats
  exact ⟨_, exec_taken rfl hs (checked_ok _ _ (by simp [hlen, hfilter, hthreshold, hclear])), hl, hfields⟩

/-! ### The gas clock within its hour (R4, R14) -/

section
variable {s : State} (hin : s.clock.state = .unset ∨ s.clock.sec + 1 < s.clock.hourEnd)
include hin

theorem boundaryDue_within : boundaryDue s = false := by
  rcases hin with h | h
  · simp [boundaryDue, clockIsUnset, h]
  · simp [boundaryDue, Nat.not_le.mpr h]

end

theorem advanceClock_within {s : State} (hrun : s.clock.state = .running) (hin : s.clock.sec + 1 < s.clock.hourEnd) :
    advanceClock s = s.setClock { s.clock with sec := s.clock.sec + 1 } := by
  rw [advanceClock, hrun]
  simp only [boundaryDue_within (.inr hin), Bool.false_eq_true, if_false]

/-- Whether the report-gap watch is at its sixtieth second. -/
def gapDue (s : State) : Prop := s.meter.gap = false ∧ s.meter.lastReport + 60 ≤ s.elapsed

theorem gapWatch_due {s : State} (h : gapDue s) : gapWatch s = noteGap s := by
  obtain ⟨hgap, hlast⟩ := h
  simp [gapWatch, hgap, hlast]

theorem gapWatch_notDue {s : State} (h : ¬gapDue s) : gapWatch s = s := by
  rw [gapWatch, if_neg]
  simpa [gapDue] using h

/-- A response that raises at most one event stands in no order. -/
theorem gathered_gapWatch (s : State) : gathered gapWatch s = gapWatch s := by
  by_cases h : gapDue s
  · have hg : gapWatch s.gatheringEvents = noteGap s.gatheringEvents := gapWatch_due h
    unfold gathered
    rw [hg, gapWatch_due h]
    rfl
  · have hg : gapWatch s.gatheringEvents = s.gatheringEvents := gapWatch_notDue h
    unfold gathered
    rw [hg, gapWatch_notDue h]
    rfl

/-- The clock's second within its hour, and the report-gap watch at the elapsed second, before the clock or after it. -/
theorem clockSecond_within {s : State} (hin : s.clock.state = .unset ∨ s.clock.sec + 1 < s.clock.hourEnd) :
    clockSecond s = gapWatch (advanceClock s) := by
  rw [clockSecond, boundaryDue_within hin]
  exact gathered_gapWatch _

/-- The parts that the gas clock's second within its hour changes. -/
def clockParts : List Part := [.elapsed, .clock, .meter, .evq, .world]

/-- The watch and the clock's second, within the hour: the meter's flag, and REPORT_GAP at the gas time before or after. -/
structure Ticked (s t : State) : Prop where
  elapsed : t.elapsed = s.elapsed
  clock_unset : s.clock.state = .unset → t.clock = s.clock
  clock_running : s.clock.state = .running → t.clock = { s.clock with sec := s.clock.sec + 1 }
  meter : t.meter = { s.meter with gap := s.meter.gap || decide (s.meter.lastReport + 60 ≤ s.elapsed) }
  told : ∃ time : Option GasTime, (time = gasTime s ∨ time = gasTime t) ∧ t.evq =
    if s.meter.gap = false ∧ s.meter.lastReport + 60 ≤ s.elapsed then
      s.evq.pushAll [⟨time, .reportGap, none, none⟩] else s.evq
  frame : s.changesOnly clockParts t

theorem gap_of_due {s : State} (h : gapDue s) :
    (s.meter.gap || decide (s.meter.lastReport + 60 ≤ s.elapsed)) = true := by
  simp [h.2]

theorem gap_of_notDue {s : State} (h : ¬gapDue s) :
    (s.meter.gap || decide (s.meter.lastReport + 60 ≤ s.elapsed)) = s.meter.gap := by
  unfold gapDue at h
  cases hg : s.meter.gap with
  | true => rfl
  | false => simpa [hg] using h

/-- What the clock is a second on, within its hour. -/
theorem advanceClock_sets {u : State} (hin : u.clock.state = .unset ∨ u.clock.sec + 1 < u.clock.hourEnd) :
    ∃ c : Clock, (u.clock.state = .unset → c = u.clock)
      ∧ (u.clock.state = .running → c = { u.clock with sec := u.clock.sec + 1 })
      ∧ ∀ v : State, v.clock = u.clock → advanceClock v = v.setClock c := by
  cases hu : u.clock.state with
  | unset =>
    refine ⟨u.clock, fun _ => rfl, nofun, fun v hv => ?_⟩
    rw [advanceClock_unset (hv ▸ hu), ← hv]
    rfl
  | running =>
    have hlt : u.clock.sec + 1 < u.clock.hourEnd := hin.resolve_left (by simp [hu])
    refine ⟨_, nofun, fun _ => rfl, fun v hv => ?_⟩
    rw [advanceClock_within (hv ▸ hu) (hv ▸ hlt), hv]

theorem ticked_noGap {u : State} {c : Clock} (hgap : ¬gapDue u) (h0 : u.clock.state = .unset → c = u.clock)
    (h1 : u.clock.state = .running → c = { u.clock with sec := u.clock.sec + 1 }) : Ticked u (u.setClock c) := by
  refine ⟨rfl, h0, h1, ?_, ⟨gasTime u, .inl rfl, ?_⟩, fun p hp => ?_⟩
  · rw [gap_of_notDue hgap]
    rfl
  · exact (if_neg hgap).symm
  · cases p <;> first | rfl | exact absurd (by decide) hp

theorem ticked_gap {u t : State} {c : Clock} (hgap : gapDue u) (h0 : u.clock.state = .unset → c = u.clock)
    (h1 : u.clock.state = .running → c = { u.clock with sec := u.clock.sec + 1 })
    (ht : t = noteGap (u.setClock c) ∨ t = (noteGap u).setClock c) : Ticked u t := by
  rcases ht with rfl | rfl
  all_goals refine ⟨rfl, h0, h1, ?_, ?_, fun p hp => ?_⟩
  any_goals (rw [gap_of_due hgap]; rfl)
  any_goals (cases p <;> first | rfl | exact absurd (by decide) hp)
  · exact ⟨gasTime (u.setClock c), .inr rfl, (if_pos hgap).symm⟩
  · exact ⟨gasTime u, .inl rfl, (if_pos hgap).symm⟩

/-- The watch before the clock, or after it. -/
theorem ticked_of {u : State} (hin : u.clock.state = .unset ∨ u.clock.sec + 1 < u.clock.hourEnd) :
    Ticked u (gapWatch (advanceClock u)) ∧ Ticked u (gapWatch (advanceClock (gapWatch u))) := by
  obtain ⟨c, h0, h1, hclock⟩ := advanceClock_sets hin
  rw [hclock u rfl, hclock (gapWatch u) ((does_gapWatch u).clock_eq (by decide))]
  by_cases hgap : gapDue u
  · have hafter : ¬gapDue ((noteGap u).setClock c) := fun h => absurd h.1 (by simp [noteGap, raise])
    rw [gapWatch_due hgap, gapWatch_due (s := u.setClock c) hgap, gapWatch_notDue hafter]
    exact ⟨ticked_gap hgap h0 h1 (.inl rfl), ticked_gap hgap h0 h1 (.inr rfl)⟩
  · rw [gapWatch_notDue hgap, gapWatch_notDue (s := u.setClock c) hgap]
    exact ⟨ticked_noGap hgap h0 h1, ticked_noGap hgap h0 h1⟩

theorem gasClockSecond_ticked {s : State} (hin : s.clock.state = .unset ∨ s.clock.sec + 1 < s.clock.hourEnd) :
    ∃ n : Nat, ∃ t : State, exec .gasClockSecond s = .next t ∧ Ticked ((s.setElapsed (s.elapsed + 1)).setWorld n) t := by
  have hsettle : settleFirst (s.setElapsed (s.elapsed + 1)) = s.setElapsed (s.elapsed + 1) := by
    rw [settleFirst, boundaryDue_within (s := s.setElapsed (s.elapsed + 1)) hin]
    rfl
  obtain ⟨g, hg, n, hone⟩ := oneOf_cases clockSecond [fun t => clockSecond (gapWatch t)] (s.setElapsed (s.elapsed + 1))
  refine ⟨n, _, rfl, ?_⟩
  rw [hsettle, hone]
  obtain ⟨hfirst, hthen⟩ := ticked_of (u := (s.setElapsed (s.elapsed + 1)).setWorld n) hin
  rcases List.mem_pair.mp hg with rfl | rfl
  · exact (clockSecond_within (s := (s.setElapsed (s.elapsed + 1)).setWorld n) hin).symm ▸ hfirst
  · show Ticked _ (clockSecond (gapWatch _))
    refine (clockSecond_within (s := gapWatch ((s.setElapsed (s.elapsed + 1)).setWorld n)) ?_).symm ▸ hthen
    rw [(does_gapWatch _).clock_eq (by decide)]
    exact hin

/-- Settles O41: the watch acts on the second or after it, and either way raises at most once. -/
theorem gasClockSecondAndReportGap : Obligations.GasClockSecondAndReportGap := by
  refine fun s => ⟨fun hin => ?_, ?_⟩
  · obtain ⟨n, t, hexec, helapsed, hunset, hrunning, hmeter, told, hframe⟩ := gasClockSecond_ticked hin
    refine ⟨t, hexec, helapsed, ?_, hmeter, told, fun p hp => ?_⟩
    · cases hs : s.clock.state with
      | unset => exact hunset hs
      | running => exact hrunning hs
    · have hkept := hframe p hp
      cases p <;> first | exact hkept | exact absurd (by decide) hp
  · show Host.Outcome.next _ = _
    by_cases hgap : s.meter.gap = false ∧ s.meter.lastReport + 60 ≤ s.elapsed + 1
    · rw [if_pos hgap, if_pos (by simpa using hgap)]
      rfl
    · rw [if_neg hgap, if_neg (by simpa using hgap)]

end Sys2Proof.Machine
end

section
/-! SUPPORT. Frames on the line (R159 to R163): bytes assembled, frames placed, replies built. -/

namespace Sys2Proof.Machine

/-! ### Bytes of words -/

theorem blockBytes_length (b : Block) : (blockBytes b).length = 2 * b.length := by
  induction b with
  | nil => rfl
  | cons w b ih =>
    show (wordBytes w ++ blockBytes b).length = _
    rw [List.length_append, ih, List.length_cons]
    simp only [wordBytes, List.length_cons, List.length_nil]
    ring

theorem append_extract (w : Word) : (w.extractLsb' 8 8).append (w.extractLsb' 0 8) = w := by
  apply BitVec.eq_of_getLsbD_eq
  intro i hi
  show ((w.extractLsb' 8 8) ++ (w.extractLsb' 0 8)).getLsbD i = _
  rw [BitVec.getLsbD_append]
  by_cases h : i < 8
  · simp [h]
  · rw [if_neg h, BitVec.getLsbD_extractLsb', Nat.add_sub_cancel' (Nat.not_lt.mp h)]
    simp [show i - 8 < 8 by omega]

theorem wordsOf_blockBytes (b : Block) : wordsOf (blockBytes b) = b := by
  induction b with
  | nil => rfl
  | cons w b ih =>
    show (w.extractLsb' 8 8).append (w.extractLsb' 0 8) :: wordsOf (blockBytes b) = _
    rw [append_extract, ih]

/-! ### Bytes assembled -/

theorem rxBytes_append (xs ys : List Byte) (s : State) : rxBytes (xs ++ ys) s = rxBytes ys (rxBytes xs s) :=
  List.foldl_append

/-- The receiver with the bytes `B` of a frame in assembly. -/
def assembled (s : State) (B : List Byte) : State := s.setLink { s.link with receiver := .assembling, buffer := B }

/-- A byte that joins the bytes `B` (R159). -/
theorem rxByte_assembled (s : State) (B : List Byte) (x : Byte) : rxByte x (assembled s B) =
    if (B ++ [x]).length = 2 ∧ 64 < ((B ++ [x]).getD 1 0).toNat then abandon s
    else if 2 ≤ (B ++ [x]).length ∧ (B ++ [x]).length = 6 + 2 * ((B ++ [x]).getD 1 0).toNat then completeFrame (B ++ [x]) s
    else assembled s (B ++ [x]) := rfl

/-- A byte that leaves the frame incomplete is kept. -/
theorem rxByte_kept (s : State) (B : List Byte) (n x : Byte) (hshort : B.length + 3 < 6 + 2 * n.toNat) :
    rxByte x (assembled s (0xC3 :: n :: B)) = assembled s (0xC3 :: n :: (B ++ [x])) := by
  have hlen : (((0xC3 : Byte) :: n :: B) ++ [x]).length = B.length + 3 := by simp
  have hn : (((0xC3 : Byte) :: n :: B) ++ [x]).getD 1 0 = n := rfl
  rw [rxByte_assembled, hlen, hn, if_neg (by omega), if_neg (by omega)]
  rfl

theorem rxBytes_kept (s : State) (n : Byte) (xs : List Byte) :
    ∀ B : List Byte, B.length + xs.length + 2 < 6 + 2 * n.toNat →
      rxBytes xs (assembled s (0xC3 :: n :: B)) = assembled s (0xC3 :: n :: (B ++ xs)) := by
  induction xs with
  | nil => intro B _; rw [List.append_nil]; rfl
  | cons x xs ih =>
    intro B hB
    rw [List.length_cons] at hB
    show rxBytes xs (rxByte x (assembled s (0xC3 :: n :: B))) = _
    rw [rxByte_kept s B n x (by omega), ih _ (by rw [List.length_append]; simp only [List.length_singleton]; omega),
      List.append_assoc, List.singleton_append]

/-- The last byte of a frame of `n` words completes it. -/
theorem rxByte_last (s : State) (B : List Byte) (n x : Byte) (hlast : B.length + 3 = 6 + 2 * n.toNat) :
    rxByte x (assembled s (0xC3 :: n :: B)) = completeFrame (0xC3 :: n :: (B ++ [x])) s := by
  have hlen : (((0xC3 : Byte) :: n :: B) ++ [x]).length = B.length + 3 := by simp
  have hn : (((0xC3 : Byte) :: n :: B) ++ [x]).getD 1 0 = n := rfl
  rw [rxByte_assembled, hlen, hn, if_neg (by omega), if_pos (by omega)]
  rfl

/-- The bytes of a frame, from HUNTING on, are taken as one frame (R159, R160). -/
theorem rxBytes_frame {s : State} (hs : s.link.receiver = .hunting) (n : Byte) (hn : n.toNat ≤ 64) (rest : List Byte) (c : Byte)
    (hlen : rest.length = 3 + 2 * n.toNat) :
    rxBytes (0xC3 :: n :: (rest ++ [c])) s = completeFrame (0xC3 :: n :: (rest ++ [c])) s := by
  have hsync : rxByte 0xC3 s = assembled s [0xC3] := by
    rw [rxByte, hs]
    rfl
  have hsecond : rxByte n (assembled s [0xC3]) = assembled s [0xC3, n] := by
    have hbyte : ([(0xC3 : Byte)] ++ [n]).getD 1 0 = n := rfl
    rw [rxByte_assembled, hbyte, if_neg (by omega), if_neg (by simp only [List.length_append, List.length_singleton]; omega)]
    rfl
  calc rxBytes (0xC3 :: n :: (rest ++ [c])) s
      = rxBytes (rest ++ [c]) (rxByte n (rxByte 0xC3 s)) := rfl
    _ = rxByte c (rxBytes rest (assembled s [0xC3, n])) := by rw [hsync, hsecond, rxBytes_append]; rfl
    _ = rxByte c (assembled s (0xC3 :: n :: rest)) := by
      rw [rxBytes_kept s n rest [] (by simp only [List.length_nil]; omega), List.nil_append]
    _ = completeFrame (0xC3 :: n :: (rest ++ [c])) s := rxByte_last s rest n c (by omega)

/-- A complete frame is valid where its CRC holds, and else lost (R160). -/
theorem completeFrame_eq (n code tag c1 c2 : Byte) (data : List Byte) (s : State) :
    completeFrame (0xC3 :: n :: code :: tag :: data ++ [c1, c2]) s =
      if crc (n :: code :: tag :: data) = c1.append c2 then validFrame code tag (wordsOf data) s else abandon s := by
  have hlen : ((0xC3 : Byte) :: n :: code :: tag :: data ++ [c1, c2]).length = data.length + 6 := by simp
  have hcovered : (((0xC3 : Byte) :: n :: code :: tag :: data ++ [c1, c2]).take (data.length + 4)).drop 1
      = n :: code :: tag :: data := by
    simp
  have hlast (k : Nat) : ((0xC3 : Byte) :: n :: code :: tag :: data ++ [c1, c2]).getD (data.length + 4 + k) 0
      = [c1, c2].getD k 0 := by
    rw [List.getD_eq_getElem?_getD, List.getElem?_append_right (by simp only [List.length_cons]; omega),
      List.getD_eq_getElem?_getD]
    simp only [List.length_cons]
    congr 2
    omega
  unfold completeFrame
  rw [hlen, show data.length + 6 - 2 = data.length + 4 + 0 by omega, show data.length + 6 - 1 = data.length + 4 + 1 by omega,
    hlast, hlast]
  simp only [Nat.add_zero, hcovered, beq_iff_eq]
  rfl

/-! ### Request and reply frames (section 8.2) -/

theorem length_toNat {n : Nat} (h : n ≤ 64) : (BitVec.ofNat 8 n).toNat = n :=
  BitVec.toNat_ofNat .. ▸ Nat.mod_eq_of_lt (by omega)

set_option maxRecDepth 20000 in
/-- The check figure of section 8.2. -/
theorem crc_checkFigure : crc ([0x31, 0x32, 0x33, 0x34, 0x35, 0x36, 0x37, 0x38, 0x39] : List Byte) = 0x29B1 := by decide

/-- Settles O25: the frame's last byte completes it, its CRC is that of the bytes before, and its words read back. -/
theorem requestFrameIsTakenWhole : Obligations.RequestFrameIsTakenWhole := by
  refine ⟨fun code tag b s hb hs => ?_, fun code tag b => ⟨rfl, ?_⟩, crc_checkFigure⟩
  · have hn := length_toNat hb
    let body := BitVec.ofNat 8 b.length :: code :: tag :: blockBytes b
    let c1 := (crc body).extractLsb' 8 8
    let c2 := (crc body).extractLsb' 0 8
    have hframe : requestBytes code tag b = 0xC3 :: BitVec.ofNat 8 b.length :: ((code :: tag :: blockBytes b ++ [c1]) ++ [c2]) := by
      rw [List.append_assoc]
      rfl
    have hwhole : completeFrame (requestBytes code tag b) s = validFrame code tag b s := by
      refine (completeFrame_eq _ code tag c1 c2 (blockBytes b) s).trans ?_
      rw [if_pos (append_extract _).symm, wordsOf_blockBytes]
    show Host.Outcome.next (rxBytes (requestBytes code tag b) s) = _
    rw [← hwhole, hframe, rxBytes_frame hs _ (by omega)]
    simp only [List.length_append, List.length_cons, List.length_nil, blockBytes_length, hn]
    omega
  · show (requestSync :: (BitVec.ofNat 8 b.length :: code :: tag :: blockBytes b ++ wordBytes _)).length = _
    simp only [List.length_cons, List.length_append, blockBytes_length, wordBytes, List.length_nil]
    omega

/-! ### A valid frame placed (R161 to R163, R171) -/

theorem heard_eq (x : Supervision) : x.heard = if x.linkMode = .fallback then { x with firstFrame := true }
    else if x.mode = 0 then { x with firstFrame := true, timer := none }
    else { x with firstFrame := true, timer := some x.timeout, loaded := x.timeout } := by
  unfold Supervision.heard Supervision.reloaded
  cases h : x.linkMode <;> simp

theorem unlessRestoring_busy {req : State → Answer} {s : State} (h : restoring s = true) :
    unlessRestoring req s = refuse .busy s := if_pos h

theorem unlessRestoring_passes {req : State → Answer} {s : State} (h : restoring s = false) :
    unlessRestoring req s = req s := if_neg (by simp [h])

theorem passOn_none {code : Byte} (h : requestOf code = none) (b : Block) (s : State) :
    passOn code b s = refuse .unknownRequest s := by
  rw [passOn, h]

theorem passOn_some {code : Byte} {req : Block → State → Answer} (h : requestOf code = some req) (b : Block) (s : State) :
    passOn code b s = req b s := by
  rw [passOn, h]

/-- What the dispatch of a frame taken in hand answers (R163). -/
theorem takeInHand_cases (f : Frame) (s : State) :
    let u := s.setLink { s.link with inHand := some f }
    (restoring s = true → takeInHand f s = repliedWith f.code f.tag f.stamp .busy [] u)
    ∧ (restoring s = false → requestOf f.code = none →
        takeInHand f s = repliedWith f.code f.tag f.stamp .unknownRequest [] u)
    ∧ (restoring s = false → ∀ req : Block → State → Answer, requestOf f.code = some req →
        takeInHand f s = repliedWith f.code f.tag f.stamp (req f.block u).status (req f.block u).out (req f.block u).after) := by
  refine ⟨fun h => ?_, fun h hnone => ?_, fun h req hreq => ?_⟩
  · rw [takeInHand, unlessRestoring_busy (s := s.setLink { s.link with inHand := some f }) h]
    rfl
  · rw [takeInHand, unlessRestoring_passes (s := s.setLink { s.link with inHand := some f }) h, passOn_none hnone]
    rfl
  · rw [takeInHand, unlessRestoring_passes (s := s.setLink { s.link with inHand := some f }) h, passOn_some hreq]
    rfl

theorem place_free {f : Frame} {s : State} (h : s.link.inHand = none) : place f s = takeInHand f s := by
  rw [place, h]

theorem place_held {f : Frame} {s : State} (h : s.link.inHand ≠ none) (hh : s.link.holding = none) :
    place f s = s.setLink { s.link with holding := some f } := by
  obtain ⟨g, hg⟩ := Option.ne_none_iff_exists'.mp h
  rw [place, hg, hh]

theorem place_lost {f : Frame} {s : State} (h : s.link.inHand ≠ none) (hh : s.link.holding ≠ none) :
    place f s = s.setLink { s.link with overruns := min (s.link.overruns + 1) 65535 } := by
  obtain ⟨g, hg⟩ := Option.ne_none_iff_exists'.mp h
  obtain ⟨k, hk⟩ := Option.ne_none_iff_exists'.mp hh
  rw [place, hg, hk]
  rfl

theorem linkByte_toNat (n : BitVec 4) (s : State) : (linkByte n s).toNat
    = 16 * n.toNat + flagsFigure [inFallback s, isUnrestored s, clockIsUnset s, settling s] := by
  unfold linkByte
  show BitVec.toNat (n ++ BitVec.ofNat 4 _) = _
  have hflags (k : Nat) (hk : k < 16) : BitVec.toNat (n ++ BitVec.ofNat 4 k) = 16 * n.toNat + k := by
    rw [BitVec.toNat_append, BitVec.toNat_ofNat, Nat.mod_eq_of_lt hk, ← Nat.shiftLeft_add_eq_or_of_lt hk, Nat.shiftLeft_eq]
    ring
  cases settling s <;> cases clockIsUnset s <;> cases isUnrestored s <;> cases inFallback s <;> exact hflags _ (by decide)

/-- One request row for each code of the catalogue, with an empty block. -/
def catalogueRows : List Instr :=
  [.stationReport [], .linkStatus [], .eventDrain [], .supervisionSet [], .resume [], .restart [], .clockSet [],
   .clockTrim [], .clockRead [], .curveWrite [], .curveRead [], .curveClear [], .accountOpen [], .accountAmend [],
   .accountSuspend [], .accountClose [], .accountRead [], .accountAdjust [], .transfer [], .sbaRead [],
   .settlementRead [], .allocationRead [], .nominate [], .cancel [], .bookRead [], .scheduleRead [],
   .bookStatistics [], .siteSet [], .flowRead [], .unitSet [], .unitDisable [], .unitRead [], .rosterSet [],
   .trainSet [], .trainServiceOut [], .trainRead [], .storeRead [], .storeLoad [], .storeLoadEnd [], .storeInitialize []]

theorem requestOf_row : ∀ code : Byte, (requestOf code).isSome = true →
    (catalogueRows.find? (fun c => c.request == some (code, []))).isSome = true := by decide

/-- Settles O26: the placement by what is in hand, the dispatch by the catalogue, and the bytes of the reply. -/
theorem validFrameIsPlaced : Obligations.ValidFrameIsPlaced := by
  refine ⟨fun code tag b s => ?_, fun c code b hc => ?_, fun code hno => ?_, linkByte_toNat, rfl, fun r => ⟨rfl, ?_⟩⟩
  · intro n heard s1 f s2
    have hplace : validFrame code tag b s = place f s1 := by
      show place f _ = _
      rw [heard_eq]
      rfl
    rw [hplace]
    refine ⟨fun hfree => ?_, fun hbusy hempty => place_held (s := s1) hbusy hempty,
      fun hbusy hfull => place_lost (s := s1) hbusy hfull⟩
    rw [place_free (s := s1) hfree]
    exact takeInHand_cases f s1
  · obtain ⟨req, hreq, hexec⟩ := request_serves hc
    refine ⟨req, hreq, fun s hs => (hexec s).trans ?_⟩
    rw [serve, unlessRestoring_passes hs]
    rfl
  · by_contra hne
    obtain ⟨c, hc⟩ := Option.isSome_iff_exists.mp (requestOf_row code (Option.isSome_iff_ne_none.mpr hne))
    exact hno c [] (eq_of_beq (List.find?_some (p := fun c : Instr => c.request == some (code, [])) hc))
  · show ((0x3C : Byte) :: (_ :: _ :: _ :: _ :: _ :: blockBytes r.block ++ wordBytes _)).length = _
    simp only [List.length_cons, List.length_append, blockBytes_length, wordBytes, List.length_nil]
    omega

/-! ### The line outside a valid frame -/

/-- Settles O27: each event of the line is one branch of the receiver or of the reply's end. -/
theorem lineEventsOutsideValidFrames : Obligations.LineEventsOutsideValidFrames := by
  intro s lost free
  refine ⟨fun n code tag c1 c2 data hn hdata hs hcrc => ?_, ?_, ?_, fun n => ?_, fun hs => ?_, fun hs => ⟨fun h2 => ?_, fun h2 hlen => ?_⟩,
    fun hr => ?_, fun hr hdue hh => ?_, fun f hr hdue hh => ?_⟩
  · have hlost : completeFrame (0xC3 :: n :: code :: tag :: data ++ [c1, c2]) s = lost :=
      (completeFrame_eq n code tag c1 c2 data s).trans (if_neg hcrc)
    have hframe : (0xC3 : Byte) :: n :: code :: tag :: data ++ [c1, c2] = 0xC3 :: n :: ((code :: tag :: data ++ [c1]) ++ [c2]) := by
      simp
    show Host.Outcome.next (rxBytes _ s) = _
    rw [← hlost, hframe, rxBytes_frame hs n hn]
    simp only [List.length_append, List.length_cons, List.length_nil, hdata]
    omega
  · show Host.Outcome.next (if assembling s = true then _ else _) = _
    simp only [assembling, beq_iff_eq]
    rfl
  · show Host.Outcome.next (if assembling s = true then _ else _) = _
    simp only [assembling, beq_iff_eq]
    rfl
  · show Host.Outcome.next (if (assembling s && _ && _) = true then _ else _) = _
    simp only [assembling, Bool.and_eq_true, beq_iff_eq, decide_eq_true_eq, and_assoc]
    rfl
  · show Host.Outcome.next (rxByte requestSync s) = _
    rw [rxByte, hs]
    rfl
  · have hlost : rxByte requestSync s = lost := by
      obtain ⟨x, hx⟩ : ∃ x, s.link.buffer = [x] := List.length_eq_one_iff.mp (by simpa using h2)
      rw [rxByte, hs, hx]
      rfl
    exact congrArg Host.Outcome.next hlost
  · have hkept : rxByte requestSync s = s.setLink { s.link with buffer := s.link.buffer ++ [0xC3] } := by
      rw [rxByte, hs]
      dsimp only
      rw [if_neg (fun h => h2 h.1), if_neg (fun h => hlen h.2)]
      rfl
    exact congrArg Host.Outcome.next hkept
  · show Host.Outcome.next (replySent s) = _
    rw [replySent, hr]
  · show Host.Outcome.next (replySent s) = _
    obtain ⟨r, hr⟩ := Option.ne_none_iff_exists'.mp hr
    rw [replySent, hr, hdue, nextInHand, hh]
    rfl
  · have hsent : replySent s = takeInHand f free := by
      obtain ⟨r, hr⟩ := Option.ne_none_iff_exists'.mp hr
      rw [replySent, hr, hdue, nextInHand, hh]
      rfl
    obtain ⟨hbusy, hunknown, hserved⟩ := takeInHand_cases f free
    have hexec : exec .replySent s = .next (takeInHand f free) := congrArg Host.Outcome.next hsent
    exact ⟨fun h => hexec.trans (congrArg _ (hbusy h)), fun h hn => hexec.trans (congrArg _ (hunknown h hn)),
      fun h req hreq => hexec.trans (congrArg _ (hserved h req hreq))⟩

end Sys2Proof.Machine
end

section
/-! SUPPORT. The book's operations: hours removed from a key (R44), NOMINATE and CANCEL (R45 to R48), the counts (R66). -/

namespace Sys2Proof.Machine

/-! ### What a removal leaves of an entry (R44) -/

/-- A piece of an entry stands in the entry's key. -/
theorem cutEntry_key {a z : Nat} {e e' : Entry} (h : e' ∈ cutEntry a z e) (i : Fin 24) (d : Direction) (c : Class) :
    e'.hasKey i d c = e.hasKey i d c := by
  unfold cutEntry at h
  split at h
  · rw [List.mem_singleton.mp h]
  · exact absurd h List.not_mem_nil
  · rw [List.mem_singleton.mp h]
    rfl
  · rw [List.mem_singleton.mp h]
    rfl
  · rcases List.mem_pair.mp h with rfl | rfl <;> rfl

theorem holds_iff {e : Entry} {h : Nat} : e.holds h = true ↔ e.next ≤ h ∧ h ≤ e.last := by
  simp [Entry.holds]

theorem hasKey_iff {i : Fin 24} {d : Direction} {c : Class} {e : Entry} :
    e.hasKey i d c = true ↔ e.slot = i ∧ e.dir = d ∧ e.cls = c := by
  simp [Entry.hasKey, and_assoc]

/-- What the removal leaves, by the ends of the two runs. -/
theorem cutEntry_eq (a z : Nat) (e : Entry) : cutEntry a z e =
    if z < e.next ∨ e.last < a then [e]
    else if a ≤ e.next ∧ e.last ≤ z then []
    else if a ≤ e.next then [{ e with first := z + 1, next := z + 1 }]
    else if e.last ≤ z then [{ e with last := a - 1 }]
    else [{ e with last := a - 1 }, { e with first := z + 1, next := z + 1 }] := by
  unfold cutEntry overlap
  by_cases hmiss : z < e.next ∨ e.last < a
  · rw [if_pos hmiss, if_pos hmiss]
  · rw [if_neg hmiss, if_neg hmiss]
    by_cases hfront : a ≤ e.next <;> by_cases hback : e.last ≤ z <;> simp [hfront, hback]

/-- The pieces hold the entry's hours outside the removed run. -/
theorem cutEntry_holds (a z h : Nat) (e : Entry) :
    (∃ e' ∈ cutEntry a z e, e'.holds h = true) ↔ e.holds h = true ∧ ¬(a ≤ h ∧ h ≤ z) := by
  rw [cutEntry_eq]
  split
  · simp only [List.mem_singleton, exists_eq_left, holds_iff]
    omega
  · split
    · simp only [List.not_mem_nil, false_and, exists_false, false_iff, holds_iff]
      omega
    · split
      · simp only [List.mem_singleton, exists_eq_left, holds_iff]
        omega
      · split
        · simp only [List.mem_singleton, exists_eq_left, holds_iff]
          omega
        · simp only [List.mem_cons, List.not_mem_nil, or_false, exists_eq_or_imp, exists_eq_left, holds_iff]
          omega

/-- What the removal leaves of each entry: of its key the pieces, of another key the entry. -/
theorem mem_removeHours {i : Fin 24} {d : Direction} {c : Class} {a z : Nat} {es : List Entry} {e' : Entry} :
    e' ∈ removeHours i d c a z es ↔
      ∃ e ∈ es, (e.hasKey i d c = true ∧ e' ∈ cutEntry a z e) ∨ (e.hasKey i d c = false ∧ e' = e) := by
  rw [removeHours, List.mem_flatMap]
  refine exists_congr fun e => and_congr_right fun _ => ?_
  cases e.hasKey i d c <;> simp

theorem removeHours_holds (i : Fin 24) (d : Direction) (c : Class) (a z h : Nat) (es : List Entry) :
    (∃ e ∈ removeHours i d c a z es, e.hasKey i d c = true ∧ e.holds h = true)
      ↔ (∃ e ∈ es, e.hasKey i d c = true ∧ e.holds h = true) ∧ ¬(a ≤ h ∧ h ≤ z) := by
  constructor
  · rintro ⟨e', hmem, hkey, hholds⟩
    obtain ⟨e, he, ⟨hk, hpiece⟩ | ⟨hk, rfl⟩⟩ := mem_removeHours.mp hmem
    · obtain ⟨hh, hout⟩ := (cutEntry_holds a z h e).mp ⟨e', hpiece, hholds⟩
      exact ⟨⟨e, he, hk, hh⟩, hout⟩
    · exact absurd hkey (by simp [hk])
  · rintro ⟨⟨e, he, hk, hh⟩, hout⟩
    obtain ⟨e', hpiece, hholds⟩ := (cutEntry_holds a z h e).mpr ⟨hh, hout⟩
    exact ⟨e', mem_removeHours.mpr ⟨e, he, .inl ⟨hk, hpiece⟩⟩, (cutEntry_key hpiece i d c).trans hk, hholds⟩

theorem removeHours_others (i : Fin 24) (d : Direction) (c : Class) (a z : Nat) (es : List Entry) :
    (removeHours i d c a z es).filter (fun e => !e.hasKey i d c) = es.filter (fun e => !e.hasKey i d c) := by
  induction es with
  | nil => rfl
  | cons e es ih =>
    rw [show removeHours i d c a z (e :: es) = (if e.hasKey i d c = true then cutEntry a z e else [e])
      ++ removeHours i d c a z es from rfl, List.filter_append, ih, List.filter_cons]
    cases hk : e.hasKey i d c with
    | false => simp [hk]
    | true =>
      have hnone : (cutEntry a z e).filter (fun e => !e.hasKey i d c) = [] :=
        List.filter_eq_nil_iff.mpr (fun e' he' => by simp [cutEntry_key he' i d c, hk])
      simp [hnone]

/-- Settles O21: the pieces of each entry of the key are those the overlap gives. -/
theorem removalTakesTheHoursOfOneKey : Obligations.RemovalTakesTheHoursOfOneKey := by
  refine fun i d c a z es => ⟨fun h => removeHours_holds i d c a z h es, removeHours_others i d c a z es, ?_⟩
  unfold removeHours
  refine congrArg (fun f => es.flatMap f) (funext fun e => ?_)
  by_cases hk : e.slot = i ∧ e.dir = d ∧ e.cls = c
  · rw [if_pos (hasKey_iff.mpr hk), cutEntry_eq]
    simp only [hk, not_true_eq_false, false_or, and_self]
  · rw [if_neg (fun h => hk (hasKey_iff.mp h)), if_pos (.inl hk)]

/-! ### The counts of the book statistics (R65, R66) -/

theorem setVec_setVec {α : Type} {n : Nat} (v : Vector α n) (i : Fin n) (x y : α) : setVec (setVec v i x) i y = setVec v i y := by
  apply Vector.ext
  intro j hj
  rw [setVec_getElem, setVec_getElem, setVec_getElem]
  split <;> rfl

/-- The count of a kind moved `n` times. -/
def tally (f : KindCounts → KindCounts) (d : Direction) (c : Class) (n : Nat) (s : State) : State :=
  s.setBook { s.book with stats := { s.book.stats with
    counts := setVec s.book.stats.counts (kindIndex d c) (f^[n] s.book.stats.counts[kindIndex d c]) } }

theorem countKind_eq_tally (f : KindCounts → KindCounts) (id : Nat) (d : Direction) (c : Class) (s : State) :
    countKind f id d c s = tally f d c (passes s id).toNat s := by
  unfold countKind tally
  cases passes s id with
  | true => rfl
  | false =>
    show s = _
    rw [Bool.toNat_false, Function.iterate_zero_apply, setVec_self]
    rfl

theorem tally_zero (f : KindCounts → KindCounts) (d : Direction) (c : Class) (s : State) : tally f d c 0 s = s := by
  rw [tally, Function.iterate_zero_apply, setVec_self]
  rfl

/-- Entries of one kind told and counted, one after the other: the events in that order, and the count of those that pass. -/
theorem foldl_countKind (f : KindCounts → KindCounts) (d : Direction) (c : Class) (tell : Option GasTime → Entry → List Raised)
    (es : List Entry) (hkind : ∀ e ∈ es, e.dir = d ∧ e.cls = c) (s : State) :
    es.foldl (fun t e => countKind f e.shipper e.dir e.cls (t.setEvq (t.evq.pushAll (tell (gasTime t) e)))) s
      = tally f d c (es.filter (fun e => passes s e.shipper)).length
          (s.setEvq (s.evq.pushAll (es.flatMap (tell (gasTime s))))) := by
  induction es generalizing s with
  | nil => exact (tally_zero f d c _).symm
  | cons e es ih =>
    obtain ⟨hd, hc⟩ := hkind e List.mem_cons_self
    rw [List.foldl_cons, countKind_eq_tally, hd, hc, ih (fun e' he' => hkind e' (List.mem_cons_of_mem e he'))]
    have hn : ((e :: es).filter (fun e => passes s e.shipper)).length
        = (es.filter (fun e => passes s e.shipper)).length + (passes s e.shipper).toNat := by
      rw [List.filter_cons]
      cases passes s e.shipper <;> rfl
    rw [hn, List.flatMap_cons, pushAll_append]
    unfold tally
    simp only [State.setBook_book, State.setBook_evq, State.setEvq_book, State.setEvq_evq, setVec_setVec, Function.iterate_add_apply,
      Fin.getElem_fin, setVec_getElem_self]
    rfl

/-- A count raised `n` times stops at its maximum. -/
theorem satSucc_iterate (top n x : Nat) (hx : x ≤ top) : (satSucc top)^[n] x = min (x + n) top := by
  induction n with
  | zero => simp [hx]
  | succ n ih =>
    rw [Function.iterate_succ_apply', ih, satSucc]
    omega

theorem addSuperseded_iterate (n : Nat) (k : KindCounts) :
    KindCounts.addSuperseded^[n] k = { k with superseded := (satSucc 65535)^[n] k.superseded } := by
  induction n with
  | zero => rfl
  | succ n ih => rw [Function.iterate_succ_apply', ih, Function.iterate_succ_apply']; rfl

theorem addCancelled_iterate (n : Nat) (k : KindCounts) :
    KindCounts.addCancelled^[n] k = { k with cancelled := (satSucc 65535)^[n] k.cancelled } := by
  induction n with
  | zero => rfl
  | succ n ih => rw [Function.iterate_succ_apply', ih, Function.iterate_succ_apply']; rfl

theorem addAccepted_iterate (n : Nat) (k : KindCounts) :
    KindCounts.addAccepted^[n] k = { k with accepted := (satSucc 65535)^[n] k.accepted } := by
  induction n with
  | zero => rfl
  | succ n ih => rw [Function.iterate_succ_apply', ih, Function.iterate_succ_apply']; rfl

/-! ### NOMINATE and CANCEL (R45 to R48) -/

theorem metBy_kind {o : Overlap} {i : Fin 24} {d : Direction} {c : Class} {a z : Nat} {es : List Entry} :
    ∀ e ∈ metBy o i d c a z es, e.dir = d ∧ e.cls = c := by
  intro e he
  have hkey := (Bool.and_eq_true _ _ ▸ (List.mem_filter.mp he).2).1
  exact (hasKey_iff.mp hkey).2

/-- The entries removed whole by a nomination, told and counted in book order. -/
theorem noteSuperseded_all {i : Fin 24} {d : Direction} {c : Class} {a z : Nat} {es : List Entry} (s : State) :
    (metBy .whole i d c a z es).foldl (fun t e => noteSuperseded e t) s
      = tally KindCounts.addSuperseded d c ((metBy .whole i d c a z es).filter (fun e => passes s e.shipper)).length
          (s.setEvq (s.evq.pushAll ((metBy .whole i d c a z es).map (fun e =>
            ⟨gasTime s, .superseded, some e.slot.val, some (e.arrival.toNat : Int)⟩)))) := by
  rw [List.map_eq_flatMap]
  exact foldl_countKind KindCounts.addSuperseded d c
    (fun time e => [⟨time, .superseded, some e.slot.val, some (e.arrival.toNat : Int)⟩]) _ metBy_kind s

/-- The entries removed whole by a cancellation, counted. -/
theorem countCancelled_all {i : Fin 24} {d : Direction} {c : Class} {a z : Nat} {es : List Entry} (s : State) :
    (metBy .whole i d c a z es).foldl (fun t e => countKind KindCounts.addCancelled e.shipper e.dir e.cls t) s
      = tally KindCounts.addCancelled d c ((metBy .whole i d c a z es).filter (fun e => passes s e.shipper)).length s := by
  have hnone : (metBy .whole i d c a z es).flatMap (fun _ => ([] : List Raised)) = [] := by simp
  have hfold := foldl_countKind KindCounts.addCancelled d c (fun _ _ => []) _ (metBy_kind (o := .whole) (i := i) (d := d) (c := c)
    (a := a) (z := z) (es := es)) s
  rw [hnone] at hfold
  exact hfold

theorem setEntries_same (s : State) : setEntries s.book.entries s = s := by
  have hcount : filteredCount (s.setBook { s.book with entries := s.book.entries }) = filteredCount s := rfl
  unfold setEntries noteCount
  simp only [hcount, if_true]
  rw [if_neg (by omega)]
  rfl

/-- A removal that meets no entry of the key leaves the list. -/
theorem removeHours_none {i : Fin 24} {d : Direction} {c : Class} {a z : Nat} {es : List Entry}
    (h : ∀ e ∈ es, e.hasKey i d c = true → z < e.next ∨ e.last < a) :
    removeHours i d c a z es = es ∧ metBy .whole i d c a z es = [] := by
  have hmiss (e : Entry) (he : e ∈ es) (hk : e.hasKey i d c = true) : overlap a z e = .untouched := if_pos (h e he hk)
  constructor
  · unfold removeHours
    conv_rhs => rw [← List.flatMap_singleton' es]
    refine List.flatMap_congr fun e he => ?_
    split
    · rename_i hk
      rw [cutEntry_eq, if_pos (h e he hk)]
    · rfl
  · refine List.filter_eq_nil_iff.mpr fun e he => ?_
    intro hmet
    obtain ⟨hk, ho⟩ := (Bool.and_eq_true _ _).mp hmet
    rw [hmiss e he hk] at ho
    exact absurd ho (by decide)

section
variable {s : State} {b : Block} {i : Fin 24} {a : Account} {d : Direction} {c : Class} (hs : s.settled)
  (hclock : clockIsUnset s = false) (hf : findShipper (fieldW b 0) s = some (i, a)) (hd : fieldW b 1 = d.code)
  (hc : fieldW b 2 = c.code) (h4 : fieldW b 4 ≤ 23) (h6 : fieldW b 6 ≤ 23) (hrun : fieldHour b 3 ≤ fieldHour b 5)
  (hsoon : fieldHour b 5 ≤ s.clock.hour + 36)
include hs hclock hf hd hc h4 h6 hrun hsoon

theorem reqNominate_taken (hlen : b.length = 9) (hopen : a.state = .opened) (hq : field2 b 7 ≤ 16000000)
    (hspan : fieldHour b 5 - fieldHour b 3 + 1 ≤ 24) (hlate : s.book.confirmedThrough + 1 ≤ fieldHour b 3)
    (hroom : (removeHours i d c (fieldHour b 3) (fieldHour b 5) s.book.entries).length + 1 ≤ 256) :
    reqNominate b s = nominateEffect i d c b s := by
  have hdir : directionOf (fieldW b 1) = some d := by rw [hd]; cases d <;> rfl
  have hcls : classOf (fieldW b 2) = some c := by rw [hc]; cases c <;> rfl
  have hchecks : firstFailure (settledChecks (b.length == 9) s ++ [(!clockIsUnset s, .clockUnset)]) = none := by
    rw [firstFailure_none]
    intro p hp
    rcases List.mem_append.mp hp with hp | hp
    · exact settledChecks_hold hs (by simp [hlen]) p hp
    · rw [List.mem_singleton.mp hp]
      simp [hclock]
  simp only [reqNominate, hchecks, hf, hdir, hcls]
  refine checked_ok _ _ ?_
  rw [sizeAfterNominate_eq]
  simp [hopen, nominateInRange, h4, h6, hq, hrun, hspan, hsoon, firstUnconfirmed, hlate, hroom]

theorem reqCancel_taken (hlen : b.length = 7) (hopen : a.state ≠ .closing) (hlate : s.book.confirmedThrough + 1 ≤ fieldHour b 5)
    (hroom : metBy .split i d c (cancelFrom b s) (fieldHour b 5) s.book.entries = [] ∨ s.book.entries.length < 256) :
    reqCancel b s = cancelEffect i d c b s := by
  have hdir : directionOf (fieldW b 1) = some d := by rw [hd]; cases d <;> rfl
  have hcls : classOf (fieldW b 2) = some c := by rw [hc]; cases c <;> rfl
  have hchecks : firstFailure (settledChecks (b.length == 7) s ++ [(!clockIsUnset s, .clockUnset)]) = none := by
    rw [firstFailure_none]
    intro p hp
    rcases List.mem_append.mp hp with hp | hp
    · exact settledChecks_hold hs (by simp [hlen]) p hp
    · rw [List.mem_singleton.mp hp]
      simp [hclock]
  simp only [reqCancel, hchecks, hf, hdir, hcls]
  refine checked_ok _ _ ?_
  simp [trades_of_ne hopen, cancelInRange, h4, h6, hrun, hsoon, firstUnconfirmed, hlate, cancelHasRoom, hroom]

end

theorem addAccepted_addSuperseded (k : KindCounts) (m n : Nat) (hm : k.accepted ≤ 65535) (hn : k.superseded ≤ 65535) :
    KindCounts.addAccepted^[m] (KindCounts.addSuperseded^[n] k)
      = { k with accepted := min (k.accepted + m) 65535, superseded := min (k.superseded + n) 65535 } := by
  rw [addAccepted_iterate, addSuperseded_iterate]
  dsimp only
  rw [satSucc_iterate 65535 m _ hm, satSucc_iterate 65535 n _ hn]

section
variable (i : Fin 24) (d : Direction) (c : Class) (a z : Nat) (s : State)

/-- The hours `a` to `z` of a key superseded: the key cut, the entries gone told and counted. -/
def supersede : State :=
  (metBy .whole i d c a z s.book.entries).foldl (fun t e => noteSuperseded e t) (setEntries (removeHours i d c a z s.book.entries) s)

theorem supersede_eq : supersede i d c a z s =
    tally KindCounts.addSuperseded d c ((metBy .whole i d c a z s.book.entries).filter (fun e => passes s e.shipper)).length
      ((setEntries (removeHours i d c a z s.book.entries) s).setEvq (s.evq.pushAll ((metBy .whole i d c a z s.book.entries).map
        (fun e => ⟨gasTime s, .superseded, some e.slot.val, some (e.arrival.toNat : Int)⟩)))) :=
  noteSuperseded_all _

theorem supersede_book : (supersede i d c a z s).book.entries = removeHours i d c a z s.book.entries
    ∧ (supersede i d c a z s).book.nextArrival = s.book.nextArrival
    ∧ (supersede i d c a z s).book.confirmedThrough = s.book.confirmedThrough
    ∧ (supersede i d c a z s).book.stats.filter = s.book.stats.filter
    ∧ (supersede i d c a z s).book.stats.counts = setVec s.book.stats.counts (kindIndex d c)
      (KindCounts.addSuperseded^[((metBy .whole i d c a z s.book.entries).filter (fun e => passes s e.shipper)).length]
        s.book.stats.counts[kindIndex d c]) := by
  rw [supersede_eq]
  exact ⟨rfl, rfl, rfl, rfl, rfl⟩

theorem supersede_evq : (supersede i d c a z s).evq = s.evq.pushAll ((metBy .whole i d c a z s.book.entries).map
    (fun e => ⟨gasTime s, .superseded, some e.slot.val, some (e.arrival.toNat : Int)⟩)) := by
  rw [supersede_eq]
  rfl

theorem supersede_parts : s.changesOnly [.book, .evq] (supersede i d c a z s) := by
  rw [supersede_eq]
  intro p hp
  cases p <;> first | rfl | exact absurd (by decide) hp
end

/-- A nomination's entry appended and counted, the arrival number moved on. -/
def appendEntry (e : Entry) (s : State) : State :=
  let s2 := setEntries (s.book.entries ++ [e]) s
  countKind KindCounts.addAccepted e.shipper e.dir e.cls (s2.setBook { s2.book with nextArrival := e.arrival + 1 })

theorem appendEntry_eq (e : Entry) (s : State) : appendEntry e s =
    tally KindCounts.addAccepted e.dir e.cls (passes s e.shipper).toNat
      ((setEntries (s.book.entries ++ [e]) s).setBook
        { (setEntries (s.book.entries ++ [e]) s).book with nextArrival := e.arrival + 1 }) :=
  countKind_eq_tally _ _ _ _ _

theorem appendEntry_book (e : Entry) (s : State) : (appendEntry e s).book.entries = s.book.entries ++ [e]
    ∧ (appendEntry e s).book.nextArrival = e.arrival + 1
    ∧ (appendEntry e s).book.confirmedThrough = s.book.confirmedThrough
    ∧ (appendEntry e s).book.stats.counts = setVec s.book.stats.counts (kindIndex e.dir e.cls)
      (KindCounts.addAccepted^[(passes s e.shipper).toNat] s.book.stats.counts[kindIndex e.dir e.cls]) := by
  rw [appendEntry_eq]
  exact ⟨rfl, rfl, rfl, rfl⟩

theorem appendEntry_parts (e : Entry) (s : State) : s.changesOnly [.book] (appendEntry e s) := by
  rw [appendEntry_eq]
  intro p hp
  cases p <;> first | rfl | exact absurd (by decide) hp

/-- A nomination is the key superseded, then the entry appended. -/
theorem nominateEffect_after (i : Fin 24) (d : Direction) (c : Class) (b : Block) (s : State) :
    (nominateEffect i d c b s).after = appendEntry (nominatedEntry s.book.nextArrival i d c b)
      (supersede i d c (fieldHour b 3) (fieldHour b 5) s) := rfl

/-- A cancellation: the key cut, the entries gone counted. -/
theorem cancelEffect_after (i : Fin 24) (d : Direction) (c : Class) (b : Block) (s : State) : (cancelEffect i d c b s).after =
    tally KindCounts.addCancelled d c
      ((metBy .whole i d c (cancelFrom b s) (fieldHour b 5) s.book.entries).filter (fun e => passes s e.shipper)).length
      (setEntries (removeHours i d c (cancelFrom b s) (fieldHour b 5) s.book.entries) s) :=
  countCancelled_all _

/-- Settles O36: the hours go from the key, and the counts move by the entries that pass the filter. -/
theorem nominateAndCancelRewriteTheKey : Obligations.NominateAndCancelRewriteTheKey := by
  refine ⟨fun s b c _ => keepsItsChecks_all c s, fun s b i a d c hs hclock hf hd hc h4 h6 hrun hsoon => ⟨?_, ?_⟩⟩
  · intro hlen hopen hq hspan hlate hroom gone
    refine ⟨(nominateEffect i d c b s).after, exec_answer rfl hs.1.1
      (reqNominate_taken hs hclock hf hd hc h4 h6 hrun hsoon hlen hopen hq hspan hlate hroom), ?_⟩
    rw [nominateEffect_after]
    obtain ⟨hentries, _, hthrough, hfilter, hcounts⟩ := supersede_book i d c (fieldHour b 3) (fieldHour b 5) s
    have hevq := supersede_evq i d c (fieldHour b 3) (fieldHour b 5) s
    have hparts := supersede_parts i d c (fieldHour b 3) (fieldHour b 5) s
    generalize supersede i d c (fieldHour b 3) (fieldHour b 5) s = x at hentries hthrough hfilter hcounts hevq hparts ⊢
    obtain ⟨hentries', hnext, hthrough', hcounts'⟩ := appendEntry_book (nominatedEntry s.book.nextArrival i d c b) x
    have hparts' := appendEntry_parts (nominatedEntry s.book.nextArrival i d c b) x
    refine ⟨hentries'.trans (by rw [hentries]; rfl), hnext, hthrough'.trans hthrough,
      (hparts' .evq (by decide)).trans hevq, fun hacc hsup => ?_,
      changesOnly_trans hparts (changesOnly_mono hparts' (by decide))⟩
    rw [hcounts', hcounts]
    have hpass : passes x (fieldW b 0) = passes s (fieldW b 0) := by rw [passes, hfilter, passes]
    show setVec (setVec s.book.stats.counts (kindIndex d c) _) (kindIndex d c)
      (KindCounts.addAccepted^[(passes x (fieldW b 0)).toNat] (setVec s.book.stats.counts (kindIndex d c) _)[kindIndex d c]) = _
    rw [setVec_setVec, Fin.getElem_fin, setVec_getElem_self, addAccepted_addSuperseded _ _ _ hacc hsup, hpass]
    rfl
  · intro hlen hopen hlate f hroom
    refine ⟨(cancelEffect i d c b s).after, exec_answer rfl hs.1.1
      (reqCancel_taken hs hclock hf hd hc h4 h6 hrun hsoon hlen hopen hlate hroom), ?_⟩
    rw [cancelEffect_after]
    refine ⟨rfl, rfl, rfl, fun hcan => ?_, fun hnone => ?_, fun p hp => ?_⟩
    · show setVec s.book.stats.counts _ (KindCounts.addCancelled^[_] s.book.stats.counts[kindIndex d c]) = _
      rw [addCancelled_iterate, satSucc_iterate 65535 _ _ hcan]
      rfl
    · obtain ⟨hsame, hgone⟩ := removeHours_none hnone
      rw [show cancelFrom b s = f from rfl, hsame, hgone, setEntries_same]
      exact congrArg State.book (tally_zero _ d c s)
    · cases p <;> first | rfl | exact absurd (by decide) hp

end Sys2Proof.Machine
end

section
/-! SUPPORT. One induction over the account table: what the moves of its records and of the SBA cannot break, its requests and
the completion of a settlement keep (chapter 2, R82 to R88). -/

namespace Sys2Proof.Machine

/-- The parts other than those that name an account, a curve or a record's configuration. -/
def asideParts : List Part := [.pending, .world, .elapsed, .clock, .meter, .book, .sched, .settle, .flow, .link, .evq, .sup, .store]

/-- The curve that a ratchet names, if any, is written. -/
def namedWritten (s : State) (c : Option (Fin 16)) : Prop := ∀ k : Fin 16, c = some k → s.curves[k] ≠ []

/-- An entry of the SBA made in two states that agree on the accounts and the configuration leaves them in agreement. -/
theorem addToSba_aside {s t : State} (h : s.changesOnly asideParts t) (d : Int) :
    (addToSba d s).changesOnly asideParts (addToSba d t) := by
  have hacct : t.acct = s.acct := h .acct (by decide)
  have hsite : t.site = s.site := h .site (by decide)
  have hleft := does_addToSba s d
  have hright := does_addToSba t d
  intro p hp
  cases p
  case acct =>
    show (addToSba d t).acct = (addToSba d s).acct
    rw [addToSba_acct, addToSba_acct, hacct, hsite]
  case site => exact ((hright.site_eq (by decide)).trans hsite).trans (hleft.site_eq (by decide)).symm
  case curves => exact ((hright.curves_eq (by decide)).trans (h .curves (by decide))).trans (hleft.curves_eq (by decide)).symm
  case duty => exact ((hright.duty_eq (by decide)).trans (h .duty (by decide))).trans (hleft.duty_eq (by decide)).symm
  case dry => exact ((hright.dry_eq (by decide)).trans (h .dry (by decide))).trans (hleft.dry_eq (by decide)).symm
  all_goals exact absurd (by decide) hp

/-! ### The stages of a settlement by name (R75 to R84) -/

section
variable (k : Intake) (s : State)

/-- The deviation stage of the hour. -/
def deviationOf : Deviation :=
  deviate (netNominations s k.records) (k.qb - (netNominations s k.records).sum) s.site.tolerance

/-- The consumption stage of the hour. -/
def consumptionOf : Consumption := consume (netNominations s k.records) k.fc k.fd

/-- What the hour adds to each slot. -/
def changesOf : List Int := List.zipWith (fun (a : Int) (x : Nat) => a - x) (deviationOf k s).allocations (consumptionOf k s).charges

/-- The part with the hour posted. -/
def posted : State := postHour k (deviationOf k s) (consumptionOf k s) (changesOf k s) s

/-- After the posting the settlement of an hour writes records, not accounts. -/
theorem settleHour_aside : (posted k s).changesOnly asideParts (settleHour k s) := by
  refine Does.parts ?_
  dsimp only [settleHour]
  refine Does.trans ?_ (acts_raise _ _ _ _ (by decide)).does
  refine Does.trans ?_ (acts_setClock _ _ (by decide)).does
  refine Does.trans ?_ (acts_setSched _ _ (by decide)).does
  refine Does.trans ?_ (acts_setSettle _ _ (by decide)).does
  exact .refl _ (posted k s)
end

/-- A predicate of the part that the moves of the account table cannot break: each is given with what its request checks. -/
structure AcctKept (P : State → Prop) : Prop where
  aside : ∀ s t, s.changesOnly asideParts t → P s → P t
  queue : ∀ s l n, P s → P (s.setAcct { s.acct with transfers := l, nextTransfer := n })
  opened : ∀ s i a, s.acct.slots[i] = none → a.inventory = 0 → findSlot a.shipper s = none →
    namedWritten s a.injCurve → namedWritten s a.wdrCurve → P s → P (putSlot i (some a) s)
  rewritten : ∀ s i a c, s.acct.slots[i] = some a → c.shipper = a.shipper → c.inventory = a.inventory →
    (c.spaceRight = a.spaceRight ∨ a.inventory ≤ c.spaceRight) →
    (c.injCurve = a.injCurve ∨ namedWritten s c.injCurve) → (c.wdrCurve = a.wdrCurve ∨ namedWritten s c.wdrCurve) →
    P s → P (putSlot i (some c) s)
  adjusted : ∀ s i a (q : Int), s.acct.slots[i] = some a → 0 ≤ a.inventory + q → a.inventory + q ≤ a.spaceRight →
    P s → P (addToSba (-q) (putSlot i (some { a with inventory := a.inventory + q }) s))
  moved : ∀ s i j a c (q : Nat), s.acct.slots[i] = some a → s.acct.slots[j] = some c → (q : Int) ≤ a.inventory →
    (q : Int) ≤ c.spaceRight - c.inventory → P s → P (addInventory j q (addInventory i (-(q : Int)) s))
  released : ∀ s i a, s.acct.slots[i] = some a → P s → P (addToSba a.inventory (putSlot i none s))
  posting : ∀ k s, P s → P (posted k s)

/-- A lookup that finds a shipper finds the slot that holds the record. -/
theorem slot_of_findShipper {s : State} {id : Nat} {i : Fin 24} {a : Account} (h : findShipper id s = some (i, a)) :
    s.acct.slots[i] = some a := (findShipper_slot h).1

theorem curveField_named {s : State} {b : Block} {i : Nat} (h : ratchetFieldOk s (fieldCurve b i) = true) :
    namedWritten s (fieldCurve b i).id := by
  intro k hk
  cases hf : fieldCurve b i with
  | absent => rw [hf] at hk; exact absurd hk nofun
  | bad => rw [hf] at hk; exact absurd hk nofun
  | curve j =>
    rw [hf] at hk h
    cases hk
    simpa [ratchetFieldOk, curveWritten] using h

theorem rightsOk_named {s : State} {b : Block} (h : rightsOk b s = true) :
    namedWritten s (fieldCurve b 8).id ∧ namedWritten s (fieldCurve b 9).id := by
  simp only [rightsOk, Bool.and_eq_true] at h
  obtain ⟨⟨_, hinj⟩, hwdr⟩ := h
  exact ⟨curveField_named hinj, curveField_named hwdr⟩

namespace AcctKept

variable {P : State → Prop} (hP : AcctKept P) {s : State} (b : Block)
include hP

theorem raise (k : EventKind) (x : Option Nat) (y : Option Int) (h : P s) : P (raise k x y s) :=
  hP.aside s _ (acts_raise (ps := asideParts) s k x y (by decide)).parts h

/-! #### The requests (R24 to R33) -/

theorem reqAccountOpen (h : P s) : P (reqAccountOpen b s).after := by
  dsimp only [Machine.reqAccountOpen]
  split
  · exact h
  · next hchecks =>
    split
    · exact h
    · next i hi =>
      rw [firstFailure_none] at hchecks
      have hrange := hchecks (_, .range) (List.mem_append_right _ List.mem_cons_self)
      have hfree := hchecks (_, .state) (List.mem_append_right _ (List.mem_cons_of_mem _ List.mem_cons_self))
      obtain ⟨hinj, hwdr⟩ := rightsOk_named (Bool.and_eq_true _ _ ▸ hrange).2
      exact hP.opened s i (openedRecord b) (emptySlot_spec hi).1 rfl (Option.isNone_iff_eq_none.mp hfree) hinj hwdr h

theorem reqAccountAmend (h : P s) : P (reqAccountAmend b s).after := by
  dsimp only [Machine.reqAccountAmend]
  split
  · exact h
  · split
    · exact h
    · next i a hf =>
      refine checked_after _ h fun hchecks => ?_
      have hrange := hchecks (_, .range) (List.mem_cons_of_mem _ List.mem_cons_self)
      have hspace := hchecks (_, .range) (List.mem_cons_of_mem _ (List.mem_cons_of_mem _ List.mem_cons_self))
      obtain ⟨hinj, hwdr⟩ := rightsOk_named hrange
      exact hP.rewritten s i a (a.amended b) (slot_of_findShipper hf) rfl rfl (.inr (of_decide_eq_true hspace)) (.inr hinj)
        (.inr hwdr) h

theorem moveAccount {i : Fin 24} {a : Account} (hi : s.acct.slots[i] = some a) (source target : AccountState) (h : P s) :
    P (moveAccount i a source target s).after := by
  dsimp only [Machine.moveAccount]
  split
  · exact hP.rewritten s i a { a with state := target } hi rfl rfl (.inl rfl) (.inl rfl) (.inl rfl) h
  · exact h

theorem reqAccountSuspend (h : P s) : P (reqAccountSuspend b s).after := by
  dsimp only [Machine.reqAccountSuspend]
  split
  · exact h
  · split
    · exact h
    · next hf =>
      split
      · exact hP.moveAccount (slot_of_findShipper hf) _ _ h
      · exact hP.moveAccount (slot_of_findShipper hf) _ _ h
      · exact h

theorem reqAccountClose (h : P s) : P (reqAccountClose b s).after := by
  dsimp only [Machine.reqAccountClose]
  split
  · exact h
  · split
    · exact h
    · next i a hf =>
      refine checked_after _ h fun _ => hP.aside _ _ ((does_setEntries _ _).mono (by decide)).parts ?_
      exact hP.rewritten s i a { a with state := .closing } (slot_of_findShipper hf) rfl rfl (.inl rfl) (.inl rfl) (.inl rfl) h

theorem reqAccountRead (h : P s) : P (reqAccountRead b s).after := by
  dsimp only [Machine.reqAccountRead]
  split
  · exact h
  · split
    · exact h
    · split
      · exact h
      · next i _ _ a hi => exact hP.rewritten s i a _ hi rfl rfl (.inl rfl) (.inl rfl) (.inl rfl) h

theorem reqAccountAdjust (h : P s) : P (reqAccountAdjust b s).after := by
  dsimp only [Machine.reqAccountAdjust]
  split
  · exact h
  · split
    · exact h
    · next i a hf =>
      refine checked_after _ h fun hchecks => ?_
      have hfits := hchecks (_, .range)
        (List.mem_cons_of_mem _ (List.mem_cons_of_mem _ List.mem_cons_self))
      obtain ⟨hlow, hhigh⟩ := (Bool.and_eq_true _ _).mp hfits
      exact hP.adjusted s i a _ (slot_of_findShipper hf) (of_decide_eq_true hlow) (of_decide_eq_true hhigh) h

theorem reqTransfer (h : P s) : P (reqTransfer b s).after := by
  dsimp only [Machine.reqTransfer]
  exact checked_after _ h fun _ => hP.queue s _ _ h

/-! #### The completion of a settlement (R34 to R36, R70) -/

theorem executeTransfer (t : Transfer) (h : P s) : P (executeTransfer t s) := by
  have hfail (code : Nat) : P (failTransfer t code s) := hP.raise _ _ _ h
  dsimp only [Machine.executeTransfer]
  split
  · next i a j c hi hj =>
    split_ifs with _ hlow hroom
    · exact hfail _
    · exact hfail _
    · exact hfail _
    · exact hP.raise _ _ _ (hP.moved s i j a c t.quantity (slot_of_findShipper hi) (slot_of_findShipper hj) (not_lt.mp hlow)
        (not_lt.mp hroom) h)
  · exact hfail _

theorem executeTransfers (h : P s) : P (executeTransfers s) :=
  hP.queue _ _ _ (foldl_preserves P Machine.executeTransfer s.acct.transfers (fun t _ _ hu => hP.executeTransfer t hu) s h)

theorem releaseSlot (i : Fin 24) (h : P s) : P (releaseSlot i s) := by
  dsimp only [Machine.releaseSlot]
  split
  · exact h
  · next a hi =>
    split
    · refine hP.aside (addToSba a.inventory (putSlot i none s)) _ (addToSba_aside ?_ _) (hP.released s i a hi h)
      intro p hp
      cases p <;> first | rfl | exact absurd (by decide) hp
    · exact h

theorem accountStep (h : P s) : P (accountStep s) :=
  foldl_preserves P Machine.releaseSlot _ (fun i _ _ hu => hP.releaseSlot i hu) _ (hP.executeTransfers h)

theorem completionStep (h : P s) : P (completionStep s) := by
  have hstep := hP.accountStep h
  have hconfirmed := hP.aside _ _ ((does_confirmation (Machine.accountStep s)).mono (by decide)).parts hstep
  have hidle := hP.aside _ _ (acts_setSettle (ps := asideParts) _ { (confirmation (Machine.accountStep s)).settle with inFlight := none }
    (by decide)).parts hconfirmed
  exact hP.aside _ _ ((does_beginCommit _).mono (by decide)).parts hidle

theorem completeSettlement (h : P s) : P (completeSettlement s) := by
  dsimp only [Machine.completeSettlement]
  split
  · exact h
  · exact hP.completionStep (hP.aside _ _ (settleHour_aside _ s) (hP.posting _ s h))

theorem settleFirst (h : P s) : P (settleFirst s) := by
  dsimp only [Machine.settleFirst]
  split
  · exact hP.completeSettlement h
  · exact h

/-! #### By code -/

end AcctKept

/-- The codes of the requests that move an account. -/
def accountCodes : List Byte := [0x20, 0x21, 0x22, 0x23, 0x24, 0x25, 0x26]

theorem AcctKept.request {P : State → Prop} (hP : AcctKept P) {code : Byte} {req : Block → State → Answer}
    (hreq : requestOf code = some req) (hc : code ∈ accountCodes) (b : Block) {s : State} (h : P s) : P (req b s).after := by
  simp only [accountCodes, List.mem_cons, List.not_mem_nil, or_false] at hc
  rcases hc with rfl | rfl | rfl | rfl | rfl | rfl | rfl <;> cases hreq
  · exact hP.reqAccountOpen b h
  · exact hP.reqAccountAmend b h
  · exact hP.reqAccountSuspend b h
  · exact hP.reqAccountClose b h
  · exact hP.reqAccountRead b h
  · exact hP.reqAccountAdjust b h
  · exact hP.reqTransfer b h

/-! ### Requests and blocks that leave the accounts and the site settings alone -/

theorem acct_mem_requestParts : ∀ code : Byte, (Part.acct ∈ requestParts code ∨ Part.site ∈ requestParts code) →
    code ∈ accountCodes ∨ code = 0x38 ∨ code = 0x52 ∨ code = 0x53 := by decide

section
variable {P : State → Prop} (hP : AcctKept P) (hframe : ∀ s t, t.acct = s.acct → t.site = s.site → P s → P t)
include hP hframe

/-- A predicate of the accounts and the site settings is kept by every request but those that take an image. -/
theorem AcctKept.request_all (hsite : ∀ b s, P s → P (reqSiteSet b s).after) {code : Byte} {req : Block → State → Answer}
    (hreq : requestOf code = some req) (hload : code ≠ 0x52) (hinit : code ≠ 0x53) (b : Block) {s : State} (h : P s) :
    P (req b s).after := by
  by_cases hparts : Part.acct ∈ requestParts code ∨ Part.site ∈ requestParts code
  · rcases acct_mem_requestParts code hparts with hc | rfl | rfl | rfl
    · exact hP.request hreq hc b h
    · cases hreq
      exact hsite b s h
    · exact absurd rfl hload
    · exact absurd rfl hinit
  · obtain ⟨hacct, hsiteParts⟩ := not_or.mp hparts
    by_cases hdrain : code = 0x03
    · subst hdrain
      cases hreq
      exact hframe _ _ (reqEventDrain_parts b s .acct nofun) (reqEventDrain_parts b s .site nofun) h
    · have hdoes := does_request hreq hdrain b s
      exact hframe _ _ (hdoes.acct_eq hacct) (hdoes.site_eq hsiteParts) h

/-- So it is by every command of the blocks but the restore. -/
theorem AcctKept.block_all {c : Instr} (hc : ofBlocks c = true) (hrestore : ∀ r, c ≠ .restoreReadDone r) {s t : State} (h : P s)
    (ht : Machine.exec c s = .next t) : P t := by
  have hsecond (u : State) (hu : P u) : P (oneOf clockSecond [fun t => clockSecond (gapWatch t)] u) := by
    have hdoes : Does hourParts u (oneOf clockSecond [fun t => clockSecond (gapWatch t)] u) := by
      refine does_oneOf _ _ (by decide) (fun g hg u => ?_) _
      rcases List.mem_pair.mp hg with rfl | rfl
      · exact does_clockSecond u
      · exact ((does_gapWatch u).mono (by decide)).trans (does_clockSecond _)
    exact hframe _ _ (hdoes.acct_eq (by decide)) (hdoes.site_eq (by decide)) hu
  have hboundary (u : State) (hu : P u) : P (gathered (inAnyOrder (boundaryActs s.clock.hour)) (endHour u)) := by
    have hdoes : Does hourParts u (gathered (inAnyOrder (boundaryActs s.clock.hour)) (endHour u)) :=
      ((does_endHour u).mono (by decide)).trans (does_gathered_of (by decide) (by decide)
        (fun v => does_inAnyOrder _ (by decide) (fun f hf w => (does_boundaryActs _ f hf w).mono (by decide)) v) _)
    exact hframe _ _ (hdoes.acct_eq (by decide)) (hdoes.site_eq (by decide)) hu
  cases c
  case gasClockSecond =>
    cases ht
    exact hsecond _ (hP.settleFirst (hframe s (s.setElapsed (s.elapsed + 1)) rfl rfl h))
  case hourBoundary =>
    cases ht
    split
    · exact hboundary _ (hP.settleFirst h)
    · exact h
  case settlementCompletion =>
    cases ht
    exact hP.completeSettlement h
  case restoreReadDone r => exact absurd rfl (hrestore r)
  all_goals first
    | exact absurd hc Bool.false_ne_true
    | obtain ⟨u, hu, hdoes⟩ := does_block hc s
      obtain rfl : u = t := by rw [ht] at hu; cases hu; rfl
      exact hframe _ _ (hdoes.acct_eq (by simp [blockParts, dutyParts, flowParts, supervisionParts]))
        (hdoes.site_eq (by simp [blockParts, dutyParts, flowParts, supervisionParts])) h
end

end Sys2Proof.Machine
end

section
/-! SUPPORT. What every step keeps of the event queue, the SBA alert and the load buffer (R22, R38, R167, R169). -/

namespace Sys2Proof.Machine

/-! ### The event queue (R167, R169) -/

theorem numbered_append (n : Word) (es : List Event) (e : Event) :
    numbered n (es ++ [e]) = (numbered n es && decide (e.seq = n + BitVec.ofNat 16 es.length)) := by
  induction es generalizing n with
  | nil => simp [numbered]
  | cons x es ih =>
    rw [List.cons_append, numbered, ih, numbered, Bool.and_assoc, List.length_cons]
    congr 3
    rw [eq_iff_iff]
    constructor <;> intro h <;> rw [h] <;> bv_omega

theorem numbered_tail {n : Word} {es : List Event} (h : numbered n es = true) : numbered (n + 1) es.tail = true := by
  cases es with
  | nil => rfl
  | cons e es => exact ((Bool.and_eq_true _ _).mp h).2

theorem numbered_drop {n : Word} {es : List Event} (k : Nat) (h : numbered n es = true) :
    numbered (n + BitVec.ofNat 16 k) (es.drop k) = true := by
  induction k generalizing n es with
  | zero => simpa using h
  | succ k ih =>
    have hdrop := ih (numbered_tail h)
    rw [List.drop_tail] at hdrop
    rw [show n + BitVec.ofNat 16 (k + 1) = n + 1 + BitVec.ofNat 16 k by bv_omega]
    exact hdrop

/-- An entry appended keeps the queue within 64, numbered to the next number. -/
theorem push_queueSafe (q : EventQueue) (t : Option GasTime) (k : EventKind) (a : Option Nat) (b : Option Int)
    (h : queueSafe q = true) : queueSafe (q.push t k a b) = true := by
  simp only [queueSafe, Bool.and_eq_true, Bool.not_eq_true', decide_eq_true_eq] at h
  obtain ⟨⟨hgather, hlen⟩, hnum⟩ := h
  have hlast (es : List Event) (hes : numbered (q.nextSeq - BitVec.ofNat 16 es.length) es = true) :
      numbered (q.nextSeq + 1 - BitVec.ofNat 16 (es.length + 1)) (es ++ [⟨q.nextSeq, t, k, a, b⟩]) = true := by
    rw [show q.nextSeq + 1 - BitVec.ofNat 16 (es.length + 1) = q.nextSeq - BitVec.ofNat 16 es.length by bv_omega,
      numbered_append, hes, Bool.true_and]
    exact decide_eq_true (by show q.nextSeq = _; bv_omega)
  dsimp only [EventQueue.push]
  by_cases hroom : q.entries.length < 64
  · rw [if_pos (by simp [hroom])]
    simp only [queueSafe, hgather, List.length_append, List.length_singleton, Bool.and_eq_true, decide_eq_true_eq]
    exact ⟨⟨rfl, by omega⟩, hlast _ hnum⟩
  · rw [if_neg (by simp [hroom, hgather])]
    have htail : q.entries.tail.length = 63 := by rw [List.length_tail]; omega
    have hshift := numbered_tail hnum
    rw [show q.nextSeq - BitVec.ofNat 16 q.entries.length + 1 = q.nextSeq - BitVec.ofNat 16 q.entries.tail.length by
      rw [htail, show q.entries.length = 64 by omega]; bv_omega] at hshift
    simp only [queueSafe, hgather, List.length_append, List.length_singleton, Bool.and_eq_true, decide_eq_true_eq]
    exact ⟨⟨rfl, by omega⟩, hlast _ hshift⟩

/-- What appends to the queue keeps it safe. -/
theorem Does.queueSafe {ps : List Part} {s t : State} (h : Does ps s t) (hs : queueSafe s.evq = true) : queueSafe t.evq = true := by
  obtain ⟨l, hl⟩ := h.appends
  rw [hl]
  exact pushAll_preserves _ push_queueSafe s.evq l hs

/-- The oldest entries taken leave the rest numbered. -/
theorem drop_queueSafe {q : EventQueue} (k : Nat) (h : queueSafe q = true) :
    queueSafe { q with entries := q.entries.drop k, overwrites := 0 } = true := by
  simp only [queueSafe, Bool.and_eq_true, Bool.not_eq_true', decide_eq_true_eq] at h ⊢
  obtain ⟨⟨hgather, hlen⟩, hnum⟩ := h
  refine ⟨⟨hgather, by rw [List.length_drop]; omega⟩, ?_⟩
  have hdrop := numbered_drop (min k q.entries.length) hnum
  have hsame : q.entries.drop (min k q.entries.length) = q.entries.drop k := by
    rcases Nat.le_total k q.entries.length with hk | hk
    · rw [Nat.min_eq_left hk]
    · rw [Nat.min_eq_right hk, List.drop_length, List.drop_eq_nil_of_le hk]
  rw [hsame] at hdrop
  convert hdrop using 2
  rw [List.length_drop]
  bv_omega

theorem reqEventDrain_queueSafe (b : Block) {s : State} (h : queueSafe s.evq = true) :
    queueSafe (reqEventDrain b s).after.evq = true :=
  checked_after (P := fun t => queueSafe t.evq = true) _ h fun _ => drop_queueSafe 4 h

theorem queueKept : ExecKept (fun s => queueSafe s.evq = true) where
  setLink _ _ h := h
  setSup _ _ h := h
  request code req hreq b s h := by
    by_cases hdrain : code = 0x03
    · subst hdrain
      cases hreq
      exact reqEventDrain_queueSafe b h
    · exact (does_request hreq hdrain b s).queueSafe h
  restart c s _ := by
    show queueSafe ⟨[_], 1, 0, false⟩ = true
    simp [queueSafe, numbered]
  blocks c hc s t h ht := by
    obtain ⟨u, hu, hdoes⟩ := does_block hc s
    obtain rfl : u = t := by rw [ht] at hu; cases hu; rfl
    exact hdoes.queueSafe h

/-! ### The SBA alert (R22, R38) -/

theorem alertSafe_congr {s t : State} (hacct : t.acct.sba = s.acct.sba) (halert : t.acct.alert = s.acct.alert)
    (hsite : t.site = s.site) : alertSafe t = alertSafe s := by
  rw [alertSafe, alertSafe, hacct, halert, hsite]

/-- Whatever the SBA moves by, the alert is evaluated. -/
theorem addToSba_alertSafe (d : Int) (s : State) : alertSafe (addToSba d s) = true := by
  rw [alertSafe, addToSba_acct, (does_addToSba s d).site_eq (by decide)]
  exact decide_eq_true rfl

theorem evaluateAlert_alertSafe (s : State) : alertSafe (evaluateAlert s) = true := by
  have hzero : evaluateAlert s = addToSba 0 s := by
    rw [addToSba, Int.add_zero]
    rfl
  rw [hzero]
  exact addToSba_alertSafe 0 s

theorem aside_alertSafe {s t : State} (h : s.changesOnly asideParts t) : alertSafe t = alertSafe s := by
  have hacct : t.acct = s.acct := h .acct (by decide)
  exact alertSafe_congr (by rw [hacct]) (by rw [hacct]) (h .site (by decide))

theorem addInventory_alertSafe (i : Fin 24) (d : Int) (s : State) : alertSafe (addInventory i d s) = alertSafe s := by
  dsimp only [addInventory]
  split <;> rfl

theorem postSlot_alertSafe (i : Fin 24) (d : Int) {s : State} (h : alertSafe s = true) : alertSafe (postSlot i d s) = true := by
  dsimp only [postSlot]
  split
  · exact h
  · split_ifs
    · exact addToSba_alertSafe _ _
    · exact addToSba_alertSafe _ _
    · exact h

theorem postSba_alertSafe (d : Int) {s : State} (h : alertSafe s = true) : alertSafe (postSba d s) = true := by
  dsimp only [postSba]
  split
  · exact h
  · exact addToSba_alertSafe _ _

theorem alertSafe_totals (s : State) (booked charged : Int) :
    alertSafe (s.setAcct { s.acct with booked := booked, charged := charged }) = alertSafe s := rfl

theorem postHour_alertSafe (k : Intake) (dv : Deviation) (c : Consumption) (changes : List Int) {s : State}
    (h : alertSafe s = true) : alertSafe (postHour k dv c changes s) = true := by
  have hslots := foldl_preserves (fun u => alertSafe u = true) (fun i => postSlot i (changes.getD i.val 0))
    (List.finRange 24) (fun i _ _ hu => postSlot_alertSafe i _ hu) _
    (postSba_alertSafe (-(c.dryingLeft : Int)) (postSba_alertSafe (-(c.fuelLeft : Int)) (postSba_alertSafe dv.uncovered
      (postSba_alertSafe dv.tolerance h))))
  dsimp only [postHour]
  rw [alertSafe_totals]
  exact hslots

theorem alertAcct : AcctKept (fun s => alertSafe s = true) where
  aside _ _ hst h := (aside_alertSafe hst).trans h
  queue _ _ _ h := h
  opened _ _ _ _ _ _ _ _ h := h
  rewritten _ _ _ _ _ _ _ _ _ _ h := h
  adjusted _ _ _ _ _ _ _ _ := addToSba_alertSafe _ _
  moved _ _ _ _ _ _ _ _ _ _ h := (addInventory_alertSafe _ _ _).trans ((addInventory_alertSafe _ _ _).trans h)
  released _ _ _ _ _ := addToSba_alertSafe _ _
  posting k _ h := postHour_alertSafe k _ _ _ h

/-- Of actions in an order the world takes, one that reaches a predicate that all keep leaves it holding. -/
theorem inAnyOrder_establishes (Q : State → Prop) {fs : List (State → State)} {f : State → State} (hf : f ∈ fs)
    (hreach : ∀ s, Q (f s)) (hkeep : ∀ g ∈ fs, ∀ s, Q s → Q (g s)) (s : State) : Q (inAnyOrder fs s) := by
  obtain ⟨p, hperm, n, he⟩ := inAnyOrder_cases fs s
  obtain ⟨as, bs, rfl⟩ := List.append_of_mem (hperm.mem_iff.mpr hf)
  rw [he, inOrder, List.foldl_append, List.foldl_cons]
  exact inOrder_preserves Q bs
    (fun g hg => hkeep g (hperm.mem_iff.mp (List.mem_append_right _ (List.mem_cons_of_mem _ hg)))) _ (hreach _)

theorem frame_alertSafe {s t : State} (hacct : t.acct = s.acct) (hsite : t.site = s.site) (h : alertSafe s = true) :
    alertSafe t = true :=
  (alertSafe_congr (by rw [hacct]) (by rw [hacct]) hsite).trans h

theorem Does.alertSafe {ps : List Part} {s t : State} (h : Does ps s t) (ha : Part.acct ∉ ps) (hg : Part.site ∉ ps)
    (hs : alertSafe s = true) : alertSafe t = true := frame_alertSafe (h.acct_eq ha) (h.site_eq hg) hs

@[simp] theorem gathered_alertSafe (f : State → State) (s : State) : alertSafe (gathered f s) = alertSafe (f s.gatheringEvents) := rfl

@[simp] theorem raise_alertSafe (k : EventKind) (a : Option Nat) (b : Option Int) (s : State) :
    alertSafe (raise k a b s) = alertSafe s := rfl

@[simp] theorem setSup_alertSafe (x : Supervision) (s : State) : alertSafe (s.setSup x) = alertSafe s := rfl

@[simp] theorem setStore_alertSafe (x : Store) (s : State) : alertSafe (s.setStore x) = alertSafe s := rfl

theorem applySite_alertSafe (g : Site) (s : State) : alertSafe (applySite g s) = true := by
  dsimp only [applySite]
  rw [gathered_alertSafe]
  refine (inAnyOrder_establishes (fun u => alertSafe u = true)
    (f := evaluateAlert) (List.mem_append_right _ List.mem_cons_self) evaluateAlert_alertSafe (fun f hf u hu => ?_) _)
  simp only [List.mem_append, List.mem_cons, List.not_mem_nil, or_false] at hf
  rcases hf with ((rfl | rfl) | hf) | rfl
  · exact (does_handInjection (ps := dutyParts) (by decide) u (by decide)).alertSafe (by decide) (by decide) hu
  · exact (does_handWithdrawal (ps := flowParts) (by decide) u).alertSafe (by decide) (by decide) hu
  · split at hf
    · obtain rfl := List.mem_singleton.mp hf
      exact (does_confirmation u).alertSafe (by decide) (by decide) hu
    · exact absurd hf List.not_mem_nil
  · exact evaluateAlert_alertSafe u

theorem takeImage_alertSafe (m : Image) (s : State) : alertSafe (takeImage m s) = true := decide_eq_true rfl

theorem restoreBlocks_alertSafe (m : Image) (s : State) : alertSafe (restoreBlocks m s) = true := by
  dsimp only [restoreBlocks]
  rw [setSup_alertSafe]
  exact ((does_takeUnitsAndTrains (takeImage m s) _ _ m).alertSafe (by decide) (by decide) (takeImage_alertSafe m s))

theorem adopt_alertSafe (n : BitVec 32) (m : Image) (s : State) : alertSafe (adopt n m s) = true := by
  have hnoted : alertSafe (noteCount (filteredCount s) (takeImage m s)) = true := takeImage_alertSafe m s
  dsimp only [adopt, beginNumbered]
  rw [setStore_alertSafe, setStore_alertSafe, setSup_alertSafe]
  exact ((does_takeUnitsAndTrains _ (fun u => u.startAges) Train.held m).alertSafe (by decide) (by decide) hnoted)

theorem restoreRead_alertSafe (readOk : Bool) {s : State} (h : alertSafe s = true) : alertSafe (restoreRead readOk s) = true := by
  dsimp only [restoreRead]
  split
  · split
    · rw [setStore_alertSafe]
      exact restoreBlocks_alertSafe _ s
    · split
      · have hfailed := (does_failMarked (restoreBlocks Image.default s)).alertSafe (by decide) (by decide)
          (restoreBlocks_alertSafe Image.default s)
        rw [raise_alertSafe, setStore_alertSafe]
        exact hfailed
      · exact h
  · exact h

theorem alertKept : ExecKept (fun s => alertSafe s = true) where
  setLink _ _ h := h
  setSup _ _ h := h
  request code req hreq b s h := by
    by_cases hload : code = 0x52
    · subst hload
      cases hreq
      exact reqStoreLoadEnd_after (P := fun t => alertSafe t = true) b h fun n m _ _ => adopt_alertSafe n m _
    · by_cases hinit : code = 0x53
      · subst hinit
        cases hreq
        exact checked_after (P := fun t => alertSafe t = true) _ h fun _ => adopt_alertSafe _ _ s
      · exact alertAcct.request_all (fun s t => frame_alertSafe)
          (fun b s h => checked_after (P := fun t => alertSafe t = true) _ h fun _ => applySite_alertSafe _ s) hreq hload hinit b h
  restart _ _ _ := decide_eq_true rfl
  blocks c hc s t h ht := by
    by_cases hrestore : ∃ r, c = .restoreReadDone r
    · obtain ⟨r, rfl⟩ := hrestore
      cases ht
      exact restoreRead_alertSafe r h
    · exact alertAcct.block_all (fun s t => frame_alertSafe) hc (fun r hr => hrestore ⟨r, hr⟩) h ht

/-! ### The load buffer and the store (R175, R176) -/

theorem beginNumbered_store (n : BitVec 32) (u : State) :
    (beginNumbered n u).store = { u.store with phase := .committing n (snapshot (beginNumbered n u)) } := rfl

/-- A settlement brought to its end leaves the store, or begins a commit of the part as it then stands. -/
theorem completeSettlement_store (s : State) : (completeSettlement s).store = s.store
    ∨ ∃ n, (completeSettlement s).store = { s.store with phase := .committing n (snapshot (completeSettlement s)) } := by
  dsimp only [completeSettlement]
  split
  · exact .inl rfl
  · next k _ =>
    dsimp only [completionStep]
    generalize hu : (confirmation (accountStep (settleHour k s))).setSettle _ = u
    have hkept : u.store = s.store := by
      rw [← hu, State.setSettle_store]
      exact
      ((does_confirmation _).store_eq (by decide)).trans (((does_accountStep _).store_eq (by decide)).trans
        ((does_settleHour s k).store_eq (by decide)))
    dsimp only [beginCommit]
    split
    · exact .inl hkept
    · exact .inr ⟨_, (beginNumbered_store _ u).trans (by rw [hkept])⟩

theorem settleFirst_store (s : State) : (settleFirst s).store = s.store
    ∨ ∃ n, (settleFirst s).store = { s.store with phase := .committing n (snapshot (settleFirst s)) } := by
  dsimp only [settleFirst]
  split
  · exact completeSettlement_store s
  · exact .inl rfl

/-- A predicate of the load buffer holds of a commit begun too. -/
theorem settleFirst_buffer (s : State) : (settleFirst s).store.buffer = s.store.buffer := by
  rcases settleFirst_store s with h | ⟨n, h⟩ <;> rw [h]

theorem completeSettlement_buffer (s : State) : (completeSettlement s).store.buffer = s.store.buffer := by
  rcases completeSettlement_store s with h | ⟨n, h⟩ <;> rw [h]

theorem failMarked_buffer (s : State) : (failMarked s).store.buffer = s.store.buffer := by
  dsimp only [failMarked]
  split <;> rfl

theorem restoreRead_buffer (readOk : Bool) (s : State) : (restoreRead readOk s).store.buffer = s.store.buffer := by
  dsimp only [restoreRead]
  split
  · split
    · rw [State.setStore_store, restoreBlocks_store]
    · split
      · rw [raise_store, State.setStore_store, failMarked_buffer, restoreBlocks_store]
      · rfl
  · rfl

theorem adopt_buffer (n : BitVec 32) (m : Image) (s : State) : (adopt n m s).store.buffer = s.store.buffer := by
  dsimp only [adopt, beginNumbered]
  rw [State.setStore_store, State.setStore_store, State.setSup_store, (does_takeUnitsAndTrains _ _ _ m).store_eq (by decide)]
  rfl

theorem endCommit_buffer (whole : Bool) (s : State) : (endCommit whole s).store.buffer = s.store.buffer := by
  dsimp only [endCommit]
  split
  · split <;> rfl
  · rfl

theorem store_mem_requestParts : ∀ code : Byte, Part.store ∈ requestParts code → code = 0x51 ∨ code = 0x52 ∨ code = 0x53 := by
  decide

theorem request_bufferWf {code : Byte} {req : Block → State → Answer} (hreq : requestOf code = some req) (b : Block) (s : State)
    (h : bufferWf s.store.buffer = true) : bufferWf (req b s).after.store.buffer = true := by
  by_cases hparts : Part.store ∈ requestParts code
  · rcases store_mem_requestParts code hparts with rfl | rfl | rfl <;> cases hreq
    · refine checked_after (P := fun t => bufferWf t.store.buffer = true) _ h fun hchecks => ?_
      have hlen : b.length = 33 := eq_of_beq (hchecks (b.length == 33, .badLength) List.mem_cons_self)
      have hplace : fieldW b 0 ≤ 383 := of_decide_eq_true (hchecks (decide (fieldW b 0 ≤ 383), .range) (by simp))
      exact writeWords_wf _ _ _ (by rw [List.length_drop]; omega) h
    · refine reqStoreLoadEnd_after (P := fun t => bufferWf t.store.buffer = true) b h fun n m _ _ => ?_
      rw [adopt_buffer]
      rfl
    · refine checked_after (P := fun t => bufferWf t.store.buffer = true) _ h fun _ => ?_
      show bufferWf (adopt 1 Image.default s).store.buffer = true
      rw [adopt_buffer]
      exact h
  · by_cases hdrain : code = 0x03
    · subst hdrain
      cases hreq
      rw [reqEventDrain_parts b s .store nofun]
      exact h
    · rw [(does_request hreq hdrain b s).store_eq hparts]
      exact h

theorem block_buffer {c : Instr} (hc : ofBlocks c = true) {s t : State} (ht : exec c s = .next t) :
    t.store.buffer = s.store.buffer := by
  cases c
  case gasClockSecond =>
    cases ht
    obtain ⟨g, hg, n, hone⟩ := oneOf_cases clockSecond [fun t => clockSecond (gapWatch t)] (settleFirst (s.setElapsed (s.elapsed + 1)))
    rw [hone]
    rcases List.mem_pair.mp hg with rfl | rfl
    · rw [clockSecond_store, State.setWorld_store, settleFirst_buffer]
      rfl
    · dsimp only
      rw [clockSecond_store, (does_gapWatch _).store_eq (by decide), State.setWorld_store, settleFirst_buffer]
      rfl
  case hourBoundary =>
    cases ht
    split
    · have hdoes : Does hourParts (settleFirst s) (gathered (inAnyOrder (boundaryActs s.clock.hour)) (endHour (settleFirst s))) :=
        ((does_endHour _).mono (by decide)).trans (does_gathered_of (by decide) (by decide)
          (fun v => does_inAnyOrder _ (by decide) (fun f hf w => (does_boundaryActs _ f hf w).mono (by decide)) v) _)
      rw [hdoes.store_eq (by decide), settleFirst_buffer]
    · rfl
  case settlementCompletion =>
    cases ht
    exact completeSettlement_buffer s
  case restoreReadDone r =>
    cases ht
    exact restoreRead_buffer r s
  case commitEnd w =>
    cases ht
    exact endCommit_buffer w s
  all_goals first
    | exact absurd hc Bool.false_ne_true
    | obtain ⟨u, hu, hdoes⟩ := does_block hc s
      obtain rfl : u = t := by rw [ht] at hu; cases hu; rfl
      rw [hdoes.store_eq (by simp [blockParts, dutyParts, flowParts, supervisionParts])]

theorem bufferKept : ExecKept (fun s => bufferWf s.store.buffer = true) where
  setLink _ _ h := h
  setSup _ _ h := h
  request _ _ hreq b s h := request_bufferWf hreq b s h
  restart _ _ _ := rfl
  blocks _ hc _ _ h ht := by
    rw [block_buffer hc ht]
    exact h

/-- Settles O15: appending and draining keep the numbers, each change of the SBA evaluates the alert, and a block of the load
buffer is written in place. -/
theorem everyStepKeepsQueueAlertAndBuffer : Obligations.EveryStepKeepsQueueAlertAndBuffer := by
  refine fun s t ht => ⟨fun h => ?_, fun h => ?_, fun h => ?_⟩
  · exact queueKept.step (fun _ _ h => h) h ht
  · exact alertKept.step (fun _ _ h => h) h ht
  · exact bufferKept.step (fun _ _ h => h) h ht

end Sys2Proof.Machine
end

section
/-! SUPPORT. The divisions of a settlement (R76 to R81): what a side's slots are dealt. -/

namespace Sys2Proof.Machine

/-! ### A round's shares, in proportion -/

section
variable (a : Nat) (ps : List Participant) (h : ∀ p ∈ ps, p.total = 0 ∧ p.isOpen = true) {i : Nat} {p : Participant}
  (hp : ps[i]? = some p) (hw : 0 < (ps.map (·.weight)).sum)
include h hp hw

/-- Of the first round a share is the part in proportion, or one more where that part was rounded down. -/
theorem dealtShare_proportion :
    dealtShare a ps i p = a * p.weight / (ps.map (·.weight)).sum
    ∨ (dealtShare a ps i p = a * p.weight / (ps.map (·.weight)).sum + 1 ∧ 0 < a * p.weight % (ps.map (·.weight)).sum) := by
  have howeight : openWeight ps = (ps.map (·.weight)).sum := openWeight_of_open ps h
  rw [dealtShare_of_open a ps h hp]
  split
  · next hahead =>
    refine .inr ⟨rfl, Nat.pos_of_ne_zero fun hzero => ?_⟩
    have hrem : remainderOf a (openWeight ps) p = 0 := by
      rw [remainderOf, if_pos (h p (List.mem_of_getElem? hp)).2, howeight, hzero]
    have hle := unitsLeft_le_aheadOf a ps (howeight ▸ hw) hp hrem
    omega
  · exact .inl rfl

/-- A share stands within a unit of the proportion. -/
theorem dealtShare_near :
    dealtShare a ps i p * (ps.map (·.weight)).sum < a * p.weight + (ps.map (·.weight)).sum
      ∧ a * p.weight < dealtShare a ps i p * (ps.map (·.weight)).sum + (ps.map (·.weight)).sum := by
  have hdiv := Nat.div_add_mod (a * p.weight) (ps.map (·.weight)).sum
  have hmod := Nat.mod_lt (a * p.weight) hw
  rw [Nat.mul_comm] at hdiv
  rcases dealtShare_proportion a ps h hp hw with he | ⟨he, hpos⟩ <;> rw [he]
  · omega
  · rw [Nat.add_mul, Nat.one_mul]
    omega

/-- An amount within the weights is dealt within the weights. -/
theorem dealtShare_le_weight (ha : a ≤ (ps.map (·.weight)).sum) : dealtShare a ps i p ≤ p.weight := by
  have hle : a * p.weight ≤ p.weight * (ps.map (·.weight)).sum := by
    rw [Nat.mul_comm a]
    exact Nat.mul_le_mul_left _ ha
  rcases dealtShare_proportion a ps h hp hw with he | ⟨he, hpos⟩ <;> rw [he]
  · exact Nat.div_le_of_le_mul (hle.trans (Nat.mul_comm _ _).le)
  · have hdiv := Nat.div_add_mod (a * p.weight) (ps.map (·.weight)).sum
    refine Nat.lt_of_mul_lt_mul_left (a := (ps.map (·.weight)).sum) ?_
    have hcomm := Nat.mul_comm p.weight (ps.map (·.weight)).sum
    omega
end

/-! ### The slots of a side (R78, R81) -/

theorem sum_le_of_getElem? {xs ys : List Nat} (hlen : xs.length = ys.length)
    (h : ∀ (i x y : Nat), xs[i]? = some x → ys[i]? = some y → x ≤ y) : xs.sum ≤ ys.sum := by
  induction xs generalizing ys with
  | nil => exact Nat.zero_le _
  | cons x xs ih =>
    cases ys with
    | nil => exact absurd hlen (by simp)
    | cons y ys =>
      rw [List.sum_cons, List.sum_cons]
      exact Nat.add_le_add (h 0 x y rfl rfl) (ih (Nat.succ.inj hlen) fun i => h (i + 1))

section
variable (side : Int) (capped : Bool) (ns : List Int)

/-- Whether a net nomination is of a side. -/
def bears (n : Int) : Bool := decide (0 < n * side)

/-- What the slots of a side come to. -/
def reachOf : Nat := ((ns.filter (bears side)).map Int.natAbs).sum

/-- The participant of a slot. -/
def sideParticipant (n : Int) (i : Nat) : Participant :=
  if 0 < n * side then Participant.start i n.natAbs (if capped then some n.natAbs else none) else Participant.start i 0 (some 0)

theorem sideParticipants_getElem? (i : Nat) :
    (sideParticipants side capped ns)[i]? = (ns[i]?).map (fun n => sideParticipant side capped n i) := by
  rw [sideParticipants, List.getElem?_map, List.getElem?_zipIdx, Nat.zero_add]
  cases ns[i]? <;> rfl

theorem sideParticipants_length : (sideParticipants side capped ns).length = ns.length := by
  simp [sideParticipants]

theorem sideParticipant_open (n : Int) (i : Nat) :
    (sideParticipant side capped n i).total = 0 ∧ (sideParticipant side capped n i).isOpen = true := by
  unfold sideParticipant
  split <;> exact ⟨rfl, rfl⟩

theorem sideParticipants_open : ∀ p ∈ sideParticipants side capped ns, p.total = 0 ∧ p.isOpen = true := by
  intro p hp
  obtain ⟨i, hi⟩ := List.mem_iff_getElem?.mp hp
  rw [sideParticipants_getElem?, Option.map_eq_some_iff] at hi
  obtain ⟨n, _, rfl⟩ := hi
  exact sideParticipant_open side capped n i

theorem sideParticipant_weight (n : Int) (i : Nat) :
    (sideParticipant side capped n i).weight = if bears side n then n.natAbs else 0 := by
  unfold sideParticipant bears
  split
  · next h => rw [decide_eq_true h]; rfl
  · next h => rw [decide_eq_false h]; rfl

theorem sum_filter_map (p : Int → Bool) (l : List Int) :
    ((l.filter p).map Int.natAbs).sum = (l.map (fun n => if p n then n.natAbs else 0)).sum := by
  induction l with
  | nil => rfl
  | cons n l ih =>
    rw [List.filter_cons, List.map_cons, List.sum_cons, ← ih]
    cases p n <;> simp

theorem sideParticipants_weight : ((sideParticipants side capped ns).map (·.weight)).sum = reachOf side ns := by
  rw [reachOf, sum_filter_map]
  refine congrArg List.sum (List.ext_getElem? fun i => ?_)
  rw [List.getElem?_map, sideParticipants_getElem?, List.getElem?_map]
  cases ns[i]? with
  | none => rfl
  | some n => exact congrArg some (sideParticipant_weight side capped n i)

/-- The shares of a side within its reach, or without caps: the first round's. -/
theorem sideShares_first (e : Nat) (hreach : 0 < reachOf side ns) (hfits : capped = false ∨ e ≤ reachOf side ns) :
    (divide e (sideParticipants side capped ns)).uncovered = 0
      ∧ ∀ (i : Nat) (p : Participant), (sideParticipants side capped ns)[i]? = some p →
        (divide e (sideParticipants side capped ns)).shares[i]? = some (dealtShare e (sideParticipants side capped ns) i p) := by
  have hopen := sideParticipants_open side capped ns
  have hweight := sideParticipants_weight side capped ns
  have hw : 0 < openWeight (sideParticipants side capped ns) := by rw [openWeight_of_open _ hopen, hweight]; exact hreach
  refine divide_of_first_round e _ hw (fun i p hp _ c hc => ?_) fun p hp => (hopen p hp).1
  obtain ⟨n, _, rfl⟩ := Option.map_eq_some_iff.mp ((sideParticipants_getElem? side capped ns i).symm.trans hp)
  by_cases hb : 0 < n * side
  · have hcap : (sideParticipant side capped n i).cap = if capped then some n.natAbs else none := by
      rw [sideParticipant, if_pos hb]; rfl
    rw [hcap] at hc
    rcases hfits with rfl | hle
    · exact absurd hc nofun
    · cases capped with
      | false => exact absurd hc nofun
      | true =>
        cases hc
        have hlew := dealtShare_le_weight e _ hopen hp (hweight ▸ hreach) (hweight ▸ hle)
        rw [sideParticipant_weight, bears, decide_eq_true hb] at hlew
        exact hlew
  · have hzero : (sideParticipant side capped n i).weight = 0 := by
      rw [sideParticipant_weight, bears, decide_eq_false hb]; rfl
    rw [dealtShare_zero e _ hw hp hzero]
    exact Nat.zero_le c

/-- What a slot of the side carries in all. -/
def carriedBy (n : Int) : Nat := if bears side n then n.natAbs else 0

theorem sideParticipant_cap (n : Int) (i : Nat) : (sideParticipant side capped n i).cap =
    if capped = false ∧ bears side n = true then none else some (carriedBy side n) := by
  unfold sideParticipant carriedBy bears
  split
  · next h => cases capped <;> simp [Participant.start, h]
  · next h => simp [Participant.start, h]

theorem reachOf_eq : reachOf side ns = (ns.map (carriedBy side)).sum := sum_filter_map (bears side) ns

/-- A share of a capped side lies within what its slot carries, and is that where an amount is left. -/
theorem sideShares_capped (e : Nat) {i : Nat} {n : Int} (hn : ns[i]? = some n) :
    ∃ x : Nat, (divide e (sideParticipants side true ns)).shares[i]? = some x ∧ x ≤ carriedBy side n
      ∧ ((divide e (sideParticipants side true ns)).uncovered ≠ 0 → x = carriedBy side n) := by
  have hp : (sideParticipants side true ns)[i]? = some (sideParticipant side true n i) := by
    rw [sideParticipants_getElem?, hn]
    rfl
  have hcap : (sideParticipant side true n i).cap = some (carriedBy side n) := by
    rw [sideParticipant_cap]
    exact if_neg fun h => absurd h.1 nofun
  obtain ⟨x, hx, hle, hzero, hleft⟩ := divide_share e _ (sideParticipants_open side true ns) hp
  refine ⟨x, hx, hle _ hcap, fun hu => ?_⟩
  rcases hleft hu with h0 | hx
  · rw [hzero h0, carriedBy, ← sideParticipant_weight side true n i, h0]
  · exact (Option.some.inj (hcap.symm.trans hx)).symm

theorem divide_of_weightless (e : Nat) {ps : List Participant} (hw : openWeight ps = 0) : (divide e ps).uncovered = e := by
  simp [divide, divideRounds, hw]

/-- What is left of the amount: all of it where the side is empty, else what a capped side cannot carry. -/
theorem sideShares_uncovered (e : Nat) : (divide e (sideParticipants side capped ns)).uncovered =
    if reachOf side ns = 0 then e else if capped = false then 0 else e - reachOf side ns := by
  have hopen := sideParticipants_open side capped ns
  by_cases hreach : reachOf side ns = 0
  · rw [if_pos hreach]
    exact divide_of_weightless e (by rw [openWeight_of_open _ hopen, sideParticipants_weight, hreach])
  · rw [if_neg hreach]
    have hpos := Nat.pos_of_ne_zero hreach
    cases capped with
    | false => exact (sideShares_first side false ns e hpos (.inl rfl)).1
    | true =>
      rw [if_neg nofun]
      by_cases hfits : e ≤ reachOf side ns
      · rw [(sideShares_first side true ns e hpos (.inr hfits)).1, Nat.sub_eq_zero_of_le hfits]
      · have hsum := divide_sum e _ hopen
        have hlen : (divide e (sideParticipants side true ns)).shares.length = (ns.map (carriedBy side)).length := by
          rw [divide_length e _ hopen, sideParticipants_length, List.length_map]
        have hplace {i y : Nat} (hy : (ns.map (carriedBy side))[i]? = some y) : ∃ n, ns[i]? = some n ∧ carriedBy side n = y := by
          rwa [List.getElem?_map, Option.map_eq_some_iff] at hy
        have hle : (divide e (sideParticipants side true ns)).shares.sum ≤ reachOf side ns := by
          rw [reachOf_eq]
          refine sum_le_of_getElem? hlen fun i x y hx hy => ?_
          obtain ⟨n, hn, rfl⟩ := hplace hy
          obtain ⟨x', hx', hcap, _⟩ := sideShares_capped side ns e hn
          exact (Option.some.inj (hx.symm.trans hx')) ▸ hcap
        have hge : reachOf side ns ≤ (divide e (sideParticipants side true ns)).shares.sum := by
          rw [reachOf_eq]
          refine sum_le_of_getElem? hlen.symm fun i y x hy hx => ?_
          obtain ⟨n, hn, rfl⟩ := hplace hy
          obtain ⟨x', hx', _, hfull⟩ := sideShares_capped side ns e hn
          exact (Option.some.inj (hx.symm.trans hx')) ▸ (hfull (by omega)).ge
        omega

theorem carriedBy_le (n : Int) : carriedBy side n ≤ n.natAbs := by
  unfold carriedBy
  split
  · exact le_rfl
  · exact Nat.zero_le _

theorem bears_reach {i : Nat} {n : Int} (hn : ns[i]? = some n) (hb : bears side n = true) : 0 < reachOf side ns := by
  have hmem : n.natAbs ∈ (ns.filter (bears side)).map Int.natAbs :=
    List.mem_map_of_mem (List.mem_filter.mpr ⟨List.mem_of_getElem? hn, hb⟩)
  have hpos : 0 < n.natAbs := Int.natAbs_pos.mpr fun h0 => by
    rw [h0, bears, Int.zero_mul] at hb
    exact absurd hb (by decide)
  exact lt_of_lt_of_le hpos (List.single_le_sum (fun _ _ => Nat.zero_le _) _ hmem)

/-- What a slot's share is: nothing off the side, in proportion within the reach, the slot's whole net beyond it. -/
theorem sideShares_spec (e : Nat) {i : Nat} {n : Int} (hn : ns[i]? = some n) :
    ∃ x : Nat, (divide e (sideParticipants side capped ns)).shares[i]? = some x
      ∧ (bears side n = false → x = 0) ∧ (capped = true → x ≤ n.natAbs)
      ∧ (bears side n = true → (capped = false ∨ e ≤ reachOf side ns) →
          (x * reachOf side ns : Int) - e * n.natAbs < reachOf side ns
          ∧ (e * n.natAbs : Int) - x * reachOf side ns < reachOf side ns)
      ∧ (bears side n = true → capped = true → reachOf side ns < e → x = n.natAbs) := by
  have hopen := sideParticipants_open side capped ns
  have hp : (sideParticipants side capped ns)[i]? = some (sideParticipant side capped n i) := by
    rw [sideParticipants_getElem?, hn]
    rfl
  obtain ⟨x, hx, _, hzero, _⟩ := divide_share e _ hopen hp
  refine ⟨x, hx, fun hb => hzero ?_, fun hc => ?_, fun hb hfits => ?_, fun hb hc hbeyond => ?_⟩
  · rw [sideParticipant_weight, hb]
    rfl
  · subst hc
    obtain ⟨x', hx', hle, _⟩ := sideShares_capped side ns e hn
    exact (Option.some.inj (hx.symm.trans hx')) ▸ hle.trans (carriedBy_le side n)
  · have hreach := bears_reach side ns hn hb
    have hshare := (sideShares_first side capped ns e hreach hfits).2 i _ hp
    obtain ⟨hlow, hhigh⟩ := dealtShare_near e _ hopen hp (by rw [sideParticipants_weight]; exact hreach)
    rw [Option.some.inj (hx.symm.trans hshare)]
    rw [sideParticipants_weight, sideParticipant_weight, if_pos hb] at hlow hhigh
    zify at hlow hhigh
    simp only [Int.natCast_natAbs]
    constructor <;> omega
  · subst hc
    have hreach := bears_reach side ns hn hb
    obtain ⟨x', hx', _, hfull⟩ := sideShares_capped side ns e hn
    rw [Option.some.inj (hx.symm.trans hx'), hfull, carriedBy, if_pos hb]
    rw [sideShares_uncovered, if_neg hreach.ne', if_neg nofun]
    omega
end

/-! ### The two stages (R76 to R81) -/

theorem sum_zipWith_add_mul (s : Int) (ns : List Int) (xs : List Nat) (hlen : xs.length = ns.length) :
    (List.zipWith (fun n (x : Nat) => n + s * (x : Int)) ns xs).sum = ns.sum + s * (xs.sum : Nat) := by
  induction ns generalizing xs with
  | nil => obtain rfl := List.length_eq_zero_iff.mp hlen; simp
  | cons n ns ih =>
    cases xs with
    | nil => exact absurd hlen nofun
    | cons x xs =>
      rw [List.zipWith_cons_cons, List.sum_cons, List.sum_cons, List.sum_cons, ih xs (Nat.succ.inj hlen)]
      push_cast
      ring

section
variable (ns : List Int) (d : Int) (band : Nat)

/-- What lies beyond the tolerance. -/
def excessOfBand : Int := d - d.sign * band

/-- The side that the excess falls on. -/
def sideOf : Int := if ns.sum = 0 then (excessOfBand d band).sign else ns.sum.sign

/-- Whether the excess is opposed to the net. -/
def opposed : Bool := decide (ns.sum ≠ 0) && decide ((excessOfBand d band).sign ≠ ns.sum.sign)

theorem opposed_iff : opposed ns d band = true ↔ (excessOfBand d band).sign ≠ sideOf ns d band := by
  unfold opposed sideOf
  by_cases h : ns.sum = 0 <;> simp [h]

/-- The shares of the excess. -/
def excessShares : Division := divide (excessOfBand d band).natAbs (sideParticipants (sideOf ns d band) (opposed ns d band) ns)

theorem deviate_within (h : d.natAbs ≤ band) : deviate ns d band = ⟨d, 0, ns⟩ := if_pos h

theorem deviate_beyond (h : band < d.natAbs) : deviate ns d band = ⟨d.sign * band,
    (excessOfBand d band).sign * (excessShares ns d band).uncovered,
    List.zipWith (fun n (x : Nat) => n + (excessOfBand d band).sign * (x : Int)) ns (excessShares ns d band).shares⟩ := by
  rw [deviate, if_neg (Nat.not_le.mpr h)]
  simp only [bind_pure_comp, List.map_eq_map, List.zipWith_map_right]
  rfl

theorem excessShares_length : (excessShares ns d band).shares.length = ns.length :=
  (divide_length _ _ (sideParticipants_open _ _ ns)).trans (sideParticipants_length _ _ ns)

theorem deviate_length : (deviate ns d band).allocations.length = ns.length := by
  by_cases h : d.natAbs ≤ band
  · rw [deviate_within ns d band h]
  · rw [deviate_beyond ns d band (Nat.not_le.mp h), List.length_zipWith, excessShares_length, Nat.min_self]

/-- The deviation stage loses no gas. -/
theorem deviate_sum : (deviate ns d band).allocations.sum + (deviate ns d band).tolerance + (deviate ns d band).uncovered
    = ns.sum + d := by
  by_cases h : d.natAbs ≤ band
  · rw [deviate_within ns d band h]
    ring
  · rw [deviate_beyond ns d band (Nat.not_le.mp h), sum_zipWith_add_mul _ _ _ (excessShares_length ns d band)]
    have hsum := divide_sum (excessOfBand d band).natAbs _ (sideParticipants_open (sideOf ns d band) (opposed ns d band) ns)
    have hrest : (excessOfBand d band).sign * ((excessShares ns d band).shares.sum : Nat)
        + (excessOfBand d band).sign * ((excessShares ns d band).uncovered : Nat) = d - d.sign * band := by
      rw [← Int.mul_add, ← Nat.cast_add]
      exact (congrArg (fun n : Nat => (excessOfBand d band).sign * (n : Int)) hsum).trans (Int.sign_mul_natAbs _)
    dsimp only
    omega
end

section
variable (ns : List Int) (fc fd : Nat)

theorem consume_length : (consume ns fc fd).charges.length = ns.length := by
  have ha := divide_length fc _ (sideParticipants_open 1 false ns)
  have hb := divide_length fd _ (sideParticipants_open (-1) false ns)
  rw [sideParticipants_length] at ha hb
  show (List.zipWith (· + ·) _ _).length = _
  rw [List.length_zipWith, ha, hb, Nat.min_self]

theorem sum_zipWith_add (xs ys : List Nat) (h : xs.length = ys.length) : (List.zipWith (· + ·) xs ys).sum = xs.sum + ys.sum := by
  induction xs generalizing ys with
  | nil => obtain rfl := List.length_eq_zero_iff.mp h.symm; rfl
  | cons x xs ih =>
    cases ys with
    | nil => exact absurd h nofun
    | cons y ys =>
      rw [List.zipWith_cons_cons, List.sum_cons, List.sum_cons, List.sum_cons, ih ys (Nat.succ.inj h)]
      omega

/-- The consumption stage loses no gas. -/
theorem consume_sum : (consume ns fc fd).charges.sum + (consume ns fc fd).fuelLeft + (consume ns fc fd).dryingLeft = fc + fd := by
  have ha := divide_sum fc _ (sideParticipants_open 1 false ns)
  have hb := divide_sum fd _ (sideParticipants_open (-1) false ns)
  show (List.zipWith (· + ·) (divide fc (sideParticipants 1 false ns)).shares (divide fd (sideParticipants (-1) false ns)).shares).sum
    + (divide fc (sideParticipants 1 false ns)).uncovered + (divide fd (sideParticipants (-1) false ns)).uncovered = fc + fd
  rw [sum_zipWith_add _ _ (by rw [divide_length fc _ (sideParticipants_open 1 false ns),
    divide_length fd _ (sideParticipants_open (-1) false ns), sideParticipants_length, sideParticipants_length])]
  omega

theorem bears_one (n : Int) : bears 1 n = decide (0 < n) := by rw [bears, Int.mul_one]

theorem bears_negOne (n : Int) : bears (-1) n = decide (n < 0) := by
  rw [bears]
  exact decide_eq_decide.mpr (by omega)

theorem consume_charge {i : Nat} {n : Int} (hn : ns[i]? = some n) :
    ∃ x : Nat, (consume ns fc fd).charges[i]? = some x ∧ (n = 0 → x = 0)
      ∧ (0 < n → (x * reachOf 1 ns : Int) - fc * n.natAbs < reachOf 1 ns ∧ (fc * n.natAbs : Int) - x * reachOf 1 ns < reachOf 1 ns)
      ∧ (n < 0 → (x * reachOf (-1) ns : Int) - fd * n.natAbs < reachOf (-1) ns
          ∧ (fd * n.natAbs : Int) - x * reachOf (-1) ns < reachOf (-1) ns) := by
  obtain ⟨x, hx, hx0, _, hxnear, _⟩ := sideShares_spec 1 false ns fc hn
  obtain ⟨y, hy, hy0, _, hynear, _⟩ := sideShares_spec (-1) false ns fd hn
  rw [bears_one] at hx0 hxnear
  rw [bears_negOne] at hy0 hynear
  have hsum : (consume ns fc fd).charges[i]? = some (x + y) := by
    show (List.zipWith (· + ·) _ _)[i]? = _
    rw [List.getElem?_zipWith, hx, hy]
  rcases lt_trichotomy n 0 with hlt | heq | hgt
  · refine ⟨x + y, hsum, fun h => absurd h (by omega), fun h => absurd h (by omega), fun _ => ?_⟩
    rw [hx0 (decide_eq_false (by omega)), Nat.zero_add]
    exact hynear (decide_eq_true hlt) (.inl rfl)
  · exact ⟨x + y, hsum, fun _ => by rw [hx0 (decide_eq_false (by omega)), hy0 (decide_eq_false (by omega))],
      fun h => absurd h (by omega), fun h => absurd h (by omega)⟩
  · refine ⟨x + y, hsum, fun h => absurd h (by omega), fun _ => ?_, fun h => absurd h (by omega)⟩
    rw [hy0 (decide_eq_false (by omega)), Nat.add_zero]
    exact hxnear (decide_eq_true hgt) (.inl rfl)
end

/-- What beyond the tolerance falls on a slot. -/
theorem deviate_allocation {ns : List Int} {d : Int} {band : Nat} (h : band < d.natAbs) {i : Nat} {n : Int} (hn : ns[i]? = some n) :
    ∃ x : Nat, (deviate ns d band).allocations[i]? = some (n + (excessOfBand d band).sign * (x : Int))
      ∧ (bears (sideOf ns d band) n = false → x = 0)
      ∧ ((excessOfBand d band).sign ≠ sideOf ns d band → x ≤ n.natAbs)
      ∧ (bears (sideOf ns d band) n = true →
          ((excessOfBand d band).sign = sideOf ns d band ∨ (excessOfBand d band).natAbs ≤ reachOf (sideOf ns d band) ns) →
          (x * reachOf (sideOf ns d band) ns : Int) - (excessOfBand d band).natAbs * n.natAbs < reachOf (sideOf ns d band) ns
          ∧ ((excessOfBand d band).natAbs * n.natAbs : Int) - x * reachOf (sideOf ns d band) ns < reachOf (sideOf ns d band) ns)
      ∧ (bears (sideOf ns d band) n = true → (excessOfBand d band).sign ≠ sideOf ns d band →
          reachOf (sideOf ns d band) ns < (excessOfBand d band).natAbs → x = n.natAbs) := by
  obtain ⟨x, hx, hzero, hcap, hnear, hfull⟩ :=
    sideShares_spec (sideOf ns d band) (opposed ns d band) ns (excessOfBand d band).natAbs hn
  refine ⟨x, ?_, hzero, fun hne => hcap ((opposed_iff ns d band).mpr hne), fun hb hor => hnear hb (hor.imp_left fun heq => ?_),
    fun hb hne => hfull hb ((opposed_iff ns d band).mpr hne)⟩
  · rw [deviate_beyond ns d band h, List.getElem?_zipWith, hn]
    rw [show (excessShares ns d band).shares[i]? = some x from hx]
  · exact Bool.eq_false_iff.mpr fun hop => (opposed_iff ns d band).mp hop heq

/-- Settles O24: each stage is one division, or two, whose shares and remainder make up the amount. -/
theorem settlementStagesBalance : Obligations.SettlementStagesBalance := by
  refine ⟨fun ns d band => ?_, fun ns fc fd => ?_⟩
  · intro a excess side bears' reach
    refine ⟨deviate_length ns d band, deviate_sum ns d band, fun h => ?_, fun h => ⟨?_, fun i n hn => deviate_allocation h hn, ?_⟩⟩
    · show (deviate ns d band).allocations = _ ∧ _
      rw [deviate_within ns d band h]
      exact ⟨rfl, rfl, rfl⟩
    · rw [deviate_beyond ns d band h]
    · rw [deviate_beyond ns d band h]
      show (excessOfBand d band).sign * ((excessShares ns d band).uncovered : Int) = if reachOf (sideOf ns d band) ns = 0 then excessOfBand d band
        else if (excessOfBand d band).sign = sideOf ns d band then 0
        else (excessOfBand d band).sign * (((excessOfBand d band).natAbs - reachOf (sideOf ns d band) ns : Nat) : Int)
      rw [excessShares, sideShares_uncovered]
      split
      · exact Int.sign_mul_natAbs _
      · by_cases hop : opposed ns d band = true
        · rw [if_neg (by simp [hop]), if_neg ((opposed_iff ns d band).mp hop)]
        · rw [if_pos (by simpa using hop), if_pos (not_not.mp fun hne => hop ((opposed_iff ns d band).mpr hne))]
          exact Int.mul_zero _
  · have hup : reachOf 1 ns = ((ns.filter (fun n => decide (0 < n))).map Int.natAbs).sum := by
      rw [reachOf, funext bears_one]
    have hdown : reachOf (-1) ns = ((ns.filter (fun n => decide (n < 0))).map Int.natAbs).sum := by
      rw [reachOf, funext bears_negOne]
    intro up down
    refine ⟨consume_length ns fc fd, consume_sum ns fc fd, ?_, ?_, fun i n hn => ?_⟩
    · show (divide fc (sideParticipants 1 false ns)).uncovered = _
      rw [sideShares_uncovered, hup]
      rfl
    · show (divide fd (sideParticipants (-1) false ns)).uncovered = _
      rw [sideShares_uncovered, hdown]
      rfl
    · have hcharge := consume_charge ns fc fd hn
      rw [hup, hdown] at hcharge
      exact hcharge

end Sys2Proof.Machine
end

section
/-! SUPPORT. Conservation (R39): the inventories and the SBA through every move of the account table. -/

namespace Sys2Proof.Machine

/-! ### The gas held in all -/

/-- What a slot holds. -/
def heldBy (o : Option Account) : Int :=
  match o with
  | none => 0
  | some a => a.inventory

theorem heldBy_some (a : Account) : heldBy (some a) = a.inventory := rfl

theorem inventorySum_eq (v : Vector (Option Account) 24) : inventorySum v = (v.toList.map heldBy).sum := rfl

theorem inventorySum_setVec (v : Vector (Option Account) 24) (i : Fin 24) (o : Option Account) :
    inventorySum (setVec v i o) = inventorySum v - heldBy v[i] + heldBy o := by
  have hlist : (setVec v i o).toList = v.toList.set i.val o := Vector.toList_set _
  have hlt : i.val < (v.toList.map heldBy).length := by simp
  rw [inventorySum_eq, inventorySum_eq, hlist, List.map_set, List.sum_set', dif_pos hlt, List.getElem_map]
  have hget : v.toList[i.val]'(by simp) = v[i] := by simp
  rw [hget]
  ring

/-- The inventories and the SBA. -/
def gasHeld (s : State) : Int := inventorySum s.acct.slots + s.acct.sba

theorem gasHeld_putSlot (i : Fin 24) (o : Option Account) (s : State) :
    gasHeld (putSlot i o s) = gasHeld s - heldBy s.acct.slots[i] + heldBy o := by
  show inventorySum (setVec s.acct.slots i o) + s.acct.sba = _
  rw [inventorySum_setVec, gasHeld]
  ring

theorem gasHeld_addToSba (d : Int) (s : State) : gasHeld (addToSba d s) = gasHeld s + d := by
  rw [gasHeld, addToSba_acct, gasHeld]
  ring

theorem gasHeld_congr {s t : State} (h : t.acct = s.acct) : gasHeld t = gasHeld s := by rw [gasHeld, gasHeld, h]

theorem gasHeld_addInventory {i : Fin 24} {a : Account} {s : State} (h : s.acct.slots[i] = some a) (d : Int) :
    gasHeld (addInventory i d s) = gasHeld s + d := by
  rw [addInventory, h]
  dsimp only
  rw [gasHeld_putSlot, h, heldBy_some, heldBy_some]
  ring

/-- What an action books and charges: the figures that the gas held is measured against. -/
def gasOwed (s : State) : Int := s.acct.opening + s.acct.booked - s.acct.charged

theorem balanced_iff (s : State) : (snapshot s).balanced = true ↔ gasHeld s = gasOwed s := by
  rw [Image.balanced, balances, decide_eq_true_eq]
  rfl

theorem gasOwed_putSlot (i : Fin 24) (o : Option Account) (s : State) : gasOwed (putSlot i o s) = gasOwed s := rfl

theorem gasOwed_addToSba (d : Int) (s : State) : gasOwed (addToSba d s) = gasOwed s := by
  rw [gasOwed, addToSba_acct, gasOwed]

theorem gasOwed_addInventory (i : Fin 24) (d : Int) (s : State) : gasOwed (addInventory i d s) = gasOwed s := by
  dsimp only [addInventory]
  split <;> rfl

/-! ### The posting of an hour (R82 to R84) -/

/-- Which slots hold a record. -/
def occupied (s : State) (j : Fin 24) : Bool := (s.acct.slots[j]).isSome

theorem occupied_putSlot {i : Fin 24} {a c : Account} {s : State} (h : s.acct.slots[i] = some a) (j : Fin 24) :
    occupied (putSlot i (some c) s) j = occupied s j := by
  show ((setVec s.acct.slots i (some c))[j]).isSome = _
  rw [Fin.getElem_fin, setVec_getElem]
  split
  · next hij =>
    have hij : j = i := Fin.ext (by omega)
    rw [occupied, hij, h]
    rfl
  · rfl

theorem occupied_addToSba (d : Int) (s : State) (j : Fin 24) : occupied (addToSba d s) j = occupied s j := by
  rw [occupied, addToSba_acct, occupied]

/-- What a clamp leaves and takes makes up the change (R83). -/
theorem clampBy_cases (a : Account) (d : Int) :
    (a.clampBy d < 0 ∧ a.clampBy d = a.inventory + d) ∨ (0 < a.clampBy d ∧ a.spaceRight + a.clampBy d = a.inventory + d)
      ∨ (a.clampBy d = 0 ∧ 0 ≤ a.inventory + d ∧ a.inventory + d ≤ a.spaceRight) := by
  unfold Account.clampBy
  dsimp only
  split_ifs with hlow hhigh
  · exact .inl ⟨hlow, rfl⟩
  · exact .inr (.inl ⟨by omega, by omega⟩)
  · exact .inr (.inr ⟨rfl, by omega, by omega⟩)

/-- A record replaced, an event raised and an entry of the SBA. -/
theorem clamped_held {i : Fin 24} {a c : Account} {s : State} (h : s.acct.slots[i] = some a) (k : Int) (e : EventKind)
    (x : Option Nat) (y : Option Int) :
    gasHeld (addToSba k (raise e x y (putSlot i (some c) s))) = gasHeld s - a.inventory + c.inventory + k
      ∧ gasOwed (addToSba k (raise e x y (putSlot i (some c) s))) = gasOwed s
      ∧ ∀ j, occupied (addToSba k (raise e x y (putSlot i (some c) s))) j = occupied s j := by
  refine ⟨?_, ?_, fun j => ?_⟩
  · rw [gasHeld_addToSba, show gasHeld (raise e x y (putSlot i (some c) s)) = gasHeld (putSlot i (some c) s) from rfl, gasHeld_putSlot, h, heldBy_some, heldBy_some]
  · rw [gasOwed_addToSba]
    rfl
  · rw [occupied_addToSba]
    exact occupied_putSlot h j

theorem postSlot_held (i : Fin 24) (d : Int) (s : State) :
    gasHeld (postSlot i d s) = gasHeld s + (if occupied s i then d else 0) ∧ gasOwed (postSlot i d s) = gasOwed s
      ∧ ∀ j, occupied (postSlot i d s) j = occupied s j := by
  cases h : s.acct.slots[i] with
  | none =>
    have hempty : occupied s i = false := by rw [occupied, h]; rfl
    rw [postSlot, h, hempty, if_neg nofun, Int.add_zero]
    exact ⟨rfl, rfl, fun _ => rfl⟩
  | some a =>
    have hfull : occupied s i = true := by rw [occupied, h]; rfl
    rw [postSlot, h, hfull, if_pos rfl]
    dsimp only
    obtain ⟨hneg, hk⟩ | ⟨hpos, hk⟩ | ⟨hzero, _, _⟩ := clampBy_cases a d
    · obtain ⟨hheld, howed, hocc⟩ := clamped_held h (c := { a with inventory := 0, emptyClamp := true }) (a.clampBy d) .clampEmpty
        (some i.val) (some (a.clampBy d))
      rw [if_pos hneg]
      exact ⟨hheld.trans (by dsimp only; omega), howed, hocc⟩
    · obtain ⟨hheld, howed, hocc⟩ := clamped_held h (c := { a with inventory := a.spaceRight, fullClamp := true }) (a.clampBy d)
        .clampFull (some i.val) (some (a.clampBy d))
      rw [if_neg (by omega), if_pos hpos]
      exact ⟨hheld.trans (by dsimp only; omega), howed, hocc⟩
    · rw [if_neg (by omega), if_neg (by omega), gasHeld_putSlot, h, heldBy_some, heldBy_some]
      exact ⟨by dsimp only; omega, rfl, occupied_putSlot h⟩

/-- The slots posted in turn: each that holds a record takes its change. -/
theorem postSlots_held (f : Fin 24 → Int) (is : List (Fin 24)) (s : State) :
    gasHeld (is.foldl (fun t i => postSlot i (f i) t) s) = gasHeld s + (is.map (fun i => if occupied s i then f i else 0)).sum
      ∧ gasOwed (is.foldl (fun t i => postSlot i (f i) t) s) = gasOwed s := by
  induction is generalizing s with
  | nil => exact ⟨(Int.add_zero _).symm, rfl⟩
  | cons i is ih =>
    obtain ⟨hheld, howed, hocc⟩ := postSlot_held i (f i) s
    obtain ⟨ihheld, ihowed⟩ := ih (postSlot i (f i) s)
    rw [List.foldl_cons, ihheld, ihowed, hheld, howed, List.map_cons, List.sum_cons, funext hocc]
    exact ⟨by omega, rfl⟩

theorem postSba_held (d : Int) (s : State) : gasHeld (postSba d s) = gasHeld s + d ∧ gasOwed (postSba d s) = gasOwed s
    ∧ ∀ j, occupied (postSba d s) j = occupied s j := by
  dsimp only [postSba]
  split
  · next h => exact ⟨by omega, rfl, fun _ => rfl⟩
  · exact ⟨gasHeld_addToSba d s, gasOwed_addToSba d s, occupied_addToSba d s⟩

/-- The whole posting: what is held moves by the SBA's entries and the slots' changes, what is owed by what the hour booked
less what it charged. -/
theorem postHour_held (k : Intake) (dv : Deviation) (c : Consumption) (changes : List Int) (s : State) :
    gasHeld (postHour k dv c changes s) = gasHeld s + (dv.tolerance + dv.uncovered - c.fuelLeft - c.dryingLeft)
        + ((List.finRange 24).map (fun i => if occupied s i then changes.getD i.val 0 else 0)).sum
      ∧ gasOwed (postHour k dv c changes s) = gasOwed s + (k.qb - k.fc - k.fd) := by
  obtain ⟨h1, o1, c1⟩ := postSba_held dv.tolerance s
  obtain ⟨h2, o2, c2⟩ := postSba_held dv.uncovered (postSba dv.tolerance s)
  obtain ⟨h3, o3, c3⟩ := postSba_held (-(c.fuelLeft : Int)) (postSba dv.uncovered (postSba dv.tolerance s))
  obtain ⟨h4, o4, c4⟩ := postSba_held (-(c.dryingLeft : Int)) (postSba (-(c.fuelLeft : Int)) (postSba dv.uncovered (postSba dv.tolerance s)))
  dsimp only [postHour]
  generalize postSba (-(c.dryingLeft : Int)) (postSba (-(c.fuelLeft : Int)) (postSba dv.uncovered (postSba dv.tolerance s))) = u at h4 o4 c4 ⊢
  obtain ⟨hslots, howed⟩ := postSlots_held (fun i => changes.getD i.val 0) (List.finRange 24) u
  generalize (List.finRange 24).foldl (fun t i => postSlot i (changes.getD i.val 0) t) u = v at hslots howed ⊢
  constructor
  · have hocc : occupied u = occupied s := funext fun j => (c4 j).trans ((c3 j).trans ((c2 j).trans (c1 j)))
    rw [hocc] at hslots
    show gasHeld v = _
    omega
  · have : gasOwed (v.setAcct { v.acct with booked := v.acct.booked + k.qb, charged := v.acct.charged + (k.fc : Int) + k.fd })
        = gasOwed v + (k.qb - k.fc - k.fd) := by
      show v.acct.opening + (v.acct.booked + k.qb) - (v.acct.charged + k.fc + k.fd) = v.acct.opening + v.acct.booked - v.acct.charged + _
      ring
    exact this.trans (by omega)

/-! ### The posting takes the whole hour -/

section
variable (k : Intake) (s : State)

theorem netNominations_length (rs : List SchedRec) : (netNominations s rs).length = 24 := by
  simp [netNominations]

theorem netNominations_getElem? (rs : List SchedRec) (i : Fin 24) : (netNominations s rs)[i.val]? = some (netNomination s rs i) := by
  rw [netNominations, List.getElem?_map, List.getElem?_eq_getElem (by simp), List.getElem_finRange]
  rfl

theorem changesOf_length : (changesOf k s).length = 24 := by
  rw [changesOf, List.length_zipWith, deviationOf, consumptionOf, deviate_length, consume_length, netNominations_length]
  rfl

/-- A slot of no net nomination takes nothing. -/
theorem deviate_zero {ns : List Int} {d : Int} {band i : Nat} (hn : ns[i]? = some 0) :
    (deviate ns d band).allocations[i]? = some 0 := by
  by_cases h : d.natAbs ≤ band
  · rw [deviate_within ns d band h]
    exact hn
  · obtain ⟨x, hx, hzero, _⟩ := deviate_allocation (Nat.not_le.mp h) hn
    rw [hx, hzero (by rw [bears, Int.zero_mul]; rfl)]
    simp

theorem changesOf_empty {i : Fin 24} (h : s.acct.slots[i] = none) : (changesOf k s).getD i.val 0 = 0 := by
  have hnet : (netNominations s k.records)[i.val]? = some 0 := by
    rw [netNominations_getElem?, netNomination, h]
  have halloc : (deviationOf k s).allocations[i.val]? = some 0 := deviate_zero hnet
  obtain ⟨x, hx, hzero, _⟩ := consume_charge (netNominations s k.records) k.fc k.fd hnet
  have hcharge : (consumptionOf k s).charges[i.val]? = some 0 := by rw [consumptionOf, hx, hzero rfl]
  rw [List.getD_eq_getElem?_getD, changesOf, List.getElem?_zipWith, halloc, hcharge]
  rfl

theorem sum_zipWith_sub (xs : List Int) (ys : List Nat) (h : xs.length = ys.length) :
    (List.zipWith (fun (a : Int) (x : Nat) => a - x) xs ys).sum = xs.sum - (ys.sum : Nat) := by
  induction xs generalizing ys with
  | nil => obtain rfl := List.length_eq_zero_iff.mp h.symm; rfl
  | cons x xs ih =>
    cases ys with
    | nil => exact absurd h nofun
    | cons y ys =>
      rw [List.zipWith_cons_cons, List.sum_cons, List.sum_cons, List.sum_cons, ih ys (Nat.succ.inj h)]
      push_cast
      ring

theorem sum_getD_finRange (l : List Int) (h : l.length = 24) : ((List.finRange 24).map (fun i : Fin 24 => l.getD i.val 0)).sum = l.sum := by
  refine congrArg List.sum (List.ext_getElem (by simp [h]) fun i hi hl => ?_)
  simp [List.getD_eq_getElem?_getD, List.getElem?_eq_getElem hl]

/-- The changes of the slots that hold a record are all the changes. -/
theorem changesOf_sum : ((List.finRange 24).map (fun i => if occupied s i then (changesOf k s).getD i.val 0 else 0)).sum
    = (deviationOf k s).allocations.sum - ((consumptionOf k s).charges.sum : Nat) := by
  have hsame : (fun i : Fin 24 => if occupied s i then (changesOf k s).getD i.val 0 else 0) = fun i => (changesOf k s).getD i.val 0 := by
    funext i
    split
    · rfl
    · next h => exact (changesOf_empty k s (by simpa [occupied] using h)).symm
  rw [hsame, sum_getD_finRange _ (changesOf_length k s), changesOf, sum_zipWith_sub]
  rw [deviationOf, consumptionOf, deviate_length, consume_length]

/-- What the posting of an hour adds to the gas held is what it adds to the gas owed. -/
theorem posted_balanced (h : gasHeld s = gasOwed s) : gasHeld (posted k s) = gasOwed (posted k s) := by
  obtain ⟨hheld, howed⟩ := postHour_held k (deviationOf k s) (consumptionOf k s) (changesOf k s) s
  have hdev := deviate_sum (netNominations s k.records) (k.qb - (netNominations s k.records).sum) s.site.tolerance
  have hcons := consume_sum (netNominations s k.records) k.fc k.fd
  rw [changesOf_sum] at hheld
  change (deviationOf k s).allocations.sum + (deviationOf k s).tolerance + (deviationOf k s).uncovered = _ at hdev
  change (consumptionOf k s).charges.sum + (consumptionOf k s).fuelLeft + (consumptionOf k s).dryingLeft = _ at hcons
  rw [posted, hheld, howed]
  omega
end

/-! ### Every move keeps the balance -/

theorem balanceAcct : AcctKept (fun s => gasHeld s = gasOwed s) where
  aside s t hst h := by
    have hacct : t.acct = s.acct := hst .acct (by decide)
    rw [gasHeld_congr hacct, h, gasOwed, gasOwed, hacct]
  queue _ _ _ h := h
  opened s i a hi hzero _ _ _ h := by
    rw [gasHeld_putSlot, gasOwed_putSlot, hi, heldBy_some, hzero, h]
    simp [heldBy]
  rewritten s i a c hi _ hinv _ _ _ h := by
    rw [gasHeld_putSlot, gasOwed_putSlot, hi, heldBy_some, heldBy_some, hinv, h]
    omega
  adjusted s i a q hi _ _ h := by
    rw [gasHeld_addToSba, gasOwed_addToSba, gasHeld_putSlot, gasOwed_putSlot, hi, heldBy_some, heldBy_some, h]
    dsimp only
    omega
  moved s i j a c q hi hj _ _ h := by
    have hj' : ∃ x, (addInventory i (-(q : Int)) s).acct.slots[j] = some x := by
      rw [addInventory, hi]
      show ∃ x, (setVec s.acct.slots i _)[j] = some x
      rw [Fin.getElem_fin, setVec_getElem]
      split
      · exact ⟨_, rfl⟩
      · exact ⟨c, hj⟩
    obtain ⟨x, hx⟩ := hj'
    rw [gasHeld_addInventory hx, gasHeld_addInventory hi, gasOwed_addInventory, gasOwed_addInventory, h]
    omega
  released s i a hi h := by
    rw [gasHeld_addToSba, gasOwed_addToSba, gasHeld_putSlot, gasOwed_putSlot, hi, heldBy_some, h]
    simp [heldBy]
  posting k s h := posted_balanced k s h

end Sys2Proof.Machine
end

section
/-! SUPPORT. One rule for what every image of the part keeps: the working state's, the whole copies' and a commit's (R175 to
R181). -/

namespace Sys2Proof.Machine

/-! ### The images of the store -/

/-- The image of a copy that a commit found whole. -/
def Copy.holds (p : Image → Bool) : Copy → Prop
  | .whole _ m => p m = true
  | .failed _ m _ => p m = true
  | .notWhole => True

/-- The image of a commit in flight. -/
def StorePhase.holds (p : Image → Bool) : StorePhase → Prop
  | .committing _ m => p m = true
  | _ => True

/-- Every image of the store. -/
def Store.holds (p : Image → Bool) (x : Store) : Prop := (∀ i : Fin 2, (x.copies[i]).holds p) ∧ x.phase.holds p

theorem everyImage_iff (p : Image → Bool) (s : State) : everyImage p s = true ↔ p (snapshot s) = true ∧ s.store.holds p := by
  have hcopies : (s.store.copies.toList.all (fun c => match c with
      | .whole _ m => p m
      | .failed _ m _ => p m
      | .notWhole => true)) = true ↔ ∀ i : Fin 2, (s.store.copies[i]).holds p := by
    rw [List.all_eq_true]
    constructor
    · intro h i
      have hi := h s.store.copies[i] (by simp)
      unfold Copy.holds
      split <;> simp_all
    · intro h c hc
      obtain ⟨i, hi, rfl⟩ := List.mem_iff_getElem.mp hc
      have hi' := h ⟨i, by simpa using hi⟩
      unfold Copy.holds at hi'
      simp only [Fin.getElem_fin, Vector.getElem_toList] at hi' ⊢
      split <;> simp_all
  have hphase : (match s.store.phase with
      | .committing _ m => p m
      | _ => true) = true ↔ s.store.phase.holds p := by
    unfold StorePhase.holds
    cases s.store.phase <;> simp
  rw [everyImage, Bool.and_eq_true, Bool.and_eq_true, and_assoc]
  exact and_congr_right fun _ => and_congr hcopies hphase

@[simp] theorem snapshot_setStore (s : State) (x : Store) : snapshot (s.setStore x) = snapshot s := rfl
@[simp] theorem snapshot_setLink (s : State) (x : Link) : snapshot (s.setLink x) = snapshot s := rfl
@[simp] theorem snapshot_setWorld (s : State) (n : Nat) : snapshot (s.setWorld n) = snapshot s := rfl
@[simp] theorem snapshot_setPending (s : State) (x : List Instr) : snapshot (s.setPending x) = snapshot s := rfl
@[simp] theorem snapshot_raise (s : State) (k : EventKind) (a : Option Nat) (b : Option Int) :
    snapshot (raise k a b s) = snapshot s := rfl
@[simp] theorem snapshot_gathered (f : State → State) (s : State) : snapshot (gathered f s) = snapshot (f s.gatheringEvents) := rfl

/-- A property of images that the requests, the blocks' commands, a settlement and an image taken keep. -/
structure ImageKept (p : Image → Bool) : Prop where
  default : p Image.default = true
  setSup : ∀ s x, p (snapshot s) = true → p (snapshot (s.setSup x)) = true
  request : ∀ code req, requestOf code = some req → code ≠ 0x52 → code ≠ 0x53 → ∀ b s, p (snapshot s) = true →
    p (snapshot (req b s).after) = true
  block : ∀ c, ofBlocks c = true → (∀ r, c ≠ .restoreReadDone r) → ∀ s t, p (snapshot s) = true → exec c s = .next t →
    p (snapshot t) = true
  complete : ∀ s, p (snapshot s) = true → p (snapshot (completeSettlement s)) = true
  restored : ∀ m s, p m = true → p (snapshot (restoreBlocks m s)) = true
  loaded : ∀ ws m, imageRead ws = some m → m.consistent = true → ∀ n s, p (snapshot (adopt n m s)) = true
  initialized : ∀ s, p (snapshot (adopt 1 Image.default s)) = true

namespace Store.holds

variable {p : Image → Bool} {x : Store}

/-- A copy replaced. -/
theorem setCopy (h : ∀ i : Fin 2, (x.copies[i]).holds p) (i : Fin 2) {c : Copy} (hc : c.holds p) (j : Fin 2) :
    ((setVec x.copies i c)[j]).holds p := by
  rw [Fin.getElem_fin, setVec_getElem]
  split
  · exact hc
  · exact h j

/-- The image of a copy written. -/
theorem written (h : x.holds p) {i : Fin 2} {n : BitVec 32} {m : Image} (hw : (x.copies[i]).written = some (n, m)) :
    p m = true := by
  have hi := h.1 i
  cases hc : x.copies[i] with
  | whole n' m' => rw [hc] at hi hw; cases hw; exact hi
  | failed n' m' f => rw [hc] at hi hw; cases hw; exact hi
  | notWhole => rw [hc] at hw; exact absurd hw nofun

theorem failMarked_snapshot (s : State) : snapshot (failMarked s) = snapshot s := by
  dsimp only [failMarked]
  split <;> rfl

theorem failMarked_holds {s : State} (h : s.store.holds p) (i : Fin 2) : ((failMarked s).store.copies[i]).holds p := by
  obtain ⟨n, m, hc, he⟩ | ⟨_, he⟩ := failMarked_cases s
  · rw [he]
    refine setCopy h.1 _ (c := .failed n m _) ?_ i
    have hmark := h.1 s.store.mark
    rw [hc] at hmark
    exact hmark
  · rw [he]
    exact h.1 i

theorem abandoned {s : State} (h : s.store.holds p) (i : Fin 2) : ((abandonedCopies s.store)[i]).holds p := by
  unfold abandonedCopies
  split
  · exact setCopy h.1 _ (c := .notWhole) trivial i
  · exact h.1 i
end Store.holds

/-- A restore that failed: the blocks stay as they are, the marked copy failed, the part UNRESTORED. -/
theorem everyImage_failed {p : Image → Bool} {s : State} (hsnap : p (snapshot s) = true) (h : s.store.holds p) :
    everyImage p (raise .storeUnrestored none none ((failMarked s).setStore
      { (failMarked s).store with phase := .idle, held := 0, unrestored := true })) = true := by
  rw [everyImage_iff, snapshot_raise, snapshot_setStore, raise_store, State.setStore_store, Store.holds.failMarked_snapshot]
  exact ⟨hsnap, Store.holds.failMarked_holds h, trivial⟩

namespace ImageKept

variable {p : Image → Bool} (hP : ImageKept p) {s : State}
include hP

theorem settleFirst (h : p (snapshot s) = true) : p (snapshot (settleFirst s)) = true := by
  dsimp only [Machine.settleFirst]
  split
  · exact hP.complete s h
  · exact h

omit hP in
theorem adopt_holds (n : BitVec 32) {m : Image} (hsnap : p (snapshot (adopt n m s)) = true) (hs : s.store.holds p) :
    everyImage p (adopt n m s) = true := by
  rw [everyImage_iff]
  refine ⟨hsnap, ?_⟩
  have hcopies : (adopt n m s).store.copies = s.store.copies := by
    dsimp only [adopt, beginNumbered]
    rw [State.setStore_store, State.setStore_store, State.setSup_store, (does_takeUnitsAndTrains _ _ _ m).store_eq (by decide)]
    rfl
  have hphase : (adopt n m s).store.phase = .committing n (snapshot (adopt n m s)) := by
    dsimp only [adopt]
    exact congrArg Store.phase (beginNumbered_store n _)
  refine ⟨fun i => ?_, ?_⟩
  · rw [hcopies]
    exact hs.1 i
  · rw [hphase]
    exact hsnap

/-- A restore's read: the blocks take a whole copy's image or the default one. -/
theorem restoreRead_holds (readOk : Bool) (h : everyImage p s = true) : everyImage p (restoreRead readOk s) = true := by
  obtain ⟨hsnap, hstore⟩ := (everyImage_iff p s).mp h
  dsimp only [restoreRead]
  split
  · split
    · next n m hw =>
      have hm : p m = true := hstore.written hw
      rw [everyImage_iff]
      rw [snapshot_setStore]
      refine ⟨hP.restored m s hm, fun i => ?_, trivial⟩
      rw [State.setStore_store]
      dsimp only
      rw [restoreBlocks_store]
      exact Store.holds.setCopy hstore.1 _ (c := .whole n m) hm i
    · split
      · have hrestored : (restoreBlocks Image.default s).store.holds p := by
          rw [restoreBlocks_store]
          exact hstore
        exact everyImage_failed (hP.restored Image.default s hP.default) hrestored
      · rw [everyImage_iff]
        exact ⟨hsnap, hstore.1, trivial⟩
  · exact h

omit hP in
theorem endCommit_holds (whole : Bool) (h : everyImage p s = true) : everyImage p (endCommit whole s) = true := by
  obtain ⟨hsnap, hcopies, hphase⟩ := (everyImage_iff p s).mp h
  dsimp only [endCommit]
  split
  · next n m he =>
    rw [he] at hphase
    split
    · exact (everyImage_iff p _).mpr ⟨hsnap, fun i => Store.holds.setCopy hcopies _ (c := .whole n m) hphase i, trivial⟩
    · exact (everyImage_iff p _).mpr ⟨hsnap, fun i => Store.holds.setCopy hcopies _ (c := .notWhole) trivial i, trivial⟩
  · exact h

omit hP in
/-- A commit begun with the part as it stands. -/
theorem committing_holds {x : Store} {t : State} (hs : s.store.holds p) (ht : p (snapshot t) = true)
    (hx : x = s.store ∨ ∃ n, x = { s.store with phase := .committing n (snapshot t) }) : x.holds p := by
  rcases hx with rfl | ⟨n, rfl⟩
  · exact hs
  · exact ⟨hs.1, ht⟩

theorem block_holds {c : Instr} (hc : ofBlocks c = true) {t : State} (h : everyImage p s = true) (ht : Machine.exec c s = .next t) :
    everyImage p t = true := by
  obtain ⟨hsnap, hstore⟩ := (everyImage_iff p s).mp h
  by_cases hrestore : ∃ r, c = .restoreReadDone r
  · obtain ⟨r, rfl⟩ := hrestore
    cases ht
    exact hP.restoreRead_holds r h
  · have hsnap' := hP.block c hc (fun r hr => hrestore ⟨r, hr⟩) s t hsnap ht
    have hsettled := hP.settleFirst (s := s.setElapsed (s.elapsed + 1)) hsnap
    refine (everyImage_iff p t).mpr ⟨hsnap', ?_⟩
    cases c
    case gasClockSecond =>
      cases ht
      obtain ⟨g, hg, n, hone⟩ := oneOf_cases clockSecond [fun t => clockSecond (gapWatch t)]
        (Machine.settleFirst (s.setElapsed (s.elapsed + 1)))
      rw [hone]
      rcases List.mem_pair.mp hg with rfl | rfl
      · rw [clockSecond_store, State.setWorld_store]
        exact committing_holds hstore hsettled (settleFirst_store _)
      · dsimp only
        rw [clockSecond_store, (does_gapWatch _).store_eq (by decide), State.setWorld_store]
        exact committing_holds hstore hsettled (settleFirst_store _)
    case hourBoundary =>
      cases ht
      split
      · have hdoes : Does hourParts (Machine.settleFirst s) (gathered (inAnyOrder (boundaryActs s.clock.hour)) (endHour (Machine.settleFirst s))) :=
          ((does_endHour _).mono (by decide)).trans (does_gathered_of (by decide) (by decide)
            (fun v => does_inAnyOrder _ (by decide) (fun f hf w => (does_boundaryActs _ f hf w).mono (by decide)) v) _)
        rw [hdoes.store_eq (by decide)]
        exact committing_holds hstore (hP.settleFirst hsnap) (settleFirst_store s)
      · exact hstore
    case settlementCompletion =>
      cases ht
      exact committing_holds hstore (hP.complete s hsnap) (completeSettlement_store s)
    case restoreReadDone r => exact absurd ⟨r, rfl⟩ hrestore
    case commitEnd w =>
      cases ht
      exact ((everyImage_iff p _).mp (endCommit_holds w h)).2
    all_goals first
      | exact absurd hc Bool.false_ne_true
      | obtain ⟨u, hu, hdoes⟩ := does_block hc s
        obtain rfl : u = t := by rw [ht] at hu; cases hu; rfl
        rw [hdoes.store_eq (by simp [blockParts, dutyParts, flowParts, supervisionParts])]
        exact hstore

theorem request_holds {code : Byte} {req : Block → State → Answer} (hreq : requestOf code = some req) (b : Block)
    (h : everyImage p s = true) : everyImage p (req b s).after = true := by
  obtain ⟨hsnap, hstore⟩ := (everyImage_iff p s).mp h
  by_cases hload : code = 0x52
  · subst hload
    cases hreq
    exact reqStoreLoadEnd_after (P := fun t => everyImage p t = true) b h
      fun n m hread hm => adopt_holds n (hP.loaded _ m hread hm n _) (s := s.setStore { s.store with buffer := [] }) hstore
  · by_cases hinit : code = 0x53
    · subst hinit
      cases hreq
      exact checked_after (P := fun t => everyImage p t = true) _ h fun _ => adopt_holds 1 (hP.initialized s) hstore
    · refine (everyImage_iff p _).mpr ⟨hP.request code req hreq hload hinit b s hsnap, ?_⟩
      by_cases hparts : Part.store ∈ requestParts code
      · rcases store_mem_requestParts code hparts with rfl | rfl | rfl
        · cases hreq
          exact checked_after (P := fun t => t.store.holds p) _ hstore fun _ => hstore
        · exact absurd rfl hload
        · exact absurd rfl hinit
      · by_cases hdrain : code = 0x03
        · subst hdrain
          cases hreq
          rw [reqEventDrain_parts b s .store nofun]
          exact hstore
        · rw [(does_request hreq hdrain b s).store_eq hparts]
          exact hstore

theorem execKept : ExecKept (fun s => everyImage p s = true) where
  setLink s x h := (everyImage_iff p _).mpr ((everyImage_iff p s).mp h)
  setSup s x h := by
    obtain ⟨hsnap, hstore⟩ := (everyImage_iff p s).mp h
    exact (everyImage_iff p _).mpr ⟨hP.setSup s x hsnap, hstore⟩
  request _ _ hreq b _ h := hP.request_holds hreq b h
  restart c s h := (everyImage_iff p _).mpr ⟨hP.default, fun i => ((everyImage_iff p s).mp h).2.abandoned i, trivial⟩
  blocks _ hc _ _ h ht := hP.block_holds hc h ht

/-- A step keeps the property in every image of the part. -/
theorem step {t : State} (h : everyImage p s = true) (ht : Machine.step s = .next t) : everyImage p t = true :=
  hP.execKept.step (fun _ _ h => h) h ht

end ImageKept

/-! ### Conservation (R39) -/

theorem frame_balanced {s t : State} (hacct : t.acct = s.acct) (h : gasHeld s = gasOwed s) : gasHeld t = gasOwed t := by
  rw [gasHeld_congr hacct, h, gasOwed, gasOwed, hacct]

theorem Does.balanced {ps : List Part} {s t : State} (h : Does ps s t) (ha : Part.acct ∉ ps) (hs : gasHeld s = gasOwed s) :
    gasHeld t = gasOwed t := frame_balanced (h.acct_eq ha) hs

theorem evaluateAlert_balanced {s : State} (h : gasHeld s = gasOwed s) : gasHeld (evaluateAlert s) = gasOwed (evaluateAlert s) := by
  have hzero : evaluateAlert s = addToSba 0 s := by
    rw [addToSba, Int.add_zero]
    rfl
  rw [hzero, gasHeld_addToSba, gasOwed_addToSba, h, Int.add_zero]

theorem applySite_balanced (g : Site) {s : State} (h : gasHeld s = gasOwed s) :
    gasHeld (applySite g s) = gasOwed (applySite g s) := by
  have hset : gasHeld (renoteUnits (s.setSite g)) = gasOwed (renoteUnits (s.setSite g)) := h
  dsimp only [applySite]
  refine gathered_preserves _ _ (fun u => gasHeld u = gasOwed u) (fun u hu => ?_) (fun _ _ hu => hu) (fun _ _ hu => hu) hset
  refine inAnyOrder_preserves (fun u => gasHeld u = gasOwed u) _ (fun f hf v hv => ?_) (fun _ _ hv => hv) _
    ((does_recomputeTarget (ps := flowParts) (by decide) u).balanced (by decide) hu)
  simp only [List.mem_append, List.mem_cons, List.not_mem_nil, or_false] at hf
  rcases hf with ((rfl | rfl) | hf) | rfl
  · exact (does_handInjection (ps := dutyParts) (by decide) v (by decide)).balanced (by decide) hv
  · exact (does_handWithdrawal (ps := flowParts) (by decide) v).balanced (by decide) hv
  · split at hf
    · obtain rfl := List.mem_singleton.mp hf
      exact (does_confirmation v).balanced (by decide) hv
    · exact absurd hf List.not_mem_nil
  · exact evaluateAlert_balanced hv

/-- After an image is taken a restore writes the units, the trains and the supervision timer. -/
theorem does_restoreBlocks_after (m : Image) (s : State) : Does (.sup :: dutyParts) (takeImage m s) (restoreBlocks m s) :=
  ((does_takeUnitsAndTrains _ _ _ m).mono (by decide)).trans (acts_setSup _ _ (by decide)).does

/-- An adoption writes the count of the statistics and the store besides. -/
theorem does_adopt_after (n : BitVec 32) (m : Image) (s : State) :
    Does (.sup :: .store :: .book :: dutyParts) (takeImage m s) (adopt n m s) :=
  ((((does_noteCount (takeImage m s) (filteredCount s)).mono (by decide)).trans
    ((does_takeUnitsAndTrains _ (fun u => u.startAges) Train.held m).mono (by decide))).trans
    (((acts_setSup _ _ (by decide)).trans (acts_setStore _ _ (by decide))).trans (acts_setStore _ _ (by decide))).does)

theorem takeImage_balanced {m : Image} (hm : m.balanced = true) (s : State) : gasHeld (takeImage m s) = gasOwed (takeImage m s) := by
  rw [Image.balanced, balances, decide_eq_true_eq] at hm
  exact hm

theorem consistent_balanced {m : Image} (h : m.consistent = true) : m.balanced = true := by
  simp only [Image.consistent, Bool.and_eq_true] at h
  exact h.1.1.1.1.1.1.1.1.1.2

theorem balanceKept : ImageKept Image.balanced where
  default := by decide
  setSup _ _ h := h
  request code req hreq hload hinit b s h := by
    rw [balanced_iff] at h ⊢
    exact balanceAcct.request_all (fun _ _ hacct _ => frame_balanced hacct)
      (fun b s h => checked_after (P := fun t => gasHeld t = gasOwed t) _ h fun _ => applySite_balanced _ h) hreq hload hinit b h
  block c hc hrestore s t h ht := by
    rw [balanced_iff] at h ⊢
    exact balanceAcct.block_all (fun _ _ hacct _ => frame_balanced hacct) hc hrestore h ht
  complete s h := by
    rw [balanced_iff] at h ⊢
    exact balanceAcct.completeSettlement h
  restored m s hm := by
    rw [balanced_iff]
    exact (does_restoreBlocks_after m s).balanced (by decide) (takeImage_balanced hm s)
  loaded _ m _ hm n s := by
    rw [balanced_iff]
    exact (does_adopt_after n m s).balanced (by decide) (takeImage_balanced (consistent_balanced hm) s)
  initialized s := by
    rw [balanced_iff]
    exact (does_adopt_after 1 _ s).balanced (by decide) (takeImage_balanced (by decide) s)

/-- Settles O9: each move of the account table moves as much out as in, and the hour posted is the hour booked. -/
theorem everyStepKeepsTheBalance : Obligations.EveryStepKeepsTheBalance :=
  fun _ _ h ht => balanceKept.step h ht

end Sys2Proof.Machine
end

section
/-! SUPPORT. One induction over the machine of chapters 5 to 7: what the moves of the units, the trains and the flow cannot break, the
requests and the blocks keep. -/

namespace Sys2Proof.Machine

/-- The parts that no configuration, no account and no block of the machine stands in. -/
def awayParts : List Part := [.pending, .world, .elapsed, .clock, .meter, .book, .sched, .settle, .link, .evq, .sup, .store]

/-- The parts among them that hold neither the book nor the schedule. -/
def farParts : List Part := [.pending, .world, .elapsed, .clock, .meter, .settle, .link, .evq, .sup, .store]

/-- The codes of the requests that set a configuration or move an account. -/
def settingCodes : List Byte := accountCodes ++ [0x14, 0x16, 0x38, 0x40, 0x43, 0x48]

/-- The codes of the requests that change the book or its statistics alone. -/
def bookCodes : List Byte := [0x30, 0x31, 0x34]

/-- A predicate `P` of the part that the moves of the units, the trains and the flow, CLOCK SET, the requests that set a configuration,
move an account or change the book, the boundary's takings and the completion of a settlement keep. A unit's move can break it to `Bd`
until the injection capacities are re-formed, a train's to `Br` until the withdrawal capacity is. -/
structure MachineKept (Bd Br P : State → Prop) : Prop where
  duty : DutyKept Bd P
  dry : DryKept Br P
  far : ∀ s t, s.changesOnly farParts t → P s → P t
  recomputeTarget : ∀ s, P s → P (recomputeTarget s)
  flowSecond : ∀ s, P s → P (flowSecond s)
  expireTurnaround : ∀ s, s.flow.dir = .turnaround → P s → P (expireTurnaround s)
  setting : ∀ code req, code ∈ settingCodes ++ bookCodes → requestOf code = some req → ∀ b s, P s → P (req b s).after
  clockSet : ∀ h sec s, P s → P (clockSetEffect h sec s).after
  statistics : ∀ s x, P s → P (s.setBook { s.book with stats := x })
  fuelTaken : ∀ s n, P s → P (s.setDuty { s.duty with fuel := n })
  gasTaken : ∀ s n, P s → P (s.setDry { s.dry with gas := n })
  day : ∀ s, P s → P (dayBoundary s)
  settled : ∀ s, P s → P (completeSettlement s)

/-- The requests that change the machine, a configuration or an account. -/
theorem machine_mem_requestParts : ∀ code : Byte,
    (∃ p ∈ requestParts code, p ∉ farParts) → code ∈ settingCodes ++ bookCodes ∨ code = 0x01 ∨ code = 0x05 ∨ code = 0x10 ∨ code = 0x41
      ∨ code = 0x49 ∨ code = 0x52 ∨ code = 0x53 := by decide

namespace MachineKept

variable {Bd Br P : State → Prop} (hP : MachineKept Bd Br P) {s : State}
include hP

theorem does {ps : List Part} {t : State} (h : Does ps s t) (hps : ps ⊆ farParts) (hs : P s) : P t :=
  hP.far s t (h.mono hps).parts hs

theorem gathering (h : P s) : P s.gatheringEvents :=
  hP.far _ _ (by intro p hp; cases p <;> first | rfl | exact absurd (by decide) hp) h

theorem gatheredOf {f : State → State} (h : P (f s.gatheringEvents)) : P (Machine.gathered f s) := by
  unfold Machine.gathered
  exact hP.far _ _ (by intro p hp; cases p <;> first | rfl | exact absurd (by decide) hp) h

theorem gathered {f : State → State} (hf : ∀ u, P u → P (f u)) (h : P s) : P (gathered f s) :=
  hP.gatheredOf (hf _ (hP.gathering h))

theorem inAnyOrder {fs : List (State → State)} (hf : ∀ f ∈ fs, ∀ u, P u → P (f u)) (h : P s) : P (inAnyOrder fs s) :=
  inAnyOrder_preserves P fs hf (fun u n hu => hP.does (acts_setWorld (ps := [.world]) u n (by decide)).does (by decide) hu) s h

/-! #### The requests -/

theorem takeReport (b : Block) (h : P s) : P (takeReport b s) := by
  refine hP.gathered (fun u hu => hP.inAnyOrder (fun f hf v hv => ?_) hu) h
  simp only [List.mem_cons, List.not_mem_nil, or_false] at hf
  rcases hf with rfl | rfl | rfl
  · exact hP.does (does_reportMeter v b) (by decide) hv
  · exact hP.duty.reportUnits b hv
  · exact hP.dry.reportTrains b v hv

theorem resumeEffect (h : P s) : P (resumeEffect s) :=
  hP.recomputeTarget _ (hP.does ((acts_setSup (ps := [.sup, .evq]) s _ (by decide)).trans (acts_raise _ _ _ _ (by decide))).does
    (by decide) h)

theorem enterFallback (h : P s) : P (enterFallback s) :=
  hP.recomputeTarget _ (hP.does ((acts_setSup (ps := [.sup, .evq]) s _ (by decide)).trans (acts_raise _ _ _ _ (by decide))).does
    (by decide) h)

theorem reqUnitEnable (b : Block) (h : P s) : P (reqUnitEnable b s).after := by
  dsimp only [Machine.reqUnitEnable]
  split
  · exact h
  · split
    · next i _ _ =>
      dsimp only [disableUnit, taken]
      split
      · exact h
      · exact hP.gatheredOf ((hP.duty.unit i).hand _ ((hP.duty.unit i).settle (s := s.gatheringEvents) _ rfl rfl nofun (hP.gathering h)))
    · next i _ _ =>
      dsimp only [enableUnit]
      split
      · exact hP.gatheredOf ((hP.duty.unit i).hand _ ((hP.duty.unit i).settle (s := s.gatheringEvents) _ rfl rfl nofun (hP.gathering h)))
      · exact h
    · exact h

theorem reqTrainService (b : Block) (h : P s) : P (reqTrainService b s).after := by
  have hmove {t : Fin 2} (x : Train) (hx : TrainMove s.dry.trains[t] x) : Br (putTrain t x s.gatheringEvents) :=
    (hP.dry.train t).moveB s.gatheringEvents x hx ((hP.dry.train t).weaken _ (hP.gathering h))
  dsimp only [Machine.reqTrainService]
  split
  · exact h
  · split
    · next t _ _ =>
      dsimp only [serviceOut]
      split
      · exact h
      · exact hP.gatheredOf (hP.dry.hand _ (hmove _ ⟨rfl, rfl, fun hx => hx⟩))
    · next t _ _ =>
      dsimp only [serviceIn]
      split
      · exact hP.gatheredOf (hP.dry.enterService t _ (hmove _ ⟨rfl, rfl, fun hx => hx⟩))
      · exact h
    · exact h

/-- Every request but those that take an image keeps it. -/
theorem request {code : Byte} {req : Block → State → Answer} (hreq : requestOf code = some req) (hload : code ≠ 0x52)
    (hinit : code ≠ 0x53) (b : Block) (h : P s) : P (req b s).after := by
  by_cases hparts : ∃ p ∈ requestParts code, p ∉ farParts
  · rcases machine_mem_requestParts code hparts with hc | rfl | rfl | rfl | rfl | rfl | rfl | rfl
    · exact hP.setting code req hc hreq b s h
    · cases hreq
      exact checked_after _ h fun _ => hP.takeReport b h
    · cases hreq
      exact checked_after _ h fun _ => hP.gathered (fun _ => hP.resumeEffect) h
    · cases hreq
      exact checked_after _ h fun _ => hP.clockSet _ _ s h
    · cases hreq
      exact hP.reqUnitEnable b h
    · cases hreq
      exact hP.reqTrainService b h
    · exact absurd rfl hload
    · exact absurd rfl hinit
  · have hsub : requestParts code ⊆ farParts := fun p hp => by_contra fun hn => hparts ⟨p, hp, hn⟩
    by_cases hdrain : code = 0x03
    · subst hdrain
      cases hreq
      exact hP.far _ _ (changesOnly_mono (reqEventDrain_parts b s) (by decide)) h
    · exact hP.does (does_request hreq hdrain b s) hsub h

/-! #### The blocks -/

theorem endHour (h : P s) : P (endHour s) := by
  have htaken := hP.does
    ((acts_setSettle (ps := [.settle, .meter]) s { s.settle with inFlight := some (intakeOf s) } (by decide)).trans
      (acts_setMeter _ { s.meter with bucket := 0, kept := s.meter.base } (by decide))).does (by decide) h
  have hbegun := hP.gasTaken _ (s.dry.gas - (intakeOf s).fd * 3600)
    (hP.fuelTaken _ (s.duty.fuel - (intakeOf s).fc * 3600) htaken)
  exact hP.does (acts_setClock (ps := [.clock]) _ _ (by decide)).does (by decide) hbegun

theorem advanceClock (h : P s) : P (advanceClock s) := by
  dsimp only [Machine.advanceClock]
  split
  · exact h
  · split
    · exact hP.endHour h
    · exact hP.does (acts_setClock (ps := [.clock]) s _ (by decide)).does (by decide) h

theorem boundaryActs (n : Nat) {f : State → State} (hf : f ∈ boundaryActs n) (h : P s) : P (f s) := by
  rcases List.mem_cons.mp hf with rfl | hf
  · exact hP.recomputeTarget s h
  · split at hf
    · obtain rfl := List.mem_singleton.mp hf
      exact hP.day s h
    · exact absurd hf List.not_mem_nil

theorem clockSecond (h : P s) : P (clockSecond s) := by
  refine hP.gathered (fun u hu => hP.inAnyOrder (fun f hf v hv => ?_) hu) (hP.advanceClock h)
  rcases List.mem_cons.mp hf with rfl | hf
  · exact hP.does (does_gapWatch v) (by decide) hv
  · split at hf
    · exact hP.boundaryActs _ hf hv
    · exact absurd hf List.not_mem_nil

theorem settleFirst (h : P s) : P (settleFirst s) := by
  dsimp only [Machine.settleFirst]
  split
  · exact hP.settled s h
  · exact h

theorem supervisionSecond (h : P s) : P (supervisionSecond s) := by
  dsimp only [Machine.supervisionSecond]
  split
  · exact h
  · split
    · exact hP.enterFallback h
    · exact hP.does (acts_setSup (ps := [.sup]) s _ (by decide)).does (by decide) h

/-- Every command of the blocks but the restore's keeps it. -/
theorem block {c : Instr} (hc : ofBlocks c = true) (hrestore : ∀ r, c ≠ .restoreReadDone r) {t : State} (h : P s)
    (ht : exec c s = .next t) : P t := by
  have hif (p : Prop) [Decidable p] {f : State → State} (hf : p → P (f s)) : P (if p then f s else s) := by
    split
    · exact hf ‹_›
    · exact h
  have hgather {f : State → State} (hf : ∀ u, P u → P (f u)) : P (Machine.gathered f s) := hP.gathered hf h
  suffices hnext : ∃ u : State, exec c s = .next u ∧ P u by
    obtain ⟨u, hu, hp⟩ := hnext
    rw [ht] at hu
    cases hu
    exact hp
  clear ht
  cases c <;> first | exact absurd hc Bool.false_ne_true | refine ⟨_, rfl, ?_⟩
  case restoreReadDone r => exact absurd rfl (hrestore r)
  case reportGap => exact hif _ fun _ => hP.does (does_noteGap s) (by decide) h
  case gasClockSecond =>
    have hfirst := hP.settleFirst (hP.does (acts_setElapsed (ps := [.elapsed]) s (s.elapsed + 1) (by decide)).does (by decide) h)
    refine oneOf_preserves P _ _ (fun _ => hP.clockSecond) (fun g hg u hu => ?_)
      (fun u n hu => hP.does (acts_setWorld (ps := [.world]) u n (by decide)).does (by decide) hu) _ hfirst
    obtain rfl := List.mem_singleton.mp hg
    exact hP.clockSecond (hP.does (does_gapWatch u) (by decide) hu)
  case hourBoundary =>
    have hended := hP.gathered (fun u hu => hP.inAnyOrder (fun f hf v hv => hP.boundaryActs s.clock.hour hf hv) hu)
      (hP.endHour (hP.settleFirst h))
    split
    · exact hended
    · exact h
  case settlementCompletion => exact hP.settled s h
  case commitEnd whole => exact hP.does (does_endCommit s whole) (by decide) h
  case rampStep => exact hgather hP.flowSecond
  case turnaroundExpiry => exact hif _ fun hturn => hP.gatheredOf (hP.expireTurnaround s.gatheringEvents hturn.1 (hP.gathering h))
  case schedulerSecond => exact hgather fun _ => hP.duty.schedulerSecond
  case startStampAged i => exact (hP.duty.unit i).keepState _ rfl rfl rfl h
  case warmUpExpiry i => exact hif _ fun _ => hgather fun _ => (hP.duty.unit i).endWarmUp
  case hotHoldExpiry i => exact hif _ fun _ => hgather fun _ => (hP.duty.unit i).endHotHold
  case warmHoldExpiry i => exact hif _ fun _ => hgather fun _ => (hP.duty.unit i).endWarmHold
  case recoveryIntervalExpiry i => exact hif _ fun _ => hgather fun _ => (hP.duty.unit i).endRecovery
  case attemptsReset i => exact hif _ fun _ => (hP.duty.unit i).keepState _ rfl rfl rfl h
  case dryingSecond => exact hgather fun _ => hP.dry.dryingSecond
  case heatingEnd i =>
    exact hif _ fun hend => (hP.dry.train _).endHeating (Bool.or_eq_true _ _ ▸ .inl (beq_iff_eq.mpr hend.1)) h
  case coolingEnd i => exact hif _ fun _ => hgather fun _ => (hP.dry.train _).endCooling _
  case maskExpiry t => exact hif _ fun _ => hgather fun _ => (hP.dry.train t).endMask
  case offSpec t => exact hif _ fun _ => hgather fun _ => (hP.dry.train t).takeExcursion
  case onSpec t => exact hif _ fun _ => hgather fun _ => (hP.dry.train t).takeRecovery
  case statisticsSecond => exact hP.statistics s _ h
  case fallbackEntered => exact hif _ fun _ => hgather fun _ => hP.enterFallback
  case supervisionTimerSecond => exact hgather fun _ => hP.supervisionSecond

end MachineKept

/-- A predicate `P` that does not look at the book, the schedule and the other parts beside the machine. -/
structure AsideKept (Bd Br P : State → Prop) : Prop where
  duty : DutyKept Bd P
  dry : DryKept Br P
  away : ∀ s t, s.changesOnly awayParts t → P s → P t
  recomputeTarget : ∀ s, P s → P (recomputeTarget s)
  flowSecond : ∀ s, P s → P (flowSecond s)
  expireTurnaround : ∀ s, s.flow.dir = .turnaround → P s → P (expireTurnaround s)
  setting : ∀ code req, code ∈ settingCodes → requestOf code = some req → ∀ b s, P s → P (req b s).after
  fuelTaken : ∀ s n, P s → P (s.setDuty { s.duty with fuel := n })
  gasTaken : ∀ s n, P s → P (s.setDry { s.dry with gas := n })
  day : ∀ s, P s → P (dayBoundary s)
  settled : ∀ s, P s → P (completeSettlement s)

theorem book_requestParts : ∀ code ∈ bookCodes, requestParts code ⊆ awayParts ∧ code ≠ 0x03 := by decide

namespace AsideKept

variable {Bd Br P : State → Prop} (hP : AsideKept Bd Br P) {s : State}
include hP

theorem does {ps : List Part} {t : State} (h : Does ps s t) (hps : ps ⊆ awayParts) (hs : P s) : P t :=
  hP.away s t (h.mono hps).parts hs

theorem clockSetEffect (h sec : Nat) (hs : P s) : P (clockSetEffect h sec s).after := by
  have hstarted := hP.does (does_startClock s h sec) (by decide) hs
  have hdiscarded := hP.does (does_discardBefore _ h) (by decide) hstarted
  have htrimmed := hP.does (does_trimBook _ h) (by decide) hdiscarded
  refine gathered_preserves _ _ P hP.recomputeTarget (fun u q => hP.away u _ (by intro p hp; cases p <;> first | rfl | exact absurd (by decide) hp))
    (fun u n => hP.does (acts_setWorld (ps := [.world]) u n (by decide)).does (by decide)) (hP.does (does_confirmation _) (by decide) htrimmed)

theorem machine : MachineKept Bd Br P where
  duty := hP.duty
  dry := hP.dry
  far s t hst := hP.away s t (changesOnly_mono hst (by decide))
  recomputeTarget := hP.recomputeTarget
  flowSecond := hP.flowSecond
  expireTurnaround := hP.expireTurnaround
  setting code req hc hreq b s h := by
    rcases List.mem_append.mp hc with hc | hc
    · exact hP.setting code req hc hreq b s h
    · obtain ⟨hsub, hdrain⟩ := book_requestParts code hc
      exact hP.does (does_request hreq hdrain b s) hsub h
  clockSet _ _ _ h := hP.clockSetEffect _ _ h
  statistics s _ h := hP.does (acts_setBook (ps := [.book]) s _ (by decide)).does (by decide) h
  fuelTaken := hP.fuelTaken
  gasTaken := hP.gasTaken
  day := hP.day
  settled := hP.settled

end AsideKept

end Sys2Proof.Machine
end

section
/-! SUPPORT. Accounts and configuration stay sound (O11): distinct shippers, inventories in their range, curves written, the roster a
permutation, the site settings in range. -/

namespace Sys2Proof.Machine

/-- The records of the account table and the configuration of the part. -/
structure Conf where
  slots : Vector (Option Account) 24
  curves : Vector Curve 16
  site : Site
  units : Fin 6 → Bool × UnitCfg
  roster : Vector (Fin 6) 6
  trains : Fin 2 → Bool × TrainCfg

/-- The records and the configuration as they stand. -/
def confOf (s : State) : Conf where
  slots := s.acct.slots
  curves := s.curves
  site := s.site
  units := fun i => ((s.duty.units[i]).configured, (s.duty.units[i]).cfg)
  roster := s.duty.roster
  trains := fun t => ((s.dry.trains[t]).configured, (s.dry.trains[t]).cfg)

/-- The records and the configuration of an image. -/
def Image.conf (m : Image) : Conf where
  slots := m.slots
  curves := m.curves
  site := m.site
  units := fun i => ((m.units[i]).configured, (m.units[i]).cfg)
  roster := m.roster
  trains := fun t => ((m.trains[t]).configured, (m.trains[t]).cfg)

theorem snapshot_conf (s : State) : (snapshot s).conf = confOf s := by
  simp only [Image.conf, confOf, snapshot, Fin.getElem_fin, mapVec_getElem, CUnit.image, Train.image]

/-! ### The machine leaves the configuration -/

theorem countAndAge_unit (s : State) (i : Fin 6) :
    (countAndAge s).duty.units[i] = (s.duty.units[i]).counted.aged.renote s.site.startLimit := by
  simp only [countAndAge, State.setDuty_duty, Fin.getElem_fin, mapVec_getElem]

theorem loadBeds_train (s : State) (i : Fin 2) : (loadBeds s).dry.trains[i] =
    { s.dry.trains[i] with lo := loadedBed s.dry.trains[i] (s.dry.trains[i]).lo
                           hi := loadedBed s.dry.trains[i] (s.dry.trains[i]).hi } := by
  simp only [loadBeds, State.setDry_dry, Fin.getElem_fin, mapVec_getElem]

theorem confOf_congr {s t : State} (hslots : t.acct.slots = s.acct.slots) (hcurves : t.curves = s.curves) (hsite : t.site = s.site)
    (hunits : ∀ i : Fin 6, (t.duty.units[i]).configured = (s.duty.units[i]).configured ∧ (t.duty.units[i]).cfg = (s.duty.units[i]).cfg)
    (hroster : t.duty.roster = s.duty.roster)
    (htrains : ∀ i : Fin 2, (t.dry.trains[i]).configured = (s.dry.trains[i]).configured
      ∧ (t.dry.trains[i]).cfg = (s.dry.trains[i]).cfg) : confOf t = confOf s := by
  rw [confOf, confOf, hslots, hcurves, hsite, hroster]
  congr 1
  · funext i
    rw [(hunits i).1, (hunits i).2]
  · funext i
    rw [(htrains i).1, (htrains i).2]

/-- An action that leaves the accounts, the configuration, the units and the trains leaves all of it. -/
theorem Does.confOf_eq {ps : List Part} {s t : State} (h : Does ps s t) (hacct : Part.acct ∉ ps) (hcurves : Part.curves ∉ ps)
    (hsite : Part.site ∉ ps) (hduty : Part.duty ∉ ps) (hdry : Part.dry ∉ ps) : confOf t = confOf s := by
  rw [confOf, confOf, h.acct_eq hacct, h.curves_eq hcurves, h.site_eq hsite, h.duty_eq hduty, h.dry_eq hdry]

theorem confOf_putTrain {s : State} {t : Fin 2} {x : Train} (h : TrainMove s.dry.trains[t] x) :
    confOf (putTrain t x s) = confOf s := by
  refine confOf_congr rfl rfl rfl (fun _ => ⟨rfl, rfl⟩) rfl fun i => ?_
  show ((setVec s.dry.trains t x)[i]).configured = _ ∧ ((setVec s.dry.trains t x)[i]).cfg = _
  rw [Fin.getElem_fin, setVec_getElem]
  split
  · next hi =>
    obtain rfl := Fin.ext hi
    exact ⟨h.configured, h.cfg⟩
  · exact ⟨rfl, rfl⟩

theorem confOf_putUnit {s : State} {i : Fin 6} {v : CUnit} (h : UnitMove s.duty i v) : confOf (putUnit i v s) = confOf s := by
  refine confOf_congr rfl rfl rfl (fun j => ?_) rfl fun _ => ⟨rfl, rfl⟩
  rw [putUnit_units, Fin.getElem_fin, setVec_getElem]
  split
  · next hj =>
    obtain rfl := Fin.ext hj
    exact ⟨h.configured, h.cfg⟩
  · exact ⟨rfl, rfl⟩

theorem confOf_recut (s : State) : confOf (recut s) = confOf s :=
  (does_recut (ps := [.sched, .evq]) (by decide) (by decide) s).confOf_eq (by decide) (by decide) (by decide) (by decide) (by decide)

theorem confOf_countAndAge (s : State) : confOf (countAndAge s) = confOf s := by
  refine confOf_congr rfl rfl rfl (fun j => ?_) rfl fun _ => ⟨rfl, rfl⟩
  rw [countAndAge_unit]
  exact ⟨rfl, rfl⟩

theorem confOf_loadBeds (s : State) : confOf (loadBeds s) = confOf s := by
  refine confOf_congr rfl rfl rfl (fun _ => ⟨rfl, rfl⟩) rfl fun j => ?_
  rw [loadBeds_train]
  exact ⟨rfl, rfl⟩

section
variable (Q : Conf → Prop)

theorem flowFree_conf : FlowFree (fun s => Q (confOf s)) where
  raise _ _ _ _ _ h := h
  putTrain s t x hx h := by
    show Q (confOf (Machine.putTrain t x s))
    rw [confOf_putTrain (.of_core hx.core)]
    exact h
  setFlow _ _ h := h
  recut s h := by
    show Q (confOf (Machine.recut s))
    rw [confOf_recut]
    exact h
  setWorld _ _ h := h
  capacity _ _ h := h

theorem trainKept_conf {hand : Hand} (hhand : ∀ s, Q (confOf s) → Q (confOf (hand s))) (t : Fin 2) :
    TrainKept hand t (fun s => Q (confOf s)) (fun s => Q (confOf s)) :=
  .whole (flowFree_conf Q).toDewFree
    (fun s x hx h => by
      show Q (confOf (putTrain t x s))
      rw [confOf_putTrain hx]
      exact h)
    hhand

theorem dryKept_conf : DryKept (fun s => Q (confOf s)) (fun s => Q (confOf s)) :=
  .whole (flowFree_conf Q).toDewFree (trainKept_conf Q fun _ h => (flowFree_conf Q).handWithdrawal h) (fun _ h => h) fun s h => by
    show Q (confOf (loadBeds s))
    rw [confOf_loadBeds]
    exact h

theorem dutyKept_conf : DutyKept (fun s => Q (confOf s)) (fun s => Q (confOf s)) where
  unit i := .whole (fun _ _ _ _ _ h => h)
    (fun s v hv h => by
      show Q (confOf (putUnit i v s))
      rw [confOf_putUnit hv]
      exact h)
    fun _ h => (flowFree_conf Q).handInjection h
  accrue _ h := h
  age s h := by
    show Q (confOf (countAndAge s))
    rw [confOf_countAndAge]
    exact h
  note _ _ _ h := h
end

/-! ### Soundness (R15, R21, R83, R109, R132) -/

/-- A curve that a configuration names, if any, is written in it. -/
def Conf.writes (c : Conf) (k : Option (Fin 16)) : Prop := ∀ i : Fin 16, k = some i → c.curves[i] ≠ []

/-- The accounts and the configuration are sound. -/
structure Conf.Sound (c : Conf) : Prop where
  distinct : ∀ (i j : Fin 24) (a b : Account), c.slots[i] = some a → c.slots[j] = some b → a.shipper = b.shipper → i = j
  inventory : ∀ (i : Fin 24) (a : Account), c.slots[i] = some a → 0 ≤ a.inventory ∧ a.inventory ≤ a.spaceRight
  named : ∀ (i : Fin 24) (a : Account), c.slots[i] = some a → c.writes a.injCurve ∧ c.writes a.wdrCurve
  units : ∀ i : Fin 6, (c.units i).1 = true → c.writes (c.units i).2.curve
  trains : ∀ i : Fin 2, (c.trains i).1 = true → c.writes (c.trains i).2.curve
  roster : ∀ i : Fin 6, i ∈ c.roster.toList
  site : siteInRange c.site = true

theorem all_records_iff (m : Image) (p : Account → Bool) :
    m.records.all p = true ↔ ∀ (i : Fin 24) (a : Account), m.slots[i] = some a → p a = true := by
  simp only [Image.records, List.all_eq_true, List.mem_filterMap, id, Vector.mem_toList_iff]
  constructor
  · intro h i a hi
    exact h a ⟨some a, hi ▸ Vector.getElem_mem i.isLt, rfl⟩
  · rintro h a ⟨o, ho, rfl⟩
    obtain ⟨i, hi, hget⟩ := Vector.getElem_of_mem ho
    exact h ⟨i, hi⟩ a hget

theorem written_iff (m : Image) (k : Option (Fin 16)) : m.written k = true ↔ m.conf.writes k := by
  cases k with
  | none => exact ⟨fun _ _ h => absurd h nofun, fun _ => rfl⟩
  | some i =>
    simp only [Image.written, Bool.not_eq_true', List.isEmpty_eq_false_iff]
    exact ⟨fun h j hj => by cases hj; exact h, fun h => h i rfl⟩

theorem distinct_iff (v : Vector (Option Account) 24) :
    (v.toList.filterMap id).Pairwise (fun a b => a.shipper ≠ b.shipper) ↔
      ∀ (i j : Fin 24) (a b : Account), v[i] = some a → v[j] = some b → a.shipper = b.shipper → i = j := by
  rw [List.pairwise_filterMap, List.pairwise_iff_getElem]
  simp only [id, Vector.getElem_toList, Vector.length_toList]
  constructor
  · intro h i j a b hi hj hab
    rcases Nat.lt_trichotomy i.val j.val with hlt | heq | hgt
    · exact absurd hab (h i j i.isLt j.isLt hlt a hi b hj)
    · exact Fin.ext heq
    · exact absurd hab.symm (h j i j.isLt i.isLt hgt b hj a hi)
  · intro h i j hi hj hij a ha b hb hab
    exact absurd (congrArg Fin.val (h ⟨i, hi⟩ ⟨j, hj⟩ a b ha hb hab)) (Nat.ne_of_lt hij)

/-- The soundness of an image is that of its records and configuration. -/
theorem accountsSound_iff (m : Image) : m.accountsSound = true ↔ m.conf.Sound := by
  have hunits : m.units.toList.all (fun u => !u.configured || m.written u.cfg.curve) = true ↔
      ∀ i : Fin 6, (m.conf.units i).1 = true → m.conf.writes (m.conf.units i).2.curve := by
    rw [Vector.all_toList, Vector.all_eq_true, Fin.forall_iff]
    simp only [Bool.or_eq_true, Bool.not_eq_true', written_iff, ← Bool.not_eq_true, ← imp_iff_not_or]
    rfl
  have htrains : m.trains.toList.all (fun u => !u.configured || m.written u.cfg.curve) = true ↔
      ∀ i : Fin 2, (m.conf.trains i).1 = true → m.conf.writes (m.conf.trains i).2.curve := by
    rw [Vector.all_toList, Vector.all_eq_true, Fin.forall_iff]
    simp only [Bool.or_eq_true, Bool.not_eq_true', written_iff, ← Bool.not_eq_true, ← imp_iff_not_or]
    rfl
  have hroster : (List.finRange 6).all (fun i => m.roster.toList.contains i) = true ↔ ∀ i : Fin 6, i ∈ m.conf.roster.toList := by
    simp only [List.all_eq_true, List.contains_iff_mem, List.mem_finRange, true_imp_iff]
    rfl
  rw [Image.accountsSound, Image.curvesNamed]
  simp only [Bool.and_eq_true, hunits, htrains, hroster, all_records_iff, pairs_iff, decide_eq_true_eq, written_iff]
  rw [Image.records, distinct_iff]
  constructor
  · rintro ⟨⟨⟨⟨hdist, hinv⟩, ⟨hnamed, hu⟩, ht⟩, hr⟩, hs⟩
    exact ⟨hdist, hinv, hnamed, hu, ht, hr, hs⟩
  · rintro ⟨hdist, hinv, hnamed, hu, ht, hr, hs⟩
    exact ⟨⟨⟨⟨hdist, hinv⟩, ⟨hnamed, hu⟩, ht⟩, hr⟩, hs⟩

end Sys2Proof.Machine
end

section
/-! SUPPORT. Each move of the account table, each setting and each image taken keeps the accounts and the configuration sound
(O11). -/

namespace Sys2Proof.Machine

/-! ### The account table -/

theorem confOf_addToSba (d : Int) (s : State) : confOf (addToSba d s) = confOf s := by
  have h := does_addToSba s d
  refine confOf_congr (by rw [addToSba_acct]) (h.curves_eq (by decide)) (h.site_eq (by decide)) (fun i => ?_)
    (congrArg Duty.roster (h.duty_eq (by decide))) fun i => ?_
  · rw [h.duty_eq (by decide)]
    exact ⟨rfl, rfl⟩
  · rw [h.dry_eq (by decide)]
    exact ⟨rfl, rfl⟩

namespace Conf.Sound

variable {c : Conf} (h : c.Sound) {i : Fin 24}
include h

/-- A record put in a slot. -/
theorem put {a : Account} (hown : ∀ (j : Fin 24) (b : Account), j ≠ i → c.slots[j] = some b → b.shipper ≠ a.shipper)
    (hinv : 0 ≤ a.inventory ∧ a.inventory ≤ a.spaceRight) (hnamed : c.writes a.injCurve ∧ c.writes a.wdrCurve) :
    Conf.Sound { c with slots := setVec c.slots i (some a) } := by
  have hslot (j : Fin 24) (b : Account) (hj : (setVec c.slots i (some a))[j] = some b) :
      (j = i ∧ b = a) ∨ (j ≠ i ∧ c.slots[j] = some b) := by
    rw [Fin.getElem_fin, setVec_getElem] at hj
    split at hj
    · next hij => exact .inl ⟨Fin.ext hij.symm, (Option.some.inj hj).symm⟩
    · next hij => exact .inr ⟨fun he => hij (congrArg Fin.val he).symm, hj⟩
  refine { h with distinct := fun j k b d hb hd hbd => ?_, inventory := fun j b hb => ?_, named := fun j b hb => ?_ }
  · rcases hslot j b hb with ⟨rfl, rfl⟩ | ⟨hj, hb'⟩ <;> rcases hslot k d hd with ⟨rfl, rfl⟩ | ⟨hk, hd'⟩
    · rfl
    · exact absurd hbd.symm (hown k d hk hd')
    · exact absurd hbd (hown j b hj hb')
    · exact h.distinct j k b d hb' hd' hbd
  · rcases hslot j b hb with ⟨rfl, rfl⟩ | ⟨_, hb⟩
    · exact hinv
    · exact h.inventory j b hb
  · rcases hslot j b hb with ⟨rfl, rfl⟩ | ⟨_, hb⟩
    · exact hnamed
    · exact h.named j b hb

/-- A record rewritten for the same shipper. -/
theorem rewrite {a b : Account} (hi : c.slots[i] = some a) (hship : b.shipper = a.shipper)
    (hinv : 0 ≤ b.inventory ∧ b.inventory ≤ b.spaceRight)
    (hinj : b.injCurve = a.injCurve ∨ c.writes b.injCurve) (hwdr : b.wdrCurve = a.wdrCurve ∨ c.writes b.wdrCurve) :
    Conf.Sound { c with slots := setVec c.slots i (some b) } := by
  obtain ⟨ha, hb⟩ := h.named i a hi
  refine h.put (fun j d hj hd he => hj (h.distinct j i d a hd hi (he.trans hship))) hinv ⟨?_, ?_⟩
  · rcases hinj with he | hw
    · exact he ▸ ha
    · exact hw
  · rcases hwdr with he | hw
    · exact he ▸ hb
    · exact hw

/-- A slot emptied. -/
theorem release : Conf.Sound { c with slots := setVec c.slots i none } := by
  have hslot (j : Fin 24) (b : Account) (hj : (setVec c.slots i none)[j] = some b) : c.slots[j] = some b := by
    rw [Fin.getElem_fin, setVec_getElem] at hj
    split at hj
    · exact absurd hj nofun
    · exact hj
  exact { h with
    distinct := fun j k b d hb hd hbd => h.distinct j k b d (hslot j b hb) (hslot k d hd) hbd
    inventory := fun j b hb => h.inventory j b (hslot j b hb)
    named := fun j b hb => h.named j b (hslot j b hb) }
end Conf.Sound

/-- The accounts and the configuration of the part are sound. -/
def accountsHold (s : State) : Prop := (confOf s).Sound

theorem accountsHold_iff (s : State) : (snapshot s).accountsSound = true ↔ accountsHold s := by
  rw [accountsSound_iff, snapshot_conf, accountsHold]

theorem accountsHold_addToSba {s : State} (d : Int) (h : accountsHold s) : accountsHold (addToSba d s) := by
  rw [accountsHold, confOf_addToSba]
  exact h

theorem accountsHold_addInventory {s : State} (i : Fin 24) (d : Int) (h : accountsHold s)
    (hd : ∀ a : Account, s.acct.slots[i] = some a → 0 ≤ a.inventory + d ∧ a.inventory + d ≤ a.spaceRight) :
    accountsHold (addInventory i d s) := by
  dsimp only [addInventory]
  split
  · exact h
  · next a ha => exact Conf.Sound.rewrite h ha rfl (hd a ha) (.inl rfl) (.inl rfl)

theorem accountsHold_postSba {s : State} (d : Int) (h : accountsHold s) : accountsHold (postSba d s) := by
  dsimp only [postSba]
  split
  · exact h
  · exact accountsHold_addToSba d h

theorem accountsHold_postSlot {s : State} (i : Fin 24) (d : Int) (h : accountsHold s) : accountsHold (postSlot i d s) := by
  dsimp only [postSlot]
  split
  · exact h
  · next a ha =>
    have hput (b : Account) (hship : b.shipper = a.shipper) (hinv : 0 ≤ b.inventory ∧ b.inventory ≤ b.spaceRight)
        (hinj : b.injCurve = a.injCurve) (hwdr : b.wdrCurve = a.wdrCurve) : accountsHold (putSlot i (some b) s) :=
      Conf.Sound.rewrite h ha hship hinv (.inl hinj) (.inl hwdr)
    rcases clampBy_cases a d with ⟨hk, _⟩ | ⟨hk, _⟩ | ⟨hk, hinv⟩
    · rw [if_pos hk]
      exact accountsHold_addToSba _ (hput _ rfl ⟨le_refl _, Int.natCast_nonneg _⟩ rfl rfl)
    · rw [if_neg (by omega), if_pos hk]
      exact accountsHold_addToSba _ (hput _ rfl ⟨Int.natCast_nonneg _, le_refl _⟩ rfl rfl)
    · rw [if_neg (by omega), if_neg (by omega)]
      exact hput _ rfl hinv rfl rfl

theorem accountsHold_totals {s : State} (booked charged : Int) (h : accountsHold s) :
    accountsHold (s.setAcct { s.acct with booked := booked, charged := charged }) := h

theorem accountsHold_postHour {s : State} (k : Intake) (dv : Deviation) (c : Consumption) (changes : List Int)
    (h : accountsHold s) : accountsHold (postHour k dv c changes s) := by
  have hslots := foldl_preserves accountsHold (fun i t => postSlot i (changes.getD i.val 0) t) (List.finRange 24)
    (fun i _ _ hu => accountsHold_postSlot i _ hu) _
    (accountsHold_postSba (-(c.dryingLeft : Int)) (accountsHold_postSba (-(c.fuelLeft : Int))
      (accountsHold_postSba dv.uncovered (accountsHold_postSba dv.tolerance h))))
  exact accountsHold_totals _ _ hslots

theorem accountsAcct : AcctKept accountsHold where
  aside s t hst h := by
    have hconf : confOf t = confOf s := by
      rw [confOf, confOf, hst .acct (by decide), hst .curves (by decide), hst .site (by decide), hst .duty (by decide),
        hst .dry (by decide)]
    rw [accountsHold, hconf]
    exact h
  queue _ _ _ h := h
  opened s i a hi hzero hfree hinj hwdr h := by
    refine Conf.Sound.put h (fun j b hj hb he => ?_) ?_ ⟨hinj, hwdr⟩
    · exact (List.find?_eq_none.mp hfree) j (List.mem_finRange j) (slotHolds_iff.mpr ⟨b, hb, he⟩)
    · rw [hzero]
      exact ⟨le_refl _, Int.natCast_nonneg _⟩
  rewritten s i a c hi hship hinv hspace hinj hwdr h := by
    obtain ⟨hlow, hhigh⟩ := h.inventory i a hi
    refine Conf.Sound.rewrite h hi hship ⟨hinv ▸ hlow, ?_⟩ hinj hwdr
    rw [hinv]
    rcases hspace with he | hle
    · rw [he]
      exact hhigh
    · exact hle
  adjusted s i a q hi hlow hhigh h := accountsHold_addToSba _ (Conf.Sound.rewrite h hi rfl ⟨hlow, hhigh⟩ (.inl rfl) (.inl rfl))
  moved s i j a c q hi hj hlow hroom h := by
    obtain ⟨hc, hc'⟩ := h.inventory j c hj
    obtain ⟨ha, ha'⟩ := h.inventory i a hi
    have hfirst := accountsHold_addInventory i (-(q : Int)) h (fun b hb => by
      obtain rfl := Option.some.inj (hi.symm.trans hb)
      omega)
    refine accountsHold_addInventory j q hfirst (fun b hb => ?_)
    rw [addInventory, hi] at hb
    change (setVec s.acct.slots i _)[j] = some b at hb
    rw [Fin.getElem_fin, setVec_getElem] at hb
    split at hb
    · cases hb
      dsimp only
      omega
    · obtain rfl := Option.some.inj (hj.symm.trans hb)
      omega
  released s i a _ h := accountsHold_addToSba _ (Conf.Sound.release h)
  posting k s h := accountsHold_postHour k _ _ _ h

/-! ### The settings (R17, R18, R109, R129, R132, R156) -/

theorem putCurve_conf {s : State} (h : accountsHold s) (i : Fin 16) (l : Curve)
    (hl : l ≠ [] ∨ curveReferenced s i = false) : accountsHold (putCurve i l s) := by
  have hcurve (k : Fin 16) (hk : s.curves[k] ≠ []) (hki : l ≠ [] ∨ k ≠ i) : (setVec s.curves i l)[k] ≠ [] := by
    rw [Fin.getElem_fin, setVec_getElem]
    split
    · next hik => exact hki.resolve_right fun hne => hne (Fin.ext hik.symm)
    · exact hk
  have hwrites (o : Option (Fin 16)) (hi : curveReferenced s i = false → o ≠ some i) (ho : (confOf s).writes o) :
      (confOf (putCurve i l s)).writes o :=
    fun k hk => hcurve k (ho k hk) (hl.imp_right fun hr hki => hi hr (hki ▸ hk))
  have hfree (hr : curveReferenced s i = false) := not_or.mp ((not_congr (curveReferenced_iff s i)).mp (by rw [hr]; exact nofun))
  refine { h with named := fun j a ha => ?_, units := fun j hj => ?_, trains := fun j hj => ?_ }
  · obtain ⟨hinj, hwdr⟩ := h.named j a ha
    exact ⟨hwrites _ (fun hr he => (hfree hr).1 ⟨j, a, ha, .inl he⟩) hinj,
      hwrites _ (fun hr he => (hfree hr).1 ⟨j, a, ha, .inr he⟩) hwdr⟩
  · exact hwrites _ (fun hr he => (hfree hr).2 (.inl ⟨j, he⟩)) (h.units j hj)
  · exact hwrites _ (fun hr he => (hfree hr).2 (.inr ⟨j, he⟩)) (h.trains j hj)

theorem reqCurveWrite_accountsHold (b : Block) {s : State} (h : accountsHold s) : accountsHold (reqCurveWrite b s).after := by
  dsimp only [reqCurveWrite]
  split
  · exact h
  · split
    · exact h
    · refine checked_after _ h fun hchecks => putCurve_conf h _ _ (.inl fun hnil => ?_)
      have hcount := hchecks (_, .range) List.mem_cons_self
      obtain ⟨hlow, _⟩ := (Bool.and_eq_true _ _).mp hcount
      have hlen : (pointsOf b).length = fieldW b 1 := by rw [pointsOf, List.length_map, chunks_length]
      rw [hnil, List.length_nil] at hlen
      have := of_decide_eq_true hlow
      omega

theorem reqCurveClear_accountsHold (b : Block) {s : State} (h : accountsHold s) : accountsHold (reqCurveClear b s).after := by
  dsimp only [reqCurveClear]
  split
  · exact h
  · split
    · exact h
    · refine checked_after _ h fun hchecks => putCurve_conf h _ _ (.inr ?_)
      exact Bool.not_eq_true' _ ▸ hchecks (_, .state) List.mem_cons_self

theorem namesWritten_writes {s : State} {b : Block} {i : Nat} (h : namesWritten s b i = true) :
    (confOf s).writes (fieldFin 16 b i) := by
  intro k hk
  rw [namesWritten, hk] at h
  simpa [curveWritten, confOf] using h

theorem putUnit_accountsHold {s : State} (h : accountsHold s) (i : Fin 6) (v : CUnit) (hv : (confOf s).writes v.cfg.curve) :
    accountsHold (putUnit i v s) := by
  refine { h with units := fun j hj => ?_ }
  change (confOf s).writes ((putUnit i v s).duty.units[j]).cfg.curve
  change ((putUnit i v s).duty.units[j]).configured = true at hj
  rw [putUnit_units, Fin.getElem_fin, setVec_getElem] at hj ⊢
  split at hj
  · next hij =>
    rw [if_pos hij]
    exact hv
  · next hij =>
    rw [if_neg hij]
    exact h.units j hj

theorem putTrain_accountsHold {s : State} (h : accountsHold s) (i : Fin 2) (x : Train) (hx : (confOf s).writes x.cfg.curve) :
    accountsHold (putTrain i x s) := by
  refine { h with trains := fun j hj => ?_ }
  change (confOf s).writes ((setVec s.dry.trains i x)[j]).cfg.curve
  change ((setVec s.dry.trains i x)[j]).configured = true at hj
  rw [Fin.getElem_fin, setVec_getElem] at hj ⊢
  split at hj
  · next hij =>
    rw [if_pos hij]
    exact hx
  · next hij =>
    rw [if_neg hij]
    exact h.trains j hj

/-- What a gathered response keeps of the accounts and the configuration. -/
theorem gathered_accountsHold {f : State → State} {s : State} (hf : ∀ u, accountsHold u → accountsHold (f u)) (h : accountsHold s) :
    accountsHold (gathered f s) :=
  gathered_preserves f s accountsHold hf (fun _ _ hu => hu) (fun _ _ hu => hu) h

theorem reqUnitSet_accountsHold (b : Block) {s : State} (h : accountsHold s) : accountsHold (reqUnitSet b s).after := by
  dsimp only [reqUnitSet]
  split
  · exact h
  · split
    · exact h
    · next i _ =>
      refine checked_after _ h fun hchecks => ?_
      have hnamed := hchecks (_, .range) (List.mem_cons_of_mem _ (List.mem_cons_of_mem _ List.mem_cons_self))
      exact gathered_accountsHold (fun _ => ((dutyKept_conf Conf.Sound).unit i).hand _)
        (putUnit_accountsHold h i _ (namesWritten_writes hnamed))

theorem reqTrainSet_accountsHold (b : Block) {s : State} (h : accountsHold s) : accountsHold (reqTrainSet b s).after := by
  dsimp only [reqTrainSet]
  split
  · exact h
  · split
    · exact h
    · next t _ =>
      refine checked_after _ h fun hchecks => ?_
      have hnamed := hchecks (_, .range) (List.mem_cons_of_mem _ (List.mem_cons_of_mem _ (List.mem_cons_of_mem _ List.mem_cons_self)))
      exact gathered_accountsHold (fun _ => ((dryKept_conf Conf.Sound).train t).bedTest)
        (putTrain_accountsHold h t _ (namesWritten_writes hnamed))

/-! #### Rosters (R132, R133) -/

theorem rosterOf_toList {l : List (Fin 6)} (h : l.length = 6) (r : Vector (Fin 6) 6) : (rosterOf l r).toList = l := by
  rw [rosterOf, dif_pos h]
  rfl

theorem insertByRun_perm (s : State) (i : Fin 6) (l : List (Fin 6)) : (insertByRun s i l).Perm (i :: l) := by
  induction l with
  | nil => exact .refl _
  | cons j js ih =>
    rw [insertByRun]
    split
    · exact .refl _
    · exact (ih.cons j).trans (.swap i j js)

theorem foldl_insertByRun_perm (s : State) (l acc : List (Fin 6)) :
    (l.foldl (fun l i => insertByRun s i l) acc).Perm (l ++ acc) := by
  induction l generalizing acc with
  | nil => exact .refl _
  | cons i is ih =>
    exact (ih _).trans (((insertByRun_perm s i acc).append_left is).trans List.perm_middle)

/-- The re-sort names every unit once. -/
theorem rotated_perm (s : State) : (rotated s).Perm (List.finRange 6) := by
  have hsort := foldl_insertByRun_perm s ((List.finRange 6).filter (fun i => (s.duty.units[i]).rotates)) []
  rw [List.append_nil] at hsort
  exact (hsort.append_right _).trans (List.filter_append_perm _ _)

theorem roster_accountsHold {s : State} (h : accountsHold s) {l : List (Fin 6)} (hlen : l.length = 6) (hall : ∀ i : Fin 6, i ∈ l) :
    accountsHold (s.setDuty { s.duty with roster := rosterOf l s.duty.roster }) := by
  refine { h with roster := fun i => ?_ }
  show i ∈ (rosterOf l s.duty.roster).toList
  rw [rosterOf_toList hlen]
  exact hall i

theorem dayBoundary_accountsHold {s : State} (h : accountsHold s) : accountsHold (dayBoundary s) := by
  dsimp only [dayBoundary]
  split
  · have hperm := rotated_perm s
    exact roster_accountsHold h hperm.length_eq fun i => hperm.mem_iff.mpr (List.mem_finRange i)
  · exact h

theorem reqRosterSet_accountsHold (b : Block) {s : State} (h : accountsHold s) : accountsHold (reqRosterSet b s).after := by
  refine checked_after _ h fun hchecks => ?_
  have hroster := hchecks (_, .range) (List.mem_append_right _ List.mem_cons_self)
  simp only [Bool.and_eq_true, decide_eq_true_eq, List.all_eq_true, List.contains_iff_mem] at hroster
  exact roster_accountsHold h hroster.1 fun i => hroster.2 i (List.mem_finRange i)

theorem applySite_accountsHold {g : Site} (hg : siteInRange g = true) {s : State} (h : accountsHold s) :
    accountsHold (applySite g s) := by
  have hset : accountsHold (renoteUnits (s.setSite g)) := by
    refine { h with units := fun j hj => ?_, site := hg }
    change (confOf s).writes ((mapVec _ s.duty.units)[j] : CUnit).cfg.curve
    change ((mapVec (CUnit.renote g.startLimit) s.duty.units)[j]).configured = true at hj
    rw [Fin.getElem_fin, mapVec_getElem] at hj ⊢
    exact h.units j hj
  dsimp only [applySite]
  refine gathered_accountsHold (fun u hu => ?_) hset
  refine inAnyOrder_preserves accountsHold _ (fun f hf v hv => ?_) (fun _ _ hv => hv) _ ((flowFree_conf Conf.Sound).flow.recomputeTarget hu)
  simp only [List.mem_append, List.mem_cons, List.not_mem_nil, or_false] at hf
  rcases hf with ((rfl | rfl) | hf) | rfl
  · exact ((dutyKept_conf Conf.Sound).unit 0).hand v hv
  · exact (dryKept_conf Conf.Sound).hand v hv
  · split at hf
    · obtain rfl := List.mem_singleton.mp hf
      exact accountsAcct.aside v _ ((does_confirmation v).mono (by decide)).parts hv
    · exact absurd hf List.not_mem_nil
  · have hzero : evaluateAlert v = addToSba 0 v := by
      rw [addToSba, Int.add_zero]
      rfl
    rw [hzero]
    exact accountsHold_addToSba 0 hv

theorem accountsMachine : AsideKept accountsHold accountsHold accountsHold where
  duty := dutyKept_conf Conf.Sound
  dry := dryKept_conf Conf.Sound
  recomputeTarget _ h := (flowFree_conf Conf.Sound).flow.recomputeTarget h
  flowSecond _ h := (flowFree_conf Conf.Sound).flow.flowSecond h
  expireTurnaround _ _ h := (flowFree_conf Conf.Sound).flow.expireTurnaround h
  away s t hst h := accountsAcct.aside s t (changesOnly_mono hst (by decide)) h
  setting code req hc hreq b s h := by
    rcases List.mem_append.mp hc with hc | hc
    · exact accountsAcct.request hreq hc b h
    · simp only [List.mem_cons, List.not_mem_nil, or_false] at hc
      rcases hc with rfl | rfl | rfl | rfl | rfl | rfl <;> cases hreq
      · exact reqCurveWrite_accountsHold b h
      · exact reqCurveClear_accountsHold b h
      · refine checked_after _ h fun hchecks => applySite_accountsHold ?_ h
        have hrange := hchecks (_, .range) (List.mem_append_right _ List.mem_cons_self)
        exact ((Bool.and_eq_true _ _).mp hrange).1
      · exact reqUnitSet_accountsHold b h
      · exact reqRosterSet_accountsHold b h
      · exact reqTrainSet_accountsHold b h
  fuelTaken _ _ h := h
  gasTaken _ _ h := h
  day _ h := dayBoundary_accountsHold h
  settled _ h := accountsAcct.completeSettlement h

end Sys2Proof.Machine
end

section
/-! SUPPORT. What an image taken gives the units and the trains, and with it O11. -/

namespace Sys2Proof.Machine

/-! ### An image taken by the units and the trains (R113, R139) -/

/-- The train records that an image gives. -/
def trainsFrom (held : Train → Held) (m : Image) (s : State) : Vector Train 2 :=
  mapVec (fun i : Fin 2 => (m.trains[i]).train m (held s.dry.trains[i])) ⟨(List.finRange 2).toArray, rfl⟩

theorem trainsFrom_getElem (held : Train → Held) (m : Image) (s : State) (i : Fin 2) :
    (trainsFrom held m s)[i] = (m.trains[i]).train m (held s.dry.trains[i]) := by
  simp only [trainsFrom, Fin.getElem_fin, mapVec_getElem]
  fin_cases i <;> rfl

/-- The unit records that an image gives. -/
def unitsFrom (ages : CUnit → List Nat) (m : Image) (s : State) : Vector CUnit 6 :=
  mapVec (fun i : Fin 6 => (m.units[i]).unit (ages s.duty.units[i])) ⟨(List.finRange 6).toArray, rfl⟩

theorem unitsFrom_getElem (ages : CUnit → List Nat) (m : Image) (s : State) (i : Fin 6) :
    (unitsFrom ages m s)[i] = (m.units[i]).unit (ages s.duty.units[i]) := by
  simp only [unitsFrom, Fin.getElem_fin, mapVec_getElem]
  fin_cases i <;> rfl

theorem takeUnits_eq (ages : CUnit → List Nat) (m : Image) (s : State) : takeUnits ages m s =
    handInjection (s.setDuty { s.duty with units := unitsFrom ages m s, roster := m.roster, fuel := 0 }) := rfl

theorem takeTrains_eq (held : Train → Held) (m : Image) (s : State) : takeTrains held m s =
    followDirection handWithdrawal (handWithdrawal (bothTrains (fun t u => bedTest id t (takeUp id t u))
      (s.setDry { s.dry with trains := trainsFrom held m s, gas := 0 }))) := rfl

theorem takeUnits_conf (ages : CUnit → List Nat) (m : Image) (s : State) :
    confOf (takeUnits ages m s) = { confOf s with units := m.conf.units, roster := m.conf.roster } := by
  rw [takeUnits_eq]
  refine ((dutyKept_conf fun c => c = { confOf s with units := m.conf.units, roster := m.conf.roster }).unit 0).hand _ ?_
  have hunits : (confOf (s.setDuty { s.duty with units := unitsFrom ages m s, roster := m.roster, fuel := 0 })).units
      = m.conf.units := by
    funext i
    show (((unitsFrom ages m s)[i]).configured, ((unitsFrom ages m s)[i]).cfg) = _
    rw [unitsFrom_getElem]
    rfl
  rw [← hunits]
  rfl

theorem TrainMove.ordered (x : Train) : x.ordered.configured = x.configured ∧ x.ordered.cfg = x.cfg := ⟨rfl, rfl⟩

theorem takeTrains_conf (held : Train → Held) (m : Image) (s : State) :
    confOf (takeTrains held m s) = { confOf s with trains := m.conf.trains } := by
  rw [takeTrains_eq]
  refine (dryKept_conf fun c => c = { confOf s with trains := m.conf.trains }).tested
    (trainKept_conf (fun c => c = { confOf s with trains := m.conf.trains }) fun _ h => h) ?_
  have htrains : (confOf (s.setDry { s.dry with trains := trainsFrom held m s, gas := 0 })).trains = m.conf.trains := by
    funext i
    show (((trainsFrom held m s)[i]).configured, ((trainsFrom held m s)[i]).cfg) = _
    rw [trainsFrom_getElem]
    rfl
  rw [← htrains]
  rfl

theorem confOf_gathered (f : State → State) (s : State) : confOf (gathered f s) = confOf (f s.gatheringEvents) := rfl

theorem confOf_setSup (x : Supervision) (s : State) : confOf (s.setSup x) = confOf s := rfl

theorem confOf_setStore (x : Store) (s : State) : confOf (s.setStore x) = confOf s := rfl

theorem confOf_noteCount (n : Nat) (s : State) : confOf (noteCount n s) = confOf s :=
  (does_noteCount s n).confOf_eq (by decide) (by decide) (by decide) (by decide) (by decide)

/-- The configuration after the units and the trains have taken an image, in either order. -/
theorem takeUnitsAndTrains_conf (ages : CUnit → List Nat) (held : Train → Held) (m : Image) (s : State) :
    confOf (gathered (inAnyOrder [takeUnits ages m, takeTrains held m]) s) =
      { confOf s with units := m.conf.units, roster := m.conf.roster, trains := m.conf.trains } := by
  have hdoes := does_takeUnitsAndTrains s ages held m
  have hunits : (confOf (gathered (inAnyOrder [takeUnits ages m, takeTrains held m]) s)).units = m.conf.units
      ∧ (confOf (gathered (inAnyOrder [takeUnits ages m, takeTrains held m]) s)).roster = m.conf.roster := by
    rw [confOf_gathered]
    refine inAnyOrder_establishes (fun u => (confOf u).units = m.conf.units ∧ (confOf u).roster = m.conf.roster)
      (f := takeUnits ages m) List.mem_cons_self (fun u => ?_) (fun g hg u hu => ?_) s.gatheringEvents
    · rw [takeUnits_conf]
      exact ⟨rfl, rfl⟩
    · rcases List.mem_pair.mp hg with rfl | rfl
      · rw [takeUnits_conf]
        exact ⟨rfl, rfl⟩
      · rw [takeTrains_conf]
        exact hu
  have htrains : (confOf (gathered (inAnyOrder [takeUnits ages m, takeTrains held m]) s)).trains = m.conf.trains := by
    rw [confOf_gathered]
    refine inAnyOrder_establishes (fun u => (confOf u).trains = m.conf.trains)
      (f := takeTrains held m) (List.mem_cons_of_mem _ List.mem_cons_self) (fun u => ?_) (fun g hg u hu => ?_) s.gatheringEvents
    · rw [takeTrains_conf]
    · rcases List.mem_pair.mp hg with rfl | rfl
      · rw [takeUnits_conf]
        exact hu
      · rw [takeTrains_conf]
  rw [← hunits.1, ← hunits.2, ← htrains]
  have hacct := hdoes.acct_eq (by decide)
  have hcurves := hdoes.curves_eq (by decide)
  have hsite := hdoes.site_eq (by decide)
  generalize gathered (inAnyOrder [takeUnits ages m, takeTrains held m]) s = t at hacct hcurves hsite ⊢
  rw [confOf, confOf, hacct, hcurves, hsite]

theorem takeImage_conf (m : Image) (s : State) :
    confOf (takeImage m s) = { confOf s with slots := m.slots, curves := m.curves, site := m.site } := rfl

theorem restoreBlocks_conf (m : Image) (s : State) : confOf (restoreBlocks m s) = m.conf := by
  dsimp only [restoreBlocks]
  rw [confOf_setSup, takeUnitsAndTrains_conf, takeImage_conf]
  rfl

theorem adopt_conf (n : BitVec 32) (m : Image) (s : State) : confOf (adopt n m s) = m.conf := by
  dsimp only [adopt, beginNumbered]
  rw [confOf_setStore, confOf_setStore, confOf_setSup, takeUnitsAndTrains_conf, confOf_noteCount, takeImage_conf]
  rfl

/-! ### O11 -/

theorem consistent_accountsSound {m : Image} (h : m.consistent = true) : m.accountsSound = true := by
  simp only [Image.consistent, Image.inRange, Bool.and_eq_true, and_assoc] at h
  obtain ⟨_, _, _, _, _, _, _, _, hsite, h⟩ := h
  simp only [Image.accountsSound, Bool.and_eq_true, and_assoc]
  tauto

theorem accountsKept : ImageKept Image.accountsSound where
  default := by decide
  setSup _ _ h := h
  request code req hreq hload hinit b s h := by
    rw [accountsHold_iff] at h ⊢
    exact accountsMachine.machine.request hreq hload hinit b h
  block c hc hrestore s t h ht := by
    rw [accountsHold_iff] at h ⊢
    exact accountsMachine.machine.block hc hrestore h ht
  complete s h := by
    rw [accountsHold_iff] at h ⊢
    exact accountsAcct.completeSettlement h
  restored m s hm := by
    rw [accountsHold_iff, accountsHold, restoreBlocks_conf]
    exact (accountsSound_iff m).mp hm
  loaded _ m _ hm n s := by
    rw [accountsHold_iff, accountsHold, adopt_conf]
    exact (accountsSound_iff m).mp (consistent_accountsSound hm)
  initialized s := by
    rw [accountsHold_iff, accountsHold, adopt_conf]
    exact (accountsSound_iff _).mp (by decide)

/-- Settles O11: a record moves within its space right, a curve is cleared only where none names it, and the rosters are
permutations. -/
theorem everyStepKeepsAccountsAndConfiguration : Obligations.EveryStepKeepsAccountsAndConfiguration :=
  fun _ _ h ht => accountsKept.step h ht

end Sys2Proof.Machine
end

section
/-! SUPPORT. The site stage (R56): what it cuts from each record of an hour, and the net it leaves. -/

namespace Sys2Proof.Machine

/-! ### What the records of a direction come to -/

/-- The confirmed quantity of the records of a direction. -/
def confirmedIn (d : Direction) (rs : List SchedRec) : Nat := (rs.map (fun r => if r.dir = d then r.confirmed else 0)).sum

theorem netOf_cons (r : SchedRec) (rs : List SchedRec) : netOf (r :: rs) = r.dir.sign r.confirmed + netOf rs := by
  simp [netOf]

theorem confirmedIn_cons (d : Direction) (r : SchedRec) (rs : List SchedRec) :
    confirmedIn d (r :: rs) = (if r.dir = d then r.confirmed else 0) + confirmedIn d rs := rfl

theorem netOf_eq (rs : List SchedRec) : netOf rs = (confirmedIn .inject rs : Int) - confirmedIn .withdraw rs := by
  induction rs with
  | nil => rfl
  | cons r rs ih =>
    rw [netOf_cons, ih, confirmedIn_cons, confirmedIn_cons]
    cases r.dir <;> simp [Direction.sign] <;> omega

/-! ### The shares of a cut -/

/-- What a cut of the amount `e` from the direction `d` takes from each record. -/
structure CutOf (d : Direction) (e : Nat) (rs : List SchedRec) (xs : List Nat) : Prop where
  length : xs.length = rs.length
  sum : xs.sum = e
  share : ∀ (i : Nat) (r : SchedRec) (x : Nat), rs[i]? = some r → xs[i]? = some x → x ≤ r.confirmed ∧ (r.dir ≠ d → x = 0)
  firm : ∀ (i j : Nat) (r q : SchedRec) (x y : Nat), rs[i]? = some r → xs[i]? = some x → r.cls = .firm → x ≠ 0 →
    rs[j]? = some q → xs[j]? = some y → q.dir = d → q.cls = .interruptible → y = q.confirmed

section
variable (d : Direction) (c : Class) (rs : List SchedRec)

/-- The participant of a record in the round of a direction and a class. -/
def cutParticipant (r : SchedRec) : Participant :=
  if r.dir = d ∧ r.cls = c then Participant.start r.slot.val r.confirmed (some r.confirmed)
  else Participant.start r.slot.val 0 (some 0)

theorem cutParticipants_eq : cutParticipants d c rs = rs.map (cutParticipant d c) := rfl

theorem cutParticipants_open : ∀ p ∈ cutParticipants d c rs, p.total = 0 ∧ p.isOpen = true := by
  intro p hp
  rw [cutParticipants_eq, List.mem_map] at hp
  obtain ⟨r, _, rfl⟩ := hp
  unfold cutParticipant
  split <;> exact ⟨rfl, rfl⟩

theorem cutParticipants_length {n : Nat} : (divide n (cutParticipants d c rs)).shares.length = rs.length :=
  (divide_length n _ (cutParticipants_open d c rs)).trans (List.length_map _)

/-- The share of a record in a round: none of another kind, and no more than it has; all of it while an amount is left. -/
theorem roundShare_spec (n : Nat) {i : Nat} {r : SchedRec} (hr : rs[i]? = some r) :
    ∃ x : Nat, (divide n (cutParticipants d c rs)).shares[i]? = some x ∧ (¬(r.dir = d ∧ r.cls = c) → x = 0) ∧ x ≤ r.confirmed
      ∧ ((divide n (cutParticipants d c rs)).uncovered ≠ 0 → r.dir = d → r.cls = c → x = r.confirmed) := by
  have hp : (cutParticipants d c rs)[i]? = some (cutParticipant d c r) := by
    rw [cutParticipants_eq, List.getElem?_map, hr]
    rfl
  obtain ⟨x, hx, hcap, _, hleft⟩ := divide_share n _ (cutParticipants_open d c rs) hp
  refine ⟨x, hx, ?_⟩
  by_cases hkind : r.dir = d ∧ r.cls = c
  · rw [cutParticipant, if_pos hkind] at hcap hleft
    refine ⟨fun h => absurd hkind h, hcap _ rfl, fun hu _ _ => ?_⟩
    have hle := hcap r.confirmed rfl
    rcases hleft hu with h0 | hfull
    · have hzero : r.confirmed = 0 := h0
      omega
    · exact (Option.some.inj hfull).symm
  · rw [cutParticipant, if_neg hkind] at hcap
    have hzero : x = 0 := Nat.le_zero.mp (hcap 0 rfl)
    exact ⟨fun _ => hzero, hzero ▸ Nat.zero_le _, fun _ hd hc => absurd ⟨hd, hc⟩ hkind⟩
end

section
variable (d : Direction) (e : Nat) (rs : List SchedRec)

/-- What the interruptible round leaves. -/
def softLeft : Nat := (divide e (cutParticipants d .interruptible rs)).uncovered

theorem cutShares_getElem? {i : Nat} {r : SchedRec} (hr : rs[i]? = some r) :
    ∃ x y : Nat, (cutShares d e rs)[i]? = some (x + y)
      ∧ (divide e (cutParticipants d .interruptible rs)).shares[i]? = some x
      ∧ (divide (softLeft d e rs) (cutParticipants d .firm rs)).shares[i]? = some y := by
  obtain ⟨x, hx, _⟩ := roundShare_spec d .interruptible rs e hr
  obtain ⟨y, hy, _⟩ := roundShare_spec d .firm rs (softLeft d e rs) hr
  refine ⟨x, y, ?_, hx, hy⟩
  show (List.zipWith (· + ·) _ (divide (softLeft d e rs) (cutParticipants d .firm rs)).shares)[i]? = _
  rw [List.getElem?_zipWith, hx, hy]

theorem cutShares_length : (cutShares d e rs).length = rs.length := by
  show (List.zipWith (· + ·) _ _).length = _
  rw [List.length_zipWith, cutParticipants_length, cutParticipants_length, Nat.min_self]

/-- Two rounds take each record's share, no more than it has, from its direction alone, and the firm ones only what the interruptible
ones could not give. -/
theorem cutShares_share {i : Nat} {r : SchedRec} {z : Nat} (hr : rs[i]? = some r) (hz : (cutShares d e rs)[i]? = some z) :
    z ≤ r.confirmed ∧ (r.dir ≠ d → z = 0) ∧ (r.cls = .firm → z ≠ 0 → softLeft d e rs ≠ 0)
      ∧ (softLeft d e rs ≠ 0 → r.dir = d → r.cls = .interruptible → z = r.confirmed)
      ∧ ((divide (softLeft d e rs) (cutParticipants d .firm rs)).uncovered ≠ 0 → softLeft d e rs ≠ 0) := by
  obtain ⟨x, y, hxy, hx, hy⟩ := cutShares_getElem? d e rs hr
  obtain rfl : z = x + y := Option.some.inj (hz.symm.trans hxy)
  obtain ⟨x', hx', hxkind, hxle, hxfull⟩ := roundShare_spec d .interruptible rs e hr
  obtain ⟨y', hy', hykind, hyle, hyfull⟩ := roundShare_spec d .firm rs (softLeft d e rs) hr
  obtain rfl := Option.some.inj (hx.symm.trans hx')
  obtain rfl := Option.some.inj (hy.symm.trans hy')
  have hsum := divide_sum (softLeft d e rs) _ (cutParticipants_open d .firm rs)
  have hmem : y ≤ (divide (softLeft d e rs) (cutParticipants d .firm rs)).shares.sum :=
    List.le_sum_of_mem (List.mem_of_getElem? hy)
  have hone : x = 0 ∨ y = 0 := by
    cases hc : r.cls with
    | firm => exact .inl (hxkind fun h => by rw [hc] at h; exact absurd h.2 nofun)
    | interruptible => exact .inr (hykind fun h => by rw [hc] at h; exact absurd h.2 nofun)
  refine ⟨by omega, fun hd => ?_, fun hc hne => ?_, fun hleft hd hc => ?_, fun hu => by omega⟩
  · rw [hxkind fun h => hd h.1, hykind fun h => hd h.1]
  · have hx0 : x = 0 := hxkind fun h => by rw [hc] at h; exact absurd h.2 nofun
    omega
  · have hx0 := hxfull hleft hd hc
    have hy0 : y = 0 := hykind fun h => by rw [hc] at h; exact absurd h.2 nofun
    omega

/-- A cut of no more than a direction holds is made whole. -/
theorem cutShares_sum (he : e ≤ confirmedIn d rs) : (cutShares d e rs).sum = e := by
  have hsoft := divide_sum e _ (cutParticipants_open d .interruptible rs)
  have hhard := divide_sum (softLeft d e rs) _ (cutParticipants_open d .firm rs)
  have hsum : (cutShares d e rs).sum = (divide e (cutParticipants d .interruptible rs)).shares.sum
      + (divide (softLeft d e rs) (cutParticipants d .firm rs)).shares.sum :=
    sum_zipWith_add _ _ (by rw [cutParticipants_length, cutParticipants_length])
  by_cases hu : (divide (softLeft d e rs) (cutParticipants d .firm rs)).uncovered = 0
  · rw [hsum]
    unfold softLeft at hhard hu ⊢
    omega
  · have hall : confirmedIn d rs ≤ (cutShares d e rs).sum := by
      refine sum_le_of_getElem? (by rw [List.length_map, cutShares_length]) fun i a z ha hz => ?_
      rw [List.getElem?_map, Option.map_eq_some_iff] at ha
      obtain ⟨r, hr, rfl⟩ := ha
      split
      · next hd =>
        obtain ⟨x, y, hxy, hx, hy⟩ := cutShares_getElem? d e rs hr
        obtain ⟨x', hx', _, _, hxfull⟩ := roundShare_spec d .interruptible rs e hr
        obtain ⟨y', hy', _, _, hyfull⟩ := roundShare_spec d .firm rs (softLeft d e rs) hr
        obtain rfl := Option.some.inj (hx.symm.trans hx')
        obtain rfl := Option.some.inj (hy.symm.trans hy')
        obtain rfl := Option.some.inj (hz.symm.trans hxy)
        cases hc : r.cls with
        | firm => exact (hyfull hu hd hc) ▸ Nat.le_add_left _ _
        | interruptible => exact (hxfull ((cutShares_share d e rs hr hz).2.2.2.2 hu) hd hc) ▸ Nat.le_add_right _ _
      · exact Nat.zero_le _
    rw [hsum] at hall ⊢
    unfold softLeft at hhard hu hall ⊢
    omega

theorem cutShares_cutOf (he : e ≤ confirmedIn d rs) : CutOf d e rs (cutShares d e rs) where
  length := cutShares_length d e rs
  sum := cutShares_sum d e rs he
  share i r x hr hx := by
    obtain ⟨hle, hdir, _⟩ := cutShares_share d e rs hr hx
    exact ⟨hle, hdir⟩
  firm i j r q x y hr hx hc hne hq hy hd hsoft := by
    obtain ⟨_, _, hleft, _⟩ := cutShares_share d e rs hr hx
    obtain ⟨_, _, _, hfull, _⟩ := cutShares_share d e rs hq hy
    exact hfull (hleft hc hne) hd hsoft
end

/-! ### The net that a cut leaves -/

/-- Records cut by their shares: what each loses. -/
theorem confirmedIn_cut {f : SchedRec → Nat → SchedRec} (hf : ∀ r x, (f r x).dir = r.dir ∧ (f r x).confirmed = r.confirmed - x)
    (d : Direction) {rs : List SchedRec} {xs : List Nat} (hlen : xs.length = rs.length)
    (hle : ∀ (i : Nat) (r : SchedRec) (x : Nat), rs[i]? = some r → xs[i]? = some x → x ≤ r.confirmed ∧ (r.dir ≠ d → x = 0)) :
    confirmedIn d (List.zipWith f rs xs) + xs.sum = confirmedIn d rs
      ∧ ∀ d' ≠ d, confirmedIn d' (List.zipWith f rs xs) = confirmedIn d' rs := by
  induction rs generalizing xs with
  | nil =>
    obtain rfl := List.length_eq_zero_iff.mp hlen
    exact ⟨rfl, fun _ _ => rfl⟩
  | cons r rs ih =>
    cases xs with
    | nil => exact absurd hlen nofun
    | cons x xs =>
      obtain ⟨ih1, ih2⟩ := ih (Nat.succ.inj hlen) fun i => hle (i + 1)
      obtain ⟨hx, hd⟩ := hle 0 r x rfl rfl
      obtain ⟨hdir, hconf⟩ := hf r x
      simp only [confirmedIn, List.zipWith_cons_cons, List.map_cons, List.sum_cons, hdir, hconf] at ih1 ih2 ⊢
      refine ⟨?_, fun d' hd' => ?_⟩
      · split
        · omega
        · next hne =>
          have := hd hne
          omega
      · rw [ih2 d' hd']
        split
        · next he =>
          have := hd (he ▸ hd')
          omega
        · rfl

/-! ### The site stage -/

section
variable (ci cw : Nat) (rs : List SchedRec)

theorem siteShares_within (hlow : -(cw : Int) ≤ netOf rs) (hhigh : netOf rs ≤ ci) : siteShares ci cw rs = rs.map (fun _ => 0) := by
  rw [siteShares, if_neg (by omega), if_neg (by omega)]

theorem siteShares_inject (h : (ci : Int) < netOf rs) : CutOf .inject (netOf rs - ci).toNat rs (siteShares ci cw rs) := by
  rw [siteShares, if_pos h]
  refine cutShares_cutOf _ _ _ ?_
  have := netOf_eq rs
  omega

theorem siteShares_withdraw (h : netOf rs < -(cw : Int)) : CutOf .withdraw (-netOf rs - cw).toNat rs (siteShares ci cw rs) := by
  rw [siteShares, if_neg (by omega), if_pos (by omega)]
  refine cutShares_cutOf _ _ _ ?_
  have := netOf_eq rs
  omega

theorem siteShares_length : (siteShares ci cw rs).length = rs.length := by
  dsimp only [siteShares]
  split_ifs
  · exact cutShares_length _ _ rs
  · exact cutShares_length _ _ rs
  · exact List.length_map _

theorem siteShares_le {i : Nat} {r : SchedRec} {x : Nat} (hr : rs[i]? = some r) (hx : (siteShares ci cw rs)[i]? = some x) :
    x ≤ r.confirmed := by
  dsimp only [siteShares] at hx
  split_ifs at hx
  · exact (cutShares_share _ _ rs hr hx).1
  · exact (cutShares_share _ _ rs hr hx).1
  · rw [List.getElem?_map, hr] at hx
    cases hx
    exact Nat.zero_le _

/-- The net after the site stage. -/
theorem netOf_siteStage {f : SchedRec → Nat → SchedRec} (hf : ∀ r x, (f r x).dir = r.dir ∧ (f r x).confirmed = r.confirmed - x) :
    netOf (List.zipWith f rs (siteShares ci cw rs)) = max (-(cw : Int)) (min (ci : Int) (netOf rs)) := by
  rcases lt_or_ge (ci : Int) (netOf rs) with hhigh | hhigh
  · have hcut := siteShares_inject ci cw rs hhigh
    obtain ⟨hin, hout⟩ := confirmedIn_cut hf .inject hcut.length hcut.share
    have hsum := hcut.sum
    have hout := hout .withdraw nofun
    have hnet := netOf_eq rs
    rw [netOf_eq, hout]
    omega
  · rcases lt_or_ge (netOf rs) (-(cw : Int)) with hlow | hlow
    · have hcut := siteShares_withdraw ci cw rs hlow
      obtain ⟨hin, hout⟩ := confirmedIn_cut hf .withdraw hcut.length hcut.share
      have hsum := hcut.sum
      have hout := hout .inject nofun
      have hnet := netOf_eq rs
      rw [netOf_eq, hout]
      omega
    · rw [siteShares_within ci cw rs hlow hhigh, netOf_eq]
      have hzero := confirmedIn_cut hf .inject (rs := rs) (xs := rs.map fun _ => 0) (List.length_map _) fun i r x hr hx => by
        rw [List.getElem?_map, hr] at hx
        cases hx
        exact ⟨Nat.zero_le _, fun _ => rfl⟩
      have hsum : (rs.map fun _ => 0).sum = 0 := List.sum_eq_zero_iff.mpr fun n hn => by
        obtain ⟨_, _, rfl⟩ := List.mem_map.mp hn
        rfl
      obtain ⟨hin, hout⟩ := hzero
      have hout := hout .withdraw nofun
      have hnet := netOf_eq rs
      omega
end

end Sys2Proof.Machine
end

section
/-! SUPPORT. Recut (R61): what it does to each hour it covers, and with it O23. -/

namespace Sys2Proof.Machine

/-! ### The hours of a run of records -/

theorem mem_insertHour {h k : Nat} {l : List Nat} : k ∈ insertHour h l ↔ k = h ∨ k ∈ l := by
  induction l with
  | nil => simp [insertHour]
  | cons j js ih =>
    rw [insertHour]
    split_ifs with hlt heq
    · simp
    · simp [heq]
    · simp [ih]
      tauto

theorem insertHour_sorted {h : Nat} {l : List Nat} (hl : l.Pairwise (· < ·)) : (insertHour h l).Pairwise (· < ·) := by
  induction l with
  | nil => simp [insertHour]
  | cons j js ih =>
    obtain ⟨hj, hjs⟩ := List.pairwise_cons.mp hl
    rw [insertHour]
    split_ifs with hlt heq
    · refine List.pairwise_cons.mpr ⟨fun k hk => ?_, hl⟩
      rcases List.mem_cons.mp hk with rfl | hk
      · exact hlt
      · exact hlt.trans (hj k hk)
    · exact hl
    · refine List.pairwise_cons.mpr ⟨fun k hk => ?_, ih hjs⟩
      rcases mem_insertHour.mp hk with rfl | hk
      · omega
      · exact hj k hk

theorem hoursOf_spec (rs : List SchedRec) : (hoursOf rs).Pairwise (· < ·) ∧ ∀ k, k ∈ hoursOf rs ↔ ∃ r ∈ rs, r.hour = k := by
  have hfold (l : List SchedRec) (acc : List Nat) (hacc : acc.Pairwise (· < ·)) :
      (l.foldl (fun hs r => insertHour r.hour hs) acc).Pairwise (· < ·)
        ∧ ∀ k, k ∈ l.foldl (fun hs r => insertHour r.hour hs) acc ↔ k ∈ acc ∨ ∃ r ∈ l, r.hour = k := by
    induction l generalizing acc with
    | nil => exact ⟨hacc, fun k => by simp⟩
    | cons r l ih =>
      obtain ⟨hsorted, hmem⟩ := ih (insertHour r.hour acc) (insertHour_sorted hacc)
      refine ⟨hsorted, fun k => ?_⟩
      rw [List.foldl_cons, hmem, mem_insertHour, List.exists_mem_cons_iff]
      tauto
  obtain ⟨hsorted, hmem⟩ := hfold rs [] List.Pairwise.nil
  exact ⟨hsorted, fun k => (hmem k).trans (by simp)⟩

/-! ### The records of an hour -/

/-- The records of an hour. -/
def ofHour (h : Nat) (rs : List SchedRec) : List SchedRec := rs.filter (fun r => r.hour == h)

theorem netConfirmed_eq (rs : List SchedRec) (h : Nat) : netConfirmed rs h = netOf (ofHour h rs) := rfl

theorem ofHour_cons (h : Nat) (r : SchedRec) (rs : List SchedRec) :
    ofHour h (r :: rs) = if r.hour = h then r :: ofHour h rs else ofHour h rs := by
  simp only [ofHour, List.filter_cons, beq_iff_eq]

theorem mem_ofHour {h : Nat} {r : SchedRec} {rs : List SchedRec} : r ∈ ofHour h rs ↔ r ∈ rs ∧ r.hour = h := by
  simp [ofHour]

/-- The records of an hour with what has become of them. -/
def pairsOfHour (h : Nat) (rs ts : List SchedRec) : List (SchedRec × SchedRec) := (rs.zip ts).filter (fun p => p.1.hour == h)

theorem pairsOfHour_cons (h : Nat) (r t : SchedRec) (rs ts : List SchedRec) :
    pairsOfHour h (r :: rs) (t :: ts) = if r.hour = h then (r, t) :: pairsOfHour h rs ts else pairsOfHour h rs ts := by
  simp only [pairsOfHour, List.zip_cons_cons, List.filter_cons, beq_iff_eq]

theorem mem_pairsOfHour {h : Nat} {r t : SchedRec} {rs ts : List SchedRec} :
    (r, t) ∈ pairsOfHour h rs ts ↔ (∃ i : Nat, rs[i]? = some r ∧ ts[i]? = some t) ∧ r.hour = h := by
  rw [pairsOfHour, List.mem_filter, beq_iff_eq, List.mem_iff_getElem?]
  refine and_congr_left fun _ => exists_congr fun i => ?_
  rw [List.getElem?_zip_eq_some]

theorem pairsOfHour_self (h : Nat) (rs : List SchedRec) : pairsOfHour h rs rs = (ofHour h rs).map (fun r => (r, r)) := by
  induction rs with
  | nil => rfl
  | cons r rs ih =>
    rw [pairsOfHour_cons, ofHour_cons, ih]
    split <;> rfl

/-- Two runs whose records stand at the same hours. -/
def sameHours (rs ts : List SchedRec) : Prop := List.Forall₂ (fun r t => t.hour = r.hour) rs ts

theorem pairsOfHour_snd (h : Nat) {rs ts : List SchedRec} (hs : sameHours rs ts) : (pairsOfHour h rs ts).map Prod.snd = ofHour h ts := by
  induction hs with
  | nil => rfl
  | @cons r t rs ts hrt _ ih =>
    rw [pairsOfHour_cons, ofHour_cons, hrt]
    split
    · rw [List.map_cons, ih]
    · exact ih

/-! ### One hour recut -/

theorem recutBy_zero (r : SchedRec) : r.recutBy 0 = r := rfl

theorem recutBy_hour (r : SchedRec) (x : Nat) : (r.recutBy x).hour = r.hour := by
  unfold SchedRec.recutBy SchedRec.cutBy
  split <;> rfl

theorem recutBy_cls (r : SchedRec) (x : Nat) : (r.recutBy x).cls = r.cls := by
  unfold SchedRec.recutBy SchedRec.cutBy
  split <;> rfl

theorem recutBy_dir_confirmed (r : SchedRec) (x : Nat) :
    (r.recutBy x).dir = r.dir ∧ (r.recutBy x).confirmed = r.confirmed - x := by
  unfold SchedRec.recutBy SchedRec.cutBy
  split
  · next h => exact ⟨rfl, by rw [h, Nat.sub_zero]⟩
  · exact ⟨rfl, rfl⟩

theorem recutBy_cut (r : SchedRec) {x : Nat} (hx : x ≠ 0) : r.recutBy x = { r with
    confirmed := r.confirmed - x, state := recordState r.requested (r.confirmed - x)
    reason := some (r.reason.getD .capacity), recuts := satSucc 255 r.recuts } := by
  rw [SchedRec.recutBy, if_neg hx, SchedRec.cutBy, if_neg hx]
  cases r.reason <;> rfl

theorem recutHourRecords_cons (h : Nat) (r : SchedRec) (rs : List SchedRec) (xs : List Nat) : recutHourRecords h (r :: rs) xs =
    if r.hour = h then r.recutBy (xs.headD 0) :: recutHourRecords h rs xs.tail else r :: recutHourRecords h rs xs := by
  cases xs <;> rfl

theorem recutHourRecords_sameHours (h : Nat) (rs : List SchedRec) (xs : List Nat) : sameHours rs (recutHourRecords h rs xs) := by
  induction rs generalizing xs with
  | nil => exact List.Forall₂.nil
  | cons r rs ih =>
    rw [recutHourRecords_cons]
    split
    · exact .cons (recutBy_hour r _) (ih _)
    · exact .cons rfl (ih xs)

theorem recutHourRecords_zeros (h : Nat) (rs : List SchedRec) {xs : List Nat} (hx : ∀ x ∈ xs, x = 0) :
    recutHourRecords h rs xs = rs := by
  induction rs generalizing xs with
  | nil => rfl
  | cons r rs ih =>
    have hhead : xs.headD 0 = 0 := by
      cases xs with
      | nil => rfl
      | cons x xs => exact hx x List.mem_cons_self
    rw [recutHourRecords_cons, hhead, recutBy_zero, ih hx, ih fun x hm => hx x (List.mem_of_mem_tail hm)]
    split <;> rfl

/-- Another hour's records stand. -/
theorem recutHourRecords_others {h k : Nat} (hk : k ≠ h) (xs : List Nat) {rs ts : List SchedRec} (hs : sameHours rs ts) :
    pairsOfHour k rs (recutHourRecords h ts xs) = pairsOfHour k rs ts := by
  induction hs generalizing xs with
  | nil => rfl
  | @cons r t rs ts hrt _ ih =>
    rw [recutHourRecords_cons, hrt, pairsOfHour_cons]
    split
    · next hr =>
      have hne : r.hour ≠ k := fun he => hk (he.symm.trans hr)
      rw [pairsOfHour_cons, if_neg hne, if_neg hne, ih]
    · rw [pairsOfHour_cons, ih]

/-- The hour's own records, still as they were, take their shares. -/
theorem recutHourRecords_own {h : Nat} {rs ts : List SchedRec}
    (hs : List.Forall₂ (fun r t => t.hour = r.hour ∧ (r.hour = h → t = r)) rs ts) {xs : List Nat}
    (hlen : xs.length = (ofHour h rs).length) :
    pairsOfHour h rs (recutHourRecords h ts xs) = List.zipWith (fun r x => (r, r.recutBy x)) (ofHour h rs) xs := by
  induction hs generalizing xs with
  | nil => rfl
  | @cons r t rs ts hrt _ ih =>
    obtain ⟨hour, hsame⟩ := hrt
    rw [ofHour_cons] at hlen ⊢
    rw [recutHourRecords_cons, hour]
    split
    · next hr =>
      rw [if_pos hr] at hlen
      cases xs with
      | nil => exact absurd hlen nofun
      | cons x xs =>
        rw [pairsOfHour_cons, if_pos hr, List.tail_cons, ih (Nat.succ.inj hlen), hsame hr]
        rfl
    · next hr =>
      rw [if_neg hr] at hlen
      rw [pairsOfHour_cons, if_neg hr, ih hlen]

/-! ### The recut of the later hours -/

section
variable (s : State)

/-- What a recut takes from the records of an hour. -/
def sharesOfHour (h : Nat) : List Nat := siteShares s.duty.declared s.dry.capacity (ofHour h s.sched)

theorem sharesOfHour_length (h : Nat) : (sharesOfHour s h).length = (ofHour h s.sched).length := siteShares_length _ _ _

/-- Whether a recut takes something from the records of an hour. -/
def cutsHour (h : Nat) : Bool := !(sharesOfHour s h).all (· == 0)

/-- The event of an hour recut. -/
def recutTold (h : Nat) : Raised := ⟨gasTime s, .recut, none, some (h : Int)⟩

theorem recutHour_sched (h : Nat) : (recutHour h s).sched = recutHourRecords h s.sched (sharesOfHour s h) := by
  dsimp only [recutHour]
  split
  · next hall =>
    refine (recutHourRecords_zeros h s.sched fun x hx => ?_).symm
    exact beq_iff_eq.mp (List.all_eq_true.mp hall x hx)
  · rfl

theorem recutHour_acts (h : Nat) : Acts [.sched, .evq] s (if cutsHour s h then [recutTold s h] else []) (recutHour h s) := by
  by_cases hall : (sharesOfHour s h).all (· == 0) = true
  · have hstays : recutHour h s = s := if_pos hall
    rw [hstays, show cutsHour s h = false from congrArg not hall]
    exact .refl _ s
  · have hcut : recutHour h s = raise .recut none (some (h : Int)) (s.setSched (recutHourRecords h s.sched (sharesOfHour s h))) :=
      if_neg hall
    have hset : Acts [.sched, .evq] s [] (s.setSched (recutHourRecords h s.sched (sharesOfHour s h))) :=
      acts_setSched s _ (by decide)
    rw [hcut, show cutsHour s h = true from congrArg not ((Bool.not_eq_true _).mp hall)]
    exact hset.trans (acts_raise _ _ _ _ (by decide))

/-- What the recut of the hours `hs` comes to, from `s` to `t`. -/
structure RecutOf (hs : List Nat) (t : State) : Prop where
  acts : Acts [.sched, .evq] s ((hs.filter (cutsHour s)).map (recutTold s)) t
  hours : sameHours s.sched t.sched
  pairs : ∀ h, pairsOfHour h s.sched t.sched =
    if h ∈ hs then List.zipWith (fun r x => (r, r.recutBy x)) (ofHour h s.sched) (sharesOfHour s h)
    else (ofHour h s.sched).map (fun r => (r, r))

theorem RecutOf.nil : RecutOf s [] s where
  acts := .refl _ s
  hours := List.forall₂_same.mpr fun _ _ => rfl
  pairs h := by rw [if_neg List.not_mem_nil, pairsOfHour_self]

variable {s}

theorem sameHours.trans {rs ts us : List SchedRec} (h : sameHours rs ts) (h' : sameHours ts us) : sameHours rs us := by
  induction h generalizing us with
  | nil => exact h'
  | cons hrt _ ih =>
    obtain ⟨u, us, hu, hus, rfl⟩ := List.forall₂_cons_left_iff.mp h'
    exact .cons (hu.trans hrt) (ih hus)

/-- The records of an hour not yet recut stand as they were. -/
theorem RecutOf.untouched {hs : List Nat} {t : State} (h : RecutOf s hs t) {k : Nat} (hk : k ∉ hs) :
    ofHour k t.sched = ofHour k s.sched
      ∧ List.Forall₂ (fun r q => q.hour = r.hour ∧ (r.hour = k → q = r)) s.sched t.sched := by
  have hpairs := h.pairs k
  rw [if_neg hk] at hpairs
  refine ⟨?_, ?_⟩
  · rw [← pairsOfHour_snd k h.hours, hpairs, List.map_map]
    exact List.map_id _
  · refine List.forall₂_iff_zip.mpr ⟨h.hours.length_eq, fun {r q} hm => ?_⟩
    have hhour : q.hour = r.hour := (List.forall₂_iff_zip.mp h.hours).2 hm
    refine ⟨hhour, fun hr => ?_⟩
    have hmem : (r, q) ∈ pairsOfHour k s.sched t.sched := List.mem_filter.mpr ⟨hm, beq_iff_eq.mpr hr⟩
    rw [hpairs, List.mem_map] at hmem
    obtain ⟨x, _, hx⟩ := hmem
    obtain ⟨rfl, rfl⟩ := Prod.mk.inj hx
    rfl

theorem RecutOf.snoc {hs : List Nat} {t : State} (h : RecutOf s hs t) {k : Nat} (hk : k ∉ hs) :
    RecutOf s (hs ++ [k]) (recutHour k t) := by
  obtain ⟨hown, hforall⟩ := h.untouched hk
  have hduty : t.duty = s.duty := h.acts.parts .duty (by decide)
  have hdry : t.dry = s.dry := h.acts.parts .dry (by decide)
  have hclock : t.clock = s.clock := h.acts.parts .clock (by decide)
  have hshares : sharesOfHour t k = sharesOfHour s k := by rw [sharesOfHour, sharesOfHour, hduty, hdry, hown]
  have hcuts : cutsHour t k = cutsHour s k := by rw [cutsHour, cutsHour, hshares]
  have htold : recutTold t k = recutTold s k := by rw [recutTold, recutTold, gasTime, gasTime, hclock]
  have hacts := h.acts.trans (recutHour_acts t k)
  refine ⟨?_, ?_, fun j => ?_⟩
  · rw [hcuts, htold] at hacts
    have hlist : ((hs ++ [k]).filter (cutsHour s)).map (recutTold s)
        = (hs.filter (cutsHour s)).map (recutTold s) ++ if cutsHour s k then [recutTold s k] else [] := by
      rw [List.filter_append, List.map_append, List.filter_singleton]
      cases cutsHour s k <;> rfl
    rw [hlist]
    exact hacts
  · rw [recutHour_sched]
    exact h.hours.trans (recutHourRecords_sameHours k _ _)
  · rw [recutHour_sched, hshares]
    rcases eq_or_ne j k with rfl | hj
    · rw [if_pos (by simp), recutHourRecords_own hforall (sharesOfHour_length s _)]
    · rw [recutHourRecords_others hj _ h.hours, h.pairs j]
      simp [hj]

theorem recutOf_foldl (ks : List Nat) {hs : List Nat} {t : State} (h : RecutOf s hs t) (hnd : ks.Nodup) (hdis : ∀ k ∈ ks, k ∉ hs) :
    RecutOf s (hs ++ ks) (ks.foldl (fun t h => recutHour h t) t) := by
  induction ks generalizing hs t with
  | nil => rw [List.append_nil]; exact h
  | cons k ks ih =>
    obtain ⟨hk, hks⟩ := List.nodup_cons.mp hnd
    have hnext := ih (h.snoc (hdis k List.mem_cons_self)) hks fun j hj => by
      rw [List.mem_append, List.mem_singleton, not_or]
      exact ⟨hdis j (List.mem_cons_of_mem _ hj), fun he => hk (he ▸ hj)⟩
    rwa [List.append_assoc, List.singleton_append] at hnext

variable (s)

/-- The hours that a recut covers and that have records. -/
def coveredHours : List Nat := hoursOf (s.sched.filter (recutCovers s))

theorem recut_recutOf : RecutOf s (coveredHours s) (recut s) := by
  have hnd : (coveredHours s).Nodup := (hoursOf_spec _).1.imp fun h => Nat.ne_of_lt h
  have h := recutOf_foldl (coveredHours s) (RecutOf.nil s) hnd fun _ _ => List.not_mem_nil
  rwa [List.nil_append] at h

theorem mem_coveredHours {h : Nat} : h ∈ coveredHours s ↔ isLaterHour s h ∧ ∃ r ∈ s.sched, r.hour = h := by
  rw [coveredHours, (hoursOf_spec _).2]
  simp only [List.mem_filter, recutCovers, isLaterHour]
  cases s.clock.state with
  | unset => simp
  | running =>
    simp only [decide_eq_true_eq, reduceCtorEq, false_or]
    constructor
    · rintro ⟨r, ⟨hr, hlt⟩, rfl⟩
      exact ⟨hlt, r, hr, rfl⟩
    · rintro ⟨hlt, r, hr, rfl⟩
      exact ⟨r, ⟨hr, hlt⟩, rfl⟩

/-- The records of a covered hour with what has become of them. -/
theorem recut_pairs {h : Nat} (hlater : isLaterHour s h) : pairsOfHour h s.sched (recut s).sched =
    List.zipWith (fun r x => (r, r.recutBy x)) (ofHour h s.sched) (sharesOfHour s h) := by
  rw [(recut_recutOf s).pairs]
  split
  · rfl
  · next hmem =>
    have hnone : ofHour h s.sched = [] := List.eq_nil_iff_forall_not_mem.mpr fun r hr => by
      obtain ⟨hr, hh⟩ := mem_ofHour.mp hr
      exact hmem ((mem_coveredHours s).mpr ⟨hlater, r, hr, hh⟩)
    rw [hnone]
    rfl

theorem recut_ofHour {h : Nat} (hlater : isLaterHour s h) :
    ofHour h (recut s).sched = List.zipWith SchedRec.recutBy (ofHour h s.sched) (sharesOfHour s h) := by
  rw [← pairsOfHour_snd h (recut_recutOf s).hours, recut_pairs s hlater, List.map_zipWith]

/-- The net of a covered hour lies within the capacities afterwards. -/
theorem recut_net {h : Nat} (hlater : isLaterHour s h) : netConfirmed (recut s).sched h =
    max (-(s.dry.capacity : Int)) (min (s.duty.declared : Int) (netConfirmed s.sched h)) := by
  rw [netConfirmed_eq, recut_ofHour s hlater, sharesOfHour]
  exact netOf_siteStage _ _ _ recutBy_dir_confirmed

theorem recut_ofHour_earlier {h : Nat} (hlater : ¬isLaterHour s h) : ofHour h (recut s).sched = ofHour h s.sched :=
  ((recut_recutOf s).untouched fun hm => hlater ((mem_coveredHours s).mp hm).1).1

/-- A record after the recut: its share taken. -/
theorem recut_record {i : Nat} {r q : SchedRec} (hr : s.sched[i]? = some r) (hq : (recut s).sched[i]? = some q) :
    (∃ (j x : Nat), isLaterHour s r.hour ∧ (ofHour r.hour s.sched)[j]? = some r ∧ (sharesOfHour s r.hour)[j]? = some x ∧ q = r.recutBy x)
      ∨ (¬isLaterHour s r.hour ∧ q = r) := by
  have hmem : (r, q) ∈ pairsOfHour r.hour s.sched (recut s).sched := mem_pairsOfHour.mpr ⟨⟨i, hr, hq⟩, rfl⟩
  by_cases hlater : isLaterHour s r.hour
  · rw [recut_pairs s hlater] at hmem
    obtain ⟨j, hj⟩ := List.mem_iff_getElem?.mp hmem
    rw [List.getElem?_zipWith_eq_some] at hj
    obtain ⟨r', x, hr', hx, he⟩ := hj
    obtain ⟨rfl, rfl⟩ := Prod.mk.inj he
    exact .inl ⟨j, x, hlater, hr', hx, rfl⟩
  · rw [(recut_recutOf s).pairs, if_neg fun hm => hlater ((mem_coveredHours s).mp hm).1, List.mem_map] at hmem
    obtain ⟨x, _, hx⟩ := hmem
    obtain ⟨rfl, rfl⟩ := Prod.mk.inj hx
    exact .inr ⟨hlater, rfl⟩
end

end Sys2Proof.Machine
end

section
/-! SUPPORT. Recut: O23. -/

namespace Sys2Proof.Machine

section
variable (s : State)

/-- The shares of an hour whose net a capacity does not cut. -/
theorem sharesOfHour_within {h : Nat} (hlow : -(s.dry.capacity : Int) ≤ netConfirmed s.sched h)
    (hhigh : netConfirmed s.sched h ≤ s.duty.declared) : sharesOfHour s h = (ofHour h s.sched).map (fun _ => 0) :=
  siteShares_within _ _ _ hlow hhigh

theorem zipWith_recutBy_zeros (rs : List SchedRec) : List.zipWith SchedRec.recutBy rs (rs.map fun _ => 0) = rs := by
  induction rs with
  | nil => rfl
  | cons r rs ih => rw [List.map_cons, List.zipWith_cons_cons, ih, recutBy_zero]

theorem recut_within {h : Nat} (hlater : isLaterHour s h) (hlow : -(s.dry.capacity : Int) ≤ netConfirmed s.sched h)
    (hhigh : netConfirmed s.sched h ≤ s.duty.declared) : ofHour h (recut s).sched = ofHour h s.sched := by
  rw [recut_ofHour s hlater, sharesOfHour_within s hlow hhigh, zipWith_recutBy_zeros]

/-- The records of an hour whose shares are a cut of one direction. -/
theorem recut_cuts {d : Direction} {e h : Nat} (hlater : isLaterHour s h) (hcut : CutOf d e (ofHour h s.sched) (sharesOfHour s h))
    {i : Nat} {r q : SchedRec} (hr : s.sched[i]? = some r) (hq : (recut s).sched[i]? = some q) (hh : r.hour = h) :
    (r.dir ≠ d → q = r) ∧ (r.cls = .firm → q ≠ r →
      ∀ x ∈ ofHour h (recut s).sched, x.dir = d → x.cls = .interruptible → x.confirmed = 0) := by
  subst hh
  rcases recut_record s hr hq with ⟨j, x, _, hj, hx, rfl⟩ | ⟨hnot, _⟩
  · refine ⟨fun hd => ?_, fun hc hne y hy hyd hyc => ?_⟩
    · rw [(hcut.share j r x hj hx).2 hd, recutBy_zero]
    · have hx0 : x ≠ 0 := fun h0 => hne (by rw [h0, recutBy_zero])
      rw [recut_ofHour s hlater, List.mem_iff_getElem?] at hy
      obtain ⟨k, hk⟩ := hy
      obtain ⟨r', x', hr', hx', rfl⟩ := List.getElem?_zipWith_eq_some.mp hk
      obtain ⟨hdir, hconf⟩ := recutBy_dir_confirmed r' x'
      rw [hconf, hcut.firm j k r r' x x' hj hx hc hx0 hr' hx' (hdir ▸ hyd) (recutBy_cls r' x' ▸ hyc), Nat.sub_self]
  · exact absurd hlater hnot

/-- The hours that the recut cuts are those with a record that loses. -/
theorem mem_hoursCut {k : Nat} : k ∈ (coveredHours s).filter (cutsHour s) ↔
    ∃ (i : Nat) (r q : SchedRec), s.sched[i]? = some r ∧ (recut s).sched[i]? = some q ∧ r.hour = k ∧ q.confirmed < r.confirmed := by
  rw [List.mem_filter, mem_coveredHours]
  constructor
  · rintro ⟨⟨hlater, _⟩, hcut⟩
    rw [cutsHour, Bool.not_eq_true', List.all_eq_false] at hcut
    obtain ⟨x, hx, hx0⟩ := hcut
    obtain ⟨j, hj⟩ := List.mem_iff_getElem?.mp hx
    have hlt : j < (ofHour k s.sched).length := by
      rw [← sharesOfHour_length s k]
      exact (List.getElem?_eq_some_iff.mp hj).1
    have hr := List.getElem?_eq_getElem hlt
    have hpair : ((ofHour k s.sched)[j], (ofHour k s.sched)[j].recutBy x) ∈ pairsOfHour k s.sched (recut s).sched := by
      rw [recut_pairs s hlater, List.mem_iff_getElem?]
      exact ⟨j, List.getElem?_zipWith_eq_some.mpr ⟨_, _, hr, hj, rfl⟩⟩
    obtain ⟨⟨i, hi, hq⟩, hh⟩ := mem_pairsOfHour.mp hpair
    have hle := siteShares_le _ _ _ hr hj
    refine ⟨i, _, _, hi, hq, hh, ?_⟩
    have hx0 : x ≠ 0 := fun h0 => hx0 (beq_iff_eq.mpr h0)
    rw [(recutBy_dir_confirmed _ x).2]
    omega
  · rintro ⟨i, r, q, hr, hq, rfl, hlt⟩
    rcases recut_record s hr hq with ⟨j, x, hlater, hj, hx, rfl⟩ | ⟨_, rfl⟩
    · refine ⟨⟨hlater, r, List.mem_of_getElem? hr, rfl⟩, ?_⟩
      rw [(recutBy_dir_confirmed r x).2] at hlt
      rw [cutsHour, Bool.not_eq_true', List.all_eq_false]
      exact ⟨x, List.mem_of_getElem? hx, fun h0 => by rw [beq_iff_eq] at h0; omega⟩
    · exact absurd hlt (Nat.lt_irrefl _)

/-- A record against what the recut has made of it. -/
theorem recut_record_cut {i : Nat} {r q : SchedRec} (hr : s.sched[i]? = some r) (hq : (recut s).sched[i]? = some q) :
    q.confirmed ≤ r.confirmed ∧ (q.confirmed = r.confirmed → q = r) ∧ (q.confirmed < r.confirmed → q = { r with
      confirmed := q.confirmed, state := recordState r.requested q.confirmed
      reason := some (r.reason.getD .capacity), recuts := min (r.recuts + 1) 255 }) := by
  rcases recut_record s hr hq with ⟨j, x, _, hj, hx, rfl⟩ | ⟨_, rfl⟩
  · have hle : x ≤ r.confirmed := siteShares_le _ _ _ hj hx
    rw [(recutBy_dir_confirmed r x).2]
    refine ⟨Nat.sub_le _ _, fun he => ?_, fun hlt => ?_⟩
    · obtain rfl : x = 0 := by omega
      exact recutBy_zero r
    · rw [recutBy_cut r (by omega), satSucc]
  · exact ⟨Nat.le_refl _, fun _ => rfl, fun hlt => absurd hlt (Nat.lt_irrefl _)⟩

end

/-- Settles O23: of each covered hour the recut takes the shares of the site stage, and it leaves every other record. -/
theorem recutFitsTheLaterHours : Obligations.RecutFitsTheLaterHours := by
  intro s h
  have hspec := recut_recutOf s
  refine ⟨fun hlater => ⟨fun hlow hhigh => recut_within s hlater hlow hhigh, fun hmost => ⟨?_, ?_⟩, fun hleast => ⟨?_, ?_⟩⟩,
    fun hrun hle => ?_, hspec.acts.parts, hspec.hours.length_eq.symm, fun i r q hr hq => recut_record_cut s hr hq,
    (coveredHours s).filter (cutsHour s), ?_, fun k => mem_hoursCut s, ?_⟩
  · rw [recut_net s hlater]
    omega
  · exact fun i r q => recut_cuts s hlater (siteShares_inject _ _ _ hmost)
  · rw [recut_net s hlater]
    omega
  · exact fun i r q => recut_cuts s hlater (siteShares_withdraw _ _ _ hleast)
  · refine recut_ofHour_earlier s fun hlater => ?_
    rcases hlater with hunset | hlt
    · rw [hrun] at hunset
      exact absurd hunset nofun
    · omega
  · exact (hoursOf_spec _).1.filter _
  · rw [hspec.acts.told]
    refine congrArg s.evq.pushAll ?_
    induction (coveredHours s).filter (cutsHour s) with
    | nil => rfl
    | cons k ks ih => exact congrArg (recutTold s k :: ·) ih

end Sys2Proof.Machine
end

section
/-! SUPPORT. The confirmation of an hour (R53 to R57): its two stages, record by record, and what it counts; O22. -/

namespace Sys2Proof.Machine

/-! ### The shipper stage, key by key -/

section
variable (s : State) (h : Nat)

/-- The most that a key may be confirmed at: firm the bound, interruptible what firm leaves of it. -/
def mostOf (i : Fin 24) (d : Direction) (c : Class) : Nat :=
  match c with
  | .firm => (boundOf s h i d).most
  | .interruptible => (boundOf s h i d).most
      - (holderOf s h i d .firm).elim 0 (fun e => min e.quantity (boundOf s h i d).most)

/-- The record of a key, where an entry of it holds the hour. -/
def keyRecord (i : Fin 24) (d : Direction) (c : Class) : Option SchedRec :=
  (holderOf s h i d c).map (stagedRecord h (mostOf s h i d c) (boundOf s h i d).reason)

theorem shipperStage_eq (i : Fin 24) (d : Direction) :
    shipperStage s h i d = [Class.firm, Class.interruptible].filterMap (keyRecord s h i d) := by
  unfold shipperStage keyRecord
  split
  · next hf hi => simp [hf, hi]
  · next e hf hi => simp [hf, hi, mostOf]
  · next g hf hi => simp [hf, hi, mostOf]
  · next e g hf hi => simp [hf, hi, mostOf, stagedRecord]

theorem holderOf_spec {i : Fin 24} {d : Direction} {c : Class} {e : Entry} (he : holderOf s h i d c = some e) :
    e.slot = i ∧ e.dir = d ∧ e.cls = c := by
  have hk := List.find?_some he
  rw [Bool.and_eq_true] at hk
  exact hasKey_iff.mp hk.1

theorem keyRecord_spec {i : Fin 24} {d : Direction} {c : Class} {r : SchedRec} (hr : keyRecord s h i d c = some r) :
    r.hour = h ∧ r.slot = i ∧ r.dir = d ∧ r.cls = c := by
  obtain ⟨e, he, rfl⟩ := Option.map_eq_some_iff.mp hr
  exact ⟨rfl, holderOf_spec s h he⟩

theorem mem_stagedRecords {r : SchedRec} : r ∈ stagedRecords s h ↔ ∃ i d c, keyRecord s h i d c = some r := by
  simp only [stagedRecords, List.mem_flatMap, List.mem_finRange, true_and, List.mem_append, shipperStage_eq, List.mem_filterMap,
    List.mem_cons, List.not_mem_nil, or_false]
  constructor
  · rintro ⟨i, ⟨c, _, hc⟩ | ⟨c, _, hc⟩⟩
    · exact ⟨i, _, c, hc⟩
    · exact ⟨i, _, c, hc⟩
  · rintro ⟨i, d, c, hr⟩
    refine ⟨i, ?_⟩
    have hc : c = .firm ∨ c = .interruptible := by cases c <;> simp
    cases d with
    | inject => exact .inl ⟨c, hc, hr⟩
    | withdraw => exact .inr ⟨c, hc, hr⟩

theorem code_lt (d : Direction) (c : Class) : d.code < 2 ∧ c.code < 2 := by
  cases d <;> cases c <;> decide

theorem rank_of_key {i : Fin 24} {d : Direction} {c : Class} {r : SchedRec} (hr : keyRecord s h i d c = some r) :
    r.rank = ((h * 24 + i.val) * 2 + d.code) * 2 + c.code := by
  obtain ⟨h1, h2, h3, h4⟩ := keyRecord_spec s h hr
  rw [SchedRec.rank, h1, h2, h3, h4]

theorem shipperStage_sorted (i : Fin 24) (d : Direction) : (shipperStage s h i d).Pairwise (fun r q => r.rank < q.rank) := by
  rw [shipperStage_eq, List.pairwise_filterMap]
  refine List.pairwise_cons.mpr ⟨fun c hc r hr q hq => ?_, List.pairwise_singleton _ _⟩
  obtain rfl := List.mem_singleton.mp hc
  rw [rank_of_key s h hr, rank_of_key s h hq]
  exact Nat.add_lt_add_left (by decide) _

theorem mem_shipperStage {i : Fin 24} {d : Direction} {r : SchedRec} (hr : r ∈ shipperStage s h i d) :
    ∃ c : Class, r.rank = ((h * 24 + i.val) * 2 + d.code) * 2 + c.code := by
  rw [shipperStage_eq, List.mem_filterMap] at hr
  obtain ⟨c, _, hc⟩ := hr
  exact ⟨c, rank_of_key s h hc⟩

theorem stagedRecords_sorted : (stagedRecords s h).Pairwise (fun r q => r.rank < q.rank) := by
  refine List.pairwise_flatMap.mpr ⟨fun i _ => List.pairwise_append.mpr
    ⟨shipperStage_sorted s h i _, shipperStage_sorted s h i _, fun r hr q hq => ?_⟩,
    (List.pairwise_lt_finRange 24).imp fun {i j} hij r hr q hq => ?_⟩
  · obtain ⟨c, hc⟩ := mem_shipperStage s h hr
    obtain ⟨c', hc'⟩ := mem_shipperStage s h hq
    have := (code_lt .inject c).2
    rw [hc, hc']
    simp only [Direction.code]
    omega
  · have hside {k : Fin 24} {x : SchedRec} (hx : x ∈ shipperStage s h k .inject ++ shipperStage s h k .withdraw) :
        ∃ (d : Direction) (c : Class), x.rank = ((h * 24 + k.val) * 2 + d.code) * 2 + c.code :=
      (List.mem_append.mp hx).elim (fun hx => ⟨_, mem_shipperStage s h hx⟩) (fun hx => ⟨_, mem_shipperStage s h hx⟩)
    obtain ⟨d, c, hr⟩ := hside hr
    obtain ⟨d', c', hq⟩ := hside hq
    obtain ⟨hd, hc⟩ := code_lt d c
    have : i.val < j.val := hij
    rw [hr, hq]
    omega

/-! ### The site stage -/

theorem cutBy_fields (r : SchedRec) (x : Nat) : (r.cutBy x).hour = r.hour ∧ (r.cutBy x).slot = r.slot ∧ (r.cutBy x).dir = r.dir
    ∧ (r.cutBy x).cls = r.cls ∧ (r.cutBy x).requested = r.requested ∧ (r.cutBy x).recuts = r.recuts
    ∧ (r.cutBy x).confirmed = r.confirmed - x := by
  unfold SchedRec.cutBy
  split
  · next hx => rw [hx]; exact ⟨rfl, rfl, rfl, rfl, rfl, rfl, rfl⟩
  · exact ⟨rfl, rfl, rfl, rfl, rfl, rfl, rfl⟩

theorem cutBy_reason (r : SchedRec) {x : Nat} (hx : x ≠ 0) : (r.cutBy x).reason = some (r.reason.getD .capacity) := by
  rw [SchedRec.cutBy, if_neg hx]
  cases r.reason <;> rfl

theorem cutBy_state (r : SchedRec) {x : Nat} (hx : x ≠ 0) : (r.cutBy x).state = recordState r.requested (r.confirmed - x) := by
  rw [SchedRec.cutBy, if_neg hx]

theorem cutBy_zero (r : SchedRec) : r.cutBy 0 = r := rfl

theorem cutBy_rank (r : SchedRec) (x : Nat) : (r.cutBy x).rank = r.rank := by
  obtain ⟨h1, h2, h3, h4, _⟩ := cutBy_fields r x
  rw [SchedRec.rank, SchedRec.rank, h1, h2, h3, h4]

/-- What the site stage takes from the records of the shipper stage. -/
def stagedShares : List Nat := siteShares s.duty.declared s.dry.capacity (stagedRecords s h)

theorem confirmedRecords_eq : confirmedRecords s h = List.zipWith SchedRec.cutBy (stagedRecords s h) (stagedShares s h) := rfl

theorem mem_confirmedRecords {r : SchedRec} (hr : r ∈ confirmedRecords s h) :
    ∃ (j : Nat) (r0 : SchedRec) (x : Nat), (stagedRecords s h)[j]? = some r0 ∧ (stagedShares s h)[j]? = some x
      ∧ x ≤ r0.confirmed ∧ r = r0.cutBy x := by
  obtain ⟨j, hj⟩ := List.mem_iff_getElem?.mp hr
  rw [confirmedRecords_eq, List.getElem?_zipWith_eq_some] at hj
  obtain ⟨r0, x, hr0, hx, rfl⟩ := hj
  exact ⟨j, r0, x, hr0, hx, siteShares_le _ _ _ hr0 hx, rfl⟩

theorem confirmedRecords_of_staged {r0 : SchedRec} (hr : r0 ∈ stagedRecords s h) : ∃ x, r0.cutBy x ∈ confirmedRecords s h := by
  obtain ⟨j, hj⟩ := List.mem_iff_getElem?.mp hr
  have hlt : j < (stagedShares s h).length := by
    rw [stagedShares, siteShares_length]
    exact (List.getElem?_eq_some_iff.mp hj).1
  refine ⟨(stagedShares s h)[j], List.mem_iff_getElem?.mpr ⟨j, ?_⟩⟩
  rw [confirmedRecords_eq]
  exact List.getElem?_zipWith_eq_some.mpr ⟨_, _, hj, List.getElem?_eq_getElem hlt, rfl⟩

theorem zipWith_cutBy_rank {rs : List SchedRec} (hrs : rs.Pairwise (fun r q => r.rank < q.rank)) (xs : List Nat) :
    (List.zipWith SchedRec.cutBy rs xs).Pairwise (fun r q => r.rank < q.rank) := by
  induction rs generalizing xs with
  | nil => exact List.Pairwise.nil
  | cons r rs ih =>
    obtain ⟨hr, hrs⟩ := List.pairwise_cons.mp hrs
    cases xs with
    | nil => exact List.Pairwise.nil
    | cons x xs =>
      refine List.pairwise_cons.mpr ⟨fun q hq => ?_, ih hrs xs⟩
      obtain ⟨j, hj⟩ := List.mem_iff_getElem?.mp hq
      obtain ⟨q0, y, hq0, _, rfl⟩ := List.getElem?_zipWith_eq_some.mp hj
      rw [cutBy_rank, cutBy_rank]
      exact hr q0 (List.mem_of_getElem? hq0)

theorem confirmedRecords_sorted : (confirmedRecords s h).Pairwise (fun r q => r.rank < q.rank) :=
  zipWith_cutBy_rank (stagedRecords_sorted s h) _

theorem confirmedRecords_net : netOf (confirmedRecords s h)
    = max (-(s.dry.capacity : Int)) (min (s.duty.declared : Int) (netOf (stagedRecords s h))) :=
  netOf_siteStage _ _ _ fun r x => ⟨(cutBy_fields r x).2.2.1, (cutBy_fields r x).2.2.2.2.2.2⟩

/-- A record that the site stage cuts: the net stands at the capacity of its direction, and a firm one leaves no interruptible. -/
theorem confirmed_cut {j : Nat} {r : SchedRec} {x : Nat} (hr : (stagedRecords s h)[j]? = some r)
    (hx : (stagedShares s h)[j]? = some x) (hx0 : x ≠ 0) :
    netOf (confirmedRecords s h) = (if r.dir = .inject then (s.duty.declared : Int) else -(s.dry.capacity : Int))
      ∧ (r.cls = .firm → ∀ q ∈ confirmedRecords s h, q.dir = r.dir → q.cls = .interruptible → q.confirmed = 0) := by
  have hcut (d : Direction) (e : Nat) (hof : CutOf d e (stagedRecords s h) (stagedShares s h)) :
      r.dir = d ∧ (r.cls = .firm → ∀ q ∈ confirmedRecords s h, q.dir = r.dir → q.cls = .interruptible → q.confirmed = 0) := by
    have hd : r.dir = d := by
      by_contra hne
      exact hx0 ((hof.share j r x hr hx).2 hne)
    refine ⟨hd, fun hc q hq hqd hqc => ?_⟩
    obtain ⟨k, q0, y, hq0, hy, _, rfl⟩ := mem_confirmedRecords s h hq
    obtain ⟨_, _, hdir, hcls, _, _, hconf⟩ := cutBy_fields q0 y
    rw [hconf, hof.firm j k r q0 x y hr hx hc hx0 hq0 hy (hdir ▸ hqd.trans hd) (hcls ▸ hqc), Nat.sub_self]
  rw [confirmedRecords_net]
  rcases lt_or_ge (s.duty.declared : Int) (netOf (stagedRecords s h)) with hhigh | hhigh
  · obtain ⟨hd, hfirm⟩ := hcut .inject _ (siteShares_inject _ _ _ hhigh)
    refine ⟨?_, hfirm⟩
    rw [if_pos hd]
    omega
  · rcases lt_or_ge (netOf (stagedRecords s h)) (-(s.dry.capacity : Int)) with hlow | hlow
    · obtain ⟨hd, hfirm⟩ := hcut .withdraw _ (siteShares_withdraw _ _ _ hlow)
      refine ⟨?_, hfirm⟩
      rw [hd, if_neg nofun]
      omega
    · rw [stagedShares, siteShares_within _ _ _ hlow hhigh, List.getElem?_map, hr] at hx
      exact absurd (Option.some.inj hx).symm hx0
end

end Sys2Proof.Machine
end

section
/-! SUPPORT. The confirmation of an hour: what is counted, and O22. -/

namespace Sys2Proof.Machine

/-! ### The records counted (R65, R66) -/

section
variable (s : State)

/-- Whether a record passes the filter, under the id its slot holds. -/
def recordPasses (r : SchedRec) : Bool :=
  s.book.stats.filter == 0 || (s.acct.slots[r.slot]).any (fun a => a.shipper == s.book.stats.filter)

theorem countRecord_eq (r : SchedRec) :
    countRecord r s = tally (KindCounts.addRecord r.state) r.dir r.cls (recordPasses s r).toNat s := by
  unfold countRecord
  split
  · next hnone =>
    split
    · next hf =>
      have hp : recordPasses s r = passes s 0 := by simp [recordPasses, passes, hf]
      rw [countKind_eq_tally, hp]
    · next hf =>
      have hp : recordPasses s r = false := by simp [recordPasses, hf, hnone]
      rw [hp, Bool.toNat_false, tally_zero]
  · next a ha =>
    have hp : recordPasses s r = passes s a.shipper := by
      simp only [recordPasses, passes, ha, Option.any_some, Bool.beq_comm]
    rw [countKind_eq_tally, hp]

/-- Whether a record is counted as one of a kind, made in a state. -/
def countsAs (d : Direction) (c : Class) (st : RecordState) (r : SchedRec) : Bool :=
  r.dir == d && r.cls == c && r.state == st && recordPasses s r

theorem kindIndex_inj {d d' : Direction} {c c' : Class} (h : kindIndex d c = kindIndex d' c') : d = d' ∧ c = c' := by
  cases d <;> cases c <;> cases d' <;> cases c' <;> first | exact ⟨rfl, rfl⟩ | exact absurd h (by decide)

theorem addRecord_ofState (st st' : RecordState) (k : KindCounts) : (KindCounts.addRecord st k).ofState st' =
    if st = st' then satSucc 65535 (k.ofState st') else k.ofState st' := by
  cases st <;> cases st' <;> rfl

theorem addRecord_others (st : RecordState) (k : KindCounts) : (KindCounts.addRecord st k).accepted = k.accepted
    ∧ (KindCounts.addRecord st k).superseded = k.superseded ∧ (KindCounts.addRecord st k).cancelled = k.cancelled := by
  cases st <;> exact ⟨rfl, rfl, rfl⟩

theorem countRecord_counts (r : SchedRec) (d : Direction) (c : Class) :
    (countRecord r s).book.stats.counts[kindIndex d c] =
      if r.dir = d ∧ r.cls = c ∧ recordPasses s r = true then KindCounts.addRecord r.state s.book.stats.counts[kindIndex d c]
      else s.book.stats.counts[kindIndex d c] := by
  rw [countRecord_eq]
  show (setVec s.book.stats.counts (kindIndex r.dir r.cls) _)[kindIndex d c] = _
  rw [Fin.getElem_fin, setVec_getElem]
  by_cases hk : r.dir = d ∧ r.cls = c
  · obtain ⟨rfl, rfl⟩ := hk
    cases hp : recordPasses s r <;> simp
  · have hne : ¬(kindIndex d c).val = (kindIndex r.dir r.cls).val := fun he => hk (kindIndex_inj (Fin.ext he.symm))
    rw [if_neg fun h : r.dir = d ∧ r.cls = c ∧ recordPasses s r = true => hk ⟨h.1, h.2.1⟩]
    simp only [hne.imp Eq.symm, if_false]
    rfl

theorem countRecord_ofState (r : SchedRec) (d : Direction) (c : Class) (st : RecordState) :
    ((countRecord r s).book.stats.counts[kindIndex d c]).ofState st =
      if countsAs s d c st r = true then satSucc 65535 (s.book.stats.counts[kindIndex d c].ofState st)
      else s.book.stats.counts[kindIndex d c].ofState st := by
  have hiff : countsAs s d c st r = true ↔ (r.dir = d ∧ r.cls = c ∧ recordPasses s r = true) ∧ r.state = st := by
    simp only [countsAs, Bool.and_eq_true, beq_iff_eq]
    tauto
  rw [countRecord_counts]
  by_cases hk : r.dir = d ∧ r.cls = c ∧ recordPasses s r = true
  · rw [if_pos hk, addRecord_ofState]
    exact if_congr (by rw [hiff, and_iff_right hk]) rfl rfl
  · rw [if_neg hk, if_neg fun h => hk (hiff.mp h).1]

theorem countRecord_stands (r q : SchedRec) : recordPasses (countRecord r s) q = recordPasses s q := by
  rw [countRecord_eq]
  rfl

/-- The counts by state after a run of records. -/
theorem foldl_countRecord_ofState (rs : List SchedRec) (d : Direction) (c : Class) (st : RecordState)
    (hst : s.book.stats.counts[kindIndex d c].ofState st ≤ 65535) :
    (rs.foldl (fun t r => countRecord r t) s).book.stats.counts[kindIndex d c].ofState st =
      min (s.book.stats.counts[kindIndex d c].ofState st + (rs.filter (countsAs s d c st)).length) 65535 := by
  induction rs generalizing s with
  | nil => exact (Nat.min_eq_left hst).symm
  | cons r rs ih =>
    have hstep := countRecord_ofState s r d c st
    have hfilter : rs.filter (countsAs (countRecord r s) d c st) = rs.filter (countsAs s d c st) :=
      List.filter_congr fun q _ => by rw [countsAs, countsAs, countRecord_stands]
    rw [satSucc] at hstep
    have hbound : (countRecord r s).book.stats.counts[kindIndex d c].ofState st ≤ 65535 := by
      split at hstep <;> omega
    rw [List.foldl_cons, ih (countRecord r s) hbound, hfilter, hstep, List.filter_cons]
    split
    · rw [List.length_cons]
      omega
    · rfl

theorem foldl_countRecord_others (rs : List SchedRec) (d : Direction) (c : Class) :
    let now := (rs.foldl (fun t r => countRecord r t) s).book.stats.counts[kindIndex d c]
    now.accepted = (s.book.stats.counts[kindIndex d c]).accepted ∧ now.superseded = (s.book.stats.counts[kindIndex d c]).superseded
      ∧ now.cancelled = (s.book.stats.counts[kindIndex d c]).cancelled := by
  induction rs generalizing s with
  | nil => exact ⟨rfl, rfl, rfl⟩
  | cons r rs ih =>
    obtain ⟨iha, ihs, ihx⟩ := ih (countRecord r s)
    rw [countRecord_counts] at iha ihs ihx
    split at iha
    · next hk =>
      rw [if_pos hk] at ihs ihx
      obtain ⟨ha, hs, hx⟩ := addRecord_others r.state s.book.stats.counts[kindIndex d c]
      exact ⟨iha.trans ha, ihs.trans hs, ihx.trans hx⟩
    · next hk =>
      rw [if_neg hk] at ihs ihx
      exact ⟨iha, ihs, ihx⟩

theorem foldl_countRecord_stands (rs : List SchedRec) :
    let t := rs.foldl (fun t r => countRecord r t) s
    t.book.entries = s.book.entries ∧ t.book.confirmedThrough = s.book.confirmedThrough ∧ t.evq = s.evq ∧ t.sched = s.sched := by
  induction rs generalizing s with
  | nil => exact ⟨rfl, rfl, rfl, rfl⟩
  | cons r rs ih =>
    have hstep := ih (countRecord r s)
    have hstays : (countRecord r s).book.entries = s.book.entries
        ∧ (countRecord r s).book.confirmedThrough = s.book.confirmedThrough
        ∧ (countRecord r s).evq = s.evq ∧ (countRecord r s).sched = s.sched := by
      rw [countRecord_eq]
      exact ⟨rfl, rfl, rfl, rfl⟩
    obtain ⟨hentries, hthrough, hevq, hsched⟩ := hstays
    rw [hentries, hthrough, hevq, hsched] at hstep
    exact hstep

end

/-! ### The hour confirmed -/

section
variable (s : State) (h : Nat)

/-- The events of the entries that the hour completes. -/
def completedTold : List Raised := (s.book.entries.filter (Entry.completedBy h)).map (fun e =>
  ⟨gasTime s, .completed, some e.slot.val, some (e.arrival.toNat : Int)⟩)

theorem foldl_raise_completed (es : List Entry) (t : State) :
    es.foldl (fun t e => raise .completed (some e.slot.val) (some (e.arrival.toNat : Int)) t) t
      = t.setEvq (t.evq.pushAll (es.map (fun e => ⟨gasTime t, .completed, some e.slot.val, some (e.arrival.toNat : Int)⟩))) := by
  induction es generalizing t with
  | nil => rfl
  | cons e es ih =>
    rw [List.foldl_cons, ih, raise_eq, List.map_cons, ← List.singleton_append, pushAll_append]
    rfl

/-- The hour's records made and its entries advanced, before the records are counted. -/
def confirmed : State :=
  let t := setEntries (s.book.entries.filterMap (Entry.past h)) (s.setSched (s.sched ++ confirmedRecords s h))
  (t.setEvq (t.evq.pushAll (completedTold s h))).setBook { t.book with confirmedThrough := h }

theorem confirmHour_eq : confirmHour h s = (confirmedRecords s h).foldl (fun t r => countRecord r t) (confirmed s h) := by
  dsimp only [confirmHour]
  rw [foldl_raise_completed]
  rfl

theorem confirmHour_stands : (confirmHour h s).book.entries = s.book.entries.filterMap (Entry.past h)
    ∧ (confirmHour h s).book.confirmedThrough = h ∧ (confirmHour h s).evq = s.evq.pushAll (completedTold s h)
    ∧ (confirmHour h s).sched = s.sched ++ confirmedRecords s h := by
  rw [confirmHour_eq]
  exact foldl_countRecord_stands (confirmed s h) _

/-! ### A record of the hour -/

/-- The record of a key before and after the site stage. -/
theorem confirmed_of_key {i : Fin 24} {d : Direction} {c : Class} {r : SchedRec} (hr : r ∈ confirmedRecords s h)
    (hi : r.slot = i) (hd : r.dir = d) (hc : r.cls = c) : ∃ (e : Entry) (j x : Nat), holderOf s h i d c = some e
      ∧ (stagedRecords s h)[j]? = some (stagedRecord h (mostOf s h i d c) (boundOf s h i d).reason e)
      ∧ (stagedShares s h)[j]? = some x ∧ x ≤ min e.quantity (mostOf s h i d c)
      ∧ r = (stagedRecord h (mostOf s h i d c) (boundOf s h i d).reason e).cutBy x := by
  obtain ⟨j, r0, x, hj, hx, hle, rfl⟩ := mem_confirmedRecords s h hr
  obtain ⟨_, hslot, hdir, hcls, _⟩ := cutBy_fields r0 x
  obtain ⟨i', d', c', hkey⟩ := (mem_stagedRecords s h).mp (List.mem_of_getElem? hj)
  obtain ⟨_, hi', hd', hc'⟩ := keyRecord_spec s h hkey
  obtain rfl : i' = i := hi'.symm.trans (hslot.symm.trans hi)
  obtain rfl : d' = d := hd'.symm.trans (hdir.symm.trans hd)
  obtain rfl : c' = c := hc'.symm.trans (hcls.symm.trans hc)
  obtain ⟨e, he, rfl⟩ := Option.map_eq_some_iff.mp hkey
  exact ⟨e, j, x, he, hj, hx, hle, rfl⟩

theorem stagedRecord_fields (most : Nat) (why : Reason) (e : Entry) (x : Nat) :
    let r := (stagedRecord h most why e).cutBy x
    r.requested = e.quantity ∧ r.confirmed = min e.quantity most - x ∧ r.recuts = 0 ∧ r.hour = h
      ∧ r.reason = (if min e.quantity most < e.quantity then some why else if x ≠ 0 then some .capacity else none)
      ∧ r.state = recordState r.requested r.confirmed := by
  obtain ⟨hhour, _, _, _, hreq, hrec, hconf⟩ := cutBy_fields (stagedRecord h most why e) x
  refine ⟨hreq, hconf, hrec, hhour, ?_, ?_⟩
  · by_cases hx0 : x = 0
    · rw [hx0, cutBy_zero]
      rfl
    · rw [cutBy_reason _ hx0, if_pos hx0]
      show some (Option.getD (if min e.quantity most < e.quantity then some why else none) .capacity) = _
      split <;> rfl
  · rw [hreq, hconf]
    by_cases hx0 : x = 0
    · rw [hx0, cutBy_zero]
      rfl
    · exact cutBy_state _ hx0


theorem projected_eq (i : Fin 24) (a : Account) : projected s i a h
    = a.inventory + netOf (s.sched.filter (fun r => decide (r.slot = i ∧ s.clock.hour ≤ r.hour ∧ r.hour < h))) := by
  simp only [projected, Bool.decide_and, Bool.and_assoc]

theorem ratchet_eq (curve : Option (Fin 16)) (fill : Nat) :
    ratchet s curve fill = curve.elim 1000 (fun k => min (evalCurve s.curves[k] fill) 1000) := by
  cases curve <;> rfl

/-- The bound of a slot that holds a record: the limit, and none while it is SUSPENDED. -/
theorem boundOf_slot {i : Fin 24} {d : Direction} {a : Account} (ha : s.acct.slots[i] = some a) {room rate : Nat}
    (hlimit : hourlyLimit s i h d = ⟨room, rate⟩) :
    (boundOf s h i d).most = (if a.state = .suspended then 0 else min room rate)
      ∧ (boundOf s h i d).reason
          = if a.state = .suspended then .suspended else if rate ≤ room then .shipperLimit else .inventory := by
  simp only [boundOf, ha, hlimit]
  split <;> exact ⟨rfl, rfl⟩

theorem hourlyLimit_slot {i : Fin 24} {a : Account} (ha : s.acct.slots[i] = some a) :
    let p : Int := a.inventory + netOf (s.sched.filter (fun r => decide (r.slot = i ∧ s.clock.hour ≤ r.hour ∧ r.hour < h)))
    let fill : Nat := min (p.toNat * 1000 / a.spaceRight) 1000
    let ratcheted (right : Nat) (curve : Option (Fin 16)) : Nat :=
      right * curve.elim 1000 (fun k => min (evalCurve s.curves[k] fill) 1000) / 1000
    hourlyLimit s i h .inject = ⟨((a.spaceRight : Int) - p).toNat, ratcheted a.injRight a.injCurve⟩
      ∧ hourlyLimit s i h .withdraw = ⟨p.toNat, ratcheted a.wdrRight a.wdrCurve⟩ := by
  simp only [hourlyLimit, ha, projected_eq, ratchet_eq, fillFraction, and_self]

/-- The entry of a key that holds the hour, in the terms of R41. -/
theorem holderOf_eq (i : Fin 24) (d : Direction) (c : Class) : holderOf s h i d c
    = s.book.entries.find? (fun e => decide (e.slot = i ∧ e.dir = d ∧ e.cls = c ∧ e.next ≤ h ∧ h ≤ e.last)) := by
  refine congrArg (fun p => List.find? p s.book.entries) (funext fun e => ?_)
  simp only [Entry.hasKey, Entry.holds, Bool.decide_and, Bool.and_assoc]

theorem mostOf_firm (i : Fin 24) (d : Direction) : mostOf s h i d .firm = (boundOf s h i d).most := rfl

/-- What interruptible is left by the firm entry of its key. -/
theorem mostOf_interruptible (i : Fin 24) (d : Direction) : mostOf s h i d .interruptible = (boundOf s h i d).most
    - min ((holderOf s h i d .firm).elim 0 (fun e => e.quantity)) (boundOf s h i d).most := by
  rw [mostOf]
  cases holderOf s h i d .firm with
  | none => rw [Option.elim_none, Option.elim_none, Nat.zero_min]
  | some f => rfl

/-- A record of the hour against the quantity `n` of its shipper stage. -/
theorem confirmed_of_staged {i : Fin 24} {d : Direction} {c : Class} {r : SchedRec} (hr : r ∈ confirmedRecords s h)
    (hi : r.slot = i) (hd : r.dir = d) (hc : r.cls = c) {n : Nat}
    (hn : min ((holderOf s h i d c).elim 0 (fun e => e.quantity)) (mostOf s h i d c) = n) :
    r.requested = (holderOf s h i d c).elim 0 (fun e => e.quantity) ∧ r.confirmed ≤ n ∧ r.recuts = 0
      ∧ r.reason = (if n < r.requested then some (boundOf s h i d).reason else if r.confirmed < n then some .capacity else none)
      ∧ (r.confirmed < n → netOf (confirmedRecords s h)
            = (if d = .inject then (s.duty.declared : Int) else -(s.dry.capacity : Int))
          ∧ (c = .firm → ∀ q ∈ confirmedRecords s h, q.dir = d → q.cls = .interruptible → q.confirmed = 0)) := by
  obtain ⟨e, j, x, he, hj, hx, hle, rfl⟩ := confirmed_of_key s h hr hi hd hc
  obtain ⟨hreq, hconf, hrec, _, hreason, _⟩ := stagedRecord_fields h (mostOf s h i d c) (boundOf s h i d).reason e x
  obtain ⟨_, hd', hc'⟩ := holderOf_spec s h he
  rw [he, Option.elim_some] at hn ⊢
  subst hn
  have hcut : min e.quantity (mostOf s h i d c) - x < min e.quantity (mostOf s h i d c) ↔ x ≠ 0 := by omega
  refine ⟨hreq, hconf ▸ Nat.sub_le _ _, hrec, ?_, fun hlt => ?_⟩
  · rw [hreason, hreq, hconf]
    simp only [hcut]
  · obtain ⟨hnet, hfirm⟩ := confirmed_cut s h hj hx (hcut.mp (hconf ▸ hlt))
    rw [show (stagedRecord h (mostOf s h i d c) (boundOf s h i d).reason e).dir = d from hd'] at hnet hfirm
    exact ⟨hnet, fun hcf => hfirm (hc'.trans hcf)⟩

/-- A record of the hour by itself. -/
theorem confirmed_sound {r : SchedRec} (hr : r ∈ confirmedRecords s h) : r.hour = h ∧ r.confirmed ≤ r.requested
    ∧ r.state = recordState r.requested r.confirmed ∧ (r.reason = none ↔ r.confirmed = r.requested) := by
  obtain ⟨e, j, x, _, _, _, hle, he⟩ := confirmed_of_key s h hr rfl rfl rfl
  generalize mostOf s h _ _ _ = most, (boundOf s h _ _).reason = why at hle he
  subst he
  obtain ⟨hreq, hconf, _, hhour, hreason, hstate⟩ := stagedRecord_fields h most why e x
  refine ⟨hhour, ?_, hstate, ?_⟩
  · rw [hreq, hconf]
    omega
  · rw [hreason, hreq, hconf]
    split_ifs <;> simp only [false_iff, true_iff] <;> omega

theorem confirmed_keyed (i : Fin 24) (d : Direction) (c : Class) :
    (holderOf s h i d c = none → ∀ r ∈ confirmedRecords s h, ¬(r.slot = i ∧ r.dir = d ∧ r.cls = c))
      ∧ (holderOf s h i d c ≠ none → ∃ r ∈ confirmedRecords s h, r.slot = i ∧ r.dir = d ∧ r.cls = c) := by
  refine ⟨fun hnone r hr hkey => ?_, fun hsome => ?_⟩
  · obtain ⟨hi, hd, hc⟩ := hkey
    obtain ⟨e, _, _, he, _⟩ := confirmed_of_key s h hr hi hd hc
    rw [hnone] at he
    exact absurd he nofun
  · obtain ⟨e, he⟩ := Option.ne_none_iff_exists'.mp hsome
    have hkey : keyRecord s h i d c = some _ := Option.map_eq_some_iff.mpr ⟨e, he, rfl⟩
    obtain ⟨_, hi, hd, hc⟩ := keyRecord_spec s h hkey
    obtain ⟨x, hx⟩ := confirmedRecords_of_staged s h ((mem_stagedRecords s h).mpr ⟨i, d, c, hkey⟩)
    obtain ⟨_, h2, h3, h4, _⟩ := cutBy_fields (stagedRecord h (mostOf s h i d c) (boundOf s h i d).reason e) x
    exact ⟨_, hx, h2.trans hi, h3.trans hd, h4.trans hc⟩

theorem past_eq (e : Entry) : e.past h = if e.next ≤ h ∧ h ≤ e.last then (if e.last = h then none else some { e with next := h + 1 })
    else some e :=
  if_congr holds_iff rfl rfl

theorem completedBy_eq : Entry.completedBy h = fun e => decide (e.next ≤ h ∧ e.last = h) := by
  funext e
  rw [Entry.completedBy, Bool.eq_iff_iff, Bool.and_eq_true, holds_iff, decide_eq_true_eq, decide_eq_true_eq]
  omega
end

/-- Settles O22: the shipper stage key by key, the site stage on its records, and what the confirmation does besides. -/
theorem confirmedHourFitsTheCapacities : Obligations.ConfirmedHourFitsTheCapacities := by
  intro s h
  obtain ⟨hentries, hthrough, hevq, hsched⟩ := confirmHour_stands s h
  have hnet := confirmedRecords_net s h
  refine ⟨fun i d a ha => ?_, confirmedRecords_sorted s h, ?_, ⟨completedTold s h, hevq, ?_⟩, (does_confirmHour s h).parts, ?_, ?_,
    fun r hr => confirmed_sound s h hr, hsched, hthrough, fun d c => ?_⟩
  · obtain ⟨hinject, hwithdraw⟩ := hourlyLimit_slot s h ha
    have hrecord (c : Class) (r : SchedRec) (hr : r ∈ confirmedRecords s h) (hi : r.slot = i) (hd : r.dir = d) (hc : r.cls = c) :=
      confirmed_of_staged s h hr hi hd hc rfl
    simp only [← holderOf_eq]
    cases d with
    | inject =>
      obtain ⟨hmost, hwhy⟩ := boundOf_slot s h ha hinject
      refine fun c => ⟨(confirmed_keyed s h i _ c).1, (confirmed_keyed s h i _ c).2, fun r hr hi hd hc => ?_⟩
      have hr := hrecord c r hr hi hd hc
      cases c <;> simpa only [mostOf_interruptible, mostOf_firm, hmost, hwhy] using hr
    | withdraw =>
      obtain ⟨hmost, hwhy⟩ := boundOf_slot s h ha hwithdraw
      refine fun c => ⟨(confirmed_keyed s h i _ c).1, (confirmed_keyed s h i _ c).2, fun r hr hi hd hc => ?_⟩
      have hr := hrecord c r hr hi hd hc
      cases c <;> simpa only [mostOf_interruptible, mostOf_firm, hmost, hwhy] using hr
  · rw [hentries]
    exact List.filterMap_congr fun e _ => past_eq h e
  · rw [completedTold, completedBy_eq]
  · rw [hnet]
    omega
  · rw [hnet]
    omega
  · rw [confirmHour_eq]
    refine ⟨fun st hst => ?_, foldl_countRecord_others (confirmed s h) _ d c⟩
    refine (foldl_countRecord_ofState (confirmed s h) _ d c st hst).trans ?_
    rfl

end Sys2Proof.Machine
end

section
/-! SUPPORT. The replies of the reading requests, word by word (section 8.4): O38. -/

namespace Sys2Proof.Machine

/-! ### The clock, the flow controller, the SBA -/

section
variable (s : State)

theorem clockReadReply_fields : (clockReadReply s).length = 8 ∧ clockFields s (clockReadReply s) := by
  unfold clockFields clockReadReply
  cases s.clock.state with
  | unset => exact ⟨rfl, nofun, fun _ => rfl, rfl⟩
  | running => exact ⟨rfl, fun _ => ⟨rfl, rfl, rfl, rfl⟩, nofun, rfl⟩

theorem outFlag_eq (b : Bool) : outFlag b = out1 b.toNat := by cases b <;> rfl

theorem flowReadReply_fields : (flowReadReply s).length = 49 ∧ flowFields s (flowReadReply s) := by
  have hramping : ramping s.flow = decide (s.flow.setpoint ≠ goal s.flow) := by simp [ramping, bne, Bool.beq_eq_decide_eq]
  have hinj : injPermit s = decide (s.flow.dir = .injecting) := by simp [injPermit, Bool.beq_eq_decide_eq]
  have hwdr : wdrPermit s = decide (s.flow.dir = .withdrawing) := by simp [wdrPermit, Bool.beq_eq_decide_eq]
  unfold flowFields flowReadReply flowFlags
  dsimp only
  rw [outFlags_eq, hramping, hinj, hwdr]
  unfold outSite
  cases s.flow.lastCut with
  | none =>
    simp only [Option.map_none, outCut, outFlag_eq, outI2, out3, out2, out1]
    simp only [List.cons_append, List.nil_append]
    exact ⟨rfl, rfl, rfl, rfl, rfl, rfl, rfl, rfl, rfl, rfl, rfl, nofun, rfl⟩
  | some x =>
    simp only [Option.map_some, outCut, outFlag_eq, outI2, out3, out2, out1]
    simp only [List.cons_append, List.nil_append]
    refine ⟨rfl, rfl, rfl, rfl, rfl, rfl, rfl, rfl, rfl, rfl, rfl, fun y hy => ?_, rfl⟩
    obtain rfl := Option.some.inj hy
    exact ⟨rfl, rfl⟩

theorem sbaReadReply_fields : (sbaReadReply s).length = 27 ∧ sbaFields s (sbaReadReply s) := by
  unfold sbaFields sbaReadReply
  exact ⟨rfl, rfl, rfl, rfl, rfl, rfl, rfl, rfl, rfl⟩

/-! ### The units -/

theorem toList_six {α : Type} (v : Vector α 6) : v.toList = [v[0], v[1], v[2], v[3], v[4], v[5]] := by
  refine List.ext_getElem (by simp) fun i hi _ => ?_
  rw [Vector.length_toList] at hi
  match i with
  | 0 | 1 | 2 | 3 | 4 | 5 => simp
  | i + 6 => omega

theorem outCurve_word (w : Word) (c : Option (Fin 16)) : ∃ x : Word, outCurve w c = [x] ∧ ∀ i, c = some i → out1 i.val = [x] := by
  cases c with
  | none => exact ⟨w, rfl, nofun⟩
  | some i => exact ⟨_, rfl, fun j hj => by cases hj; rfl⟩

theorem loadPermille_word (u : CUnit) : ∃ x : Word, (if u.cfg.capacity = 0 then [Config.noLoadPermille]
      else if u.loadPermille < 65536 then out1 u.loadPermille else [Config.widePermille u.loadPermille]) = [x]
    ∧ (u.cfg.capacity ≠ 0 → u.load * 1000 / u.cfg.capacity < 65536 → out1 (u.load * 1000 / u.cfg.capacity) = [x]) := by
  by_cases hcap : u.cfg.capacity = 0
  · exact ⟨_, if_pos hcap, fun h => absurd hcap h⟩
  · by_cases hlow : u.loadPermille < 65536
    · exact ⟨_, by rw [if_neg hcap, if_pos hlow]; rfl, fun _ _ => rfl⟩
    · exact ⟨_, by rw [if_neg hcap, if_neg hlow], fun _ h => absurd h hlow⟩

theorem unitReadReply_fields (i : Fin 6) : (unitReadReply i s).length = 44 ∧ unitFields s i (unitReadReply i s) := by
  have hkeep (u : CUnit) : out1 ((if u.cfg.keepEngine then 2 else 0) + (if u.cfg.keepAux then 1 else 0))
      = out1 (flagsFigure [u.cfg.keepAux, u.cfg.keepEngine]) := by
    cases u.cfg.keepEngine <;> cases u.cfg.keepAux <;> rfl
  have hflags : unitFlags s.duty.units[i]
      = out1 (flagsFigure [decide ((s.duty.units[i]).state = .loaded), runPermit s i]) := by
    rw [unitFlags, outFlags_eq, CUnit.readyFlag, Bool.beq_eq_decide_eq]
    rfl
  obtain ⟨c, hc, hcurve⟩ := outCurve_word Config.noFuelCurve (s.duty.units[i]).cfg.curve
  obtain ⟨p, hp, hpermille⟩ := loadPermille_word s.duty.units[i]
  unfold unitFields unitReadReply
  dsimp only
  rw [hkeep, hflags, outFlag_eq, hc, hp, toList_six]
  cases (s.duty.units[i]).startAges <;>
  · simp only [out1, out2, out4, out3, List.cons_append, List.nil_append, List.flatMap_cons, List.flatMap_nil]
    refine ⟨rfl, rfl, rfl, fun k hk => ?_, rfl, rfl, rfl, rfl, rfl, rfl, rfl, rfl, rfl, rfl, fun k hk => ?_,
      rfl, rfl, rfl, rfl, rfl, fun h0 hlt => ?_, fun k => ?_, rfl, rfl, rfl, rfl, rfl⟩
    · rw [show [BitVec.ofNat 16 k.val] = [c] from hcurve k hk]
      rfl
    · cases hk <;> rfl
    · rw [show [BitVec.ofNat 16 _] = [p] from hpermille h0 hlt]
      rfl
    · match k with
      | 0 | 1 | 2 | 3 | 4 | 5 => rfl

/-! ### The trains -/

theorem outBedPermille_word (x : Train) (b : Bed) : ∃ w : Word, outBedPermille x b = [w] ∧
    (let p := if x.bedCap = 0 then 1000 else b.load * 1000 / (x.bedCap * 3600000000)
     p < 65536 → out1 p = [w]) := by
  have hunits : x.capUnits = 0 ↔ x.bedCap = 0 := by rw [Train.capUnits]; omega
  have hpermille : bedPermille x b = if x.bedCap = 0 then 1000 else b.load * 1000 / (x.bedCap * 3600000000) := by
    rw [bedPermille]
    exact if_congr hunits rfl rfl
  rw [← hpermille, outBedPermille]
  split
  · exact ⟨_, rfl, fun _ => rfl⟩
  · next hwide => exact ⟨_, rfl, fun h => absurd h hwide⟩

theorem trainReadReply_fields (t : Fin 2) : (trainReadReply t s).length = 56 ∧ trainFields s t (trainReadReply t s) := by
  have hflags : trainFlags s.dry.trains[t] = out1 (flagsFigure [(s.dry.trains[t]).service, (s.dry.trains[t]).degraded,
      (s.dry.trains[t]).deferred, (s.dry.trains[t]).armed, divert s t]) := outFlags_eq _
  obtain ⟨c, hc, hcurve⟩ := outCurve_word Config.noCapacityCurve (s.dry.trains[t]).cfg.curve
  obtain ⟨p, hp, hlo⟩ := outBedPermille_word s.dry.trains[t] (s.dry.trains[t]).lo
  obtain ⟨q, hq, hhi⟩ := outBedPermille_word s.dry.trains[t] (s.dry.trains[t]).hi
  unfold trainFields trainReadReply outTrainCfg outBed
  dsimp only
  rw [hflags, outFlag_eq, hc, hp, hq, outTimer_eq, outTimer_eq]
  simp only [out1, out2, out4, out3, outI]
  simp only [List.cons_append, List.nil_append]
  refine ⟨rfl, rfl, rfl, rfl, fun k hk => ?_, rfl, rfl, rfl, rfl, rfl, rfl, rfl, rfl, rfl, rfl, rfl, rfl, rfl, rfl, rfl, rfl, rfl,
    rfl, rfl, rfl, ⟨rfl, rfl, fun h => ?_, rfl⟩, ⟨rfl, rfl, fun h => ?_, rfl⟩, rfl, rfl, rfl, rfl, rfl, rfl⟩
  · rw [show [BitVec.ofNat 16 k.val] = [c] from hcurve k hk]
    rfl
  · rw [show out1 _ = [p] from hlo h]
    rfl
  · rw [show out1 _ = [q] from hhi h]
    rfl

/-! ### The settlement's records -/

theorem settlementReadReply_fields (k : Nat) :
    (settlementReadReply k s).length = (if k < s.settle.history.length then 43 else 1)
      ∧ settlementFields s k (settlementReadReply k s) := by
  unfold settlementFields settlementReadReply
  rw [← List.length_reverse (as := s.settle.history)]
  cases h : s.settle.history.reverse[k]? with
  | none =>
    rw [if_neg (Nat.not_lt.mpr (List.getElem?_eq_none_iff.mp h))]
    exact ⟨rfl, rfl, nofun⟩
  | some x =>
    rw [if_pos (List.getElem?_eq_some_iff.mp h).1]
    refine ⟨rfl, rfl, fun y hy => ?_⟩
    obtain rfl := Option.some.inj hy
    exact ⟨rfl, rfl, rfl, rfl, rfl, rfl, rfl, rfl, rfl, rfl, rfl⟩

theorem allocationReadReply_fields (i : Fin 24) :
    (allocationReadReply i s).length = 20 ∧ allocationFields s i (allocationReadReply i s) := by
  unfold allocationFields allocationReadReply
  cases s.acct.slots[i] with
  | none => exact ⟨rfl, nofun, fun _ => rfl⟩
  | some a =>
    cases s.settle.alloc[i] with
    | none => exact ⟨rfl, nofun, fun _ => rfl⟩
    | some x =>
      refine ⟨rfl, fun a' x' ha hx => ?_, fun h => h.elim nofun nofun⟩
      obtain rfl := Option.some.inj ha
      obtain rfl := Option.some.inj hx
      exact ⟨rfl, rfl, rfl, rfl, rfl, rfl, rfl⟩

/-! ### The book and the schedule, a page at a time -/

theorem outEntry_length (e : Entry) : (outEntry e).length = 14 := rfl

theorem matching_eq (id : Nat) : matching id s = s.book.entries.filter (fun e => id == 0 || e.shipper == id) := rfl

theorem bookReadReply_fields (id k : Nat) : (bookReadReply id k s).length
      = 4 + 14 * min 4 ((s.book.entries.filter (fun e => id == 0 || e.shipper == id)).length - k)
    ∧ bookFields s id k (bookReadReply id k s) := by
  rw [← matching_eq]
  refine ⟨?_, rfl, rfl, rfl, fun j e hj => ?_⟩
  · rw [bookReadReply, List.length_append, flatMap_length outEntry_length, List.length_take, List.length_drop]
    rfl
  · have hplace {m : Nat} {w : Block} (h : carries (outEntry e) m w) (hm : m + w.length ≤ 14) :
        carries (bookReadReply id k s) (4 + 14 * j + m) w :=
      carries_suffix (carries_flatMap outEntry_length hj h hm) (Nat.add_assoc 4 _ _)
    exact ⟨hplace (m := 0) rfl (Nat.le_of_ble_eq_true rfl), hplace rfl (Nat.le_of_ble_eq_true rfl), hplace rfl (Nat.le_of_ble_eq_true rfl), hplace rfl (Nat.le_of_ble_eq_true rfl),
      hplace rfl (Nat.le_of_ble_eq_true rfl), hplace rfl (by simp [outHour, out1]), hplace rfl (by simp [outHour, out1]),
      hplace rfl (by simp [outHour, out1]), hplace rfl (Nat.le_of_ble_eq_true rfl)⟩

theorem outRecord_length (r : SchedRec) : (outRecord r).length = 10 := rfl

theorem scheduleReadReply_fields (h k : Nat) :
    (scheduleReadReply h k s).length = 4 + 10 * min 6 ((s.sched.filter (fun r => r.hour == h)).length - k)
      ∧ scheduleFields s h k (scheduleReadReply h k s) := by
  refine ⟨?_, rfl, rfl, fun hrun => ?_, fun j x hj => ?_⟩
  · rw [scheduleReadReply, List.length_append, flatMap_length outRecord_length, List.length_take, List.length_drop,
      outFlag_eq]
    rfl
  · have hflag : hourConfirmed s h = decide (s.clock.hour ≤ h ∧ h ≤ s.book.confirmedThrough) := by
      rw [hourConfirmed, hrun, firstUnconfirmed, Bool.eq_iff_iff, Bool.and_eq_true, decide_eq_true_eq, decide_eq_true_eq,
        decide_eq_true_eq]
      omega
    rw [scheduleReadReply, hflag, outFlag_eq]
    rfl
  · have hplace {m : Nat} {w : Block} (hw : carries (outRecord x) m w) (hm : m + w.length ≤ 10) :
        carries (scheduleReadReply h k s) (4 + 10 * j + m) w :=
      carries_suffix (carries_flatMap outRecord_length hj hw hm) (by rw [outFlag_eq]; exact Nat.add_assoc 4 _ _)
    exact ⟨hplace (m := 0) rfl (Nat.le_of_ble_eq_true rfl), hplace rfl (Nat.le_of_ble_eq_true rfl), hplace rfl (Nat.le_of_ble_eq_true rfl), hplace rfl (Nat.le_of_ble_eq_true rfl),
      hplace rfl (Nat.le_of_ble_eq_true rfl), hplace rfl (Nat.le_of_ble_eq_true rfl), hplace rfl (Nat.le_of_ble_eq_true rfl), hplace rfl (Nat.le_of_ble_eq_true rfl)⟩

/-! ### The marked copy -/

/-- A block of a run of 12,288 words. -/
theorem block_length {ws : Block} (hws : ws.length = 12288) {k : Nat} (hk : k ≤ 383) : ((ws.drop (32 * k)).take 32).length = 32 := by
  rw [List.length_take, List.length_drop, hws]
  omega

theorem failingWords_spec (word : Nat → Word) : (failingWords word).length = 12288 ∧ crcHolds (failingWords word) = false := by
  have hbody : ((List.range 12287).map word).length = 12287 := by rw [List.length_map, List.length_range]
  unfold failingWords
  dsimp only
  generalize (List.range 12287).map word = body at hbody
  generalize word 12287 = last
  refine ⟨by rw [List.length_append, hbody, List.length_singleton], ?_⟩
  have hread : (body ++ [if last = crc (blockBytes body) then last ^^^ 1 else last]).getD 12287 0
      = if last = crc (blockBytes body) then last ^^^ 1 else last := by
    rw [List.getD_eq_getElem?_getD, List.getElem?_append_right (Nat.le_of_eq hbody), hbody, Nat.sub_self,
      List.getElem?_cons_zero, Option.getD_some]
  rw [crcHolds, hread, ← hbody, List.take_left, beq_eq_false_iff_ne]
  split
  · next h =>
    rw [h]
    generalize crc (blockBytes body) = x
    intro he
    have hone : x ^^^ (x ^^^ 1) = x ^^^ x := congrArg (x ^^^ ·) he.symm
    rw [← BitVec.xor_assoc, BitVec.xor_self, BitVec.zero_xor] at hone
    exact absurd hone (by decide)
  · next h => exact Ne.symm h

theorem copyWords_length (i : Fin 2) (x : Copy) : (copyWords i x).length = 12288 := by
  cases x with
  | whole n m =>
    show (imageWords n m).length = 12288
    rw [imageWords, List.length_append, imageBody_length, List.length_singleton]
  | failed _ _ _ => exact (failingWords_spec _).1
  | notWhole => exact (failingWords_spec _).1

theorem storeReadReply_eq (k : Nat) : storeReadReply k s = storeWords (copyWords s.store.mark s.store.copies[s.store.mark]) k := rfl

theorem storeReadReply_fields {k : Nat} (hk : k ≤ 383) :
    (storeReadReply k s).length = 36 ∧ storeFields s k (storeReadReply k s) := by
  have hlen := copyWords_length s.store.mark s.store.copies[s.store.mark]
  have hblock := block_length hlen hk
  rw [storeReadReply_eq]
  refine ⟨?_, rfl, rfl, fun n m hwhole => ?_⟩
  · rw [storeWords, List.length_append, hblock, List.length_append, List.length_take, hlen]
    rfl
  · rw [storeWords, hwhole]
    exact ⟨rfl, rfl⟩

end

/-! ### The requests -/

section
variable {s : State} {b : Block}

theorem unitRead_taken (hlen : b.length = 1) {i : Fin 6} (hi : fieldW b 0 = i.val) :
    reqUnitRead b s = taken (unitReadReply i s) s := by
  rw [reqUnitRead, if_pos hlen, fieldFin_eq_some hi]

theorem trainRead_taken (hlen : b.length = 1) {t : Fin 2} (ht : fieldW b 0 = t.val) :
    reqTrainRead b s = taken (trainReadReply t s) s := by
  rw [reqTrainRead, if_pos hlen, fieldFin_eq_some ht]

theorem allocationRead_taken (hlen : b.length = 1) (hidle : settling s = false) {i : Fin 24} (hi : fieldW b 0 = i.val) :
    reqAllocationRead b s = taken (allocationReadReply i s) s := by
  have hchecks : firstFailure [(b.length == 1, .badLength), (!settling s, .busy)] = none :=
    firstFailure_none.mpr (by simp [hlen, hidle])
  rw [reqAllocationRead, hchecks, fieldFin_eq_some hi]
end

/-- Settles O38: each reading request, its checks met, answers the words of its reply and leaves the part. -/
theorem readsAnswerAndChangeNothing : Obligations.ReadsAnswerAndChangeNothing := by
  refine ⟨fun s b c _ => keepsItsChecks_all c s, fun s b hs => ⟨fun hlen => ⟨?_, ?_⟩, fun i hlen hi => ?_, fun t hlen ht => ?_,
    fun hidle => ⟨fun hlen => ?_, fun hlen hk => ?_, fun i hlen hi => ?_, fun hlen hk => ?_, fun hlen hh hk => ?_⟩,
    fun hcommit hlen hk => ?_, fun hcommit hnot => ?_⟩⟩
  · exact ⟨_, exec_taken rfl hs (checked_ok _ _ (by simp [hlen])), clockReadReply_fields s⟩
  · exact ⟨_, exec_taken rfl hs (checked_ok _ _ (by simp [hlen])), flowReadReply_fields s⟩
  · exact ⟨_, exec_taken rfl hs (unitRead_taken hlen hi), unitReadReply_fields s i⟩
  · exact ⟨_, exec_taken rfl hs (trainRead_taken hlen ht), trainReadReply_fields s t⟩
  · exact ⟨_, exec_taken rfl hs (checked_ok _ _ (by simp [hlen, hidle])), sbaReadReply_fields s⟩
  · exact ⟨_, exec_taken rfl hs (checked_ok _ _ (by simp [hlen, hidle, hk])), settlementReadReply_fields s _⟩
  · exact ⟨_, exec_taken rfl hs (allocationRead_taken hlen hidle hi), allocationReadReply_fields s i⟩
  · exact ⟨_, exec_taken rfl hs (checked_ok _ _ (by simp [hlen, hidle, hk])), bookReadReply_fields s _ _⟩
  · exact ⟨_, exec_taken rfl hs (checked_ok _ _ (by simp [hlen, hidle, hh, hk])), scheduleReadReply_fields s _ _⟩
  · exact ⟨_, exec_taken rfl hs (checked_ok _ _ (by simp [hlen, hcommit, hk])), storeReadReply_fields s hk⟩
  · refine ⟨copyWords s.store.mark s.store.copies[s.store.mark], copyWords_length _ _, ?_, fun k hk => ?_⟩
    · cases hcopy : s.store.copies[s.store.mark] with
      | whole n m => exact absurd hcopy (hnot n m)
      | failed _ _ _ => exact (failingWords_spec _).2
      | notWhole => exact (failingWords_spec _).2
    · have hlen : (out1 k).length = 1 := rfl
      have hfield : fieldW (out1 k) 0 = k := List.append_nil (out1 k) ▸ fieldW_out1 k [] (by omega)
      have htaken := exec_taken (c := .storeRead (out1 k)) rfl hs (checked_ok s
        (taken (storeReadReply (fieldW (out1 k) 0) s) s) (l := [((out1 k).length == 1, .badLength), (!committing s, .busy),
          (decide (fieldW (out1 k) 0 ≤ 383), .range)]) (by simp [hcommit, hfield, hk, hlen]))
      rw [hfield] at htaken
      exact htaken

end Sys2Proof.Machine
end

section
/-! SUPPORT. The image as words (section 10.1): each record read from its words. -/

namespace Sys2Proof.Machine

/-! ### A field where the block carries it -/

section
variable {b : Block} {k n : Nat}

theorem drop_of_carries {w : Block} (h : carries b k w) : b.drop k = w ++ b.drop (k + w.length) := by
  have hsplit := (List.take_append_drop w.length (b.drop k)).symm
  rwa [show (b.drop k).take w.length = w from h, List.drop_drop] at hsplit

theorem fieldW_at (b : Block) (k : Nat) : fieldW b k = fieldW (b.drop k) 0 := (fieldW_drop b k 0).symm

theorem fields_at (b : Block) (k : Nat) : field2 b k = field2 (b.drop k) 0 ∧ field3 b k = field3 (b.drop k) 0
    ∧ field4 b k = field4 (b.drop k) 0 := by
  simp only [field4, field3, field2, fieldW_drop, Nat.add_zero, Nat.zero_add, and_self]

theorem fieldW_carried (h : carries b k (out1 n)) (hn : n < 65536) : fieldW b k = n := by
  rw [fieldW_at, drop_of_carries h, fieldW_out1 n _ hn]

theorem field2_carried (h : carries b k (out2 n)) (hn : n < 65536 ^ 2) : field2 b k = n := by
  rw [(fields_at b k).1, drop_of_carries h, (field2_out2 n _ hn).1]

theorem field3_carried (h : carries b k (out3 n)) (hn : n < 65536 ^ 3) : field3 b k = n := by
  rw [(fields_at b k).2.1, drop_of_carries h, (field3_out3 n _ hn).1]

theorem field4_carried (h : carries b k (out4 n)) (hn : n < 65536 ^ 4) : field4 b k = n := by
  rw [(fields_at b k).2.2, drop_of_carries h, (field4_out4 n _ hn).1]

theorem fieldI_carried {x : Int} (h : carries b k (outI x)) (hlow : -(2 ^ 15) ≤ x) (hhigh : x < 2 ^ 15) : fieldI b k = x := by
  rw [fieldI, fieldW_at, drop_of_carries h, ← fieldI, fieldI_outI x _ hlow hhigh]

theorem fieldI4_carried {x : Int} (h : carries b k (outI4 x)) (hx : x.natAbs ≤ wideMost) : fieldI4 b k = x := by
  unfold wideMost at hx
  rw [fieldI4, (fields_at b k).2.2, drop_of_carries h, ← fieldI4, fieldI4_outI4 x _ (by omega) (by omega)]

theorem hourRead_carried (h : carries b k (outHour n)) (hn : n ≤ lastHour) : hourRead b k = some n := by
  unfold lastHour at hn
  have hday : n / 24 < 65536 := by omega
  have hout : outHour n = out1 (n / 24) ++ out1 (n % 24) := by rw [outHour, if_pos hday]; rfl
  have hfirst : fieldW b k = n / 24 := by
    rw [fieldW_at, drop_of_carries h, hout, List.append_assoc, fieldW_out1 _ _ hday]
  have hsecond : fieldW b (k + 1) = n % 24 := by
    rw [← fieldW_drop, drop_of_carries h, hout, List.append_assoc]
    exact fieldW_out1 (n % 24) (b.drop (k + (out1 (n / 24) ++ out1 (n % 24)).length)) (by omega)
  rw [hourRead, hsecond, if_pos (by omega), fieldHour, hfirst, hsecond]
  congr 1
  omega

theorem fieldCurve_carried {c : Option (Fin 16)} (h : carries b k (outRatchet c)) : curveRead b k = some c := by
  cases c with
  | none =>
    have hw : fieldW b k = 65535 := fieldW_carried h (by decide)
    simp [curveRead, fieldCurve, hw]
  | some i =>
    have hw : fieldW b k = i.val := fieldW_carried h (by have := i.isLt; omega)
    simp [curveRead, fieldCurve, hw]

theorem flagRead_carried {f : Bool} (h : carries b k (outFlag f)) : flagRead b k = some f := by
  have hw : fieldW b k = f.toNat := fieldW_carried (outFlag_eq f ▸ h) (by cases f <;> decide)
  rw [flagRead, hw]
  cases f <;> rfl

theorem fieldFin_carried {m : Nat} {i : Fin m} (h : carries b k (out1 i.val)) (hm : m ≤ 65536) : fieldFin m b k = some i :=
  fieldFin_eq_some (fieldW_carried h (by have := i.isLt; omega))
end

/-! ### The fixed records -/

theorem outRatchet_word (c : Option (Fin 16)) : ∃ w : Word, outRatchet c = [w] := by cases c <;> exact ⟨_, rfl⟩

theorem fitsWords_iff {n x : Nat} : fitsWords n x = true ↔ x < 65536 ^ n := decide_eq_true_iff

theorem fitsSigned_iff {x : Int} : fitsSigned x = true ↔ -32768 ≤ x ∧ x ≤ 32767 := by
  rw [fitsSigned, Bool.and_eq_true, decide_eq_true_iff, decide_eq_true_iff]

theorem slotWords_length (o : Option Account) : (slotWords o).length = 15 := by
  cases o with
  | none => rfl
  | some a =>
    obtain ⟨x, hx⟩ := outRatchet_word a.injCurve
    obtain ⟨y, hy⟩ := outRatchet_word a.wdrCurve
    rw [slotWords, hx, hy]
    rfl

theorem accountStateRead_code (st : AccountState) : accountStateRead st.imageCode = some st ∧ st.imageCode ≠ 0 ∧ st.imageCode < 65536 := by
  cases st <;> decide

/-- A figure of two flags. -/
theorem twoFlags (f g : Bool) : flagsFigure [f, g] ≤ 3 ∧ (flagsFigure [f, g] % 2 == 1) = f ∧ (flagsFigure [f, g] / 2 == 1) = g := by
  cases f <;> cases g <;> decide

theorem outI3_of_nonneg {x : Int} (h0 : 0 ≤ x) (hx : x.toNat < 65536 ^ 3) : outI3 x = out3 x.toNat := by
  rw [outI3, twos, Int.emod_eq_of_lt h0 (by omega)]

theorem slotRead_slotWords {o : Option Account} (h : ∀ a, o = some a → a.fits = true) : slotRead (slotWords o) = some o := by
  cases o with
  | none => rfl
  | some a =>
    have hfits := h a rfl
    simp only [Account.fits, Account.inRange, Bool.and_eq_true, decide_eq_true_eq, fitsWords_iff] at hfits
    obtain ⟨⟨⟨⟨⟨⟨⟨_, hid⟩, _⟩, hspace⟩, hinj⟩, hwdr⟩, hinv⟩, hinv'⟩ := hfits
    obtain ⟨x, hx⟩ := outRatchet_word a.injCurve
    obtain ⟨y, hy⟩ := outRatchet_word a.wdrCurve
    obtain ⟨hstate, hne, hcode⟩ := accountStateRead_code a.state
    obtain ⟨hflags, hempty, hfull⟩ := twoFlags a.emptyClamp a.fullClamp
    have hwords : slotWords (some a) = out1 a.state.imageCode ++ out1 a.shipper ++ out3 a.inventory.toNat ++ out3 a.spaceRight
        ++ out2 a.injRight ++ out2 a.wdrRight ++ [x] ++ [y] ++ out1 (flagsFigure [a.emptyClamp, a.fullClamp]) := by
      rw [slotWords, outI3_of_nonneg hinv hinv', hx, hy, outFlags_eq]
    rw [hwords, slotRead]
    generalize hb : out1 a.state.imageCode ++ out1 a.shipper ++ out3 a.inventory.toNat ++ out3 a.spaceRight
        ++ out2 a.injRight ++ out2 a.wdrRight ++ [x] ++ [y] ++ out1 (flagsFigure [a.emptyClamp, a.fullClamp]) = b
    have h0 : fieldW b 0 = a.state.imageCode := fieldW_carried (hb ▸ rfl) hcode
    have h1 : fieldW b 1 = a.shipper := fieldW_carried (hb ▸ rfl) (by omega)
    have h2 : field3 b 2 = a.inventory.toNat := field3_carried (hb ▸ rfl) hinv'
    have h5 : field3 b 5 = a.spaceRight := field3_carried (hb ▸ rfl) (by omega)
    have h8 : field2 b 8 = a.injRight := field2_carried (hb ▸ rfl) (by omega)
    have h10 : field2 b 10 = a.wdrRight := field2_carried (hb ▸ rfl) (by omega)
    have h12 : curveRead b 12 = some a.injCurve := fieldCurve_carried (hx ▸ hb ▸ rfl)
    have h13 : curveRead b 13 = some a.wdrCurve := fieldCurve_carried (hy ▸ hb ▸ rfl)
    have h14 : fieldW b 14 = flagsFigure [a.emptyClamp, a.fullClamp] := fieldW_carried (hb ▸ rfl) (by omega)
    rw [h0, if_neg hne, hstate, h12, h13, h14]
    simp only [hflags, if_true, h1, h2, h5, h8, h10, hempty, hfull, Int.toNat_of_nonneg hinv]

theorem transferWords_length (t : Transfer) : (transferWords t).length = 7 := rfl

theorem transferRead_transferWords {t : Transfer} (h : t.inRange = true) : transferRead (transferWords t) = some t := by
  simp only [Transfer.inRange, Bool.and_eq_true, decide_eq_true_eq] at h
  obtain ⟨⟨⟨⟨⟨_, hsrc⟩, _⟩, hdst⟩, _⟩, hq⟩ := h
  have h0 : field2 (transferWords t) 0 = t.arrival.toNat := field2_carried rfl t.arrival.isLt
  have h2 : fieldW (transferWords t) 2 = t.source := fieldW_carried rfl (by omega)
  have h3 : fieldW (transferWords t) 3 = t.destination := fieldW_carried rfl (by omega)
  have h4 : field3 (transferWords t) 4 = t.quantity := field3_carried rfl (by omega)
  rw [transferRead, h0, h2, h3, h4, BitVec.ofNat_toNat, BitVec.setWidth_eq]

theorem storedStateRead_code (st : StoredUnitState) : storedStateRead st.code = some st ∧ st.code < 65536 := by
  cases st <;> decide

theorem unitWords_length (u : UnitImage) : (unitWords u).length = 11 := by
  obtain ⟨x, hx⟩ := outRatchet_word u.cfg.curve
  rw [unitWords, hx, outFlag_eq]
  rfl

theorem unitRead_unitWords {u : UnitImage} (h : u.fits = true) : unitRead (unitWords u) = some u := by
  simp only [UnitImage.fits, Bool.and_eq_true, fitsWords_iff] at h
  obtain ⟨⟨⟨⟨hcap, hpolicy⟩, hrun⟩, hstart⟩, hattempts⟩ := h
  obtain ⟨x, hx⟩ := outRatchet_word u.cfg.curve
  obtain ⟨hstate, hcode⟩ := storedStateRead_code u.state
  obtain ⟨hflags, haux, hengine⟩ := twoFlags u.cfg.keepAux u.cfg.keepEngine
  have hkeep : out1 ((if u.cfg.keepEngine then 2 else 0) + (if u.cfg.keepAux then 1 else 0))
      = out1 (flagsFigure [u.cfg.keepAux, u.cfg.keepEngine]) := by
    cases u.cfg.keepEngine <;> cases u.cfg.keepAux <;> rfl
  rw [unitRead, unitWords, hkeep, hx, outFlag_eq]
  generalize hb : out1 u.configured.toNat ++ out2 u.cfg.capacity ++ [x] ++ out1 (flagsFigure [u.cfg.keepAux, u.cfg.keepEngine])
    ++ out1 u.cfg.policy ++ out1 u.state.code ++ out2 u.runSeconds ++ out1 u.startTotal ++ out1 u.attempts = b
  have h0 : flagRead b 0 = some u.configured := flagRead_carried (outFlag_eq _ ▸ hb ▸ rfl)
  have h1 : field2 b 1 = u.cfg.capacity := field2_carried (hb ▸ rfl) hcap
  have h3 : curveRead b 3 = some u.cfg.curve := fieldCurve_carried (hx ▸ hb ▸ rfl)
  have h4 : fieldW b 4 = flagsFigure [u.cfg.keepAux, u.cfg.keepEngine] := fieldW_carried (hb ▸ rfl) (by omega)
  have h5 : fieldW b 5 = u.cfg.policy := fieldW_carried (hb ▸ rfl) hpolicy
  have h6 : fieldW b 6 = u.state.code := fieldW_carried (hb ▸ rfl) hcode
  have h7 : field2 b 7 = u.runSeconds := field2_carried (hb ▸ rfl) hrun
  have h9 : fieldW b 9 = u.startTotal := fieldW_carried (hb ▸ rfl) hstart
  have h10 : fieldW b 10 = u.attempts := fieldW_carried (hb ▸ rfl) hattempts
  rw [h0, h3, h6, hstate, h4]
  simp only [hflags, if_true, h1, h5, h7, h9, h10, haux, hengine]

theorem bedStateRead_code (st : BedState) : bedStateRead st.code = some st ∧ st.code < 65536 := by
  cases st <;> decide

theorem bedRead_bedWords {b : BedImage} (h : b.load < 65536 ^ 4) : bedRead (bedWords b) = some b := by
  obtain ⟨hstate, hcode⟩ := bedStateRead_code b.state
  have h0 : fieldW (bedWords b) 0 = b.state.code := fieldW_carried rfl hcode
  have h1 : field4 (bedWords b) 1 = b.load := field4_carried rfl h
  rw [bedRead, h0, hstate, h1]

theorem outCurve_absent (c : Option (Fin 16)) : outCurve 65535#16 c = outRatchet c := by cases c <;> rfl

theorem trainWords_length (t : TrainImage) : (trainWords t).length = 18 := by
  obtain ⟨x, hx⟩ := outRatchet_word t.cfg.curve
  rw [trainWords, outTrainCfg, outCurve_absent, hx, outFlag_eq, outFlag_eq]
  rfl

theorem trainRead_trainWords {t : TrainImage} (h : t.fits = true) :
    trainRead (trainWords t) (bedWords t.lo) (bedWords t.hi) = some t := by
  simp only [TrainImage.fits, Bool.and_eq_true, fitsWords_iff, fitsSigned_iff] at h
  obtain ⟨⟨⟨⟨⟨⟨⟨⟨⟨⟨⟨⟨⟨hnominal, hdegraded⟩, hswap⟩, hheating⟩, hcooling⟩, hregen⟩, hrecycle⟩, hspec⟩, hwarn⟩, hexc⟩, hrec⟩, hmask⟩,
    hlo⟩, hhi⟩ := h
  obtain ⟨x, hx⟩ := outRatchet_word t.cfg.curve
  rw [trainRead, bedRead_bedWords hlo, bedRead_bedWords hhi, trainWords, outTrainCfg, outCurve_absent, hx, outFlag_eq, outFlag_eq]
  generalize hb : out1 t.configured.toNat ++ (out2 t.cfg.nominal ++ out1 t.cfg.degradedFactor ++ [x] ++ out1 t.cfg.swapPoint
    ++ out1 t.cfg.heating ++ out1 t.cfg.cooling ++ out2 t.cfg.regenRate ++ out2 t.cfg.recycleRate ++ outI t.cfg.spec
    ++ outI t.cfg.warn ++ out1 t.cfg.excursionDelay ++ out1 t.cfg.recoveryDelay ++ out1 t.cfg.maskChoice)
    ++ out1 t.service.toNat = b
  simp only [out1, out2, outI] at hb
  simp only [List.cons_append, List.nil_append] at hb
  have h0 : flagRead b 0 = some t.configured := flagRead_carried (outFlag_eq _ ▸ hb ▸ rfl)
  have h4 : curveRead b 4 = some t.cfg.curve := fieldCurve_carried (hx ▸ hb ▸ rfl)
  have h17 : flagRead b 17 = some t.service := flagRead_carried (outFlag_eq _ ▸ hb ▸ rfl)
  have hcfg : { trainCfgOf b 1 with curve := t.cfg.curve } = t.cfg := by
    have h1 : field2 b 1 = t.cfg.nominal := field2_carried (hb ▸ rfl) hnominal
    have h3 : fieldW b 3 = t.cfg.degradedFactor := fieldW_carried (hb ▸ rfl) hdegraded
    have h5 : fieldW b 5 = t.cfg.swapPoint := fieldW_carried (hb ▸ rfl) hswap
    have h6 : fieldW b 6 = t.cfg.heating := fieldW_carried (hb ▸ rfl) hheating
    have h7 : fieldW b 7 = t.cfg.cooling := fieldW_carried (hb ▸ rfl) hcooling
    have h8 : field2 b 8 = t.cfg.regenRate := field2_carried (hb ▸ rfl) hregen
    have h10 : field2 b 10 = t.cfg.recycleRate := field2_carried (hb ▸ rfl) hrecycle
    have h12 : fieldI b 12 = t.cfg.spec := fieldI_carried (hb ▸ rfl) (by omega) (by omega)
    have h13 : fieldI b 13 = t.cfg.warn := fieldI_carried (hb ▸ rfl) (by omega) (by omega)
    have h14 : fieldW b 14 = t.cfg.excursionDelay := fieldW_carried (hb ▸ rfl) hexc
    have h15 : fieldW b 15 = t.cfg.recoveryDelay := fieldW_carried (hb ▸ rfl) hrec
    have h16 : fieldW b 16 = t.cfg.maskChoice := fieldW_carried (hb ▸ rfl) hmask
    simp only [trainCfgOf, h1, h3, h5, h6, h7, h8, h10, h12, h13, h14, h15, h16]
  rw [h0, h4, h17]
  simp only [hcfg]

theorem directionOf_code (d : Direction) : directionOf d.code = some d := by cases d <;> rfl

theorem classOf_code (c : Class) : classOf c.code = some c := by cases c <;> rfl

theorem entryRead_outEntry {e : Entry} (h : e.fits = true) : entryRead (outEntry e) = some e := by
  simp only [Entry.fits, Bool.and_eq_true, decide_eq_true_eq, fitsWords_iff] at h
  obtain ⟨⟨⟨⟨hid, hfirst⟩, hlast⟩, hnext⟩, hq⟩ := h
  obtain ⟨hd, hc⟩ := code_lt e.dir e.cls
  have h0 : field2 (outEntry e) 0 = e.arrival.toNat := field2_carried rfl e.arrival.isLt
  have h2 : fieldFin 24 (outEntry e) 2 = some e.slot := fieldFin_carried rfl (by decide)
  have h3 : fieldW (outEntry e) 3 = e.shipper := fieldW_carried rfl hid
  have h4 : fieldW (outEntry e) 4 = e.dir.code := fieldW_carried rfl (by omega)
  have h5 : fieldW (outEntry e) 5 = e.cls.code := fieldW_carried rfl (by omega)
  have h6 : hourRead (outEntry e) 6 = some e.first := hourRead_carried rfl hfirst
  have h8 : hourRead (outEntry e) 8 = some e.last := hourRead_carried rfl hlast
  have h10 : hourRead (outEntry e) 10 = some e.next := hourRead_carried rfl hnext
  have h12 : field2 (outEntry e) 12 = e.quantity := field2_carried rfl hq
  rw [entryRead, h0, h2, h3, h4, h5, h6, h8, h10, h12, directionOf_code, classOf_code]
  simp only [BitVec.ofNat_toNat, BitVec.setWidth_eq]

theorem recordStateRead_code (st : RecordState) : recordStateRead st.code = some st ∧ st.code < 65536 := by
  cases st <;> decide

theorem reasonRead_code (why : Option Reason) : reasonRead (reasonCode why) = some why ∧ reasonCode why < 65536 := by
  rcases why with _ | why
  · decide
  · cases why <;> decide

theorem recordWords_length (r : SchedRec) : (recordWords r).length = 12 := rfl

theorem recordRead_recordWords {r : SchedRec} (h : r.fits = true) : recordRead (recordWords r) = some r := by
  simp only [SchedRec.fits, Bool.and_eq_true, decide_eq_true_eq, fitsWords_iff] at h
  obtain ⟨⟨⟨hhour, hreq⟩, hconf⟩, hrecuts⟩ := h
  obtain ⟨hd, hc⟩ := code_lt r.dir r.cls
  obtain ⟨hstate, hscode⟩ := recordStateRead_code r.state
  obtain ⟨hreason, hrcode⟩ := reasonRead_code r.reason
  have h0 : hourRead (recordWords r) 0 = some r.hour := hourRead_carried rfl hhour
  have h2 : fieldFin 24 (recordWords r) 2 = some r.slot := fieldFin_carried rfl (by decide)
  have h3 : fieldW (recordWords r) 3 = r.dir.code := fieldW_carried rfl (by omega)
  have h4 : fieldW (recordWords r) 4 = r.cls.code := fieldW_carried rfl (by omega)
  have h5 : field2 (recordWords r) 5 = r.requested := field2_carried rfl hreq
  have h7 : field2 (recordWords r) 7 = r.confirmed := field2_carried rfl hconf
  have h9 : fieldW (recordWords r) 9 = r.state.code := fieldW_carried rfl hscode
  have h10 : fieldW (recordWords r) 10 = reasonCode r.reason := fieldW_carried rfl hrcode
  have h11 : fieldW (recordWords r) 11 = r.recuts := fieldW_carried rfl hrecuts
  rw [recordRead, h0, h2, h3, h4, h5, h7, h9, h10, h11, directionOf_code, classOf_code, hstate, hreason]

theorem siteOf_outSite {g : Site} (h : siteInRange g = true) (c : Block) :
    siteOf (outSite g ++ c) = g ∧ fieldW (outSite g ++ c) 28 ≤ 1 := by
  simp only [siteInRange, Bool.and_eq_true, decide_eq_true_eq] at h
  generalize hb : outSite g ++ c = b
  unfold outSite at hb
  rw [outFlag_eq] at hb
  simp only [out1, out2, out3] at hb
  simp only [List.cons_append, List.nil_append] at hb
  have h0 : field2 b 0 = g.injRight := field2_carried (hb ▸ rfl) (by omega)
  have h2 : field2 b 2 = g.wdrRight := field2_carried (hb ▸ rfl) (by omega)
  have h4 : field2 b 4 = g.upRate := field2_carried (hb ▸ rfl) (by omega)
  have h6 : field2 b 6 = g.downRate := field2_carried (hb ▸ rfl) (by omega)
  have h8 : field2 b 8 = g.fallbackRate := field2_carried (hb ▸ rfl) (by omega)
  have h10 : fieldW b 10 = g.turnHold := fieldW_carried (hb ▸ rfl) (by omega)
  have h11 : fieldW b 11 = g.lead := fieldW_carried (hb ▸ rfl) (by omega)
  have h12 : field2 b 12 = g.tolerance := field2_carried (hb ▸ rfl) (by omega)
  have h14 : field3 b 14 = g.alertLimit := field3_carried (hb ▸ rfl) (by omega)
  have h17 : fieldW b 17 = g.startFraction := fieldW_carried (hb ▸ rfl) (by omega)
  have h18 : fieldW b 18 = g.stopFraction := fieldW_carried (hb ▸ rfl) (by omega)
  have h19 : fieldW b 19 = g.startLimit := fieldW_carried (hb ▸ rfl) (by omega)
  have h20 : fieldW b 20 = g.minimumRun := fieldW_carried (hb ▸ rfl) (by omega)
  have h21 : fieldW b 21 = g.coldWarmUp := fieldW_carried (hb ▸ rfl) (by omega)
  have h22 : fieldW b 22 = g.warmWarmUp := fieldW_carried (hb ▸ rfl) (by omega)
  have h23 : fieldW b 23 = g.hotWarmUp := fieldW_carried (hb ▸ rfl) (by omega)
  have h24 : fieldW b 24 = g.hotHold := fieldW_carried (hb ▸ rfl) (by omega)
  have h25 : field2 b 25 = g.warmHold := field2_carried (hb ▸ rfl) (by omega)
  have h27 : fieldW b 27 = g.overloadLimit := fieldW_carried (hb ▸ rfl) (by omega)
  have h28 : fieldW b 28 = g.rotation.toNat := fieldW_carried (hb ▸ rfl) (by cases g.rotation <;> decide)
  have hflag : (fieldW b 28 == 1) = g.rotation ∧ fieldW b 28 ≤ 1 := by
    rw [h28]
    cases g.rotation <;> decide
  obtain ⟨hrotation, hmost⟩ := hflag
  refine ⟨?_, hmost⟩
  simp only [siteOf, h0, h2, h4, h6, h8, h10, h11, h12, h14, h17, h18, h19, h20, h21, h22, h23, h24, h25, h27, hrotation]

end Sys2Proof.Machine
end

section
/-! SUPPORT. The image as words (section 10.1): its lists, its sections, and the image read from them; O20. -/

namespace Sys2Proof.Machine

/-! ### Runs of words -/

theorem padTo_eq {n : Nat} {b : Block} (h : b.length ≤ n) : padTo n b = b ++ List.replicate (n - b.length) 0 := by
  rw [padTo, List.take_append, List.take_of_length_le h, List.take_replicate, Nat.min_eq_left (Nat.sub_le _ _)]

theorem padTo_length (n : Nat) (b : Block) : (padTo n b).length = n := by
  rw [padTo, List.length_take, List.length_append, List.length_replicate]
  omega

theorem chunks_flatMap {α : Type} {f : α → Block} {n : Nat} (hf : ∀ x, (f x).length = n) (l : List α) (c : Block) :
    chunks n l.length (l.flatMap f ++ c) = l.map f := by
  induction l with
  | nil => rfl
  | cons x l ih =>
    rw [List.length_cons, chunks, List.flatMap_cons, List.append_assoc, List.take_left' (hf x), List.drop_left' (hf x), ih]
    rfl

theorem allRead_map {α : Type} {f : α → Option α} {l : List α} (h : ∀ x ∈ l, f x = some x) : allRead (l.map f) = some l := by
  induction l with
  | nil => rfl
  | cons x l ih =>
    rw [List.map_cons, h x List.mem_cons_self, allRead, ih fun y hy => h y (List.mem_cons_of_mem x hy)]

theorem vecRead_toList {α : Type} {n : Nat} (v : Vector α n) {l : List (Option α)} (h : allRead l = some v.toList) :
    vecRead n l = some v := by
  rw [vecRead, h]
  have hlen : v.toList.length = n := Vector.length_toList
  simp only [hlen, dite_true]
  exact congrArg some (Vector.toList_inj.mp rfl)

/-- A list written with its count is read back. -/
theorem listRead_words {α : Type} {f : α → Block} {read : Block → Option α} {n most : Nat} {l : List α} (hf : ∀ x, (f x).length = n)
    (hread : ∀ x ∈ l, read (f x) = some x) (hlen : l.length ≤ most) (hmost : most < 65536) (c : Block) :
    listRead n most read (out1 l.length ++ (l.flatMap f ++ c)) = some l := by
  rw [listRead, fieldW_out1 _ _ (by omega), if_pos hlen]
  show allRead ((chunks n l.length (l.flatMap f ++ c)).map read) = some l
  rw [chunks_flatMap hf, List.map_map]
  exact allRead_map hread

/-- A vector's records are read back. -/
theorem vecRead_words {α : Type} {f : α → Block} {read : Block → Option α} {n m : Nat} {v : Vector α m} (hf : ∀ x, (f x).length = n)
    (hread : ∀ x ∈ v.toList, read (f x) = some x) (c : Block) :
    vecRead m ((chunks n m (v.toList.flatMap f ++ c)).map read) = some v := by
  have hchunks := chunks_flatMap hf v.toList c
  rw [Vector.length_toList] at hchunks
  rw [hchunks, List.map_map]
  exact vecRead_toList v (allRead_map hread)

theorem toList_two {α : Type} (v : Vector α 2) : v.toList = [v[0], v[1]] := by
  refine List.ext_getElem (by simp) fun i hi _ => ?_
  rw [Vector.length_toList] at hi
  match i with
  | 0 | 1 => simp
  | i + 2 => omega

/-! ### The curves -/

/-- A point in two words. -/
def pointWords (p : CurvePoint) : Block := outI p.x ++ out1 p.y

theorem curveWords_eq {c : Curve} (h : c.length ≤ 8) : curveWords c
    = out1 c.length ++ (c.flatMap pointWords ++ List.replicate (17 - (out1 c.length ++ c.flatMap pointWords).length) 0) := by
  have hlen : (out1 c.length ++ c.flatMap pointWords).length ≤ 17 := by
    rw [List.length_append, flatMap_length (n := 2) fun _ => rfl]
    simp only [out1, List.length_singleton]
    omega
  rw [← List.append_assoc]
  exact padTo_eq hlen

theorem curveTableRead_curveWords {c : Curve} (h : curveFits c = true) : curveTableRead (curveWords c) = some c := by
  rw [curveFits, Bool.and_eq_true, decide_eq_true_eq, List.all_eq_true] at h
  obtain ⟨hlen, hpoints⟩ := h
  rw [curveWords_eq hlen, curveTableRead]
  refine listRead_words (f := pointWords) (fun _ => rfl) (fun p hp => ?_) hlen (by decide) _
  have hfits := hpoints p hp
  rw [Bool.and_eq_true, fitsSigned_iff, fitsWords_iff] at hfits
  obtain ⟨⟨hlow, hhigh⟩, hy⟩ := hfits
  have hx : fieldI (pointWords p) 0 = p.x := fieldI_carried rfl (by omega) (by omega)
  have hw : fieldW (pointWords p) 1 = p.y := fieldW_carried rfl hy
  rw [hx, hw]

/-! ### The sections -/

section
variable (m : Image)

theorem accountsWords_length : (accountsWords m).length = 491 := by
  simp only [accountsWords, List.length_append, flatMap_length slotWords_length, Vector.length_toList, padTo_length]
  rfl

theorem curvesWords_length : (m.curves.toList.flatMap curveWords).length = 272 := by
  rw [flatMap_length (f := curveWords) (n := 17) (fun c => padTo_length 17 _), Vector.length_toList]

theorem outSite_length (g : Site) : (outSite g).length = 29 := by
  unfold outSite
  rw [outFlag_eq]
  simp only [out1, out2, out3]
  simp only [List.length_append, List.length_cons, List.length_nil]

theorem compressorWords_length : (compressorWords m).length = 72 := by
  rw [compressorWords, List.length_append, flatMap_length unitWords_length, flatMap_length (n := 1) fun _ => rfl,
    Vector.length_toList, Vector.length_toList]

theorem dryingWords_length : (dryingWords m).length = 56 := by
  rw [dryingWords, List.length_append, flatMap_length trainWords_length, flatMap_length (n := 10) fun _ => rfl,
    Vector.length_toList]

theorem bookWords_length : (bookWords m).length = 9350 := by
  simp only [bookWords, List.length_append, padTo_length]
  rfl

/-- The words after the book section. -/
def tailWords : Block :=
  out3 m.base.forward ++ (out3 m.base.reverse ++ (outFlag m.base.valid ++ (outHour m.lastSettled ++ (out1 m.supMode ++ out1 m.supTimeout))))

/-- The words of an image, section by section. -/
theorem imageWords_sections (n : BitVec 32) : ∃ c : Block, imageWords n m = out2 n.toNat ++ (accountsWords m
    ++ (m.curves.toList.flatMap curveWords ++ (outSite m.site ++ (compressorWords m ++ (dryingWords m ++ (bookWords m
    ++ (tailWords m ++ c))))))) := by
  have hsections : out2 n.toNat ++ sectionWords m = out2 n.toNat ++ (accountsWords m
      ++ (m.curves.toList.flatMap curveWords ++ (outSite m.site ++ (compressorWords m ++ (dryingWords m ++ (bookWords m
      ++ tailWords m)))))) := by
    simp only [sectionWords, tailWords, List.append_assoc]
  have htail : (tailWords m).length = 11 := by
    rw [tailWords, outFlag_eq]
    rfl
  have hlen : (out2 n.toNat ++ sectionWords m).length ≤ 12287 := by
    rw [hsections]
    simp only [List.length_append, accountsWords_length, curvesWords_length, outSite_length, compressorWords_length,
      dryingWords_length, bookWords_length, htail]
    rw [show (out2 n.toNat).length = 2 from rfl]
    decide
  refine ⟨List.replicate (12287 - (out2 n.toNat ++ sectionWords m).length) 0 ++ [crc (blockBytes (imageBody n m))], ?_⟩
  rw [imageWords, imageBody, padTo_eq hlen, hsections]
  simp only [List.append_assoc]


end

/-! ### The sections read -/

section
variable {m : Image} (c : Block)

theorem slots_fit (h : m.records.all Account.fits = true) : ∀ o ∈ m.slots.toList, ∀ a, o = some a → a.fits = true := by
  rintro o ho a rfl
  exact List.all_eq_true.mp h a (List.mem_filterMap.mpr ⟨_, ho, rfl⟩)

theorem slots_read (h : m.records.all Account.fits = true) :
    vecRead 24 ((chunks 15 24 (accountsWords m ++ c)).map slotRead) = some m.slots := by
  simp only [accountsWords, List.append_assoc]
  exact vecRead_words slotWords_length (fun o ho => slotRead_slotWords (slots_fit h o ho)) _

/-- The accounts section after its slots. -/
def figuresWords (m : Image) (c : Block) : Block :=
  outI4 m.sba ++ (outI4 m.opening ++ (outI4 m.booked ++ (outI4 m.charged
    ++ (padTo 113 (out1 m.transfers.length ++ m.transfers.flatMap transferWords) ++ (out2 m.nextTransfer.toNat ++ c)))))

theorem accountsWords_figures : accountsWords m ++ c = m.slots.toList.flatMap slotWords ++ figuresWords m c := by
  simp only [accountsWords, figuresWords, List.append_assoc]

/-- The figures of the accounts section, after its slots. -/
theorem figures_read (hsba : m.sba.natAbs ≤ wideMost) (hopening : m.opening.natAbs ≤ wideMost) (hbooked : m.booked.natAbs ≤ wideMost)
    (hcharged : m.charged.natAbs ≤ wideMost) :
    fieldI4 (accountsWords m ++ c) 360 = m.sba ∧ fieldI4 (accountsWords m ++ c) 364 = m.opening
      ∧ fieldI4 (accountsWords m ++ c) 368 = m.booked ∧ fieldI4 (accountsWords m ++ c) 372 = m.charged
      ∧ BitVec.ofNat 32 (field2 (accountsWords m ++ c) 489) = m.nextTransfer := by
  have hslots : (m.slots.toList.flatMap slotWords).length = 360 := by
    rw [flatMap_length slotWords_length, Vector.length_toList]
  have hlist := padTo_length 113 (out1 m.transfers.length ++ m.transfers.flatMap transferWords)
  have hplace {k : Nat} {w : Block} (h : carries (figuresWords m c) k w) : carries (accountsWords m ++ c) (360 + k) w := by
    rw [accountsWords_figures]
    exact carries_suffix h (by rw [hslots])
  have hnext : carries (figuresWords m c) 129 (out2 m.nextTransfer.toNat) := by
    have hfront : figuresWords m c = (outI4 m.sba ++ (outI4 m.opening ++ (outI4 m.booked ++ (outI4 m.charged
        ++ padTo 113 (out1 m.transfers.length ++ m.transfers.flatMap transferWords))))) ++ (out2 m.nextTransfer.toNat ++ c) := by
      simp only [figuresWords, List.append_assoc]
    rw [hfront]
    refine carries_append ?_
    simp only [List.length_append, hlist]
    rfl
  refine ⟨fieldI4_carried (hplace (k := 0) rfl) hsba, fieldI4_carried (hplace (k := 4) rfl) hopening,
    fieldI4_carried (hplace (k := 8) rfl) hbooked, fieldI4_carried (hplace (k := 12) rfl) hcharged, ?_⟩
  rw [field2_carried (hplace hnext) m.nextTransfer.isLt, BitVec.ofNat_toNat, BitVec.setWidth_eq]

theorem transfers_read (hlen : m.transfers.length ≤ 16) (h : m.transfers.all Transfer.inRange = true) :
    listRead 7 16 transferRead ((accountsWords m ++ c).drop 376) = some m.transfers := by
  have hslots : (m.slots.toList.flatMap slotWords).length = 360 := by
    rw [flatMap_length slotWords_length, Vector.length_toList]
  have hfull : (out1 m.transfers.length ++ m.transfers.flatMap transferWords).length ≤ 113 := by
    rw [List.length_append, flatMap_length transferWords_length, out1, List.length_singleton]
    omega
  have hdrop : (accountsWords m ++ c).drop 376 = out1 m.transfers.length ++ (m.transfers.flatMap transferWords
      ++ (List.replicate (113 - (out1 m.transfers.length ++ m.transfers.flatMap transferWords).length) 0
      ++ (out2 m.nextTransfer.toNat ++ c))) := by
    rw [accountsWords_figures, show 376 = (m.slots.toList.flatMap slotWords).length + 16 by rw [hslots], List.drop_length_add_append,
      figuresWords, padTo_eq hfull, List.append_assoc, List.append_assoc]
    rfl
  rw [hdrop]
  exact listRead_words transferWords_length (fun t ht => transferRead_transferWords (List.all_eq_true.mp h t ht)) hlen (by decide) _

theorem curves_read (h : m.curves.toList.all curveFits = true) :
    vecRead 16 ((chunks 17 16 (m.curves.toList.flatMap curveWords ++ c)).map curveTableRead) = some m.curves :=
  vecRead_words (fun _ => padTo_length 17 _) (fun x hx => curveTableRead_curveWords (List.all_eq_true.mp h x hx)) c

theorem units_read (h : m.units.toList.all UnitImage.fits = true) :
    vecRead 6 ((chunks 11 6 (compressorWords m ++ c)).map unitRead) = some m.units := by
  rw [compressorWords, List.append_assoc]
  exact vecRead_words unitWords_length (fun u hu => unitRead_unitWords (List.all_eq_true.mp h u hu)) _

theorem roster_read :
    vecRead 6 ((List.range 6).map (fun i => fieldFin 6 ((compressorWords m ++ c).drop 66) i)) = some m.roster := by
  have hunits : (m.units.toList.flatMap unitWords).length = 66 := by
    rw [flatMap_length unitWords_length, Vector.length_toList]
  refine vecRead_toList m.roster ?_
  rw [compressorWords, List.append_assoc, List.drop_left' hunits, toList_six]
  generalize hb : [m.roster[0], m.roster[1], m.roster[2], m.roster[3], m.roster[4], m.roster[5]].flatMap (fun i => out1 i.val) ++ c = b
  have h0 : fieldFin 6 b 0 = some m.roster[0] := fieldFin_carried (hb ▸ rfl) (by decide)
  have h1 : fieldFin 6 b 1 = some m.roster[1] := fieldFin_carried (hb ▸ rfl) (by decide)
  have h2 : fieldFin 6 b 2 = some m.roster[2] := fieldFin_carried (hb ▸ rfl) (by decide)
  have h3 : fieldFin 6 b 3 = some m.roster[3] := fieldFin_carried (hb ▸ rfl) (by decide)
  have h4 : fieldFin 6 b 4 = some m.roster[4] := fieldFin_carried (hb ▸ rfl) (by decide)
  have h5 : fieldFin 6 b 5 = some m.roster[5] := fieldFin_carried (hb ▸ rfl) (by decide)
  show allRead [fieldFin 6 b 0, fieldFin 6 b 1, fieldFin 6 b 2, fieldFin 6 b 3, fieldFin 6 b 4, fieldFin 6 b 5] = _
  rw [h0, h1, h2, h3, h4, h5]
  rfl

theorem trains_read (h : m.trains.toList.all TrainImage.fits = true) : trainsRead (dryingWords m ++ c) = some m.trains := by
  rw [toList_two, List.all_cons, List.all_cons, List.all_nil, Bool.and_true, Bool.and_eq_true] at h
  obtain ⟨hfirst, hsecond⟩ := h
  have hwords : dryingWords m ++ c = trainWords m.trains[0] ++ (trainWords m.trains[1] ++ (bedWords (m.trains[0]).lo
      ++ (bedWords (m.trains[0]).hi ++ (bedWords (m.trains[1]).lo ++ (bedWords (m.trains[1]).hi ++ c))))) := by
    simp only [dryingWords, toList_two, List.flatMap_cons, List.flatMap_nil, List.append_nil, List.append_assoc]
  have hbeds : (dryingWords m ++ c).drop 36 = bedWords (m.trains[0]).lo
      ++ (bedWords (m.trains[0]).hi ++ (bedWords (m.trains[1]).lo ++ (bedWords (m.trains[1]).hi ++ c))) := by
    rw [hwords, show 36 = 18 + 18 from rfl, ← List.drop_drop, List.drop_left' (trainWords_length _),
      List.drop_left' (trainWords_length _)]
  have hbed (i : Nat) : ((dryingWords m ++ c).drop (36 + 5 * i)).take 5
      = ((bedWords (m.trains[0]).lo ++ (bedWords (m.trains[0]).hi ++ (bedWords (m.trains[1]).lo
        ++ (bedWords (m.trains[1]).hi ++ c)))).drop (5 * i)).take 5 := by
    rw [← hbeds, List.drop_drop]
  refine vecRead_toList m.trains ?_
  simp only [hbed]
  rw [hwords, List.take_left' (trainWords_length _), List.drop_left' (trainWords_length _), List.take_left' (trainWords_length _)]
  show allRead [trainRead _ (bedWords (m.trains[0]).lo) (bedWords (m.trains[0]).hi),
    trainRead _ (bedWords (m.trains[1]).lo) (bedWords (m.trains[1]).hi)] = _
  rw [trainRead_trainWords hfirst, trainRead_trainWords hsecond, toList_two]
  rfl

/-- A counted list of the book section, filled up with zero words, is read back whatever follows. -/
theorem paddedList_read {α : Type} {f : α → Block} {read : Block → Option α} {n most size : Nat} {l : List α}
    (hf : ∀ x, (f x).length = n) (hread : ∀ x ∈ l, read (f x) = some x) (hlen : l.length ≤ most) (hmost : most < 65536)
    (hsize : 1 + n * l.length ≤ size) : listRead n most read (padTo size (out1 l.length ++ l.flatMap f) ++ c) = some l := by
  have hfull : (out1 l.length ++ l.flatMap f).length ≤ size := by
    rw [List.length_append, flatMap_length hf]
    exact hsize
  rw [padTo_eq hfull, List.append_assoc, List.append_assoc]
  exact listRead_words hf hread hlen hmost _

theorem book_read (hentries : m.entries.length ≤ 256) (hefit : m.entries.all Entry.fits = true)
    (hthrough : m.confirmedThrough ≤ lastHour) (hsched : m.schedule.length ≤ 480) (hsfit : m.schedule.all SchedRec.fits = true) :
    listRead 14 256 entryRead (bookWords m ++ c) = some m.entries
      ∧ BitVec.ofNat 32 (field2 (bookWords m ++ c) 3585) = m.nextArrival
      ∧ hourRead (bookWords m ++ c) 3587 = some m.confirmedThrough
      ∧ listRead 12 480 recordRead ((bookWords m ++ c).drop 3589) = some m.schedule := by
  have hpad := padTo_length 3585 (out1 m.entries.length ++ m.entries.flatMap outEntry)
  have hwords : bookWords m ++ c = padTo 3585 (out1 m.entries.length ++ m.entries.flatMap outEntry) ++ (out2 m.nextArrival.toNat
      ++ (outHour m.confirmedThrough ++ (padTo 5761 (out1 m.schedule.length ++ m.schedule.flatMap recordWords) ++ c))) := by
    simp only [bookWords, List.append_assoc]
  have hnext : carries (bookWords m ++ c) 3585 (out2 m.nextArrival.toNat) := hwords ▸ carries_append hpad
  have hhour : carries (bookWords m ++ c) 3587 (outHour m.confirmedThrough) := by
    rw [hwords, ← List.append_assoc]
    refine carries_append ?_
    rw [List.length_append, hpad]
    rfl
  refine ⟨?_, ?_, hourRead_carried hhour hthrough, ?_⟩
  · rw [hwords]
    exact paddedList_read _ outEntry_length (fun e he => entryRead_outEntry (List.all_eq_true.mp hefit e he)) hentries (by decide)
      (by omega)
  · rw [field2_carried hnext m.nextArrival.isLt, BitVec.ofNat_toNat, BitVec.setWidth_eq]
  · have hdrop : (bookWords m ++ c).drop 3589 = padTo 5761 (out1 m.schedule.length ++ m.schedule.flatMap recordWords) ++ c := by
      rw [hwords, show 3589 = 3585 + 4 from rfl, ← List.drop_drop, List.drop_left' hpad]
      rfl
    rw [hdrop]
    exact paddedList_read _ recordWords_length (fun r hr => recordRead_recordWords (List.all_eq_true.mp hsfit r hr)) hsched (by decide)
      (by omega)

theorem tail_read (hforward : m.base.forward < 65536 ^ 3) (hreverse : m.base.reverse < 65536 ^ 3) (hsettled : m.lastSettled ≤ lastHour)
    (hmode : m.supMode < 65536) (htimeout : m.supTimeout < 65536) :
    field3 (tailWords m ++ c) 0 = m.base.forward ∧ field3 (tailWords m ++ c) 3 = m.base.reverse
      ∧ flagRead (tailWords m ++ c) 6 = some m.base.valid ∧ hourRead (tailWords m ++ c) 7 = some m.lastSettled
      ∧ fieldW (tailWords m ++ c) 9 = m.supMode ∧ fieldW (tailWords m ++ c) 10 = m.supTimeout := by
  have hwords : tailWords m ++ c = out3 m.base.forward ++ (out3 m.base.reverse ++ (out1 m.base.valid.toNat
      ++ (outHour m.lastSettled ++ (out1 m.supMode ++ (out1 m.supTimeout ++ c))))) := by
    simp only [tailWords, outFlag_eq, List.append_assoc]
  rw [hwords]
  exact ⟨field3_carried rfl hforward, field3_carried rfl hreverse, flagRead_carried (outFlag_eq _ ▸ rfl), hourRead_carried rfl hsettled,
    fieldW_carried rfl hmode, fieldW_carried rfl htimeout⟩

end

/-- Settles O20: each section is read from its own words. -/
theorem imageWordsReadBack : Obligations.ImageWordsReadBack := by
  intro n m hfits
  obtain ⟨c, hc⟩ := imageWords_sections m n
  have hbody := imageBody_length n m
  refine ⟨?_, ?_, ?_, ?_⟩
  · rw [imageWords, List.length_append, hbody, List.length_singleton]
  · rw [numberRead, hc, (field2_out2 _ _ n.isLt).1, BitVec.ofNat_toNat, BitVec.setWidth_eq]
  · rw [crcHolds, imageWords]
    rw [← hbody, List.take_left, List.getD_eq_getElem?_getD, List.getElem?_append_right (Nat.le_refl _), Nat.sub_self,
      List.getElem?_cons_zero, Option.getD_some, beq_self_eq_true]
  · simp only [Image.fits, Bool.and_eq_true, decide_eq_true_eq, fitsWords_iff] at hfits
    obtain ⟨⟨⟨⟨⟨⟨⟨⟨⟨⟨⟨⟨⟨⟨⟨⟨⟨⟨⟨⟨hrecords, hsba⟩, hopening⟩, hbooked⟩, hcharged⟩, htlen⟩, htransfers⟩, hcurves⟩, hsite⟩, hunits⟩, htrains⟩,
      helen⟩, hentries⟩, hthrough⟩, hslen⟩, hsched⟩, hforward⟩, hreverse⟩, hsettled⟩, hmode⟩, htimeout⟩ := hfits
    have h2 : (out2 n.toNat).length = 2 := rfl
    rw [imageRead, hc]
    rw [List.drop_left' h2, List.drop_left' (accountsWords_length m), List.drop_left' (curvesWords_length m),
      List.drop_left' (outSite_length m.site), List.drop_left' (compressorWords_length m), List.drop_left' (dryingWords_length m),
      List.drop_left' (bookWords_length m)]
    obtain ⟨ha1, ha2, ha3, ha4, ha5⟩ := figures_read _ hsba hopening hbooked hcharged
    obtain ⟨hb1, hb2, hb3, hb4⟩ := book_read _ helen hentries hthrough hslen hsched
    obtain ⟨ht1, ht2, ht3, ht4, ht5, ht6⟩ := tail_read _ hforward hreverse hsettled hmode htimeout
    obtain ⟨hg1, hg2⟩ := siteOf_outSite hsite _
    rw [slots_read _ hrecords, transfers_read _ htlen htransfers, curves_read _ hcurves, units_read _ hunits, roster_read,
      trains_read _ htrains]
    dsimp only
    rw [hb1, hb3, hb4, ht3, ht4]
    dsimp only
    rw [if_pos hg2, ha1, ha2, ha3, ha4, ha5, hg1, hb2, ht1, ht2, ht5, ht6]

end Sys2Proof.Machine
end

section
/-! SUPPORT. What the units, the trains and the flow keep, every step keeps: the requests that set them and an image taken join the
induction of the machine (chapters 5 to 7). -/

namespace Sys2Proof.Machine

/-- The parts that no figure of the units, the trains and the flow is formed from. -/
def besideParts : List Part := .acct :: .curves :: awayParts

/-- A predicate `P` of the units, the trains and the flow that their moves, their settings, a restart and an image taken keep. A unit's
move can break it to `Bd` until the injection capacities are re-formed, a train's to `Br` until the withdrawal capacity is. -/
structure PlantKept (Bd Br P : State → Prop) : Prop where
  duty : DutyKept Bd P
  dry : DryKept Br P
  away : ∀ s t, s.changesOnly besideParts t → P s → P t
  recomputeTarget : ∀ s, P s → P (recomputeTarget s)
  flowSecond : ∀ s, P s → P (flowSecond s)
  expireTurnaround : ∀ s, s.flow.dir = .turnaround → P s → P (expireTurnaround s)
  fuelTaken : ∀ s n, P s → P (s.setDuty { s.duty with fuel := n })
  gasTaken : ∀ s n, P s → P (s.setDry { s.dry with gas := n })
  roster : ∀ s r, P s → P (s.setDuty { s.duty with roster := r })
  applySite : ∀ g s, P s → P (applySite g s)
  unitSet : ∀ i v s, v.state = (s.duty.units[i]).state → P s → P (handInjection (putUnit i v s))
  trainSet : ∀ t x s, (s.dry.trains[t]).state = .out → x.state = .out → x.degraded = (s.dry.trains[t]).degraded →
    x.share = (s.dry.trains[t]).share → x.lo = (s.dry.trains[t]).lo → x.hi = (s.dry.trains[t]).hi → P s → P (putTrain t x s)
  restart : ∀ c s, P (restartWith c s)
  imageTaken : ∀ ages held m s u, P s → u.flow = s.flow → P (inAnyOrder [takeUnits ages m, takeTrains held m] u)

/-- The account requests and the curve requests set nothing of the plant. -/
theorem beside_requestParts : ∀ code ∈ accountCodes ++ [0x14, 0x16], requestParts code ⊆ besideParts ∧ code ≠ 0x03 := by decide

theorem gathered_beside (f : State → State) (s : State) : (f s.gatheringEvents).changesOnly besideParts (gathered f s) := by
  unfold gathered
  intro p hp
  cases p <;> first | rfl | exact absurd (by decide) hp

theorem gathering_beside (s : State) : s.changesOnly besideParts s.gatheringEvents := by
  intro p hp
  cases p <;> first | rfl | exact absurd (by decide) hp

namespace PlantKept

variable {Bd Br P : State → Prop} (hP : PlantKept Bd Br P) {s : State}
include hP

theorem does {ps : List Part} {t : State} (h : Does ps s t) (hps : ps ⊆ besideParts) (hs : P s) : P t :=
  hP.away s t (h.mono hps).parts hs

theorem gathering (h : P s) : P s.gatheringEvents := hP.away _ _ (gathering_beside s) h

theorem gatheredOf {f : State → State} (h : P (f s.gatheringEvents)) : P (gathered f s) := hP.away _ _ (gathered_beside f s) h

theorem reqUnitSet (b : Block) (h : P s) : P (reqUnitSet b s).after := by
  dsimp only [Machine.reqUnitSet]
  split
  · exact h
  · split
    · exact h
    · next i _ => exact checked_after _ h fun _ => hP.gatheredOf (hP.unitSet i _ s.gatheringEvents rfl (hP.gathering h))

theorem reqTrainSet (b : Block) (h : P s) : P (reqTrainSet b s).after := by
  dsimp only [Machine.reqTrainSet]
  split
  · exact h
  · split
    · exact h
    · next t _ =>
      refine checked_after _ h fun hchecks => ?_
      have hout : (s.dry.trains[t]).state = .out := beq_iff_eq.mp (hchecks (_, .state) List.mem_cons_self)
      exact hP.gatheredOf ((hP.dry.train t).bedTest (hP.trainSet t _ s.gatheringEvents hout hout rfl rfl rfl rfl (hP.gathering h)))

theorem dayBoundary (h : P s) : P (dayBoundary s) := by
  dsimp only [Machine.dayBoundary]
  split
  · exact hP.does (acts_raise (ps := [.evq]) _ _ _ _ (by decide)).does (by decide) (hP.roster s _ h)
  · exact h

theorem aside : AsideKept Bd Br P where
  duty := hP.duty
  dry := hP.dry
  away s t hst h := hP.away s t (changesOnly_mono hst (by decide)) h
  recomputeTarget := hP.recomputeTarget
  flowSecond := hP.flowSecond
  expireTurnaround := hP.expireTurnaround
  setting code req hc hreq b s h := by
    by_cases hbeside : code ∈ accountCodes ++ [0x14, 0x16]
    · obtain ⟨hsub, hdrain⟩ := beside_requestParts code hbeside
      exact hP.does (does_request hreq hdrain b s) hsub h
    · have hset : code ∈ [(0x38 : Byte), 0x40, 0x43, 0x48] := by
        simp only [settingCodes, List.mem_append, List.mem_cons, List.not_mem_nil, or_false] at hc hbeside ⊢
        tauto
      simp only [List.mem_cons, List.not_mem_nil, or_false] at hset
      rcases hset with rfl | rfl | rfl | rfl <;> cases hreq
      · exact checked_after _ h fun _ => hP.applySite _ s h
      · exact hP.reqUnitSet b h
      · exact checked_after _ h fun _ => hP.roster s _ h
      · exact hP.reqTrainSet b h
  fuelTaken := hP.fuelTaken
  gasTaken := hP.gasTaken
  day _ h := hP.dayBoundary h
  settled s h := hP.does (does_completeSettlement s) (by decide) h

/-! ### An image taken (R177, R180, R181) -/

theorem setSup (x : Supervision) (h : P s) : P (s.setSup x) :=
  hP.does (acts_setSup (ps := [.sup]) s x (by decide)).does (by decide) h

theorem setStore (x : Store) (h : P s) : P (s.setStore x) :=
  hP.does (acts_setStore (ps := [.store]) s x (by decide)).does (by decide) h

theorem takeUnitsAndTrains (ages : CUnit → List Nat) (held : Train → Held) (m : Image) {u : State} (h : P s) (hu : u.flow = s.flow) :
    P (gathered (inAnyOrder [takeUnits ages m, takeTrains held m]) u) :=
  hP.gatheredOf (hP.imageTaken ages held m s u.gatheringEvents h hu)

omit hP in
theorem takeImage_flow (m : Image) : (takeImage m s).flow = s.flow := by
  simp only [takeImage, State.setSup_flow, State.setClock_flow, State.setMeter_flow, State.setSettle_flow, State.setSched_flow,
    State.setBook_flow, State.setSite_flow, State.setCurves_flow, State.setAcct_flow]

theorem restoreBlocks (m : Image) (h : P s) : P (restoreBlocks m s) := by
  have htaken := hP.takeUnitsAndTrains (fun _ => []) (fun _ => Held.restart) m h (takeImage_flow m)
  exact hP.setSup _ htaken

theorem adopt (n : BitVec 32) (m : Image) (h : P s) : P (adopt n m s) := by
  dsimp only [Machine.adopt, beginNumbered]
  refine hP.setStore _ (hP.setStore _ (hP.setSup _ (hP.takeUnitsAndTrains _ _ m h ?_)))
  exact ((does_noteCount (takeImage m s) (filteredCount s)).flow_eq (by decide)).trans (takeImage_flow m)

theorem failMarked (h : P s) : P (failMarked s) := by
  obtain ⟨n, m, _, he⟩ | ⟨_, he⟩ := failMarked_cases s
  · rw [he]
    exact hP.does ((acts_setStore (ps := [.store, .world]) _ _ (by decide)).trans (acts_setWorld _ _ (by decide))).does (by decide) h
  · rw [he]
    exact h

theorem restoreRead (readOk : Bool) (h : P s) : P (restoreRead readOk s) := by
  dsimp only [Machine.restoreRead]
  split
  · split
    · exact hP.does (acts_setStore (ps := [.store]) _ _ (by decide)).does (by decide) (hP.restoreBlocks _ h)
    · split
      · exact hP.does ((acts_setStore (ps := [.store, .evq]) _ _ (by decide)).trans (acts_raise _ _ _ _ (by decide))).does
          (by decide) (hP.failMarked (hP.restoreBlocks _ h))
      · exact hP.does (acts_setStore (ps := [.store]) _ _ (by decide)).does (by decide) h
  · exact h

/-! ### Every step -/

theorem execKept : ExecKept P where
  setLink s x h := hP.does (acts_setLink (ps := [.link]) s x (by decide)).does (by decide) h
  setSup s x h := hP.does (acts_setSup (ps := [.sup]) s x (by decide)).does (by decide) h
  request code req hreq b s h := by
    by_cases hload : code = 0x52
    · subst hload
      cases hreq
      exact reqStoreLoadEnd_after b h fun n m _ _ =>
        hP.adopt n m (hP.does (acts_setStore (ps := [.store]) s _ (by decide)).does (by decide) h)
    · by_cases hinit : code = 0x53
      · subst hinit
        cases hreq
        exact checked_after _ h fun _ => hP.adopt 1 Image.default h
      · exact hP.aside.machine.request hreq hload hinit b h
  restart c s _ := hP.restart c s
  blocks c hc s t h ht := by
    by_cases hrestore : ∃ r, c = .restoreReadDone r
    · obtain ⟨r, rfl⟩ := hrestore
      cases ht
      exact hP.restoreRead r h
    · exact hP.aside.machine.block hc (fun r hr => hrestore ⟨r, hr⟩) h ht

/-- Every step keeps it. -/
theorem step {t : State} (h : P s) (ht : step s = .next t) : P t :=
  hP.execKept.step (fun _ _ hu => hP.away _ _ (by intro p hp; cases p <;> first | rfl | exact absurd (by decide) hp) hu) h ht

end PlantKept

end Sys2Proof.Machine
end

section
/-! SUPPORT. The pairs of beds, the units STARTING and the flow shares (O16). -/

namespace Sys2Proof.Machine

/-! ### The site settings applied (R109, R110) -/

/-- What the blocks do with new site settings. -/
def siteActs (g : Site) (s : State) : List (State → State) :=
  [handInjection, handWithdrawal] ++ (if s.site.lead < g.lead then [confirmation] else []) ++ [evaluateAlert]

theorem applySite_eq (g : Site) (s : State) :
    applySite g s = gathered (fun t => inAnyOrder (siteActs g s) (recomputeTarget t)) (renoteUnits (s.setSite g)) := rfl

theorem siteActs_cases {g : Site} {s : State} {f : State → State} (hf : f ∈ siteActs g s) :
    f = handInjection ∨ f = handWithdrawal ∨ ∀ v, Does besideParts v (f v) := by
  simp only [siteActs, List.mem_append, List.mem_cons, List.not_mem_nil, or_false] at hf
  rcases hf with ((rfl | rfl) | hf) | rfl
  · exact .inl rfl
  · exact .inr (.inl rfl)
  · split at hf
    · obtain rfl := List.mem_singleton.mp hf
      exact .inr (.inr fun v => (does_confirmation v).mono (by decide))
    · exact absurd hf List.not_mem_nil
  · exact .inr (.inr fun v => (does_evaluateAlert v).mono (by decide))

section
variable {P : State → Prop} (haway : ∀ s t, s.changesOnly besideParts t → P s → P t)
include haway

theorem siteActs_keep (hinj : ∀ u, P u → P (handInjection u)) (hwdr : ∀ u, P u → P (handWithdrawal u)) {g : Site} {s : State}
    {f : State → State} (hf : f ∈ siteActs g s) {v : State} (hv : P v) : P (f v) := by
  rcases siteActs_cases hf with rfl | rfl | hdoes
  · exact hinj v hv
  · exact hwdr v hv
  · exact haway v _ (hdoes v).parts hv

theorem applySite_of {g : Site} {s : State}
    (h : P (inAnyOrder (siteActs g s) (recomputeTarget (renoteUnits (s.setSite g)).gatheringEvents))) : P (applySite g s) := by
  rw [applySite_eq]
  exact haway _ _ (gathered_beside _ _) h

/-- What the new settings leave, and the target, the hand-overs and what stands beside keep. -/
theorem applySite_keeps {g : Site} {s : State} (h : P (renoteUnits (s.setSite g))) (hrecompute : ∀ u, P u → P (recomputeTarget u))
    (hinj : ∀ u, P u → P (handInjection u)) (hwdr : ∀ u, P u → P (handWithdrawal u)) : P (applySite g s) := by
  refine applySite_of haway (inAnyOrder_preserves P _ (fun f hf v hv => siteActs_keep haway hinj hwdr hf hv)
    (fun v n hv => haway v _ (acts_setWorld (ps := besideParts) v n (by decide)).does.parts hv) _ (hrecompute _ ?_))
  exact haway _ _ (gathering_beside _) h
end

/-! ### Beds (R138) -/

/-- Both pairs of beds are sound. -/
def bedsHold (s : State) : Prop := ∀ t : Fin 2, (s.dry.trains[t]).bedsSound = true

theorem bedsSound_iff (s : State) : bedsSound s = true ↔ bedsHold s := by
  rw [bedsSound, Vector.all_toList, Vector.all_eq_true, bedsHold, Fin.forall_iff]
  rfl

theorem bedsHold_putTrain {s : State} {t : Fin 2} {x : Train} (hx : (s.dry.trains[t]).bedsSound = true → x.bedsSound = true)
    (h : bedsHold s) : bedsHold (putTrain t x s) := by
  intro i
  show ((setVec s.dry.trains t x)[i]).bedsSound = true
  rw [Fin.getElem_fin, setVec_getElem]
  split
  · exact hx (h t)
  · exact h i

theorem bedsFree : FlowFree bedsHold where
  raise _ _ _ _ _ h := h
  putTrain s t x hx h := bedsHold_putTrain (TrainMove.of_core hx.core).beds h
  setFlow _ _ h := h
  recut s h := by
    rw [bedsHold, recut_dry]
    exact h
  setWorld _ _ h := h
  capacity _ _ h := h

theorem bedsTrain {hand : Hand} (hhand : ∀ s, bedsHold s → bedsHold (hand s)) (t : Fin 2) : TrainKept hand t bedsHold bedsHold :=
  .whole bedsFree.toDewFree (fun _ _ hx h => bedsHold_putTrain hx.beds h) hhand

theorem loadedBed_state (x : Train) (b : Bed) : (loadedBed x b).state = b.state := by
  unfold loadedBed
  split <;> rfl

theorem loadedBed_ready {x : Train} {b : Bed} (h : b.state = .ready) : loadedBed x b = b := by
  rw [loadedBed, if_neg]
  rw [h]
  exact fun hads => absurd hads.1 nofun

theorem bedsHold_loadBeds {s : State} (h : bedsHold s) : bedsHold (loadBeds s) := by
  intro t
  obtain ⟨hads, hregen, hlo, hhi⟩ := (Train.bedsSound_iff _).mp (h t)
  rw [loadBeds_train, Train.bedsSound_iff]
  simp only [loadedBed_state, Bed.regenerates]
  refine ⟨hads, hregen, fun hr => ?_, fun hr => ?_⟩
  · rw [loadedBed_ready hr]
    exact hlo hr
  · rw [loadedBed_ready hr]
    exact hhi hr

theorem bedsDry : DryKept bedsHold bedsHold :=
  .whole bedsFree.toDewFree (bedsTrain fun _ h => bedsFree.handWithdrawal h) (fun _ h => h) fun _ h => bedsHold_loadBeds h

/-- A pair put in order is sound (R139). -/
theorem Train.ordered_bedsSound (x : Train) : x.ordered.bedsSound = true := by
  obtain ⟨_, _, _, _, _, _, _, _, _, _, _, _, _, _, _, ⟨lo, _, _⟩, ⟨hi, _, _⟩⟩ := x
  cases lo <;> cases hi <;> rfl

theorem bedsPlant : PlantKept bedsHold bedsHold bedsHold where
  duty :=
    { unit := fun _ => .whole (fun _ _ _ _ _ h => h) (fun _ _ _ h => h) fun _ h => bedsFree.handInjection h
      accrue := fun _ h => h
      age := fun _ h => h
      note := fun _ _ _ h => h }
  dry := bedsDry
  away s t hst h := by
    rw [bedsHold, hst .dry (by decide)]
    exact h
  recomputeTarget _ h := bedsFree.flow.recomputeTarget h
  flowSecond _ h := bedsFree.flow.flowSecond h
  expireTurnaround _ _ h := bedsFree.flow.expireTurnaround h
  fuelTaken _ _ h := h
  gasTaken _ _ h := h
  roster _ _ h := h
  applySite g s h := applySite_keeps (fun u v huv hu => by rw [bedsHold, huv .dry (by decide)]; exact hu) (g := g) (s := s) h
    (fun _ hu => bedsFree.flow.recomputeTarget hu) (fun _ hu => bedsFree.handInjection hu) fun _ hu => bedsFree.handWithdrawal hu
  unitSet _ _ _ _ h := bedsFree.handInjection h
  trainSet t x s _ _ _ _ hlo hhi h := by
    refine bedsHold_putTrain (fun hx => ?_) h
    rw [Train.bedsSound_iff] at hx ⊢
    rw [hlo, hhi]
    exact hx
  restart _ _ := (bedsSound_iff _).mp rfl
  imageTaken ages held m s u _ _ := by
    refine inAnyOrder_establishes bedsHold (f := takeTrains held m) (List.mem_cons_of_mem _ List.mem_cons_self) (fun v => ?_)
      (fun g hg v hv => ?_) u
    · rw [takeTrains_eq]
      refine bedsDry.tested (bedsTrain fun _ h => h) fun t => ?_
      show ((trainsFrom held m v)[t]).bedsSound = true
      rw [trainsFrom_getElem]
      exact Train.ordered_bedsSound _
    · rcases List.mem_pair.mp hg with rfl | rfl
      · rw [takeUnits_eq]
        exact bedsFree.handInjection hv
      · rw [takeTrains_eq]
        refine bedsDry.tested (bedsTrain fun _ h => h) fun t => ?_
        show ((trainsFrom held m v)[t]).bedsSound = true
        rw [trainsFrom_getElem]
        exact Train.ordered_bedsSound _

end Sys2Proof.Machine
end

section
/-! SUPPORT. At most one unit STARTING, and the flow shares as R144 forms them: O16. -/

namespace Sys2Proof.Machine

/-! ### Units STARTING (R118) -/

theorem length_filter_le_one_iff {α : Type} (p : α → Bool) (l : List α) :
    (l.filter p).length ≤ 1 ↔ l.Pairwise fun a b => ¬(p a = true ∧ p b = true) := by
  induction l with
  | nil => simp
  | cons a l ih =>
    rw [List.pairwise_cons, ← ih, List.filter_cons]
    split
    · next ha =>
      have hnone : (l.filter p).length + 1 ≤ 1 ↔ ∀ b ∈ l, ¬p b = true := by
        rw [← List.filter_eq_nil_iff, ← List.length_eq_zero_iff]
        omega
      simp only [List.length_cons, ha, true_and, hnone]
      refine ⟨fun h => ⟨h, ?_⟩, fun h => h.1⟩
      have := hnone.mpr h
      omega
    · next ha => exact ⟨fun h => ⟨fun _ _ hab => ha hab.1, h⟩, fun h => h.2⟩

theorem oneStarting_iff (s : State) : oneStarting s = true ↔ s.duty.oneStarting := by
  rw [oneStarting, decide_eq_true_eq, length_filter_le_one_iff, List.pairwise_iff_getElem, Duty.oneStarting]
  simp only [Vector.getElem_toList, Vector.length_toList, beq_iff_eq, not_and]
  constructor
  · intro h i j hi hj
    rcases Nat.lt_trichotomy i.val j.val with hlt | heq | hgt
    · exact absurd hj (h i j i.isLt j.isLt hlt hi)
    · exact Fin.ext heq
    · exact absurd hi (h j i j.isLt i.isLt hgt hj)
  · intro h i j hi hj hij hsi hsj
    exact absurd (congrArg Fin.val (h ⟨i, hi⟩ ⟨j, hj⟩ hsi hsj)) (Nat.ne_of_lt hij)

/-- At most one unit is STARTING. -/
def oneStarts (s : State) : Prop := s.duty.oneStarting

theorem oneStarts_putUnit {s : State} {i : Fin 6} {v : CUnit}
    (hv : v.state = .starting → (s.duty.units[i]).state = .starting ∨ ∀ j : Fin 6, (s.duty.units[j]).state ≠ .starting)
    (h : oneStarts s) : oneStarts (putUnit i v s) := by
  have hput (j : Fin 6) (hj : ((putUnit i v s).duty.units[j]).state = .starting) :
      (j = i ∧ v.state = .starting) ∨ (s.duty.units[j]).state = .starting := by
    rw [putUnit_units, Fin.getElem_fin, setVec_getElem] at hj
    split at hj
    · next hij => exact .inl ⟨Fin.ext hij.symm, hj⟩
    · exact .inr hj
  intro j k hj hk
  rcases hput j hj with ⟨rfl, hs⟩ | hj' <;> rcases hput k hk with ⟨rfl, hs'⟩ | hk'
  · rfl
  · exact (hv hs).elim (fun hi => h j k hi hk') fun hnone => absurd hk' (hnone k)
  · exact (hv hs').elim (fun hi => h j k hj' hi) fun hnone => absurd hj' (hnone j)
  · exact h j k hj' hk'

theorem oneStarts_of_duty {s t : State} (h : t.duty = s.duty) (hs : oneStarts s) : oneStarts t := by
  rw [oneStarts, h]
  exact hs

theorem startsFree : FlowFree oneStarts where
  raise _ _ _ _ _ h := h
  putTrain _ _ _ _ h := h
  setFlow _ _ h := h
  recut s h := oneStarts_of_duty ((does_recut (ps := [.sched, .evq]) (by decide) (by decide) s).duty_eq (by decide)) h
  setWorld _ _ h := h
  capacity _ _ h := h

theorem oneStarts_states {s t : State} (h : ∀ i : Fin 6, (t.duty.units[i]).state = (s.duty.units[i]).state) (hs : oneStarts s) :
    oneStarts t := fun i j hi hj => hs i j ((h i).symm.trans hi) ((h j).symm.trans hj)

/-- No unit of an image is STARTING (R113). -/
theorem UnitImage.unit_state (u : UnitImage) (ages : List Nat) : (u.unit ages).state ≠ .starting := by
  show u.mapped ≠ .starting
  unfold UnitImage.mapped
  split
  · nofun
  · nofun
  · split <;> nofun

theorem takeUnits_oneStarts (ages : CUnit → List Nat) (m : Image) (s : State) : oneStarts (takeUnits ages m s) := by
  rw [takeUnits_eq]
  refine startsFree.handInjection fun i j hi _ => absurd hi ?_
  show ((unitsFrom ages m s)[i]).state ≠ .starting
  rw [unitsFrom_getElem]
  exact UnitImage.unit_state _ _

theorem startsPlant : PlantKept oneStarts oneStarts oneStarts where
  duty :=
    { unit := fun _ => .whole (fun _ _ _ _ _ h => h) (fun _ _ hv h => oneStarts_putUnit hv.starting h)
        fun _ h => startsFree.handInjection h
      accrue := fun _ h => h
      age := fun s h => oneStarts_states (fun i => by rw [countAndAge_unit]; rfl) h
      note := fun _ _ _ h => h }
  dry := .whole startsFree.toDewFree (fun t => .whole startsFree.toDewFree (fun _ _ _ h => h) fun _ h => startsFree.handWithdrawal h)
    (fun _ h => h) fun _ h => h
  away s t hst h := oneStarts_of_duty (hst .duty (by decide)) h
  recomputeTarget _ h := startsFree.flow.recomputeTarget h
  flowSecond _ h := startsFree.flow.flowSecond h
  expireTurnaround _ _ h := startsFree.flow.expireTurnaround h
  fuelTaken _ _ h := h
  gasTaken _ _ h := h
  roster _ _ h := h
  applySite g s h := applySite_keeps (fun u v huv hu => oneStarts_of_duty (huv .duty (by decide)) hu)
    (oneStarts_states (s := s) (fun i => by simp only [renoteUnits, State.setDuty_duty, Fin.getElem_fin, mapVec_getElem]; rfl) h)
    (fun _ hu => startsFree.flow.recomputeTarget hu) (fun _ hu => startsFree.handInjection hu) fun _ hu => startsFree.handWithdrawal hu
  unitSet i v s hv h := startsFree.handInjection (oneStarts_putUnit (fun hs => .inl (hv ▸ hs)) h)
  trainSet _ _ _ _ _ _ _ _ _ h := h
  restart _ _ := (oneStarting_iff _).mp rfl
  imageTaken ages held m s u _ _ := by
    refine inAnyOrder_establishes oneStarts (f := takeUnits ages m) List.mem_cons_self (takeUnits_oneStarts ages m)
      (fun g hg v hv => ?_) u
    rcases List.mem_pair.mp hg with rfl | rfl
    · exact takeUnits_oneStarts ages m v
    · exact oneStarts_of_duty ((does_takeTrains v held m).duty_eq (by decide)) hv

/-! ### Flow shares (R144) -/

/-- What the flow shares read of a train: its state, its weight, and its recycle rate while OFF_SPEC. -/
structure SharesAlike (x y : Train) : Prop where
  state : y.state = x.state
  weight : y.weight = x.weight
  recycle : x.state = .offSpec → y.cfg.recycleRate = x.cfg.recycleRate

/-- The shares of two trains, as the supervisor forms them. -/
def sharesOf (f : Flow) (a b : Train) : Nat × Nat :=
  let n := f.setpoint.natAbs
  let w := a.weight + b.weight
  let qa := onlineShare n w a
  let qb := onlineShare n w b
  let left := if w = 0 then 0 else n - (qa + qb)
  let recycle (t : Train) (q : Nat) : Nat := if t.state == .offSpec && f.dir == .withdrawing then t.cfg.recycleRate else q
  if a.state == .online then (recycle a (qa + left), recycle b qb)
  else if b.state == .online then (recycle a qa, recycle b (qb + left))
  else (recycle a qa, recycle b qb)

theorem flowShares_eq (s : State) : flowShares s = sharesOf s.flow s.dry.trains[(0 : Fin 2)] s.dry.trains[(1 : Fin 2)] := rfl

/-- Of a weight of 0 nothing is dealt, and nothing is left. -/
theorem dealt_add_left (n c w x : Nat) : (n * c / w + if w = 0 then 0 else x) = if w = 0 then 0 else n * c / w + x := by
  split
  · next hw => rw [hw, Nat.div_zero]
  · rfl

/-- They are the shares of R144. -/
theorem sharesOf_eq (f : Flow) (a b : Train) : sharesOf f a b = (shareOf f true a b, shareOf f false b a) := by
  unfold sharesOf shareOf
  cases ha : a.state <;> cases hb : b.state <;> simp [onlineShare, Train.weight, ha, hb, dealt_add_left]
  by_cases hw : a.contribution = 0 ∧ b.contribution = 0
  · simp [hw]
  · have hw' : ¬(b.contribution = 0 ∧ a.contribution = 0) := fun h => hw h.symm
    rw [if_neg hw, if_neg hw, if_neg hw', Nat.add_comm b.contribution]
    exact ⟨rfl, rfl⟩

/-- The flow shares stand as formed. -/
def sharesStand (s : State) : Prop :=
  (s.dry.trains[(0 : Fin 2)]).share = (flowShares s).1 ∧ (s.dry.trains[(1 : Fin 2)]).share = (flowShares s).2

theorem sharesStand_iff (s : State) : sharesCurrent s = true ↔ sharesStand s := by
  rw [sharesStand, flowShares_eq, sharesOf_eq]
  simp only [sharesCurrent, Bool.and_eq_true, decide_eq_true_eq]
  rfl

theorem sharesOf_congr {f g : Flow} {a b c d : Train} (hset : g.setpoint = f.setpoint) (hdir : g.dir = f.dir) (ha : SharesAlike a c)
    (hb : SharesAlike b d) : sharesOf g c d = sharesOf f a b := by
  have honline {x y : Train} (h : SharesAlike x y) (n w : Nat) : onlineShare n w y = onlineShare n w x := by
    rw [onlineShare, onlineShare, h.state, h.weight]
  have hrecycle {x y : Train} (h : SharesAlike x y) (q : Nat) :
      (if x.state == .offSpec && f.dir == .withdrawing then y.cfg.recycleRate else q) =
        if x.state == .offSpec && f.dir == .withdrawing then x.cfg.recycleRate else q := by
    by_cases hx : x.state = .offSpec
    · rw [h.recycle hx]
    · rw [beq_false_of_ne hx, Bool.false_and, if_neg Bool.false_ne_true, if_neg Bool.false_ne_true]
  simp only [sharesOf, hset, hdir, ha.state, hb.state, ha.weight, hb.weight, honline ha, honline hb, hrecycle ha, hrecycle hb]

theorem SharesAlike.refl (x : Train) : SharesAlike x x := ⟨rfl, rfl, fun _ => rfl⟩

theorem SharesAlike.of_cfg {x y : Train} (hstate : y.state = x.state) (hdeg : y.degraded = x.degraded) (hcfg : y.cfg = x.cfg) :
    SharesAlike x y := ⟨hstate, by rw [Train.weight, Train.weight, Train.contribution, Train.contribution, hstate, hdeg, hcfg],
  fun _ => by rw [hcfg]⟩

/-- Shares stand where nothing that they are formed from changes. -/
theorem sharesStand_congr {s t : State} (hset : t.flow.setpoint = s.flow.setpoint) (hdir : t.flow.dir = s.flow.dir)
    (halike : ∀ i : Fin 2, SharesAlike s.dry.trains[i] t.dry.trains[i])
    (hshare : ∀ i : Fin 2, (t.dry.trains[i]).share = (s.dry.trains[i]).share) (h : sharesStand s) : sharesStand t := by
  rw [sharesStand, flowShares_eq, sharesOf_congr hset hdir (halike 0) (halike 1), hshare 0, hshare 1]
  exact h

theorem sharesStand_putTrain {s : State} {t : Fin 2} {x : Train} (hx : SharesAlike s.dry.trains[t] x)
    (hshare : x.share = (s.dry.trains[t]).share) (h : sharesStand s) : sharesStand (putTrain t x s) := by
  have hput (i : Fin 2) : (putTrain t x s).dry.trains[i] = if t = i then x else s.dry.trains[i] := by
    show (setVec s.dry.trains t x)[i] = _
    rw [Fin.getElem_fin, setVec_getElem]
    exact if_congr Fin.ext_iff.symm rfl rfl
  refine sharesStand_congr (s := s) rfl rfl (fun i => ?_) (fun i => ?_) h <;> rw [hput]
  · by_cases hi : t = i
    · subst hi
      rw [if_pos rfl]
      exact hx
    · rw [if_neg hi]
      exact .refl _
  · by_cases hi : t = i
    · subst hi
      rw [if_pos rfl]
      exact hshare
    · rw [if_neg hi]

/-- The shares formed again stand. -/
theorem sharesStand_reshare (s : State) : sharesStand (reshare s) := by
  have ha : (reshare s).dry.trains[(0 : Fin 2)] = { s.dry.trains[(0 : Fin 2)] with share := (flowShares s).1 } := by
    simp [reshare, setVec_getElem]
  have hb : (reshare s).dry.trains[(1 : Fin 2)] = { s.dry.trains[(1 : Fin 2)] with share := (flowShares s).2 } := by
    simp [reshare, setVec_getElem]
  have hsame : flowShares (reshare s) = flowShares s := by
    rw [flowShares_eq, flowShares_eq, ha, hb]
    exact sharesOf_congr rfl rfl (.of_cfg rfl rfl rfl) (.of_cfg rfl rfl rfl)
  rw [sharesStand, hsame, ha, hb]
  exact ⟨rfl, rfl⟩

theorem sharesStand_recut {s : State} (h : sharesStand s) : sharesStand (recut s) := by
  have hflow := (does_recut (ps := [.sched, .evq]) (by decide) (by decide) s).flow_eq (by decide)
  exact sharesStand_congr (congrArg Flow.setpoint hflow) (congrArg Flow.dir hflow) (fun i => by rw [recut_dry]; exact .refl _)
    (fun i => by rw [recut_dry]) h

theorem sharesStand_followDirection (hand : Hand) (s : State) : sharesStand (followDirection hand s) := by
  dsimp only [followDirection]
  split
  · exact sharesStand_reshare _
  · exact sharesStand_reshare _

theorem sharesStand_handWithdrawal (s : State) : sharesStand (handWithdrawal s) := sharesStand_reshare _

theorem sharesFlow : FlowKept (fun _ => True) sharesStand where
  weaken _ _ := trivial
  raise _ _ _ _ _ _ _ := trivial
  setFlow _ _ _ _ _ := trivial
  quiet _ _ _ _ hset hdir h := sharesStand_congr hset hdir (fun _ => .refl _) (fun _ => rfl) h
  follow s _ := sharesStand_followDirection _ s
  reshare s _ := sharesStand_reshare s

theorem sharesDew {hand : Hand} (hhand : ∀ s, sharesStand s → sharesStand (hand s)) (t : Fin 2) :
    DewKept hand t sharesStand where
  raise _ _ _ _ _ _ h := h
  quiet s x hmove hstate hshare h := by
    have hcfg : x.core.cfg = (s.dry.trains[t]).core.cfg := congrArg (fun y : Train => y.cfg) hmove.core
    exact sharesStand_putTrain (.of_cfg hstate hmove.degraded hcfg) hshare h
  leave _ _ _ _ _ := hhand _ (sharesStand_reshare _)
  join _ _ _ _ _ _ := sharesStand_reshare _
  reshare s _ := sharesStand_reshare s

theorem sharesTrain (t : Fin 2) : TrainKept handWithdrawal t (fun _ => True) sharesStand where
  toDewKept := sharesDew (fun s _ => sharesStand_handWithdrawal s) t
  weaken _ _ := trivial
  raiseB _ _ _ _ _ _ := trivial
  moveB _ _ _ _ := trivial
  move _ _ hx hstate hdeg hshare h := sharesStand_putTrain (.of_cfg hstate hdeg hx.cfg) hshare h
  handed s _ := sharesStand_handWithdrawal s

theorem sharesStand_loadBeds {s : State} (h : sharesStand s) : sharesStand (loadBeds s) :=
  sharesStand_congr (s := s) rfl rfl (fun i => by rw [loadBeds_train]; exact .of_cfg rfl rfl rfl) (fun i => by rw [loadBeds_train]) h

theorem sharesDry : DryKept (fun _ => True) sharesStand where
  train := sharesTrain
  accrue _ h := h
  load _ h := sharesStand_loadBeds h
  reportTrains b s h := by
    dsimp only [reportTrains]
    split
    · exact (sharesTrain 1).reportTrain _ _ _ ((sharesTrain 0).reportTrain _ _ _ h)
    · exact sharesStand_followDirection _ _
  enterService _ _ _ := sharesStand_handWithdrawal _
  rest _ _ := sharesStand_reshare _

theorem sharesStand_handInjection {s : State} (h : sharesStand s) : sharesStand (handInjection s) :=
  handInjection_preserves sharesStand s (fun _ hu => sharesStand_recut hu) (fun c _ hu => sharesFlow.receiveInj c hu)
    (fun _ _ hu => hu) h

theorem sharesPlant : PlantKept sharesStand (fun _ => True) sharesStand where
  duty :=
    { unit := fun _ => .whole (fun _ _ _ _ _ h => h) (fun _ _ _ h => h) fun _ h => sharesStand_handInjection h
      accrue := fun _ h => h
      age := fun _ h => h
      note := fun _ _ _ h => h }
  dry := sharesDry
  away s t hst h := by
    have hflow : t.flow = s.flow := hst .flow (by decide)
    have hdry : t.dry = s.dry := hst .dry (by decide)
    exact sharesStand_congr (congrArg Flow.setpoint hflow) (congrArg Flow.dir hflow) (fun i => by rw [hdry]; exact .refl _)
      (fun i => by rw [hdry]) h
  recomputeTarget _ h := sharesFlow.recomputeTarget h
  flowSecond _ h := sharesFlow.flowSecond h
  expireTurnaround _ _ _ := sharesFlow.expireTurnaround trivial
  fuelTaken _ _ h := h
  gasTaken _ _ h := h
  roster _ _ h := h
  applySite g s h := applySite_keeps
    (fun s t hst h => by
      have hflow : t.flow = s.flow := hst .flow (by decide)
      have hdry : t.dry = s.dry := hst .dry (by decide)
      exact sharesStand_congr (congrArg Flow.setpoint hflow) (congrArg Flow.dir hflow) (fun i => by rw [hdry]; exact .refl _)
        (fun i => by rw [hdry]) h)
    (g := g) (s := s) h (fun _ hu => sharesFlow.recomputeTarget hu) (fun _ hu => sharesStand_handInjection hu)
    fun _ _ => sharesStand_handWithdrawal _
  unitSet i v s _ h := sharesStand_handInjection (s := putUnit i v s) h
  trainSet t x s hs hx _ hshare _ _ h := by
    refine sharesStand_putTrain ⟨hx.trans hs.symm, ?_, fun ho => absurd (hs.symm.trans ho) nofun⟩ hshare h
    rw [Train.weight, Train.weight, hs, hx]
    rfl
  restart _ _ := (sharesStand_iff _).mp rfl
  imageTaken ages held m s u _ _ := by
    refine inAnyOrder_establishes sharesStand (f := takeTrains held m) (List.mem_cons_of_mem _ List.mem_cons_self)
      (fun v => sharesStand_followDirection _ _) (fun g hg v hv => ?_) u
    rcases List.mem_pair.mp hg with rfl | rfl
    · rw [takeUnits_eq]
      exact sharesStand_handInjection hv
    · exact sharesStand_followDirection _ _

/-- Settles O16: a move of a train keeps its pair of beds, a start is made only where no unit is STARTING, and what changes a weight,
the setpoint or the direction forms the shares again. -/
theorem everyStepKeepsBedsStartsAndShares : Obligations.EveryStepKeepsBedsStartsAndShares := by
  intro s t ht
  rw [bedsSound_iff, bedsSound_iff, oneStarting_iff, oneStarting_iff, sharesStand_iff, sharesStand_iff]
  exact ⟨fun h => bedsPlant.step h ht, fun h => startsPlant.step h ht, fun h => sharesPlant.step h ht⟩

end Sys2Proof.Machine
end

section
/-! SUPPORT. The injection capacities are the ones their owner forms, and the flow controller holds the one it is handed (R95, R115). -/

namespace Sys2Proof.Machine

/-! ### A response of one act among others that do not matter -/

/-- Of actions in an order the world takes, where the one that matters makes `P` of `K` and the others keep both. -/
theorem inAnyOrder_one {K P : State → Prop} {l : List (State → State)} {f : State → State} (hworld : ∀ s n, K s → K (s.setWorld n))
    (hK : ∀ g ∈ l, ∀ u, K u → K (g u)) (hf : ∀ u, K u → P (f u)) (hP : ∀ g ∈ l, ∀ u, P u → P (g u)) {s : State} (h : K s) :
    P (inAnyOrder (l ++ [f]) s) := by
  obtain ⟨p, hperm, n, he⟩ := inAnyOrder_cases (l ++ [f]) s
  obtain ⟨as, bs, rfl⟩ := List.append_of_mem (hperm.mem_iff.mpr (List.mem_append_right l List.mem_cons_self))
  have hrest : (as ++ bs).Perm l :=
    (List.perm_cons f).mp (List.perm_middle.symm.trans (hperm.trans (List.perm_append_singleton f l)))
  rw [he, inOrder, List.foldl_append, List.foldl_cons]
  refine inOrder_preserves P bs (fun g hg => hP g (hrest.mem_iff.mp (List.mem_append_right as hg))) _ (hf _ ?_)
  exact inOrder_preserves K as (fun g hg => hK g (hrest.mem_iff.mp (List.mem_append_left bs hg))) _ (hworld s n h)

/-- The signal to recut is a recut, where there is one. -/
theorem mem_signal {p : Prop} [Decidable p] {g : State → State} (h : g ∈ if p then [recut] else []) : g = recut := by
  split at h
  · exact List.mem_singleton.mp h
  · exact absurd h List.not_mem_nil

/-- The two injection capacities handed on: what the figures formed leave, the flow controller's taking of C_inj_ready makes `P`. -/
theorem handInjection_reaches {K P : State → Prop} {s : State} (hworldK : ∀ u n, K u → K (u.setWorld n))
    (hworldP : ∀ u n, P u → P (u.setWorld n)) (hrecutK : ∀ u, K u → K (recut u)) (hrecutP : ∀ u, P u → P (recut u))
    (hreceive : ∀ u, K u → P (receiveInj (readyInjection s) u))
    (hsame : readyInjection s = s.flow.cInj → P (s.setDuty { s.duty with declared := declaredInjection s, ready := readyInjection s }))
    (h : K (s.setDuty { s.duty with declared := declaredInjection s, ready := readyInjection s })) : P (handInjection s) := by
  dsimp only [handInjection]
  by_cases heq : readyInjection s = s.flow.cInj
  · rw [if_pos heq, List.append_nil]
    refine inAnyOrder_preserves P _ (fun f hf => ?_) hworldP _ (hsame heq)
    rw [mem_signal hf]
    exact hrecutP
  · rw [if_neg heq]
    refine inAnyOrder_one hworldK (fun g hg => ?_) hreceive (fun g hg => ?_) h <;> rw [mem_signal hg]
    · exact hrecutK
    · exact hrecutP

/-- The withdrawal capacity handed on, before the shares are formed again. -/
theorem handWithdrawal_reaches {K P : State → Prop} {s : State} (hworldK : ∀ u n, K u → K (u.setWorld n))
    (hworldP : ∀ u n, P u → P (u.setWorld n)) (hrecutK : ∀ u, K u → K (recut u)) (hrecutP : ∀ u, P u → P (recut u))
    (hreceive : ∀ u, K u → P (receiveWdr (withdrawalCapacity s) u))
    (hsame : withdrawalCapacity s = s.flow.cWdr → P (s.setDry { s.dry with capacity := withdrawalCapacity s }))
    (hshare : ∀ u, P u → P (reshare u))
    (h : K (s.setDry { s.dry with capacity := withdrawalCapacity s })) : P (handWithdrawal s) := by
  dsimp only [handWithdrawal]
  refine hshare _ ?_
  by_cases heq : withdrawalCapacity s = s.flow.cWdr
  · rw [if_pos heq, List.append_nil]
    refine inAnyOrder_preserves P _ (fun f hf => ?_) hworldP _ (hsame heq)
    rw [mem_signal hf]
    exact hrecutP
  · rw [if_neg heq]
    refine inAnyOrder_one hworldK (fun g hg => ?_) hreceive (fun g hg => ?_) h <;> rw [mem_signal hg]
    · exact hrecutK
    · exact hrecutP

/-! ### The injection side (R115) -/

/-- The duty scheduler's figures are the ones the units and the right give. -/
def injFigures (s : State) : Prop := s.duty.declared = declaredInjection s ∧ s.duty.ready = readyInjection s

/-- They are, and the flow controller holds C_inj_ready. -/
def injCurrent (s : State) : Prop := injFigures s ∧ s.flow.cInj = s.duty.ready

theorem injFigures_congr {s t : State} (hduty : t.duty = s.duty) (hsite : t.site = s.site) (h : injFigures s) : injFigures t := by
  simp only [injFigures, declaredInjection, readyInjection, capacitySum, hduty, hsite]
  exact h

theorem injCurrent_congr {s t : State} (hduty : t.duty = s.duty) (hsite : t.site = s.site) (hcap : t.flow.cInj = s.flow.cInj)
    (h : injCurrent s) : injCurrent t := ⟨injFigures_congr hduty hsite h.1, by rw [hcap, hduty]; exact h.2⟩

/-- Writes of the recut. -/
theorem recut_plant (s : State) : (recut s).duty = s.duty ∧ (recut s).site = s.site ∧ (recut s).flow = s.flow := by
  have h := does_recut (ps := [.sched, .evq]) (by decide) (by decide) s
  exact ⟨h.duty_eq (by decide), h.site_eq (by decide), h.flow_eq (by decide)⟩

theorem injCurrent_recut {s : State} (h : injCurrent s) : injCurrent (recut s) := by
  obtain ⟨hduty, hsite, hflow⟩ := recut_plant s
  exact injCurrent_congr hduty hsite (congrArg Flow.cInj hflow) h

theorem injFree : DewFree injCurrent where
  raise _ _ _ _ _ h := h
  putTrain _ _ _ _ h := h

theorem injCurrent_handAtZero {s : State} (h : injCurrent s) : injCurrent (handWithdrawalAtZero s) := by
  dsimp only [handWithdrawalAtZero]
  split
  · have hcut := injCurrent_recut (s := s.setDry { s.dry with capacity := withdrawalCapacity s }) h
    exact hcut
  · exact h

theorem injFlow : FlowKept injCurrent injCurrent where
  weaken _ h := h
  raise _ _ _ _ _ _ h := h
  setFlow s _ hinj _ h := injCurrent_congr (s := s) rfl rfl hinj h
  quiet s _ hinj _ _ _ h := injCurrent_congr (s := s) rfl rfl hinj h
  follow _ h := followDirection_kept (injFree.kept fun _ hu => injCurrent_handAtZero hu) injFree.rest h
  reshare _ h := injFree.reshare h

theorem injCurrent_handWithdrawal {s : State} (h : injCurrent s) : injCurrent (handWithdrawal s) :=
  handWithdrawal_preserves injCurrent s (fun _ hu => injCurrent_recut hu) (fun c _ hu => injFlow.receiveWdr c hu)
    (fun _ hu => injFree.reshare hu) (fun _ _ hu => hu) h

/-- The hand-over of the injection capacities makes them current. -/
theorem injCurrent_handInjection (s : State) : injCurrent (handInjection s) := by
  have hworld (u : State) (n : Nat) (hu : injFigures u ∧ u.duty.ready = readyInjection s) :
      injFigures (u.setWorld n) ∧ (u.setWorld n).duty.ready = readyInjection s := hu
  refine handInjection_reaches (K := fun u => injFigures u ∧ u.duty.ready = readyInjection s) hworld (fun _ _ hu => hu) (fun u hu => ?_)
    (fun _ hu => injCurrent_recut hu) (fun u hu => ?_) (fun heq => ⟨⟨rfl, rfl⟩, heq.symm⟩) ⟨⟨rfl, rfl⟩, rfl⟩
  · obtain ⟨hduty, hsite, _⟩ := recut_plant u
    exact ⟨injFigures_congr hduty hsite hu.1, by rw [hduty]; exact hu.2⟩
  · exact injFlow.receiveInj _ ⟨hu.1, hu.2.symm⟩

theorem capacitySum_congr {s t : State} (p : UnitState → Bool)
    (h : ∀ i : Fin 6, (t.duty.units[i]).state = (s.duty.units[i]).state
      ∧ (t.duty.units[i]).cfg.capacity = (s.duty.units[i]).cfg.capacity) : capacitySum p t = capacitySum p s := by
  rw [capacitySum, capacitySum]
  congr 1
  refine List.ext_getElem (by simp) fun n hn hm => ?_
  simp only [List.length_map, Vector.length_toList] at hn
  obtain ⟨hstate, hcap⟩ := h ⟨n, hn⟩
  simp only [Fin.getElem_fin] at hstate hcap
  simp only [List.getElem_map, Vector.getElem_toList, hstate, hcap]

/-- The figures stand where no unit's state and capacity changes. -/
theorem injCurrent_units {s t : State} (hduty : t.duty.declared = s.duty.declared ∧ t.duty.ready = s.duty.ready)
    (hsite : t.site = s.site) (hcap : t.flow.cInj = s.flow.cInj)
    (h : ∀ i : Fin 6, (t.duty.units[i]).state = (s.duty.units[i]).state
      ∧ (t.duty.units[i]).cfg.capacity = (s.duty.units[i]).cfg.capacity) (hs : injCurrent s) : injCurrent t := by
  obtain ⟨⟨hdeclared, hready⟩, hheld⟩ := hs
  refine ⟨⟨?_, ?_⟩, by rw [hcap, hduty.2]; exact hheld⟩
  · rw [hduty.1, hdeclared, declaredInjection, declaredInjection, hsite, capacitySum_congr _ h]
  · rw [hduty.2, hready, readyInjection, readyInjection, hsite, capacitySum_congr _ h]

theorem injUnit (i : Fin 6) : UnitKept i (fun _ => True) injCurrent where
  weaken _ _ := trivial
  raise _ _ _ _ _ h := h
  raiseB _ _ _ _ _ _ := trivial
  moveB _ _ _ _ := trivial
  move s v hv hstate h := by
    refine injCurrent_units (s := s) ⟨rfl, rfl⟩ rfl rfl (fun j => ?_) h
    rw [putUnit_units, Fin.getElem_fin, setVec_getElem]
    split
    · next hij =>
      obtain rfl := Fin.ext hij
      exact ⟨hstate, congrArg UnitCfg.capacity hv.cfg⟩
    · exact ⟨rfl, rfl⟩
  hand s _ := injCurrent_handInjection s

theorem injTrain {hand : Hand} (hhand : ∀ s, injCurrent s → injCurrent (hand s)) (t : Fin 2) :
    TrainKept hand t injCurrent injCurrent := .whole injFree (fun _ _ _ h => h) hhand

theorem injDry : DryKept injCurrent injCurrent :=
  .whole injFree (injTrain fun _ h => injCurrent_handWithdrawal h) (fun _ h => h) fun _ h => h

theorem injPlant : PlantKept (fun _ => True) injCurrent injCurrent where
  duty :=
    { unit := injUnit
      accrue := fun _ h => h
      age := fun s h => injCurrent_units (s := s) ⟨rfl, rfl⟩ rfl rfl (fun i => by rw [countAndAge_unit]; exact ⟨rfl, rfl⟩) h
      note := fun _ _ _ h => h }
  dry := injDry
  away s t hst h := by
    have hflow : t.flow = s.flow := hst .flow (by decide)
    exact injCurrent_congr (hst .duty (by decide)) (hst .site (by decide)) (congrArg Flow.cInj hflow) h
  recomputeTarget _ h := injFlow.recomputeTarget h
  flowSecond _ h := injFlow.flowSecond h
  expireTurnaround _ _ h := injFlow.expireTurnaround h
  fuelTaken _ _ h := h
  gasTaken _ _ h := h
  roster _ _ h := h
  applySite g s _ := by
    have haway (s t : State) (hst : s.changesOnly besideParts t) (h : injCurrent s) : injCurrent t := by
      have hflow : t.flow = s.flow := hst .flow (by decide)
      exact injCurrent_congr (hst .duty (by decide)) (hst .site (by decide)) (congrArg Flow.cInj hflow) h
    refine applySite_of haway (inAnyOrder_establishes injCurrent (f := handInjection) ?_ injCurrent_handInjection (fun f hf v hv => ?_) _)
    · exact List.mem_append_left _ (List.mem_append_left _ List.mem_cons_self)
    · exact siteActs_keep haway (fun u _ => injCurrent_handInjection u) (fun u hu => injCurrent_handWithdrawal hu) hf hv
  unitSet _ _ _ _ _ := injCurrent_handInjection _
  trainSet _ _ _ _ _ _ _ _ _ h := h
  restart _ _ := ⟨⟨rfl, rfl⟩, rfl⟩
  imageTaken ages held m s u _ _ := by
    refine inAnyOrder_establishes injCurrent (f := takeUnits ages m) List.mem_cons_self (fun v => injCurrent_handInjection _)
      (fun g hg v hv => ?_) u
    rcases List.mem_pair.mp hg with rfl | rfl
    · exact injCurrent_handInjection _
    · rw [takeTrains_eq]
      exact injDry.tested (injTrain fun _ h => h) hv

end Sys2Proof.Machine
end

section
/-! SUPPORT. The withdrawal capacity is the one its owner forms, and the flow controller holds it (R95, R142): O13. -/

namespace Sys2Proof.Machine

/-- What a train adds to the withdrawal capacity (R142, R143). -/
def Train.figure (x : Train) : Nat := if x.inService then x.contribution else 0

theorem withdrawalCapacity_eq (s : State) : withdrawalCapacity s =
    min ((s.dry.trains[(0 : Fin 2)]).figure + (s.dry.trains[(1 : Fin 2)]).figure) s.site.wdrRight := by
  rw [withdrawalCapacity, toList_two]
  rfl

/-- The withdrawal capacity is the one the trains and the right give, and the flow controller holds it. -/
def wdrCurrent (s : State) : Prop := s.dry.capacity = withdrawalCapacity s ∧ s.flow.cWdr = s.dry.capacity

theorem Train.figure_of_core {x y : Train} (hcore : x.core = y.core) (hstate : x.inService = y.inService)
    (hdeg : x.degraded = y.degraded) : x.figure = y.figure := by
  have hcfg : x.core.cfg = y.core.cfg := congrArg (fun z : Train => z.cfg) hcore
  have hcfg' : x.cfg = y.cfg := hcfg
  rw [Train.figure, Train.figure, Train.contribution, Train.contribution, hstate, hdeg, hcfg']

theorem wdrCurrent_congr {s t : State} (hcap : t.dry.capacity = s.dry.capacity) (hheld : t.flow.cWdr = s.flow.cWdr)
    (hsite : t.site = s.site) (hfig : ∀ i : Fin 2, (t.dry.trains[i]).figure = (s.dry.trains[i]).figure) (h : wdrCurrent s) :
    wdrCurrent t := by
  rw [wdrCurrent, withdrawalCapacity_eq, hcap, hheld, hsite, hfig 0, hfig 1, ← withdrawalCapacity_eq]
  exact h

theorem putTrain_trains (t i : Fin 2) (x : Train) (s : State) :
    (putTrain t x s).dry.trains[i] = if t = i then x else s.dry.trains[i] := by
  show (setVec s.dry.trains t x)[i] = _
  rw [Fin.getElem_fin, setVec_getElem]
  exact if_congr Fin.ext_iff.symm rfl rfl

theorem putTrain_figure {t : Fin 2} {x : Train} {s : State} (hx : x.figure = (s.dry.trains[t]).figure) (i : Fin 2) :
    ((putTrain t x s).dry.trains[i]).figure = (s.dry.trains[i]).figure := by
  rw [putTrain_trains]
  split
  · next hi => rw [hx, hi]
  · rfl

theorem wdrCurrent_putTrain {t : Fin 2} {x : Train} {s : State} (hx : x.figure = (s.dry.trains[t]).figure) (h : wdrCurrent s) :
    wdrCurrent (putTrain t x s) := wdrCurrent_congr (s := s) rfl rfl rfl (putTrain_figure hx) h

theorem reshare_eq (s : State) : reshare s = putTrain 1 { s.dry.trains[(1 : Fin 2)] with share := (flowShares s).2 }
    (putTrain 0 { s.dry.trains[(0 : Fin 2)] with share := (flowShares s).1 } s) := rfl

theorem reshare_trains (s : State) (i : Fin 2) : (reshare s).dry.trains[i] =
    { s.dry.trains[i] with share := if i = 0 then (flowShares s).1 else (flowShares s).2 } := by
  rw [reshare_eq, putTrain_trains, putTrain_trains]
  fin_cases i <;> rfl

theorem wdrCurrent_reshare {s : State} (h : wdrCurrent s) : wdrCurrent (reshare s) :=
  wdrCurrent_congr (s := s) rfl rfl rfl (fun i => by rw [reshare_trains]; rfl) h

theorem wdrCurrent_plant {s t : State} (hdry : t.dry = s.dry) (hsite : t.site = s.site) (hflow : t.flow = s.flow) (h : wdrCurrent s) :
    wdrCurrent t :=
  wdrCurrent_congr (congrArg Drying.capacity hdry) (congrArg Flow.cWdr hflow) hsite (fun i => by rw [hdry]) h

theorem wdrCurrent_recut {s : State} (h : wdrCurrent s) : wdrCurrent (recut s) := by
  obtain ⟨_, hsite, hflow⟩ := recut_plant s
  exact wdrCurrent_plant (recut_dry s) hsite hflow h

/-- The hand-over at S 0 makes it current. -/
theorem wdrCurrent_handAtZero (s : State) : wdrCurrent (handWithdrawalAtZero s) := by
  dsimp only [handWithdrawalAtZero]
  split
  · have hdry := recut_dry (s.setDry { s.dry with capacity := withdrawalCapacity s })
    have hsite := (recut_plant (s.setDry { s.dry with capacity := withdrawalCapacity s })).2.1
    refine ⟨?_, ?_⟩
    · show (recut _).dry.capacity = min _ (recut _).site.wdrRight
      rw [State.setFlow_dry, hdry, hsite]
      rfl
    · show withdrawalCapacity s = (recut _).dry.capacity
      rw [hdry]
      rfl
  · exact ⟨rfl, rfl⟩

theorem wdrDew {hand : Hand} (hhand : ∀ s, wdrCurrent (hand s)) (t : Fin 2) : DewKept hand t wdrCurrent where
  raise _ _ _ _ _ _ h := h
  quiet s x hmove hstate _ h :=
    wdrCurrent_putTrain (Train.figure_of_core hmove.core (by rw [Train.inService, hstate]; rfl) hmove.degraded) h
  leave _ _ _ _ _ := hhand _
  join s x hmove hstandby honline h := by
    refine wdrCurrent_reshare (wdrCurrent_putTrain (Train.figure_of_core hmove.core ?_ hmove.degraded) h)
    rw [Train.inService, Train.inService, hstandby, honline]
    rfl
  reshare _ h := wdrCurrent_reshare h

theorem sendStandby_figure (t i : Fin 2) (s : State) :
    ((sendStandby t s).dry.trains[i]).figure = (s.dry.trains[i]).figure := by
  dsimp only [sendStandby]
  split
  · next honline =>
    refine putTrain_figure ?_ i
    rw [Train.figure, Train.figure, Train.inService, Train.inService, beq_iff_eq.mp honline]
    rfl
  · rfl

theorem wdrCurrent_sendStandby (t : Fin 2) {s : State} (h : wdrCurrent s) : wdrCurrent (sendStandby t s) := by
  have hdoes : Does [.dry] s (sendStandby t s) := by
    dsimp only [sendStandby]
    split
    · exact does_putTrain t _ (by decide) s
    · exact .refl _ s
  refine wdrCurrent_congr ?_ (congrArg Flow.cWdr (hdoes.flow_eq (by decide))) (hdoes.site_eq (by decide))
    (fun i => sendStandby_figure t i s) h
  dsimp only [sendStandby]
  split <;> rfl

theorem wdrRest (s : State) (h : wdrCurrent s) : wdrCurrent (reshare (sendStandby 1 (sendStandby 0 s))) :=
  wdrCurrent_reshare (wdrCurrent_sendStandby 1 (wdrCurrent_sendStandby 0 h))

theorem wdrFlow : FlowKept wdrCurrent wdrCurrent where
  weaken _ h := h
  raise _ _ _ _ _ _ h := h
  setFlow s _ _ hwdr h := wdrCurrent_congr (s := s) rfl hwdr rfl (fun _ => rfl) h
  quiet s _ _ hwdr _ _ h := wdrCurrent_congr (s := s) rfl hwdr rfl (fun _ => rfl) h
  follow _ h := followDirection_kept (wdrDew wdrCurrent_handAtZero) wdrRest h
  reshare _ h := wdrCurrent_reshare h

/-- The hand-over of the withdrawal capacity makes it current. -/
theorem wdrCurrent_handWithdrawal (s : State) : wdrCurrent (handWithdrawal s) := by
  have hworld (u : State) (n : Nat) (hu : u.dry.capacity = withdrawalCapacity u ∧ u.dry.capacity = withdrawalCapacity s) :
      (u.setWorld n).dry.capacity = withdrawalCapacity (u.setWorld n) ∧ (u.setWorld n).dry.capacity = withdrawalCapacity s := hu
  refine handWithdrawal_reaches (K := fun u => u.dry.capacity = withdrawalCapacity u ∧ u.dry.capacity = withdrawalCapacity s) hworld
    (fun _ _ hu => hu) (fun u hu => ?_) (fun _ hu => wdrCurrent_recut hu) (fun u hu => ?_) (fun heq => ⟨rfl, heq.symm⟩)
    (fun _ hu => wdrCurrent_reshare hu) ⟨rfl, rfl⟩
  · obtain ⟨_, hsite, _⟩ := recut_plant u
    rw [withdrawalCapacity, recut_dry, hsite]
    exact hu
  · exact wdrFlow.receiveWdr _ ⟨hu.1, hu.2.symm⟩

theorem wdrTrain (t : Fin 2) : TrainKept handWithdrawal t (fun _ => True) wdrCurrent where
  toDewKept := wdrDew wdrCurrent_handWithdrawal t
  weaken _ _ := trivial
  raiseB _ _ _ _ _ _ := trivial
  moveB _ _ _ _ := trivial
  move s x hx hstate hdeg _ h := by
    refine wdrCurrent_putTrain ?_ h
    rw [Train.figure, Train.figure, Train.inService, Train.inService, Train.contribution, Train.contribution, hstate, hdeg, hx.cfg]
  handed s _ := wdrCurrent_handWithdrawal s

theorem wdrCurrent_handInjection {s : State} (h : wdrCurrent s) : wdrCurrent (handInjection s) :=
  handInjection_preserves wdrCurrent s (fun _ hu => wdrCurrent_recut hu)
    (fun c u hu => wdrFlow.receiveInj c (wdrCurrent_congr (s := u) rfl rfl rfl (fun _ => rfl) hu)) (fun _ _ hu => hu) h

/-! ### A report, where what is done for train A changes the direction (R145) -/

/-- Train B stands as it was found, but for its share. -/
def stands (x : Train) (s : State) : Prop := ({ s.dry.trains[(1 : Fin 2)] with share := x.share } : Train) = x

/-- Train B stands as it was found, `q` holding, or it adds nothing to the capacity either way. -/
def heldBack (q : Prop) (x : Train) (w : Nat) (s : State) : Prop :=
  s.site.wdrRight = w ∧ (stands x s ∧ q ∨ w = 0 ∨ x.contribution = 0 ∧ (s.dry.trains[(1 : Fin 2)]).contribution = 0)

section
variable {x : Train} {s : State}

theorem stands.state (h : stands x s) : (s.dry.trains[(1 : Fin 2)]).state = x.state := by
  rw [← h]

theorem stands.contribution (h : stands x s) : (s.dry.trains[(1 : Fin 2)]).contribution = x.contribution := by
  rw [← h]
  rfl

theorem stands.figure (h : stands x s) : (s.dry.trains[(1 : Fin 2)]).figure = x.figure := by
  rw [← h]
  rfl

theorem stands_of_trains {t : State} (hb : t.dry.trains[(1 : Fin 2)] = s.dry.trains[(1 : Fin 2)]) (h : stands x s) : stands x t := by
  rw [stands, hb]
  exact h

theorem stands_reshare (h : stands x s) : stands x (reshare s) := by
  rw [stands, reshare_trains]
  exact h

theorem putTrain_zero (y : Train) (s : State) : (putTrain 0 y s).dry.trains[(1 : Fin 2)] = s.dry.trains[(1 : Fin 2)] := by
  rw [putTrain_trains]
  rfl

theorem handAtZero_trains (s : State) : (handWithdrawalAtZero s).dry.trains = s.dry.trains := by
  dsimp only [handWithdrawalAtZero]
  split
  · rw [State.setFlow_dry, recut_dry]
    rfl
  · rfl

theorem standsDew : DewKept handWithdrawalAtZero 0 (stands x) where
  raise _ _ _ _ _ _ h := h
  quiet s y _ _ _ h := stands_of_trains (putTrain_zero y s) h
  leave s y _ _ h := stands_of_trains (by rw [handAtZero_trains]) (stands_reshare (stands_of_trains (putTrain_zero y s) h))
  join s y _ _ _ h := stands_reshare (stands_of_trains (putTrain_zero y s) h)
  reshare _ h := stands_reshare h

theorem sendStandby_of_ne {t : Fin 2} (h : (s.dry.trains[t]).state ≠ .online) : sendStandby t s = s := by
  rw [sendStandby, beq_false_of_ne h]
  rfl

theorem bringOnline_of_ne {t : Fin 2} {hand : Hand} (h : (s.dry.trains[t]).state ≠ .standby) : bringOnline hand t s = s := by
  rw [bringOnline, beq_false_of_ne h]
  rfl

/-- The change of direction leaves a train B that is not in service as it was. -/
theorem stands_follow (hx : x.inService = false) (h : stands x s) : stands x (followDirection handWithdrawalAtZero s) := by
  have hne {u : State} (hu : stands x u) : (u.dry.trains[(1 : Fin 2)]).state ≠ .online ∧ (u.dry.trains[(1 : Fin 2)]).state ≠ .standby := by
    rw [hu.state]
    constructor <;> intro he <;> rw [Train.inService, he] at hx <;> exact absurd hx nofun
  dsimp only [followDirection]
  split
  · have hfirst := standsDew.bringOnline h
    rw [bringOnline_of_ne (hne hfirst).2]
    exact stands_reshare hfirst
  · have hfirst : stands x (sendStandby 0 s) := by
      dsimp only [sendStandby]
      split
      · exact stands_of_trains (putTrain_zero _ s) h
      · exact h
    rw [sendStandby_of_ne (hne hfirst).1]
    exact stands_reshare hfirst
end

theorem contribution_of_core {x y : Train} (hcore : x.core = y.core) (hdeg : x.degraded = y.degraded) :
    x.contribution = y.contribution := by
  have hcfg : x.core.cfg = y.core.cfg := congrArg (fun z : Train => z.cfg) hcore
  have hcfg' : x.cfg = y.cfg := hcfg
  rw [Train.contribution, Train.contribution, hdeg, hcfg']

/-- Train B's contribution is 0. -/
def addsNone (s : State) : Prop := (s.dry.trains[(1 : Fin 2)]).contribution = 0

theorem addsNone_putTrain {s : State} {t : Fin 2} {y : Train} (hy : y.contribution = (s.dry.trains[t]).contribution) (h : addsNone s) :
    addsNone (putTrain t y s) := by
  rw [addsNone, putTrain_trains]
  split
  · next ht => rw [hy, ht]; exact h
  · exact h

theorem addsNone_reshare {s : State} (h : addsNone s) : addsNone (reshare s) := by
  rw [addsNone, reshare_trains]
  exact h

theorem addsNoneDew (t : Fin 2) : DewKept handWithdrawalAtZero t addsNone where
  raise _ _ _ _ _ _ h := h
  quiet _ _ hmove _ _ h := addsNone_putTrain (contribution_of_core hmove.core hmove.degraded) h
  leave _ _ hmove _ h := by
    rw [addsNone, handAtZero_trains]
    exact addsNone_reshare (addsNone_putTrain (contribution_of_core hmove.core hmove.degraded) h)
  join _ _ hmove _ _ h := addsNone_reshare (addsNone_putTrain (contribution_of_core hmove.core hmove.degraded) h)
  reshare _ h := addsNone_reshare h

theorem addsNone_sendStandby (t : Fin 2) {s : State} (h : addsNone s) : addsNone (sendStandby t s) := by
  dsimp only [sendStandby]
  split
  · exact addsNone_putTrain rfl h
  · exact h

section
variable {q : Prop} {x : Train} {w : Nat}

/-- What leaves the right as it is, train B where it stands, and its contribution where that is 0. -/
theorem heldBack_of {s t : State} (hsite : t.site = s.site) (hstands : stands x s → q → stands x t) (hnone : addsNone s → addsNone t)
    (h : heldBack q x w s) : heldBack q x w t := by
  refine ⟨by rw [hsite]; exact h.1, ?_⟩
  rcases h.2 with ⟨hs, hq⟩ | hw | ⟨hx, hb⟩
  · exact .inl ⟨hstands hs hq, hq⟩
  · exact .inr (.inl hw)
  · exact .inr (.inr ⟨hx, hnone hb⟩)

theorem heldBack_trains {s t : State} (hsite : t.site = s.site) (hb : t.dry.trains[(1 : Fin 2)] = s.dry.trains[(1 : Fin 2)])
    (h : heldBack q x w s) : heldBack q x w t :=
  heldBack_of hsite (fun hs _ => stands_of_trains hb hs) (fun hn => by rw [addsNone, hb]; exact hn) h

theorem heldBack_reshare {s : State} (h : heldBack q x w s) : heldBack q x w (reshare s) :=
  heldBack_of (s := s) rfl (fun hs _ => stands_reshare hs) addsNone_reshare h

theorem heldBack_recut {s : State} (h : heldBack q x w s) : heldBack q x w (recut s) :=
  heldBack_trains (recut_plant s).2.1 (by rw [recut_dry]) h

/-- The direction may change where train B is not in service, or adds nothing. -/
theorem heldBackFlow : FlowKept (heldBack (x.inService = false) x w) (heldBack (x.inService = false) x w) where
  weaken _ h := h
  raise _ _ _ _ _ _ h := h
  setFlow _ _ _ _ h := h
  quiet _ _ _ _ _ _ h := h
  follow s h := by
    have hdoes := (flowFree_of_subset (List.Subset.refl flowParts) s).flow.follow s (.refl _ s)
    refine heldBack_of (hdoes.site_eq (by decide)) (fun hs hq => stands_follow hq hs) (fun hn => ?_) h
    exact followDirection_kept addsNoneDew (fun _ hu => addsNone_reshare (addsNone_sendStandby 1 (addsNone_sendStandby 0 hu))) hn
  reshare _ h := heldBack_reshare h

/-- Where the capacity is 0, train B is out of service or adds nothing. -/
theorem heldBack_idle {s : State} (hcap : withdrawalCapacity s = 0) (h : heldBack True x w s) : heldBack (x.inService = false) x w s := by
  refine ⟨h.1, ?_⟩
  rcases h.2 with ⟨hs, _⟩ | hw | hnone
  · rw [withdrawalCapacity_eq, hs.figure, h.1] at hcap
    by_cases hin : x.inService = true
    · by_cases hw : w = 0
      · exact .inr (.inl hw)
      · have hx : x.contribution = 0 := by
          have hfigure : x.figure = x.contribution := if_pos hin
          omega
        exact .inr (.inr ⟨hx, hs.contribution.trans hx⟩)
    · exact .inl ⟨hs, Bool.not_eq_true _ ▸ hin⟩
  · exact .inr (.inl hw)
  · exact .inr (.inr hnone)

theorem endAtZero_of_ne {s : State} (h : s.flow.setpoint ≠ 0) : endAtZero s = s := by
  dsimp only [endAtZero]
  split
  · rw [if_neg fun hz => h hz.1]
  · rw [if_neg fun hz => h hz.1]
  · rfl
  · rfl

theorem withdrawalCapacity_reshare (s : State) : withdrawalCapacity (reshare s) = withdrawalCapacity s := by
  rw [withdrawalCapacity_eq, withdrawalCapacity_eq, reshare_trains, reshare_trains]
  rfl

theorem heldBack_receiveWdr {s : State} (h : heldBack True x w s) : heldBack True x w (receiveWdr (withdrawalCapacity s) s) := by
  have hweaken {u : State} (hu : heldBack (x.inService = false) x w u) : heldBack True x w u :=
    ⟨hu.1, hu.2.imp_left fun hs => ⟨hs.1, trivial⟩⟩
  dsimp only [receiveWdr]
  split
  · dsimp only [stepCut]
    by_cases hc : withdrawalCapacity s = 0
    · refine hweaken (heldBackFlow.endAtZero (heldBack_idle ?_ (heldBack_reshare h)))
      rw [withdrawalCapacity_reshare]
      exact hc
    · rw [endAtZero_of_ne]
      · exact heldBack_reshare h
      · show -(withdrawalCapacity s : Int) ≠ 0
        omega
  · exact h

theorem heldBack_handWithdrawal {s : State} (h : heldBack True x w s) : heldBack True x w (handWithdrawal s) := by
  have hworld (u : State) (n : Nat) (hu : heldBack True x w u ∧ withdrawalCapacity u = withdrawalCapacity s) :
      heldBack True x w (u.setWorld n) ∧ withdrawalCapacity (u.setWorld n) = withdrawalCapacity s := hu
  refine handWithdrawal_reaches (K := fun u => heldBack True x w u ∧ withdrawalCapacity u = withdrawalCapacity s) hworld
    (fun _ _ hu => hu) (fun u hu => ⟨heldBack_recut hu.1, ?_⟩) (fun _ hu => heldBack_recut hu) (fun u hu => ?_) (fun _ => h)
    (fun _ hu => heldBack_reshare hu) ⟨h, rfl⟩
  · rw [withdrawalCapacity, recut_dry, (recut_plant u).2.1]
    exact hu.2
  · rw [← hu.2]
    exact heldBack_receiveWdr hu.1

theorem heldBackTrain : TrainKept handWithdrawal 0 (heldBack True x w) (heldBack True x w) where
  raise _ _ _ _ _ _ h := h
  quiet s y _ _ _ h := heldBack_trains (s := s) rfl (putTrain_zero y s) h
  leave s y _ _ h := heldBack_handWithdrawal (heldBack_reshare (heldBack_trains (s := s) rfl (putTrain_zero y s) h))
  join s y _ _ _ h := heldBack_reshare (heldBack_trains (s := s) rfl (putTrain_zero y s) h)
  reshare _ h := heldBack_reshare h
  weaken _ h := h
  raiseB _ _ _ _ _ h := h
  moveB s y _ h := heldBack_trains (s := s) rfl (putTrain_zero y s) h
  move s y _ _ _ _ h := heldBack_trains (s := s) rfl (putTrain_zero y s) h
  handed _ h := heldBack_handWithdrawal h
end

/-- Train B put back as the report found it adds what it added. -/
theorem wdrCurrent_putBack {x y : Train} {w : Nat} {s : State} (hy : y.figure = x.figure) (h : heldBack True x w s) (hs : wdrCurrent s) :
    wdrCurrent (putTrain 1 y s) := by
  rcases h.2 with ⟨hstands, _⟩ | hw | ⟨hx, hb⟩
  · exact wdrCurrent_putTrain (hy.trans hstands.figure.symm) hs
  · refine ⟨?_, hs.2⟩
    have hzero (u : State) (hu : u.site.wdrRight = w) : withdrawalCapacity u = 0 := by
      rw [withdrawalCapacity_eq, hu, hw, Nat.min_zero]
    exact hs.1.trans ((hzero s h.1).trans (hzero (putTrain 1 y s) h.1).symm)
  · have hfigure {z : Train} (hz : z.contribution = 0) : z.figure = 0 := by
      rw [Train.figure, hz, ite_self]
    exact wdrCurrent_putTrain (by rw [hy, hfigure hx, hfigure hb]) hs

theorem wdrCurrent_reportTrains (b : Block) {s : State} (h : wdrCurrent s) : wdrCurrent (reportTrains b s) := by
  have hA := (wdrTrain 0).reportTrain (fieldI b 24) (fieldI b 25) (fieldI b 26) h
  have hfound : heldBack True s.dry.trains[(1 : Fin 2)] s.site.wdrRight s := ⟨rfl, .inl ⟨rfl, trivial⟩⟩
  have hback := heldBackTrain.reportTrain (fieldI b 24) (fieldI b 25) (fieldI b 26) hfound
  dsimp only [reportTrains]
  split
  · exact (wdrTrain 1).reportTrain _ _ _ hA
  · exact followDirection_kept (wdrDew wdrCurrent_handWithdrawal) wdrRest
      (wdrCurrent_sendStandby 1 ((wdrTrain 1).reportTrain _ _ _ (wdrCurrent_putBack (x := s.dry.trains[(1 : Fin 2)]) rfl hback hA)))

/-! ### O13 -/

theorem wdrDry : DryKept (fun _ => True) wdrCurrent where
  train := wdrTrain
  accrue _ h := h
  load s h := wdrCurrent_congr (s := s) rfl rfl rfl (fun i => by rw [loadBeds_train]; rfl) h
  reportTrains b _ h := wdrCurrent_reportTrains b h
  enterService _ _ _ := wdrCurrent_handWithdrawal _
  rest := wdrRest

theorem takeTrains_wdrCurrent (held : Train → Held) (m : Image) (s : State) : wdrCurrent (takeTrains held m s) := by
  rw [takeTrains_eq]
  exact wdrDry.followDirection (wdrCurrent_handWithdrawal _)

theorem wdrPlant : PlantKept wdrCurrent (fun _ => True) wdrCurrent where
  duty :=
    { unit := fun _ => .whole (fun _ _ _ _ _ h => h) (fun _ _ _ h => h) fun _ h => wdrCurrent_handInjection h
      accrue := fun _ h => h
      age := fun _ h => h
      note := fun _ _ _ h => h }
  dry := wdrDry
  away s t hst h := wdrCurrent_plant (hst .dry (by decide)) (hst .site (by decide)) (hst .flow (by decide)) h
  recomputeTarget _ h := wdrFlow.recomputeTarget h
  flowSecond _ h := wdrFlow.flowSecond h
  expireTurnaround _ _ h := wdrFlow.expireTurnaround h
  fuelTaken _ _ h := h
  gasTaken _ _ h := h
  roster _ _ h := h
  applySite g s _ := by
    have haway (s t : State) (hst : s.changesOnly besideParts t) (h : wdrCurrent s) : wdrCurrent t :=
      wdrCurrent_plant (hst .dry (by decide)) (hst .site (by decide)) (hst .flow (by decide)) h
    refine applySite_of haway (inAnyOrder_establishes wdrCurrent (f := handWithdrawal) ?_ wdrCurrent_handWithdrawal (fun f hf v hv => ?_) _)
    · exact List.mem_append_left _ (List.mem_append_left _ (List.mem_cons_of_mem _ List.mem_cons_self))
    · exact siteActs_keep haway (fun _ hu => wdrCurrent_handInjection hu) (fun u _ => wdrCurrent_handWithdrawal u) hf hv
  unitSet i v s _ h := wdrCurrent_handInjection (s := putUnit i v s) h
  trainSet t x s hs hx _ _ _ _ h := by
    refine wdrCurrent_putTrain ?_ h
    rw [Train.figure, Train.figure, Train.inService, Train.inService, hs, hx]
    rfl
  restart _ _ := ⟨rfl, rfl⟩
  imageTaken ages held m s u _ _ := by
    refine inAnyOrder_establishes wdrCurrent (f := takeTrains held m) (List.mem_cons_of_mem _ List.mem_cons_self)
      (takeTrains_wdrCurrent held m) (fun g hg v hv => ?_) u
    rcases List.mem_pair.mp hg with rfl | rfl
    · rw [takeUnits_eq]
      exact wdrCurrent_handInjection hv
    · exact takeTrains_wdrCurrent held m v

theorem capacitiesCurrent_iff (s : State) : capacitiesCurrent s = true ↔ injCurrent s ∧ wdrCurrent s := by
  simp only [capacitiesCurrent, Bool.and_eq_true, decide_eq_true_eq, injCurrent, injFigures, wdrCurrent]
  tauto

/-- Settles O13: a figure changes with the hand-over that forms it anew, and the flow controller takes what it is handed. -/
theorem everyStepKeepsCapacitiesCurrent : Obligations.EveryStepKeepsCapacitiesCurrent := by
  intro s t h ht
  rw [capacitiesCurrent_iff] at h ⊢
  exact ⟨injPlant.step h.1 ht, wdrPlant.step h.2 ht⟩

end Sys2Proof.Machine
end

section
/-! SUPPORT. The setpoint stays within the live capacities and on the side of its direction, and the direction suits T_raw (R96 to
R105): O12. -/

namespace Sys2Proof.Machine

/-! ### A safe flow -/

/-- S lies within the live capacities, T is T_raw clamped to them, and S leaves 0 only on the side of its direction. -/
structure FlowSafe (f : Flow) : Prop where
  low : -(f.cWdr : Int) ≤ f.setpoint
  high : f.setpoint ≤ f.cInj
  limited : f.t = max (-(f.cWdr : Int)) (min (f.cInj : Int) f.tRaw)
  inject : 0 < f.setpoint → f.dir = .injecting
  withdraw : f.setpoint < 0 → f.dir = .withdrawing

theorem setpointSafe_iff (f : Flow) : setpointSafe f = true ↔ FlowSafe f := by
  simp only [setpointSafe, Bool.and_eq_true, Bool.or_eq_true, beq_iff_eq, decide_eq_true_eq, or_iff_not_imp_left, Int.not_le]
  exact ⟨fun ⟨⟨⟨⟨h1, h2⟩, h3⟩, h4⟩, h5⟩ => ⟨h1, h2, h3, h4, h5⟩, fun ⟨h1, h2, h3, h4, h5⟩ => ⟨⟨⟨⟨h1, h2⟩, h3⟩, h4⟩, h5⟩⟩

/-- The flow is safe, and where `D` is claimed the direction suits T_raw. -/
def flowHolds (D : Prop) (s : State) : Prop := FlowSafe s.flow ∧ (D → directionSettled s.flow = true)

theorem flowHolds_congr {D : Prop} {s t : State} (h : t.flow = s.flow) (hs : flowHolds D s) : flowHolds D t := by
  rw [flowHolds, h]
  exact hs

theorem FlowSafe.zero_of_hold {f : Flow} (h : FlowSafe f) (hdir : f.dir ≠ .injecting ∧ f.dir ≠ .withdrawing) : f.setpoint = 0 := by
  rcases Int.lt_trichotomy f.setpoint 0 with hlt | hz | hgt
  · exact absurd (h.withdraw hlt) hdir.2
  · exact hz
  · exact absurd (h.inject hgt) hdir.1

/-! ### The direction machine at S 0 (R101 to R105) -/

/-- S stands at 0 in a direction, T_raw being what it is. -/
def restsAt (d : FlowDir) (r : Int) (s : State) : Prop := FlowSafe s.flow ∧ s.flow.setpoint = 0 ∧ s.flow.dir = d ∧ s.flow.tRaw = r

theorem FlowSafe.of_zero {f : Flow} (hz : f.setpoint = 0) (hlim : f.t = max (-(f.cWdr : Int)) (min (f.cInj : Int) f.tRaw)) :
    FlowSafe f where
  low := by omega
  high := by omega
  limited := hlim
  inject h := by omega
  withdraw h := by omega

section
variable {d : FlowDir} {r : Int}

theorem restsFree : DewFree (restsAt d r) where
  raise _ _ _ _ _ h := h
  putTrain _ _ _ _ h := h

theorem restsAt_handAtZero {s : State} (h : restsAt d r s) : restsAt d r (handWithdrawalAtZero s) := by
  have hflow (u : State) (hu : u.flow = s.flow) (c : Nat) : restsAt d r (u.setFlow (limitT { u.flow with cWdr := c })) := by
    rw [hu]
    exact ⟨.of_zero h.2.1 rfl, h.2⟩
  dsimp only [handWithdrawalAtZero]
  split
  · exact hflow _ (recut_plant (s.setDry { s.dry with capacity := withdrawalCapacity s })).2.2 _
  · exact hflow _ rfl _

theorem restsAt_follow {s : State} (h : restsAt d r s) : restsAt d r (followDirection handWithdrawalAtZero s) :=
  followDirection_kept (restsFree.kept fun _ hu => restsAt_handAtZero hu) restsFree.rest h
end

theorem restsAt_enterDir {s : State} (d : FlowDir) (hsafe : FlowSafe s.flow) (hz : s.flow.setpoint = 0) :
    restsAt d s.flow.tRaw (enterDir d s) := by
  refine restsAt_follow ⟨.of_zero hz hsafe.limited, hz, rfl, rfl⟩

/-- A state chosen by T_raw suits it. -/
theorem flowHolds_of_restsAt {s : State} {d : FlowDir} {r : Int} (h : restsAt d r s)
    (hd : d = .turnaround ∨ d = .hold ∧ r = 0 ∨ d = .injecting ∧ 0 < r ∨ d = .withdrawing ∧ r < 0) (D : Prop) : flowHolds D s := by
  obtain ⟨hsafe, _, hdir, hraw⟩ := h
  refine ⟨hsafe, fun _ => ?_⟩
  rw [directionSettled, hdir, hraw]
  rcases hd with rfl | ⟨rfl, hr⟩ | ⟨rfl, hr⟩ | ⟨rfl, hr⟩
  · rfl
  · exact decide_eq_true hr
  · exact Bool.or_eq_true _ _ ▸ .inl (decide_eq_true hr)
  · exact Bool.or_eq_true _ _ ▸ .inl (decide_eq_true hr)

theorem flowHolds_expireTurnaround {s : State} (D : Prop) (hsafe : FlowSafe s.flow) (hz : s.flow.setpoint = 0) :
    flowHolds D (expireTurnaround s) := by
  refine flowHolds_of_restsAt (restsAt_enterDir (s := s.setFlow { s.flow with timer := 0 }) _ (.of_zero hz hsafe.limited) hz) ?_ D
  show chosenDir s.flow.tRaw = _ ∨ chosenDir s.flow.tRaw = _ ∧ s.flow.tRaw = 0 ∨ chosenDir s.flow.tRaw = _ ∧ 0 < s.flow.tRaw
    ∨ chosenDir s.flow.tRaw = _ ∧ s.flow.tRaw < 0
  unfold chosenDir
  split_ifs with hpos hneg
  · exact .inr (.inr (.inl ⟨rfl, hpos⟩))
  · exact .inr (.inr (.inr ⟨rfl, hneg⟩))
  · exact .inr (.inl ⟨rfl, by omega⟩)

theorem flowHolds_enterTurnaround {s : State} (D : Prop) (hsafe : FlowSafe s.flow) (hz : s.flow.setpoint = 0) :
    flowHolds D (enterTurnaround s) := by
  have hturn : restsAt .turnaround s.flow.tRaw (followDirection handWithdrawalAtZero (raise .turnaroundBegin none
      (some (s.site.turnHold : Int)) (s.setFlow { s.flow with dir := .turnaround, timer := s.site.turnHold }))) :=
    restsAt_follow ⟨.of_zero hz hsafe.limited, hz, rfl, rfl⟩
  dsimp only [enterTurnaround]
  split
  · exact flowHolds_expireTurnaround D hturn.1 hturn.2.1
  · exact flowHolds_of_restsAt hturn (.inl rfl) D

/-- What ends a direction leaves one that suits T_raw, where HOLD did. -/
theorem flowHolds_endAtZero {D : Prop} {s : State} (hsafe : FlowSafe s.flow) (hhold : D → s.flow.dir = .hold → s.flow.tRaw = 0) :
    flowHolds D (endAtZero s) := by
  have hleave (hz : s.flow.setpoint = 0) :
      flowHolds D (if s.flow.tRaw = 0 then enterDir .hold s else enterTurnaround s) := by
    split
    · next hr => exact flowHolds_of_restsAt (restsAt_enterDir .hold hsafe hz) (.inr (.inl ⟨rfl, hr⟩)) D
    · exact flowHolds_enterTurnaround D hsafe hz
  have hstays (hset : directionSettled s.flow = true) : flowHolds D s := ⟨hsafe, fun _ => hset⟩
  dsimp only [endAtZero]
  split
  · next hdir =>
    split
    · next hend => exact hleave hend.1
    · next hend =>
      refine hstays ?_
      have hside : 0 ≤ s.flow.setpoint := by_contra fun hneg =>
        absurd ((hsafe.withdraw (Int.not_le.mp hneg)).symm.trans hdir) nofun
      rw [directionSettled, hdir]
      simp only [Bool.or_eq_true, decide_eq_true_eq]
      omega
  · next hdir =>
    split
    · next hend => exact hleave hend.1
    · next hend =>
      refine hstays ?_
      have hside : s.flow.setpoint ≤ 0 := by_contra fun hpos =>
        absurd ((hsafe.inject (Int.not_le.mp hpos)).symm.trans hdir) nofun
      rw [directionSettled, hdir]
      simp only [Bool.or_eq_true, decide_eq_true_eq]
      omega
  · next hdir =>
    refine ⟨hsafe, fun hD => ?_⟩
    rw [directionSettled, hdir]
    exact decide_eq_true (hhold hD hdir)
  · next hdir =>
    refine hstays ?_
    rw [directionSettled, hdir]

theorem flowHolds_assessHold {s : State} (D : Prop) (hsafe : FlowSafe s.flow) (hdir : s.flow.dir = .hold) :
    flowHolds D (assessHold s) := by
  have hz := hsafe.zero_of_hold (by rw [hdir]; exact ⟨nofun, nofun⟩)
  dsimp only [assessHold]
  split_ifs with hr hinj hwdr
  · refine ⟨hsafe, fun _ => ?_⟩
    rw [directionSettled, hdir]
    exact decide_eq_true hr
  · exact flowHolds_of_restsAt (restsAt_enterDir _ hsafe hz) (.inr (.inr (.inl ⟨rfl, hinj.1⟩))) D
  · exact flowHolds_of_restsAt (restsAt_enterDir _ hsafe hz) (.inr (.inr (.inr ⟨rfl, hwdr.1⟩))) D
  · exact flowHolds_enterTurnaround D hsafe hz

/-- A new T_raw leaves a direction that suits it, whatever it was before. -/
theorem flowHolds_actOnTarget {s : State} (D : Prop) (hsafe : FlowSafe s.flow) : flowHolds D (actOnTarget s) := by
  have hend (hdir : s.flow.dir ≠ .hold) : flowHolds D (endAtZero s) :=
    flowHolds_endAtZero hsafe fun _ hhold => absurd hhold hdir
  dsimp only [actOnTarget]
  split
  · next hdir => exact flowHolds_assessHold D hsafe hdir
  · next hdir => exact hend (by rw [hdir]; nofun)
  · next hdir => exact hend (by rw [hdir]; nofun)
  · next hdir =>
    refine ⟨hsafe, fun _ => ?_⟩
    rw [directionSettled, hdir]

theorem FlowSafe.retarget {f : Flow} (h : FlowSafe f) (r : Int) : FlowSafe (limitT { f with tRaw := r }) :=
  ⟨h.low, h.high, rfl, h.inject, h.withdraw⟩

theorem flowHolds_recomputeTarget {D : Prop} {s : State} (h : flowHolds D s) : flowHolds D (recomputeTarget s) :=
  flowHolds_actOnTarget D (h.1.retarget _)

/-! ### Step cuts (R99) -/

theorem hold_of_flowHolds {D : Prop} {s : State} (h : flowHolds D s) (hD : D) (hdir : s.flow.dir = .hold) : s.flow.tRaw = 0 := by
  have hset := h.2 hD
  rw [directionSettled, hdir] at hset
  exact of_decide_eq_true hset

theorem settled_limitT {D : Prop} {f : Flow} {s : State} (hraw : f.tRaw = s.flow.tRaw) (hset : f.setpoint = s.flow.setpoint)
    (hdir : f.dir = s.flow.dir) (h : flowHolds D s) (hD : D) : directionSettled (limitT f) = true := by
  have hs := h.2 hD
  have heq : directionSettled (limitT f) = directionSettled s.flow := by
    show directionSettled { f with t := _ } = _
    simp only [directionSettled, hraw, hset, hdir]
  rw [heq]
  exact hs

theorem flowHolds_receiveInj {D : Prop} {s : State} (c : Nat) (h : flowHolds D s) : flowHolds D (receiveInj c s) := by
  have hsafe := h.1
  dsimp only [receiveInj]
  split
  · next hcut =>
    have hdir : s.flow.dir = .injecting := hsafe.inject (by omega)
    refine flowHolds_endAtZero ⟨?_, le_refl _, rfl, fun _ => hdir, fun hneg => ?_⟩ fun _ hhold => absurd (hdir.symm.trans hhold) nofun
    · show -(s.flow.cWdr : Int) ≤ c
      omega
    · have : (c : Int) < 0 := hneg
      omega
  · next hcut =>
    have hhigh := hsafe.high
    refine ⟨⟨hsafe.low, ?_, rfl, hsafe.inject, hsafe.withdraw⟩, settled_limitT rfl rfl rfl h⟩
    show s.flow.setpoint ≤ c
    omega

theorem flowHolds_receiveWdr {D : Prop} {s : State} (c : Nat) (h : flowHolds D s) : flowHolds D (receiveWdr c s) := by
  have hsafe := h.1
  dsimp only [receiveWdr]
  split
  · next hcut =>
    have hdir : s.flow.dir = .withdrawing := hsafe.withdraw (by omega)
    refine flowHolds_endAtZero ⟨le_refl _, ?_, rfl, fun hpos => ?_, fun _ => hdir⟩ fun _ hhold => absurd (hdir.symm.trans hhold) nofun
    · show -(c : Int) ≤ s.flow.cInj
      omega
    · have : 0 < -(c : Int) := hpos
      omega
  · next hcut =>
    have hlow := hsafe.low
    refine ⟨⟨?_, hsafe.high, rfl, hsafe.inject, hsafe.withdraw⟩, settled_limitT rfl rfl rfl h⟩
    show -(c : Int) ≤ s.flow.setpoint
    omega

/-! ### The second (R98, R103) -/

theorem rampTo_between (g x : Int) (n : Nat) : min g x ≤ rampTo g x n ∧ rampTo g x n ≤ max g x := by
  unfold rampTo
  split_ifs <;> omega

theorem goal_cases (f : Flow) : goal f = 0 ∨ f.dir = .injecting ∧ goal f = max f.t 0 ∨ f.dir = .withdrawing ∧ goal f = min f.t 0 := by
  unfold goal
  cases f.dir
  · exact .inl rfl
  · exact .inr (.inl ⟨rfl, rfl⟩)
  · exact .inr (.inr ⟨rfl, rfl⟩)
  · exact .inl rfl

theorem goal_within {f : Flow} (h : FlowSafe f) : -(f.cWdr : Int) ≤ goal f ∧ goal f ≤ f.cInj
    ∧ (0 < goal f → f.dir = .injecting) ∧ (goal f < 0 → f.dir = .withdrawing) := by
  have hlim := h.limited
  rcases goal_cases f with hg | ⟨hdir, hg⟩ | ⟨hdir, hg⟩ <;> rw [hg]
  · exact ⟨by omega, by omega, fun hx => absurd hx (lt_irrefl 0), fun hx => absurd hx (lt_irrefl 0)⟩
  · exact ⟨by omega, by omega, fun _ => hdir, fun hx => absurd hx (by omega)⟩
  · exact ⟨by omega, by omega, fun hx => absurd hx (by omega), fun _ => hdir⟩

theorem flowHolds_flowSecond {D : Prop} {s : State} (h : flowHolds D s) : flowHolds D (flowSecond s) := by
  have hsafe := h.1
  have hramp : flowHolds D (if ramping s.flow then endAtZero (reshare (s.setFlow
      { s.flow with setpoint := rampTo (goal s.flow) s.flow.setpoint (rampRate s) })) else s) := by
    split
    · obtain ⟨hlow, hhigh, hinj, hwdr⟩ := goal_within hsafe
      obtain ⟨hmin, hmax⟩ := rampTo_between (goal s.flow) s.flow.setpoint (rampRate s)
      refine flowHolds_endAtZero ⟨?_, ?_, hsafe.limited, fun hpos => ?_, fun hneg => ?_⟩ fun hD hhold => hold_of_flowHolds (s := s) h hD hhold
      · show -(s.flow.cWdr : Int) ≤ rampTo _ _ _
        have := hsafe.low
        omega
      · show rampTo _ _ _ ≤ (s.flow.cInj : Int)
        have := hsafe.high
        omega
      · change 0 < rampTo _ _ _ at hpos
        rcases lt_or_ge 0 (goal s.flow) with hg | hg
        · exact hinj hg
        · exact hsafe.inject (by omega)
      · change rampTo _ _ _ < 0 at hneg
        rcases lt_or_ge (goal s.flow) 0 with hg | hg
        · exact hwdr hg
        · exact hsafe.withdraw (by omega)
    · exact h
  dsimp only [flowSecond]
  split
  · next hdir =>
    split
    · exact flowHolds_expireTurnaround D hsafe (hsafe.zero_of_hold (by rw [hdir]; exact ⟨nofun, nofun⟩))
    · exact ⟨⟨hsafe.low, hsafe.high, hsafe.limited, hsafe.inject, hsafe.withdraw⟩, h.2⟩
  all_goals exact hramp

/-! ### O12 -/

theorem flowHolds_recut {D : Prop} {s : State} (h : flowHolds D s) : flowHolds D (recut s) := flowHolds_congr (recut_plant s).2.2 h

section
variable {D : Prop}

theorem flowHolds_handInjection {s : State} (h : flowHolds D s) : flowHolds D (handInjection s) :=
  handInjection_preserves (flowHolds D) s (fun _ hu => flowHolds_recut hu) (fun c _ hu => flowHolds_receiveInj c hu) (fun _ _ hu => hu) h

theorem flowHolds_handWithdrawal {s : State} (h : flowHolds D s) : flowHolds D (handWithdrawal s) :=
  handWithdrawal_preserves (flowHolds D) s (fun _ hu => flowHolds_recut hu) (fun c _ hu => flowHolds_receiveWdr c hu)
    (fun _ hu => hu) (fun _ _ hu => hu) h

theorem flowHoldsFree : DewFree (flowHolds D) where
  raise _ _ _ _ _ h := h
  putTrain _ _ _ _ h := h

theorem flowHoldsTrain {hand : Hand} (hhand : ∀ s, flowHolds D s → flowHolds D (hand s)) (t : Fin 2) :
    TrainKept hand t (flowHolds D) (flowHolds D) := .whole flowHoldsFree (fun _ _ _ h => h) hhand

theorem flowHoldsDry : DryKept (flowHolds D) (flowHolds D) :=
  .whole flowHoldsFree (flowHoldsTrain fun _ h => flowHolds_handWithdrawal h) (fun _ h => h) fun _ h => h

theorem flowHoldsPlant : PlantKept (flowHolds D) (flowHolds D) (flowHolds D) where
  duty :=
    { unit := fun _ => .whole (fun _ _ _ _ _ h => h) (fun _ _ _ h => h) fun _ h => flowHolds_handInjection h
      accrue := fun _ h => h
      age := fun _ h => h
      note := fun _ _ _ h => h }
  dry := flowHoldsDry
  away _ _ hst h := flowHolds_congr (hst .flow (by decide)) h
  recomputeTarget _ h := flowHolds_recomputeTarget h
  flowSecond _ h := flowHolds_flowSecond h
  expireTurnaround _ hdir h :=
    flowHolds_expireTurnaround D h.1 (h.1.zero_of_hold (by rw [hdir]; exact ⟨nofun, nofun⟩))
  fuelTaken _ _ h := h
  gasTaken _ _ h := h
  roster _ _ h := h
  applySite g s h := applySite_keeps (fun _ _ hst hu => flowHolds_congr (hst .flow (by decide)) hu) (g := g) (s := s) h
    (fun _ hu => flowHolds_recomputeTarget hu) (fun _ hu => flowHolds_handInjection hu) fun _ hu => flowHolds_handWithdrawal hu
  unitSet i v s _ h := flowHolds_handInjection (s := putUnit i v s) h
  trainSet _ _ _ _ _ _ _ _ _ h := h
  restart _ _ := ⟨(setpointSafe_iff _).mp rfl, fun _ => rfl⟩
  imageTaken ages held m s u h hu := by
    refine inAnyOrder_preserves (flowHolds D) _ (fun f hf v hv => ?_) (fun _ _ hv => hv) _ (flowHolds_congr hu h)
    rcases List.mem_pair.mp hf with rfl | rfl
    · rw [takeUnits_eq]
      exact flowHolds_handInjection hv
    · rw [takeTrains_eq]
      exact flowHoldsDry.tested (flowHoldsTrain fun _ hw => hw) hv
end

/-- Settles O12: a fallen capacity cuts the setpoint to it at once, the goal lies within the capacities on the side of the direction,
and a new T_raw or an S that reaches 0 takes a direction that suits it. -/
theorem everyStepKeepsSetpointInItsCapacities : Obligations.EveryStepKeepsSetpointInItsCapacities := by
  intro s t h ht
  have hsafe := (setpointSafe_iff _).mp h
  have hkept := (flowHoldsPlant (D := directionSettled s.flow = true)).step ⟨hsafe, fun hD => hD⟩ ht
  exact ⟨(setpointSafe_iff _).mpr hkept.1, hkept.2⟩

end Sys2Proof.Machine
end

section
/-! SUPPORT. A sound book and schedule, as lists: what hours removed, an entry appended, an hour confirmed and a recut leave of them
(R41, R44, R50, R57, R61). -/

namespace Sys2Proof.Machine

/-! ### A sound book -/

/-- Two entries of one key hold no common hour. -/
def Entry.clear (e f : Entry) : Prop := f.hasKey e.slot e.dir e.cls = true → e.last < f.next ∨ f.last < e.next

/-- The entries of each key are apart, and every hour held is after the confirmed-through hour. -/
structure EntriesSound (ct : Nat) (es : List Entry) : Prop where
  clear : es.Pairwise Entry.clear
  ahead : ∀ e ∈ es, ct < e.next ∧ e.next ≤ e.last

/-- The records stand in schedule order, at or before the confirmed-through hour, none confirmed above its request. -/
structure RecordsSound (ct : Nat) (rs : List SchedRec) : Prop where
  ordered : rs.Pairwise (fun r q => r.rank < q.rank)
  made : ∀ r ∈ rs, r.hour ≤ ct ∧ r.confirmed ≤ r.requested

theorem Entry.clear_iff {e f : Entry} : e.apart f = true ↔ e.clear f := by
  simp only [Entry.apart, Entry.clear, Bool.or_eq_true, Bool.not_eq_true', decide_eq_true_eq, or_assoc]
  cases f.hasKey e.slot e.dir e.cls <;> simp

theorem bookSound_iff (m : Image) : m.bookSound = true ↔
    m.entries.length ≤ 256 ∧ EntriesSound m.confirmedThrough m.entries ∧ RecordsSound m.confirmedThrough m.schedule := by
  simp only [Image.bookSound, Bool.and_eq_true, decide_eq_true_eq, pairs_iff, List.all_eq_true, Entry.clear_iff]
  exact ⟨fun ⟨⟨⟨⟨h1, h2⟩, h3⟩, h4⟩, h5⟩ => ⟨h1, ⟨h2, h3⟩, h4, h5⟩, fun ⟨h1, ⟨h2, h3⟩, h4, h5⟩ => ⟨⟨⟨⟨h1, h2⟩, h3⟩, h4⟩, h5⟩⟩

/-! ### Pieces of entries (R44, R57) -/

/-- A piece of an entry: hours of it, in its key. -/
structure Entry.Piece (e e' : Entry) : Prop where
  key : ∀ i d c, e'.hasKey i d c = e.hasKey i d c
  slot : e'.slot = e.slot ∧ e'.dir = e.dir ∧ e'.cls = e.cls
  next : e.next ≤ e'.next
  last : e'.last ≤ e.last
  some : e'.next ≤ e'.last

theorem Entry.Piece.clear {e f e' f' : Entry} (he : e.Piece e') (hf : f.Piece f') (h : e.clear f) : e'.clear f' := by
  intro hkey
  obtain ⟨hslot, hdir, hcls⟩ := he.slot
  rw [hf.key, hslot, hdir, hcls] at hkey
  have := he.next
  have := he.last
  have := hf.next
  have := hf.last
  rcases h hkey with h | h
  · exact .inl (by omega)
  · exact .inr (by omega)

theorem EntriesSound.flatMap {ct ct' : Nat} {es : List Entry} (h : EntriesSound ct es) {f : Entry → List Entry}
    (hpiece : ∀ e ∈ es, ∀ e' ∈ f e, e.Piece e') (hself : ∀ e ∈ es, (f e).Pairwise Entry.clear)
    (hahead : ∀ e ∈ es, ∀ e' ∈ f e, ct' < e'.next) : EntriesSound ct' (es.flatMap f) := by
  refine ⟨List.pairwise_flatMap.mpr ⟨hself, ?_⟩, fun e' he' => ?_⟩
  · exact List.Pairwise.imp_of_mem (fun ha hb hab x hx y hy => (hpiece _ ha x hx).clear (hpiece _ hb y hy) hab) h.clear
  · obtain ⟨e, he, hmem⟩ := List.mem_flatMap.mp he'
    exact ⟨hahead e he e' hmem, (hpiece e he e' hmem).some⟩

theorem EntriesSound.sublist {ct : Nat} {es fs : List Entry} (h : EntriesSound ct es) (hs : fs.Sublist es) : EntriesSound ct fs :=
  ⟨h.clear.sublist hs, fun e he => h.ahead e (hs.mem he)⟩

theorem Entry.Piece.refl {e : Entry} (h : e.next ≤ e.last) : e.Piece e := ⟨fun _ _ _ => rfl, ⟨rfl, rfl, rfl⟩, le_refl _, le_refl _, h⟩

theorem cutEntry_piece {a z : Nat} {e e' : Entry} (he : e.next ≤ e.last) (h : e' ∈ cutEntry a z e) : e.Piece e' := by
  have hkey := cutEntry_key h
  rw [cutEntry_eq] at h
  split_ifs at h <;> simp only [List.mem_cons, List.not_mem_nil, or_false] at h
  · obtain rfl := h
    exact .refl he
  · obtain rfl := h
    exact ⟨hkey, ⟨rfl, rfl, rfl⟩, by dsimp only; omega, le_refl _, by dsimp only; omega⟩
  · obtain rfl := h
    exact ⟨hkey, ⟨rfl, rfl, rfl⟩, le_refl _, by dsimp only; omega, by dsimp only; omega⟩
  · rcases h with rfl | rfl
    · exact ⟨hkey, ⟨rfl, rfl, rfl⟩, le_refl _, by dsimp only; omega, by dsimp only; omega⟩
    · exact ⟨hkey, ⟨rfl, rfl, rfl⟩, by dsimp only; omega, le_refl _, by dsimp only; omega⟩

theorem cutEntry_clear (a z : Nat) (e : Entry) (haz : a ≤ z) : (cutEntry a z e).Pairwise Entry.clear := by
  rw [cutEntry_eq]
  split_ifs
  · exact List.pairwise_singleton _ _
  · exact .nil
  · exact List.pairwise_singleton _ _
  · exact List.pairwise_singleton _ _
  · exact List.pairwise_pair.mpr fun _ => .inl (by dsimp only; omega)

/-- Hours removed from a key. -/
theorem EntriesSound.removeHours {ct : Nat} {es : List Entry} (h : EntriesSound ct es) (i : Fin 24) (d : Direction) (c : Class)
    {a z : Nat} (haz : a ≤ z) : EntriesSound ct (removeHours i d c a z es) := by
  have hpiece (e : Entry) (he : e ∈ es) (e' : Entry) (he' : e' ∈ if e.hasKey i d c then cutEntry a z e else [e]) : e.Piece e' := by
    obtain ⟨_, hlast⟩ := h.ahead e he
    split at he'
    · exact cutEntry_piece hlast he'
    · obtain rfl := List.mem_singleton.mp he'
      exact .refl hlast
  refine h.flatMap hpiece (fun e _ => ?_) fun e he e' he' => ?_
  · split
    · exact cutEntry_clear a z e haz
    · exact List.pairwise_singleton _ _
  · have := (h.ahead e he).1
    have := (hpiece e he e' he').next
    omega

/-- The book trimmed to the hours after the confirmed-through hour `ct'`. -/
theorem EntriesSound.trimBefore {ct : Nat} {es : List Entry} (h : EntriesSound ct es) (ct' : Nat) :
    EntriesSound ct' (trimBefore (ct' + 1) es) := by
  rw [Machine.trimBefore]
  have hcut (e : Entry) : (if ct' + 1 = 0 then [e] else cutEntry 0 (ct' + 1 - 1) e) = cutEntry 0 ct' e := if_neg (by omega)
  simp only [hcut]
  refine h.flatMap (fun e he e' he' => cutEntry_piece (h.ahead e he).2 he') (fun e _ => cutEntry_clear 0 ct' e (Nat.zero_le _))
    fun e he e' he' => ?_
  rw [cutEntry_eq] at he'
  have := (h.ahead e he).2
  split_ifs at he' <;> simp only [List.mem_cons, List.not_mem_nil, or_false] at he'
  · obtain rfl := he'
    omega
  · obtain rfl := he'
    dsimp only
    omega
  · omega
  · omega

theorem trimBefore_length (u : Nat) (es : List Entry) : (trimBefore u es).length ≤ es.length := by
  rw [trimBefore, List.length_flatMap]
  refine List.sum_le_card_nsmul _ 1 (fun n hn => ?_) |>.trans (by simp)
  obtain ⟨e, _, rfl⟩ := List.mem_map.mp hn
  split
  · exact le_refl 1
  · rw [cutEntry_eq]
    split_ifs <;> simp only [List.length_cons, List.length_nil] <;> omega

/-- An entry whose hours no other of its key holds, appended. -/
theorem EntriesSound.append {ct : Nat} {es : List Entry} (h : EntriesSound ct es) {e : Entry} (hnext : ct < e.next)
    (hlast : e.next ≤ e.last) (hfree : ∀ f ∈ es, f.hasKey e.slot e.dir e.cls = true → ∀ k, f.holds k = true → ¬(e.next ≤ k ∧ k ≤ e.last)) :
    EntriesSound ct (es ++ [e]) := by
  refine ⟨List.pairwise_append.mpr ⟨h.clear, List.pairwise_singleton _ _, fun f hf g hg => ?_⟩, fun f hf => ?_⟩
  · obtain rfl := List.mem_singleton.mp hg
    intro hkey
    obtain ⟨hslot, hdir, hcls⟩ := hasKey_iff.mp hkey
    have hkey' : f.hasKey g.slot g.dir g.cls = true := hasKey_iff.mpr ⟨hslot.symm, hdir.symm, hcls.symm⟩
    by_contra hmeet
    have := (h.ahead f hf).2
    exact hfree f hf hkey' (max f.next g.next) (holds_iff.mpr (by omega)) (by omega)
  · rcases List.mem_append.mp hf with hf | hf
    · exact h.ahead f hf
    · obtain rfl := List.mem_singleton.mp hf
      exact ⟨hnext, hlast⟩

/-- Of entries that are apart a removal splits at most one. -/
theorem split_le_one {ct : Nat} {es : List Entry} (h : EntriesSound ct es) (i : Fin 24) (d : Direction) (c : Class) (a z : Nat) :
    (metBy .split i d c a z es).length ≤ 1 := by
  have hsplit {e : Entry} (he : e ∈ metBy .split i d c a z es) : e.hasKey i d c = true ∧ e.next < a ∧ a ≤ e.last := by
    obtain ⟨_, hmet⟩ := List.mem_filter.mp he
    obtain ⟨hkey, ho⟩ := (Bool.and_eq_true _ _).mp hmet
    refine ⟨hkey, ?_⟩
    rw [overlap] at ho
    split_ifs at ho <;> first | exact absurd ho (by decide) | omega
  have hclear : (metBy .split i d c a z es).Pairwise Entry.clear := h.clear.sublist List.filter_sublist
  match hl : metBy .split i d c a z es with
  | [] => exact Nat.zero_le 1
  | [_] => exact le_refl 1
  | e :: f :: _ =>
    rw [hl] at hsplit hclear
    obtain ⟨hke, hae, hea⟩ := hsplit (e := e) List.mem_cons_self
    obtain ⟨hkf, haf, hfa⟩ := hsplit (e := f) (List.mem_cons_of_mem _ List.mem_cons_self)
    obtain ⟨hslot, hdir, hcls⟩ := hasKey_iff.mp hke
    have hmeet := (List.pairwise_cons.mp hclear).1 f List.mem_cons_self (by rw [hslot, hdir, hcls]; exact hkf)
    omega

/-! ### An hour confirmed (R57) -/

theorem EntriesSound.past {ct : Nat} {es : List Entry} (h : EntriesSound ct es) : EntriesSound (ct + 1) (es.filterMap (Entry.past (ct + 1))) := by
  rw [List.filterMap_eq_flatMap_toList]
  have hpast (e : Entry) (he : e ∈ es) (e' : Entry) (he' : e' ∈ (e.past (ct + 1)).toList) : e.Piece e' ∧ ct + 1 < e'.next := by
    obtain ⟨hnext, hlast⟩ := h.ahead e he
    rw [Option.mem_toList, past_eq] at he'
    split_ifs at he' with hholds hend
    · obtain rfl := Option.some.inj he'
      exact ⟨⟨fun _ _ _ => rfl, ⟨rfl, rfl, rfl⟩, by dsimp only; omega, le_refl _, by dsimp only; omega⟩, by dsimp only; omega⟩
    · obtain rfl := Option.some.inj he'
      exact ⟨.refl hlast, by omega⟩
  refine h.flatMap (fun e he e' he' => (hpast e he e' he').1) (fun e _ => ?_) fun e he e' he' => (hpast e he e' he').2
  cases e.past (ct + 1) with
  | none => exact .nil
  | some e' => exact List.pairwise_singleton _ _

/-- A record of a later hour ranks later. -/
theorem rank_lt_of_hour {r q : SchedRec} (h : r.hour < q.hour) : r.rank < q.rank := by
  have := code_lt r.dir r.cls
  have := r.slot.isLt
  unfold SchedRec.rank
  omega

theorem RecordsSound.append {ct : Nat} {rs qs : List SchedRec} (h : RecordsSound ct rs)
    (hordered : qs.Pairwise (fun r q => r.rank < q.rank)) (hqs : ∀ q ∈ qs, q.hour = ct + 1 ∧ q.confirmed ≤ q.requested) :
    RecordsSound (ct + 1) (rs ++ qs) := by
  refine ⟨List.pairwise_append.mpr ⟨h.ordered, hordered, fun r hr q hq => rank_lt_of_hour ?_⟩, fun r hr => ?_⟩
  · have := (h.made r hr).1
    have := (hqs q hq).1
    omega
  · rcases List.mem_append.mp hr with hr | hr
    · obtain ⟨hhour, hconf⟩ := h.made r hr
      exact ⟨by omega, hconf⟩
    · obtain ⟨hhour, hconf⟩ := hqs r hr
      exact ⟨by omega, hconf⟩

theorem RecordsSound.later {ct ct' : Nat} {rs : List SchedRec} (h : RecordsSound ct rs) (hle : ct ≤ ct') : RecordsSound ct' rs :=
  ⟨h.ordered, fun r hr => ⟨(h.made r hr).1.trans hle, (h.made r hr).2⟩⟩

theorem RecordsSound.filter {ct : Nat} {rs : List SchedRec} (h : RecordsSound ct rs) (p : SchedRec → Bool) : RecordsSound ct (rs.filter p) :=
  ⟨h.ordered.sublist List.filter_sublist, fun r hr => h.made r (List.mem_of_mem_filter hr)⟩

/-! ### Records cut (R61) -/

theorem recutBy_rank (r : SchedRec) (x : Nat) : (r.recutBy x).rank = r.rank := by
  unfold SchedRec.recutBy
  split
  · rfl
  · exact cutBy_rank r x

theorem recutBy_confirmed (r : SchedRec) (x : Nat) (h : r.confirmed ≤ r.requested) : (r.recutBy x).confirmed ≤ (r.recutBy x).requested := by
  by_cases hx : x = 0
  · rw [hx, recutBy_zero]
    exact h
  · rw [recutBy_cut r hx]
    dsimp only
    omega

theorem recutHourRecords_rank (k : Nat) (rs : List SchedRec) (xs : List Nat) :
    (recutHourRecords k rs xs).map SchedRec.rank = rs.map SchedRec.rank := by
  induction rs generalizing xs with
  | nil => rfl
  | cons r rs ih =>
    rw [recutHourRecords_cons]
    split
    · rw [List.map_cons, List.map_cons, ih, recutBy_rank]
    · rw [List.map_cons, List.map_cons, ih]

theorem mem_recutHourRecords {k : Nat} {rs : List SchedRec} {xs : List Nat} {q : SchedRec} (hq : q ∈ recutHourRecords k rs xs) :
    ∃ r ∈ rs, ∃ x, q = r.recutBy x := by
  induction rs generalizing xs with
  | nil => exact absurd hq List.not_mem_nil
  | cons r rs ih =>
    rw [recutHourRecords_cons] at hq
    split at hq <;> rcases List.mem_cons.mp hq with rfl | hq
    · exact ⟨r, List.mem_cons_self, _, rfl⟩
    · obtain ⟨r', hr', hx⟩ := ih hq
      exact ⟨r', List.mem_cons_of_mem _ hr', hx⟩
    · exact ⟨q, List.mem_cons_self, 0, (recutBy_zero q).symm⟩
    · obtain ⟨r', hr', hx⟩ := ih hq
      exact ⟨r', List.mem_cons_of_mem _ hr', hx⟩

theorem RecordsSound.recutHour {ct : Nat} {rs : List SchedRec} (h : RecordsSound ct rs) (k : Nat) (xs : List Nat) :
    RecordsSound ct (recutHourRecords k rs xs) := by
  refine ⟨?_, fun q hq => ?_⟩
  · have hordered : ((recutHourRecords k rs xs).map SchedRec.rank).Pairwise (· < ·) := by
      rw [recutHourRecords_rank, List.pairwise_map]
      exact h.ordered
    exact List.pairwise_map.mp hordered
  · obtain ⟨r, hr, x, rfl⟩ := mem_recutHourRecords hq
    obtain ⟨hhour, hconf⟩ := h.made r hr
    exact ⟨by rw [recutBy_hour]; exact hhour, recutBy_confirmed r x hconf⟩

/-! ### Records put in order (R50) -/

theorem rank_inj {r q : SchedRec} (h : r.rank = q.rank) : r.apart q = false := by
  have hr := code_lt r.dir r.cls
  have hq := code_lt q.dir q.cls
  have := r.slot.isLt
  have := q.slot.isLt
  unfold SchedRec.rank at h
  have hhour : r.hour = q.hour := by omega
  have hslot : r.slot = q.slot := Fin.ext (by omega)
  have hdir : r.dir = q.dir := by
    have hcode : r.dir.code = q.dir.code := by omega
    revert hcode
    cases r.dir <;> cases q.dir <;> decide
  have hcls : r.cls = q.cls := by
    have hcode : r.cls.code = q.cls.code := by omega
    revert hcode
    cases r.cls <;> cases q.cls <;> decide
  simp [SchedRec.apart, hhour, hslot, hdir, hcls]

theorem apart_symm {r q : SchedRec} (h : r.apart q = true) : q.apart r = true := by
  simp only [SchedRec.apart, Bool.not_eq_true', Bool.and_eq_false_iff, decide_eq_false_iff_not] at h ⊢
  exact h.imp (Or.imp (Or.imp Ne.symm Ne.symm) Ne.symm) Ne.symm

theorem apart_of_rank {r q : SchedRec} (h : r.rank < q.rank) : r.apart q = true := by
  by_contra hne
  simp only [SchedRec.apart, Bool.not_eq_true', Bool.not_eq_false, Bool.and_eq_true, decide_eq_true_eq] at hne
  obtain ⟨⟨⟨hhour, hslot⟩, hdir⟩, hcls⟩ := hne
  simp only [SchedRec.rank, hhour, hslot, hdir, hcls, lt_irrefl] at h

/-- Records of distinct keys and hours, put in order, are sound where they were. -/
theorem RecordsSound.ordered_of {ct : Nat} {rs : List SchedRec} (hapart : rs.Pairwise fun r q => r.apart q = true)
    (hmade : ∀ r ∈ rs, r.hour ≤ ct ∧ r.confirmed ≤ r.requested) : RecordsSound ct (orderedSchedule rs) := by
  obtain ⟨hperm, hsorted⟩ := orderedSchedule_spec rs
  refine ⟨?_, fun r hr => hmade r (hperm.mem_iff.mp hr)⟩
  have hapart' := (hperm.pairwise_iff fun h => apart_symm h).mpr hapart
  refine (hsorted.and hapart').imp fun {r q} h => lt_of_le_of_ne h.1 fun he => ?_
  rw [rank_inj he] at h
  exact absurd h.2 nofun

end Sys2Proof.Machine
end

section
/-! SUPPORT. Every step keeps the book and the schedule sound: O10. -/

namespace Sys2Proof.Machine

/-- The book and the schedule of the part are sound. -/
def bookHolds (s : State) : Prop :=
  s.book.entries.length ≤ 256 ∧ EntriesSound s.book.confirmedThrough s.book.entries ∧ RecordsSound s.book.confirmedThrough s.sched

theorem bookHolds_iff (s : State) : (snapshot s).bookSound = true ↔ bookHolds s := bookSound_iff _

theorem bookHolds_congr {s t : State} (hentries : t.book.entries = s.book.entries)
    (hthrough : t.book.confirmedThrough = s.book.confirmedThrough) (hsched : t.sched = s.sched) (h : bookHolds s) : bookHolds t := by
  rw [bookHolds, hentries, hthrough, hsched]
  exact h

theorem Does.bookHolds {ps : List Part} {s t : State} (hdoes : Does ps s t) (hbook : Part.book ∉ ps) (hsched : Part.sched ∉ ps)
    (h : bookHolds s) : Machine.bookHolds t :=
  bookHolds_congr (congrArg Book.entries (hdoes.book_eq hbook)) (congrArg Book.confirmedThrough (hdoes.book_eq hbook))
    (hdoes.sched_eq hsched) h

/-! ### The machine recuts (R61) -/

theorem bookHolds_recutHour {s : State} (k : Nat) (h : bookHolds s) : bookHolds (recutHour k s) := by
  dsimp only [recutHour]
  split
  · exact h
  · exact ⟨h.1, h.2.1, h.2.2.recutHour k _⟩

theorem bookFree : FlowFree bookHolds where
  raise _ _ _ _ _ h := h
  putTrain _ _ _ _ h := h
  setFlow _ _ h := h
  recut s h := foldl_preserves bookHolds recutHour _ (fun k _ _ hu => bookHolds_recutHour k hu) s h
  setWorld _ _ h := h
  capacity _ _ h := h

theorem bookTrain {hand : Hand} (hhand : ∀ s, bookHolds s → bookHolds (hand s)) (t : Fin 2) : TrainKept hand t bookHolds bookHolds :=
  .whole bookFree.toDewFree (fun _ _ _ h => h) hhand

theorem bookDry : DryKept bookHolds bookHolds :=
  .whole bookFree.toDewFree (bookTrain fun _ h => bookFree.handWithdrawal h) (fun _ h => h) fun _ h => h

theorem bookDuty : DutyKept bookHolds bookHolds where
  unit _ := .whole (fun _ _ _ _ _ h => h) (fun _ _ _ h => h) fun _ h => bookFree.handInjection h
  accrue _ h := h
  age _ h := h
  note _ _ _ h := h

theorem gathered_bookHolds {f : State → State} {s : State} (hf : ∀ u, bookHolds u → bookHolds (f u)) (h : bookHolds s) :
    bookHolds (gathered f s) := gathered_preserves f s bookHolds hf (fun _ _ hu => hu) (fun _ _ hu => hu) h

/-! ### Confirmation (R53, R57) -/

theorem filterMap_past_length (k : Nat) (es : List Entry) : (es.filterMap (Entry.past k)).length ≤ es.length :=
  List.length_filterMap_le _ _

theorem bookHolds_confirmHour {s : State} (h : bookHolds s) : bookHolds (confirmHour (firstUnconfirmed s) s) := by
  obtain ⟨hentries, hthrough, _, hsched⟩ := confirmHour_stands s (firstUnconfirmed s)
  obtain ⟨hroom, hsound, hrecords⟩ := h
  rw [bookHolds, hentries, hthrough, hsched]
  refine ⟨(filterMap_past_length _ _).trans hroom, hsound.past, hrecords.append (confirmedRecords_sorted s _) fun q hq => ?_⟩
  obtain ⟨hhour, hconf, _⟩ := confirmed_sound s _ hq
  exact ⟨hhour, hconf⟩

theorem bookHolds_confirmHours (n : Nat) {s : State} (h : bookHolds s) : bookHolds (confirmHours n s) := by
  induction n generalizing s with
  | zero => exact h
  | succ n ih => exact ih (bookHolds_confirmHour h)

theorem bookHolds_confirmation {s : State} (h : bookHolds s) : bookHolds (confirmation s) := by
  dsimp only [confirmation]
  split
  · exact h
  · exact bookHolds_confirmHours _ h

/-! ### Requests (R3, R27, R44 to R48) -/

theorem bookHolds_trimBook (k : Nat) {s : State} (h : bookHolds s) : bookHolds (trimBook k s) := by
  obtain ⟨hroom, hsound, hrecords⟩ := h
  exact ⟨(trimBefore_length _ _).trans hroom, hsound.trimBefore _, hrecords.later (le_max_left _ _)⟩

theorem bookHolds_discardBefore (k : Nat) {s : State} (h : bookHolds s) : bookHolds (discardBefore k s) := by
  have hset : bookHolds (s.setSched (s.sched.filter (fun r => decide (k ≤ r.hour)))) := ⟨h.1, h.2.1, h.2.2.filter _⟩
  dsimp only [discardBefore]
  split
  · exact hset
  · exact hset

theorem bookHolds_clockSetEffect (k sec : Nat) {s : State} (h : bookHolds s) : bookHolds (clockSetEffect k sec s).after := by
  have hstarted := (does_startClock s k sec).bookHolds (by decide) (by decide) h
  exact gathered_bookHolds (fun _ hu => bookFree.flow.recomputeTarget hu)
    (bookHolds_confirmation (bookHolds_trimBook k (bookHolds_discardBefore k hstarted)))

theorem bookHolds_nominate {s : State} {i : Fin 24} {d : Direction} {c : Class} {b : Block}
    (hlate : firstUnconfirmed s ≤ fieldHour b 3) (hrun : fieldHour b 3 ≤ fieldHour b 5)
    (hroom : sizeAfterNominate i d c (fieldHour b 3) (fieldHour b 5) s.book.entries ≤ 256) (h : bookHolds s) :
    bookHolds (nominateEffect i d c b s).after := by
  obtain ⟨_, hsound, hrecords⟩ := h
  rw [nominateEffect_after]
  obtain ⟨hentries, _, hthrough, _⟩ := supersede_book i d c (fieldHour b 3) (fieldHour b 5) s
  have hsched := supersede_parts i d c (fieldHour b 3) (fieldHour b 5) s .sched (by decide)
  generalize supersede i d c (fieldHour b 3) (fieldHour b 5) s = x at hentries hthrough hsched ⊢
  obtain ⟨hentries', _, hthrough', _⟩ := appendEntry_book (nominatedEntry s.book.nextArrival i d c b) x
  have hsched' := appendEntry_parts (nominatedEntry s.book.nextArrival i d c b) x .sched (by decide)
  rw [bookHolds, hentries', hthrough', hentries, hthrough, hsched', hsched]
  rw [sizeAfterNominate_eq] at hroom
  refine ⟨by rw [List.length_append]; exact hroom, ?_, hrecords⟩
  refine (hsound.removeHours i d c hrun).append hlate hrun fun f hf hkey k hk => ?_
  exact ((removeHours_holds i d c _ _ k s.book.entries).mp ⟨f, hf, hkey, hk⟩).2

theorem bookHolds_reqNominate (b : Block) {s : State} (h : bookHolds s) : bookHolds (reqNominate b s).after := by
  dsimp only [reqNominate]
  split
  · exact h
  · split
    · exact h
    · split
      · refine checked_after _ h fun hchecks => ?_
        have hrange := hchecks (_, .range) (List.mem_cons_of_mem _ List.mem_cons_self)
        have hlate := hchecks (_, .late) (List.mem_cons_of_mem _ (List.mem_cons_of_mem _ List.mem_cons_self))
        have hroom := hchecks (_, .noRoom) (List.mem_cons_of_mem _ (List.mem_cons_of_mem _ (List.mem_cons_of_mem _ List.mem_cons_self)))
        simp only [nominateInRange, Bool.and_eq_true, decide_eq_true_eq] at hrange
        exact bookHolds_nominate (of_decide_eq_true hlate) hrange.1.1.2 (of_decide_eq_true hroom) h
      · exact checked_after _ h fun _ => h

theorem bookHolds_cancel {s : State} {i : Fin 24} {d : Direction} {c : Class} {b : Block} (hrun : cancelFrom b s ≤ fieldHour b 5)
    (hroom : cancelHasRoom i d c b s = true) (h : bookHolds s) : bookHolds (cancelEffect i d c b s).after := by
  obtain ⟨hlen, hsound, hrecords⟩ := h
  rw [cancelEffect_after]
  have hsize := removeHours_length i d c (cancelFrom b s) (fieldHour b 5) s.book.entries
  have hsplit := split_le_one hsound i d c (cancelFrom b s) (fieldHour b 5)
  refine ⟨?_, hsound.removeHours i d c hrun, hrecords⟩
  show (removeHours i d c (cancelFrom b s) (fieldHour b 5) s.book.entries).length ≤ 256
  rw [cancelHasRoom, Bool.or_eq_true, decide_eq_true_eq, List.isEmpty_iff] at hroom
  rcases hroom with hnone | hroom
  · rw [hnone] at hsize
    simp only [List.length_nil] at hsize
    omega
  · omega

theorem bookHolds_reqCancel (b : Block) {s : State} (h : bookHolds s) : bookHolds (reqCancel b s).after := by
  dsimp only [reqCancel]
  split
  · exact h
  · split
    · exact h
    · split
      · refine checked_after _ h fun hchecks => ?_
        have hrange := hchecks (_, .range) (List.mem_cons_of_mem _ List.mem_cons_self)
        have hlate := hchecks (_, .late) (List.mem_cons_of_mem _ (List.mem_cons_of_mem _ List.mem_cons_self))
        have hroom := hchecks (_, .noRoom) (List.mem_cons_of_mem _ (List.mem_cons_of_mem _ (List.mem_cons_of_mem _ List.mem_cons_self)))
        simp only [cancelInRange, Bool.and_eq_true, decide_eq_true_eq] at hrange
        exact bookHolds_cancel (max_le hrange.1.2 (of_decide_eq_true hlate)) hroom h
      · exact checked_after _ h fun _ => h

theorem bookHolds_reqAccountClose (b : Block) {s : State} (h : bookHolds s) : bookHolds (reqAccountClose b s).after := by
  dsimp only [reqAccountClose]
  split
  · exact h
  · split
    · exact h
    · exact checked_after _ h fun _ => ⟨(List.length_filter_le _ _).trans h.1, h.2.1.sublist List.filter_sublist, h.2.2⟩

theorem bookHolds_applySite (g : Site) {s : State} (h : bookHolds s) : bookHolds (applySite g s) := by
  rw [applySite_eq]
  refine gathered_bookHolds (fun u hu => ?_) (s := renoteUnits (s.setSite g)) h
  refine inAnyOrder_preserves bookHolds _ (fun f hf v hv => ?_) (fun _ _ hv => hv) _ (bookFree.flow.recomputeTarget hu)
  simp only [siteActs, List.mem_append, List.mem_cons, List.not_mem_nil, or_false] at hf
  rcases hf with ((rfl | rfl) | hf) | rfl
  · exact bookFree.handInjection hv
  · exact bookFree.handWithdrawal hv
  · split at hf
    · obtain rfl := List.mem_singleton.mp hf
      exact bookHolds_confirmation hv
    · exact absurd hf List.not_mem_nil
  · exact (does_evaluateAlert v).bookHolds (by decide) (by decide) hv

/-! ### The completion of a settlement (R87, R88) -/

theorem bookHolds_settleHour (k : Intake) {s : State} (h : bookHolds s) : bookHolds (settleHour k s) := by
  have hbook : (settleHour k s).book = s.book := (does_settleHour s k).book_eq (by decide)
  have hsched : (settleHour k s).sched = s.sched.filter (fun r => !(r.hour == k.hour)) := by
    dsimp only [settleHour]
    rw [raise_sched, State.setClock_sched, State.setSched_sched, State.setSettle_sched, (does_postHour s k _ _ _).sched_eq (by decide)]
  rw [bookHolds, hbook, hsched]
  exact ⟨h.1, h.2.1, h.2.2.filter _⟩

theorem bookHolds_setSettle (x : Settlement) {s : State} (h : bookHolds s) : bookHolds (s.setSettle x) := h

theorem bookHolds_completeSettlement {s : State} (h : bookHolds s) : bookHolds (completeSettlement s) := by
  dsimp only [completeSettlement]
  split
  · exact h
  · next k _ =>
    have hconfirmed := bookHolds_confirmation ((does_accountStep _).bookHolds (by decide) (by decide) (bookHolds_settleHour k h))
    dsimp only [completionStep]
    exact (does_beginCommit _).bookHolds (by decide) (by decide) (bookHolds_setSettle _ hconfirmed)

/-! ### O10 -/

/-- The codes of the requests that touch neither the book nor the schedule. -/
def plainCodes : List Byte := [0x14, 0x16, 0x20, 0x21, 0x22, 0x24, 0x25, 0x26]

/-- The parts that these may change. -/
def plainParts : List Part := [.curves, .acct, .evq]

theorem plain_requestParts : ∀ code ∈ plainCodes, requestParts code ⊆ plainParts ∧ code ≠ 0x03 := by decide

theorem bookHolds_reqUnitSet (b : Block) {s : State} (h : bookHolds s) : bookHolds (reqUnitSet b s).after := by
  dsimp only [reqUnitSet]
  split
  · exact h
  · split
    · exact h
    · next i _ => exact checked_after _ h fun _ => gathered_bookHolds (s := putUnit i _ s) (fun _ hu => bookFree.handInjection hu) h

theorem bookHolds_reqTrainSet (b : Block) {s : State} (h : bookHolds s) : bookHolds (reqTrainSet b s).after := by
  dsimp only [reqTrainSet]
  split
  · exact h
  · split
    · exact h
    · next t _ => exact checked_after _ h fun _ => gathered_bookHolds (s := putTrain t _ s) (fun _ hu => (bookDry.train t).bedTest hu) h

theorem bookHolds_reqBookStatistics (b : Block) {s : State} (h : bookHolds s) : bookHolds (reqBookStatistics b s).after := by
  refine checked_after _ h fun _ => ?_
  dsimp only [taken]
  split
  · exact h
  · exact h

theorem bookMachine : MachineKept bookHolds bookHolds bookHolds where
  duty := bookDuty
  dry := bookDry
  far s t hst h := by
    have hbook : t.book = s.book := hst .book (by decide)
    exact bookHolds_congr (congrArg Book.entries hbook) (congrArg Book.confirmedThrough hbook) (hst .sched (by decide)) h
  recomputeTarget _ h := bookFree.flow.recomputeTarget h
  flowSecond _ h := bookFree.flow.flowSecond h
  expireTurnaround _ _ h := bookFree.flow.expireTurnaround h
  setting code req hc hreq b s h := by
    by_cases hplain : code ∈ plainCodes
    · obtain ⟨hsub, hdrain⟩ := plain_requestParts code hplain
      exact ((does_request hreq hdrain b s).mono hsub).bookHolds (by decide) (by decide) h
    · have hrest : code ∈ [(0x23 : Byte), 0x30, 0x31, 0x34, 0x38, 0x40, 0x43, 0x48] := by
        simp only [settingCodes, accountCodes, bookCodes, plainCodes, List.mem_append, List.mem_cons, List.not_mem_nil,
          or_false] at hc hplain ⊢
        tauto
      simp only [List.mem_cons, List.not_mem_nil, or_false] at hrest
      rcases hrest with rfl | rfl | rfl | rfl | rfl | rfl | rfl | rfl <;> cases hreq
      · exact bookHolds_reqAccountClose b h
      · exact bookHolds_reqNominate b h
      · exact bookHolds_reqCancel b h
      · exact bookHolds_reqBookStatistics b h
      · exact checked_after _ h fun _ => bookHolds_applySite _ h
      · exact bookHolds_reqUnitSet b h
      · exact checked_after _ h fun _ => h
      · exact bookHolds_reqTrainSet b h
  clockSet k sec _ h := bookHolds_clockSetEffect k sec h
  statistics _ _ h := h
  fuelTaken _ _ h := h
  gasTaken _ _ h := h
  day s h := by
    dsimp only [dayBoundary]
    split
    · exact h
    · exact h
  settled _ h := bookHolds_completeSettlement h

/-! ### An image taken (R177, R180, R181) -/

theorem bookHolds_takeUnitsAndTrains (ages : CUnit → List Nat) (held : Train → Held) (m : Image) {s : State} (h : bookHolds s) :
    bookHolds (gathered (inAnyOrder [takeUnits ages m, takeTrains held m]) s) := by
  refine gathered_bookHolds (fun u hu => inAnyOrder_preserves bookHolds _ (fun f hf v hv => ?_) (fun _ _ hv => hv) u hu) h
  rcases List.mem_pair.mp hf with rfl | rfl
  · rw [takeUnits_eq]
    exact bookFree.handInjection hv
  · rw [takeTrains_eq]
    exact bookDry.tested (bookTrain fun _ hw => hw) hv

/-- An image whose book is sound, its records of distinct keys and hours, leaves a sound book, the schedule in its order. -/
theorem bookHolds_takeImage {m : Image} (hlen : m.entries.length ≤ 256) (hentries : EntriesSound m.confirmedThrough m.entries)
    (hapart : m.schedule.Pairwise fun r q => r.apart q = true)
    (hmade : ∀ r ∈ m.schedule, r.hour ≤ m.confirmedThrough ∧ r.confirmed ≤ r.requested) (s : State) : bookHolds (takeImage m s) :=
  ⟨hlen, hentries, RecordsSound.ordered_of hapart hmade⟩

theorem bookHolds_setSup (x : Supervision) {s : State} (h : bookHolds s) : bookHolds (s.setSup x) := h

theorem bookHolds_setStore (x : Store) {s : State} (h : bookHolds s) : bookHolds (s.setStore x) := h

theorem bookHolds_noteCount (n : Nat) {s : State} (h : bookHolds s) : bookHolds (noteCount n s) := h

theorem bookHolds_adopt (n : BitVec 32) {m : Image} {s : State} (h : bookHolds (takeImage m s)) : bookHolds (adopt n m s) := by
  dsimp only [adopt, beginNumbered]
  exact bookHolds_setStore _ (bookHolds_setStore _ (bookHolds_setSup _
    (bookHolds_takeUnitsAndTrains _ _ m (bookHolds_noteCount _ h))))

theorem bookHolds_restoreBlocks {m : Image} {s : State} (h : bookHolds (takeImage m s)) : bookHolds (restoreBlocks m s) := by
  dsimp only [restoreBlocks]
  exact bookHolds_setSup _ (bookHolds_takeUnitsAndTrains _ _ m h)

theorem allRead_length {α : Type} {l : List (Option α)} {xs : List α} (h : allRead l = some xs) : xs.length = l.length := by
  induction l generalizing xs with
  | nil =>
    obtain rfl := Option.some.inj h
    rfl
  | cons o l ih =>
    cases o with
    | none => exact absurd h nofun
    | some x =>
      rw [allRead] at h
      split at h
      · exact absurd h nofun
      · next ys hys =>
        obtain rfl := Option.some.inj h
        rw [List.length_cons, List.length_cons, ih hys]

theorem listRead_length {α : Type} {n most : Nat} {read : Block → Option α} {b : Block} {xs : List α}
    (h : listRead n most read b = some xs) : xs.length ≤ most := by
  rw [listRead] at h
  split at h
  · next hmost =>
    have hlen := allRead_length h
    rw [List.length_map, chunks_length] at hlen
    omega
  · exact absurd h nofun

/-- An image read holds no more entries than its section. -/
theorem imageRead_entries {ws : Block} {m : Image} (h : imageRead ws = some m) : m.entries.length ≤ 256 := by
  dsimp only [imageRead] at h
  split at h
  · split at h
    · next hentries _ _ _ _ =>
      split at h
      · obtain rfl := Option.some.inj h
        exact listRead_length hentries
      · exact absurd h nofun
    · exact absurd h nofun
  · exact absurd h nofun

theorem consistent_book {m : Image} (h : m.consistent = true) : EntriesSound m.confirmedThrough m.entries
    ∧ (m.schedule.Pairwise fun r q => r.apart q = true) ∧ ∀ r ∈ m.schedule, r.hour ≤ m.confirmedThrough ∧ r.confirmed ≤ r.requested := by
  simp only [Image.consistent, Image.inRange, Bool.and_eq_true, and_assoc, List.all_eq_true, decide_eq_true_eq, pairs_iff,
    Entry.clear_iff, Entry.inRange] at h
  obtain ⟨_, _, _, _, _, _, _, _, _, _, _, _, hin, _, _, _, _, _, _, _, _, _, _, hclear, _, hconf, hapart, _, hhour, hahead⟩ := h
  refine ⟨⟨hclear, fun e he => ⟨hahead e he, ?_⟩⟩, hapart, fun r hr => ⟨hhour r hr, hconf r hr⟩⟩
  exact (hin e he).2.2.2.1

theorem bookKept : ImageKept Image.bookSound where
  default := by decide
  setSup _ _ h := h
  request code req hreq hload hinit b s h := by
    rw [bookHolds_iff] at h ⊢
    exact bookMachine.request hreq hload hinit b h
  block c hc hrestore s t h ht := by
    rw [bookHolds_iff] at h ⊢
    exact bookMachine.block hc hrestore h ht
  complete s h := by
    rw [bookHolds_iff] at h ⊢
    exact bookHolds_completeSettlement h
  restored m s hm := by
    obtain ⟨hlen, hentries, hrecords⟩ := (bookSound_iff m).mp hm
    rw [bookHolds_iff]
    exact bookHolds_restoreBlocks (bookHolds_takeImage hlen hentries (hrecords.ordered.imp apart_of_rank) hrecords.made s)
  loaded ws m hread hm n s := by
    obtain ⟨hentries, hapart, hmade⟩ := consistent_book hm
    rw [bookHolds_iff]
    exact bookHolds_adopt n (bookHolds_takeImage (imageRead_entries hread) hentries hapart hmade s)
  initialized s := by
    rw [bookHolds_iff]
    exact bookHolds_adopt 1 (bookHolds_takeImage (m := Image.default) (Nat.zero_le _) ⟨.nil, nofun⟩ .nil nofun s)

/-- Settles O10: hours taken from a key leave pieces of its entries, the hours confirmed are the next after those confirmed, and a recut
moves no record. -/
theorem everyStepKeepsBookAndSchedule : Obligations.EveryStepKeepsBookAndSchedule :=
  fun _ _ h ht => bookKept.step h ht

end Sys2Proof.Machine
end

section
/-! SUPPORT. What every response leaves of the schedule: it is recut on a fall of a declared capacity, and else stands (R59 to R61). -/

namespace Sys2Proof.Machine

/-! ### Records cut since a state -/

/-- A record cut by one recut or by several. -/
structure CutSince (r q : SchedRec) : Prop where
  less : q.confirmed < r.confirmed
  most : q.recuts ≤ 255
  recuts : r.recuts < q.recuts ∨ q.recuts = 255
  rest : q = { r with
    confirmed := q.confirmed, state := recordState r.requested q.confirmed
    reason := some (r.reason.getD .capacity), recuts := q.recuts }

theorem CutSince.of_recut {r q : SchedRec} (hlt : q.confirmed < r.confirmed) (hq : q = { r with
    confirmed := q.confirmed, state := recordState r.requested q.confirmed
    reason := some (r.reason.getD .capacity), recuts := min (r.recuts + 1) 255 }) : CutSince r q := by
  have hrecuts : q.recuts = min (r.recuts + 1) 255 := by rw [hq]
  refine ⟨hlt, by omega, by omega, ?_⟩
  rw [hrecuts]
  exact hq

theorem CutSince.trans {r q p : SchedRec} (h : CutSince r q) (h' : CutSince q p) : CutSince r p := by
  have hreason : q.reason = some (r.reason.getD .capacity) := by rw [h.rest]
  have hrequested : q.requested = r.requested := by rw [h.rest]
  refine ⟨h'.less.trans h.less, h'.most, ?_, ?_⟩
  · have := h.recuts
    have := h'.most
    have := h'.recuts
    omega
  · have hp := h'.rest
    rw [hreason, hrequested] at hp
    rw [h.rest] at hp
    exact hp

/-- From `s` to `t` records are only cut, each one in a later hour and told. -/
structure RecutTrail (s : State) (l : List Raised) (t : State) : Prop where
  clock : t.clock = s.clock
  told : t.evq = s.evq.pushAll l
  length : t.sched.length = s.sched.length
  records : ∀ (i : Nat) (r q : SchedRec), s.sched[i]? = some r → t.sched[i]? = some q → q ≠ r →
    isLaterHour s r.hour ∧ CutSince r q ∧ recutTold s r.hour ∈ l

/-- Records are only cut, as above. -/
def onlyCut (s t : State) : Prop := ∃ l : List Raised, RecutTrail s l t

/-- Records are only cut, and each later hour fits where a record is cut or a declared capacity has fallen. -/
def recutsSince (s t : State) : Prop :=
  onlyCut s t ∧ (t.duty.declared < s.duty.declared ∨ t.dry.capacity < s.dry.capacity ∨ t.sched ≠ s.sched → laterHoursFit t)

section
variable {s t : State} {l : List Raised}

/-- What leaves the schedule and both declared capacities. -/
theorem recutsSince_of_acts {ps : List Part} (h : Acts ps s l t) (hclock : Part.clock ∉ ps) (hsched : Part.sched ∉ ps)
    (hdeclared : t.duty.declared = s.duty.declared) (hcap : t.dry.capacity = s.dry.capacity) : recutsSince s t := by
  have hsame : t.sched = s.sched := h.parts .sched hsched
  refine ⟨⟨l, h.parts .clock hclock, h.told, by rw [hsame], fun i r q hr hq hne => ?_⟩, fun hfall => ?_⟩
  · rw [hsame] at hq
    exact absurd (Option.some.inj (hq.symm.trans hr)) hne
  · rw [hsame, hdeclared, hcap] at hfall
    simp at hfall

theorem recutsSince_refl (s : State) : recutsSince s s := recutsSince_of_acts (.refl [] s) (by decide) (by decide) rfl rfl

theorem RecutTrail.recut (h : RecutTrail s l t) :
    RecutTrail s (l ++ ((coveredHours t).filter (cutsHour t)).map (recutTold t)) (recut t) := by
  have hspec := recut_recutOf t
  have htold (k : Nat) : recutTold t k = recutTold s k := by rw [recutTold, recutTold, gasTime, gasTime, h.clock]
  refine ⟨?_, ?_, ?_, fun i r p hr hp hne => ?_⟩
  · exact (hspec.acts.parts .clock (by decide)).trans h.clock
  · rw [hspec.acts.told, h.told, pushAll_append]
  · exact hspec.hours.length_eq.symm.trans h.length
  · have hlt : i < t.sched.length := by
      rw [h.length]
      exact (List.getElem?_eq_some_iff.mp hr).1
    have hq := List.getElem?_eq_getElem hlt
    generalize t.sched[i] = q at hq
    obtain ⟨_, hsame, hcut⟩ := recut_record_cut t hq hp
    have hpq (hpq : p ≠ q) : CutSince q p ∧ q.hour ∈ (coveredHours t).filter (cutsHour t) := by
      have hless : p.confirmed < q.confirmed :=
         Nat.lt_of_le_of_ne (recut_record_cut t hq hp).1 fun he => hpq (hsame he)
      exact ⟨.of_recut hless (hcut hless), (mem_hoursCut t).mpr ⟨i, q, p, hq, hp, rfl, hless⟩⟩
    by_cases hqr : q = r
    · subst hqr
      obtain ⟨hc, hmem⟩ := hpq hne
      obtain ⟨hcovered, _⟩ := List.mem_filter.mp hmem
      have hlater := ((mem_coveredHours t).mp hcovered).1
      refine ⟨?_, hc, List.mem_append_right _ (List.mem_map.mpr ⟨_, hmem, htold _⟩)⟩
      rw [isLaterHour, h.clock] at hlater
      exact hlater
    · obtain ⟨hlater, hc, hmem⟩ := h.records i r q hr hq hqr
      refine ⟨hlater, ?_, List.mem_append_left _ hmem⟩
      by_cases hp : p = q
      · rw [hp]
        exact hc
      · exact hc.trans (hpq hp).1

/-- After a recut the later hours fit. -/
theorem laterHoursFit_recut (t : State) : laterHoursFit (recut t) := by
  intro h hlater
  have hclock : (recut t).clock = t.clock := (recut_recutOf t).acts.parts .clock (by decide)
  rw [isLaterHour, hclock] at hlater
  rw [recut_net t hlater, recut_dry, (recut_plant t).1]
  omega

theorem onlyCut_recut (h : onlyCut s t) : onlyCut s (recut t) := by
  obtain ⟨l, hl⟩ := h
  exact ⟨_, hl.recut⟩

theorem recutsSince_recut (h : onlyCut s t) : recutsSince s (recut t) := ⟨onlyCut_recut h, fun _ => laterHoursFit_recut t⟩

theorem onlyCut_raise (k : EventKind) (a : Option Nat) (b : Option Int) (h : onlyCut s t) : onlyCut s (raise k a b t) := by
  obtain ⟨l, hl⟩ := h
  refine ⟨l ++ [⟨gasTime t, k, a, b⟩], hl.clock, ?_, hl.length, fun i r q hr hq hne => ?_⟩
  · rw [raise_eq, State.setEvq_evq, hl.told, pushAll_append]
  · obtain ⟨hlater, hc, hmem⟩ := hl.records i r q hr hq hne
    exact ⟨hlater, hc, List.mem_append_left _ hmem⟩

/-- What leaves clock, schedule and queue leaves what is told of the records. -/
theorem onlyCut_congr {u : State} (hclock : u.clock = t.clock) (hsched : u.sched = t.sched) (hevq : u.evq = t.evq) (h : onlyCut s t) :
    onlyCut s u := by
  obtain ⟨l, hl⟩ := h
  exact ⟨l, hclock.trans hl.clock, hevq.trans hl.told, by rw [hsched]; exact hl.length, by rw [hsched]; exact hl.records⟩

theorem laterHoursFit_mono {u : State} (hclock : u.clock = t.clock) (hsched : u.sched = t.sched)
    (hdeclared : t.duty.declared ≤ u.duty.declared) (hcap : t.dry.capacity ≤ u.dry.capacity) (h : laterHoursFit t) : laterHoursFit u := by
  intro k hk
  rw [isLaterHour, hclock] at hk
  have := h k hk
  rw [hsched]
  omega

/-- A state of the same clock, schedule and queue, whose capacities stand or rise. -/
theorem recutsSince_rise {u : State} (hclock : u.clock = t.clock) (hsched : u.sched = t.sched) (hevq : u.evq = t.evq)
    (hdeclared : t.duty.declared ≤ u.duty.declared) (hcap : t.dry.capacity ≤ u.dry.capacity) (h : recutsSince s t) : recutsSince s u := by
  refine ⟨onlyCut_congr hclock hsched hevq h.1, fun hfall => laterHoursFit_mono hclock hsched hdeclared hcap (h.2 ?_)⟩
  rw [hsched] at hfall
  rcases hfall with hf | hf | hf
  · exact .inl (by omega)
  · exact .inr (.inl (by omega))
  · exact .inr (.inr hf)

/-! ### The flow, the trains and the units keep it -/

/-- Of actions in an order the world takes, one that makes `P` of `K`, where the others keep both. -/
theorem inAnyOrder_among {K P : State → Prop} {fs : List (State → State)} {f : State → State} (hf : f ∈ fs)
    (hworld : ∀ u n, K u → K (u.setWorld n)) (hK : ∀ g ∈ fs, ∀ u, K u → K (g u)) (hmake : ∀ u, K u → P (f u))
    (hP : ∀ g ∈ fs, ∀ u, P u → P (g u)) (h : K s) : P (inAnyOrder fs s) := by
  obtain ⟨p, hperm, n, he⟩ := inAnyOrder_cases fs s
  obtain ⟨as, bs, rfl⟩ := List.append_of_mem (hperm.mem_iff.mpr hf)
  rw [he, inOrder, List.foldl_append, List.foldl_cons]
  refine inOrder_preserves P bs
    (fun g hg => hP g (hperm.mem_iff.mp (List.mem_append_right _ (List.mem_cons_of_mem _ hg)))) _ (hmake _ ?_)
  exact inOrder_preserves K as (fun g hg => hK g (hperm.mem_iff.mp (List.mem_append_left _ hg))) _ (hworld s n h)

theorem onlyCut_free (s : State) : FlowFree (onlyCut s) where
  raise _ _ _ _ _ h := onlyCut_raise _ _ _ h
  putTrain t _ _ _ h := onlyCut_congr (t := t) rfl rfl rfl h
  setFlow t _ h := onlyCut_congr (t := t) rfl rfl rfl h
  recut _ h := onlyCut_recut h
  setWorld t _ h := onlyCut_congr (t := t) rfl rfl rfl h
  capacity t _ h := onlyCut_congr (t := t) rfl rfl rfl h

theorem recutsSince_raise (k : EventKind) (a : Option Nat) (b : Option Int) (h : recutsSince s t) : recutsSince s (raise k a b t) :=
  ⟨onlyCut_raise k a b h.1, h.2⟩

theorem recutDew (s : State) : DewFree (recutsSince s) where
  raise _ _ _ _ _ h := recutsSince_raise _ _ _ h
  putTrain t _ _ _ h := recutsSince_rise (t := t) rfl rfl rfl (Nat.le_refl _) (Nat.le_refl _) h

theorem recutsSince_setFlow (x : Flow) (h : recutsSince s t) : recutsSince s (t.setFlow x) :=
  recutsSince_rise (t := t) rfl rfl rfl (Nat.le_refl _) (Nat.le_refl _) h

theorem recutsSince_handAtZero (h : recutsSince s t) : recutsSince s (handWithdrawalAtZero t) := by
  dsimp only [handWithdrawalAtZero]
  split
  · exact recutsSince_setFlow _ (recutsSince_recut ((onlyCut_free s).capacity t _ h.1))
  · next hnot =>
    exact recutsSince_setFlow _ (recutsSince_rise (t := t) rfl rfl rfl (Nat.le_refl _) (Nat.le_of_not_lt hnot) h)

theorem recutFlow (s : State) : FlowKept (recutsSince s) (recutsSince s) where
  weaken _ h := h
  raise _ _ _ _ _ _ h := recutsSince_raise _ _ _ h
  setFlow _ _ _ _ h := recutsSince_setFlow _ h
  quiet _ _ _ _ _ _ h := recutsSince_setFlow _ h
  follow _ h := followDirection_kept ((recutDew s).kept fun _ => recutsSince_handAtZero) (recutDew s).rest h
  reshare _ h := (recutDew s).reshare h

theorem recutsSince_setWorld (n : Nat) (h : recutsSince s t) : recutsSince s (t.setWorld n) :=
  recutsSince_rise (t := t) rfl rfl rfl (Nat.le_refl _) (Nat.le_refl _) h

/-- A figure handed on among the orders of the recut, where it falls, and of its reader. -/
theorem recutsSince_handed {p q : Prop} [Decidable p] [Decidable q] {receive : State → State}
    (hreceive : ∀ u, onlyCut s u → onlyCut s (receive u)) (hreceive' : ∀ u, recutsSince s u → recutsSince s (receive u))
    (h : onlyCut s t) (hstands : ¬p → recutsSince s t) :
    recutsSince s (inAnyOrder ((if p then [recut] else []) ++ (if q then [] else [receive])) t) := by
  have hact {g : State → State} (hg : g ∈ (if p then [recut] else []) ++ (if q then [] else [receive])) : g = recut ∨ g = receive := by
    rcases List.mem_append.mp hg with hg | hg
    · exact .inl (mem_signal hg)
    · split at hg
      · exact absurd hg List.not_mem_nil
      · exact .inr (List.mem_singleton.mp hg)
  by_cases hp : p
  · refine inAnyOrder_among (K := onlyCut s) (f := recut) ?_ (fun u n => (onlyCut_free s).setWorld u n) (fun g hg u hu => ?_)
      (fun u hu => recutsSince_recut hu) (fun g hg u hu => ?_) h
    · rw [if_pos hp]
      exact List.mem_append_left _ (List.mem_singleton.mpr rfl)
    · rcases hact hg with rfl | rfl
      · exact onlyCut_recut hu
      · exact hreceive u hu
    · rcases hact hg with rfl | rfl
      · exact recutsSince_recut hu.1
      · exact hreceive' u hu
  · refine inAnyOrder_preserves (recutsSince s) _ (fun g hg u hu => ?_) (fun u n hu => recutsSince_setWorld n hu) _ (hstands hp)
    rcases hact hg with rfl | rfl
    · exact recutsSince_recut hu.1
    · exact hreceive' u hu

theorem recutsSince_handWithdrawal (h : recutsSince s t) : recutsSince s (handWithdrawal t) := by
  dsimp only [handWithdrawal]
  refine (recutDew s).reshare (recutsSince_handed (fun u hu => (onlyCut_free s).receiveWdr _ hu)
    (fun u hu => (recutFlow s).receiveWdr _ (recutsSince_setFlow _ hu)) ((onlyCut_free s).capacity t _ h.1) fun hnot => ?_)
  exact recutsSince_rise (t := t) rfl rfl rfl (Nat.le_refl _) (Nat.le_of_not_lt hnot) h

theorem recutsSince_handInjection (h : recutsSince s t) : recutsSince s (handInjection t) := by
  dsimp only [handInjection]
  refine recutsSince_handed (fun u hu => (onlyCut_free s).receiveInj _ hu)
    (fun u hu => (recutFlow s).receiveInj _ (recutsSince_setFlow _ hu)) (onlyCut_congr (t := t) rfl rfl rfl h.1) fun hnot => ?_
  exact recutsSince_rise (t := t) rfl rfl rfl (Nat.le_of_not_lt hnot) (Nat.le_refl _) h

theorem recutTrain (s : State) (t : Fin 2) : TrainKept handWithdrawal t (recutsSince s) (recutsSince s) :=
  .whole (recutDew s) (fun u _ _ h => recutsSince_rise (t := u) rfl rfl rfl (Nat.le_refl _) (Nat.le_refl _) h)
    fun _ h => recutsSince_handWithdrawal h

theorem recutDry (s : State) : DryKept (recutsSince s) (recutsSince s) :=
  .whole (recutDew s) (recutTrain s)
    (fun u h => recutsSince_rise (t := u) rfl rfl rfl (Nat.le_refl _) (Nat.le_refl _) h)
    fun u h => recutsSince_rise (t := u) rfl rfl rfl (Nat.le_refl _) (Nat.le_refl _) h

theorem recutUnit (s : State) (i : Fin 6) : UnitKept i (recutsSince s) (recutsSince s) :=
  .whole (fun _ _ _ _ _ h => recutsSince_raise _ _ _ h)
    (fun u _ _ h => recutsSince_rise (t := u) rfl rfl rfl (Nat.le_refl _) (Nat.le_refl _) h)
    fun _ h => recutsSince_handInjection h

theorem recutDuty (s : State) : DutyKept (recutsSince s) (recutsSince s) where
  unit := recutUnit s
  accrue u h := recutsSince_rise (t := u) rfl rfl rfl (Nat.le_refl _) (Nat.le_refl _) h
  age u h := recutsSince_rise (t := u) rfl rfl rfl (Nat.le_refl _) (Nat.le_refl _) h
  note u _ _ h := recutsSince_rise (t := u) rfl rfl rfl (Nat.le_refl _) (Nat.le_refl _) h

/-! ### The words of the statements -/

/-- An event told between two states stands in what is appended. -/
theorem toldBetween_of_mem {m : List Raised} {e : Raised} (hq : t.evq = s.evq.pushAll m) (he : e ∈ m) : toldBetween s t [e] :=
  ⟨m, hq, List.singleton_sublist.mpr he⟩

theorem recutFollows_of_trail {u v : State} (h : recutsSince u t)
    (hv : v.clock = t.clock ∧ v.sched = t.sched ∧ v.duty = t.duty ∧ v.dry = t.dry)
    (hq : ∀ l, t.evq = u.evq.pushAll l → ∃ m, v.evq = s.evq.pushAll m ∧ ∀ e ∈ l, e ∈ m)
    (hs : u.sched = s.sched ∧ u.duty.declared = s.duty.declared ∧ u.dry.capacity = s.dry.capacity) : recutFollows s v := by
  obtain ⟨⟨l, htrail⟩, hfits⟩ := h
  obtain ⟨hclock, hsched, hduty, hdry⟩ := hv
  obtain ⟨hs1, hs2, hs3⟩ := hs
  obtain ⟨m, hm, hlm⟩ := hq l htrail.told
  refine ⟨by rw [hsched, ← hs1]; exact htrail.length, fun i r q hr hq' hne => ?_, fun hfall => ?_⟩
  · rw [← hs1] at hr
    rw [hsched] at hq'
    obtain ⟨hlater, hc, hmem⟩ := htrail.records i r q hr hq' hne
    refine ⟨?_, hc.less, hc.recuts, hc.rest, ?_⟩
    · rw [isLaterHour, hclock, htrail.clock]
      exact hlater
    · rw [gasTime, hclock, htrail.clock]
      exact toldBetween_of_mem hm (hlm _ hmem)
  · rw [hsched, hduty, hdry, ← hs1, ← hs2, ← hs3] at hfall
    exact laterHoursFit_mono hclock hsched (by rw [hduty]) (by rw [hdry]) (hfits hfall)

/-- A gathered response, of a state that has the schedule, the capacities and the queue of `s`. -/
theorem recutFollows_gathered {u : State} {f : State → State} (h : recutsSince u.gatheringEvents (f u.gatheringEvents))
    (hs : u.sched = s.sched ∧ u.duty.declared = s.duty.declared ∧ u.dry.capacity = s.dry.capacity) (hq : u.evq = s.evq) :
    recutFollows s (gathered f u) := by
  refine recutFollows_of_trail h ⟨rfl, rfl, rfl, rfl⟩ (fun l hl => ?_) hs
  obtain ⟨m, hm, hperm, _⟩ := gathered_pushAll f u l hl
  rw [hq] at hm
  exact ⟨m, hm, fun e he => hperm.mem_iff.mpr he⟩

end

end Sys2Proof.Machine
end

section
/-! SUPPORT. A response of one unit: its record, both injection capacities, its events among the others, and the recut (R115 to R128):
O47. -/

namespace Sys2Proof.Machine

/-! ### Events told -/

section
variable {ps : List Part} {s t u : State} {es : List Raised}

theorem toldBetween_nil (h : Does ps s t) : toldBetween s t [] := by
  obtain ⟨l, hl⟩ := h.appends
  exact ⟨l, hl, List.nil_sublist l⟩

theorem toldBetween.after (h : toldBetween s t es) (hd : Does ps t u) : toldBetween s u es := by
  obtain ⟨l, hl, hsub⟩ := h
  obtain ⟨m, hm⟩ := hd.appends
  exact ⟨l ++ m, by rw [pushAll_append, ← hl, hm], hsub.trans (List.sublist_append_left l m)⟩

theorem toldBetween.before (h : toldBetween t u es) (hd : Does ps s t) : toldBetween s u es := by
  obtain ⟨l, hl, hsub⟩ := h
  obtain ⟨m, hm⟩ := hd.appends
  exact ⟨m ++ l, by rw [pushAll_append, ← hm, hl], hsub.trans (List.sublist_append_right m l)⟩

theorem toldBetween.trans {fs : List Raised} (h : toldBetween s t es) (h' : toldBetween t u fs) : toldBetween s u (es ++ fs) := by
  obtain ⟨l, hl, hsub⟩ := h
  obtain ⟨m, hm, hsub'⟩ := h'
  exact ⟨l ++ m, by rw [pushAll_append, ← hl, hm], hsub.append hsub'⟩

theorem Acts.toldBetween {l : List Raised} (h : Acts ps s l t) : Machine.toldBetween s t l := ⟨l, h.told, List.Sublist.refl l⟩

/-- The events of one block keep their order in a gathered response. -/
theorem toldBetween_gathered {f : State → State} {b : EventSource} (h : toldBetween s.gatheringEvents (f s.gatheringEvents) es)
    (hb : ∀ e ∈ es, e.kind.source = b) : toldBetween s (gathered f s) es := by
  obtain ⟨l, hl, hsub⟩ := h
  obtain ⟨m, hm, _, hfilter⟩ := gathered_pushAll f s l hl
  refine ⟨m, hm, ?_⟩
  have hes : es = es.filter (fun r => r.kind.source == b) := (List.filter_eq_self.mpr fun e he => beq_iff_eq.mpr (hb e he)).symm
  rw [hes]
  refine (hsub.filter _).trans ?_
  rw [← hfilter b]
  exact List.filter_sublist

theorem toldBetween_singleton {e : Raised} (h : toldBetween s t [e]) : ∃ l m : List Raised, t.evq = s.evq.pushAll (l ++ e :: m) := by
  obtain ⟨k, hk, hsub⟩ := h
  obtain ⟨l, m, rfl⟩ := List.append_of_mem (List.singleton_sublist.mp hsub)
  exact ⟨l, m, hk⟩

/-- At most one event, among the others. -/
theorem toldBetween_split (h : toldBetween s t es) (hlen : es.length ≤ 1) :
    ∃ l m : List Raised, t.evq = s.evq.pushAll (l ++ es ++ m) := by
  match es, hlen with
  | [], _ =>
    obtain ⟨l, hl, _⟩ := h
    exact ⟨l, [], by rw [List.append_nil, List.append_nil]; exact hl⟩
  | [e], _ =>
    obtain ⟨l, m, hlm⟩ := toldBetween_singleton h
    exact ⟨l, m, by rw [List.append_assoc]; exact hlm⟩
end

/-! ### One unit's response -/

/-- What handing the injection capacities on leaves of the scheduler's state. -/
theorem handInjection_duty (s : State) :
    (handInjection s).duty = { s.duty with declared := declaredInjection s, ready := readyInjection s } := by
  have hP : FlowFree (fun u => u.duty = { s.duty with declared := declaredInjection s, ready := readyInjection s }) :=
    { raise := fun _ _ _ _ _ h => h
      putTrain := fun _ _ _ _ h => h
      setFlow := fun _ _ h => h
      recut := fun u h => (recut_plant u).1.trans h
      setWorld := fun _ _ h => h
      capacity := fun _ _ h => h }
  exact hP.handInjection rfl

/-- A response that ends in the hand-over of the injection capacities, of a state `u` with the units moved and the events `es` told. -/
theorem gathered_handed {f : State → State} {s u : State} {es : List Raised} (hf : f s.gatheringEvents = handInjection u)
    (hu : Acts [.duty, .evq] s.gatheringEvents es u) (hdeclared : u.duty.declared = s.duty.declared)
    (hes : ∀ e ∈ es, e.kind.source = .dutyScheduler) :
    ((gathered f s).duty.units = u.duty.units ∧ (gathered f s).duty.roster = u.duty.roster ∧ (gathered f s).duty.fuel = u.duty.fuel)
    ∧ injCurrent (gathered f s) ∧ toldBetween s (gathered f s) es ∧ recutFollows s (gathered f s)
    ∧ s.changesOnly dutyParts (gathered f s) := by
  have hduty : (gathered f s).duty = (handInjection u).duty := by
    rw [← hf]
    rfl
  have hhand : Does dutyParts u (handInjection u) := does_handInjection (by decide) u (by decide)
  have hdoes : Does dutyParts s.gatheringEvents (f s.gatheringEvents) := by
    rw [hf]
    exact (hu.mono (by decide)).does.trans hhand
  refine ⟨?_, ?_, toldBetween_gathered (b := .dutyScheduler) ?_ hes, recutFollows_gathered ?_ ⟨rfl, rfl, rfl⟩ rfl, ?_⟩
  · rw [hduty, handInjection_duty]
    exact ⟨rfl, rfl, rfl⟩
  · show injCurrent (f s.gatheringEvents)
    rw [hf]
    exact injCurrent_handInjection u
  · rw [hf]
    exact hu.toldBetween.after hhand
  · have hstart : recutsSince s.gatheringEvents u :=
      recutsSince_of_acts hu (by decide) (by decide) hdeclared (congrArg Drying.capacity (hu.parts .dry (by decide) : u.dry = _))
    rw [hf]
    exact recutsSince_handInjection hstart
  · exact (Does.gathered (by decide) (by decide) hdoes).parts

theorem acts_putUnit {ps : List Part} (i : Fin 6) (v : CUnit) (s : State) (h : Part.duty ∈ ps) : Acts ps s [] (putUnit i v s) :=
  acts_setDuty s _ h

theorem acts_putUnit_raise (i : Fin 6) (v : CUnit) (k : EventKind) (a : Option Nat) (b : Option Int) (s : State) :
    Acts [.duty, .evq] s [⟨gasTime s, k, a, b⟩] (raise k a b (putUnit i v s)) :=
  (acts_putUnit i v s (by decide)).trans (acts_raise (putUnit i v s) k a b (by decide))

/-- What a row that ends a phase of unit `i` leaves. -/
theorem unitRow {f : State → State} {s u : State} {i : Fin 6} {v : CUnit} {es : List Raised} (hf : f s.gatheringEvents = handInjection u)
    (hu : Acts [.duty, .evq] s.gatheringEvents es u) (hduty : u.duty = (putUnit i v s).duty)
    (hes : ∀ e ∈ es, e.kind.source = .dutyScheduler) (hlen : es.length ≤ 1) : ∃ l m : List Raised,
      (gathered f s).duty.units = setVec s.duty.units i (v.renote s.site.startLimit)
      ∧ (gathered f s).duty.declared = declaredInjection (gathered f s) ∧ (gathered f s).duty.ready = readyInjection (gathered f s)
      ∧ (gathered f s).flow.cInj = (gathered f s).duty.ready
      ∧ (gathered f s).evq = s.evq.pushAll (l ++ es ++ m) ∧ recutFollows s (gathered f s)
      ∧ s.changesOnly [.world, .duty, .flow, .dry, .sched, .evq] (gathered f s) := by
  obtain ⟨⟨hunits, _, _⟩, ⟨⟨hdeclared, hready⟩, hheld⟩, htold, hrecut, hparts⟩ :=
    gathered_handed hf hu (by rw [hduty]; rfl) hes
  obtain ⟨l, m, hlm⟩ := toldBetween_split htold hlen
  exact ⟨l, m, by rw [hunits, hduty]; rfl, hdeclared, hready, hheld, hlm, hrecut, hparts⟩

/-! ### The ends of a unit's phases (R119, R120, R122, R128) -/

section
variable (s : State) (i : Fin 6)

theorem exec_warmUpExpiry : exec (.warmUpExpiry i) s =
    .next (if (s.duty.units[i]).state = .starting ∧ (s.duty.units[i]).phaseTimer ≤ 1 then gathered (endWarmUp i) s else s) := rfl

theorem exec_hotHoldExpiry : exec (.hotHoldExpiry i) s =
    .next (if (s.duty.units[i]).state = .hot ∧ (s.duty.units[i]).phaseTimer = 1 then gathered (endHotHold i) s else s) := rfl

theorem exec_warmHoldExpiry : exec (.warmHoldExpiry i) s =
    .next (if (s.duty.units[i]).state = .warm ∧ (s.duty.units[i]).phaseTimer = 1 then gathered (endWarmHold i) s else s) := rfl

theorem exec_recoveryIntervalExpiry : exec (.recoveryIntervalExpiry i) s =
    .next (if (s.duty.units[i]).state = .tripped ∧ (s.duty.units[i]).phaseTimer ≤ 1 then gathered (endRecovery i) s else s) := rfl

theorem exec_attemptsReset : exec (.attemptsReset i) s =
    .next (if (s.duty.units[i]).state = .loaded ∧ 3600 ≤ (s.duty.units[i]).loadedSeconds
      then putUnit i { s.duty.units[i] with attempts := 0 } s else s) := rfl
end

/-- A unit's event in a list of one. -/
theorem duty_source {t : Option GasTime} {k : EventKind} {a : Option Nat} {b : Option Int} (hk : k.source = .dutyScheduler) :
    ∀ e ∈ [(⟨t, k, a, b⟩ : Raised)], e.kind.source = .dutyScheduler := by
  rintro e he
  rw [List.mem_singleton.mp he]
  exact hk

/-- Settles O47: each end of a phase writes the one record, raises the unit's event and hands the capacities on. -/
theorem unitPhasesEnd : Obligations.UnitPhasesEnd := by
  intro s i
  refine ⟨fun hst hle => ?_, fun hst heq => ?_, fun hst heq => ?_, fun hst hle => ?_, fun hn => ?_, fun hn => ?_, fun hn => ?_,
    fun hn => ?_, ?_, fun hst hle => ?_, fun hn => ?_⟩
  · obtain ⟨l, m, hrow⟩ := unitRow (s := s) (f := endWarmUp i) rfl (acts_putUnit_raise i _ _ _ _ s.gatheringEvents) rfl
      (duty_source rfl) (Nat.le_refl 1)
    exact ⟨_, l, m, by rw [exec_warmUpExpiry, if_pos ⟨hst, hle⟩], hrow⟩
  · have hend : endHotHold i s.gatheringEvents = handInjection (putUnit i (if (s.duty.units[i]).cfg.keepAux = true then
        { s.duty.units[i] with state := .warm, phaseTimer := s.site.warmHold }
        else { s.duty.units[i] with state := .cold, phaseTimer := 0 }) s.gatheringEvents) := rfl
    obtain ⟨l, m, hrow⟩ := unitRow hend (acts_putUnit i _ _ (by decide)) rfl nofun (Nat.zero_le 1)
    exact ⟨_, l, m, by rw [exec_hotHoldExpiry, if_pos ⟨hst, heq⟩], hrow⟩
  · obtain ⟨l, m, hrow⟩ := unitRow (s := s) (f := endWarmHold i) rfl (acts_putUnit i _ _ (by decide)) rfl nofun (Nat.zero_le 1)
    exact ⟨_, l, m, by rw [exec_warmHoldExpiry, if_pos ⟨hst, heq⟩], hrow⟩
  · obtain ⟨l, m, hrow⟩ := unitRow (s := s) (f := endRecovery i) rfl (acts_putUnit_raise i _ _ _ _ s.gatheringEvents) rfl
      (duty_source rfl) (Nat.le_refl 1)
    exact ⟨_, l, m, by rw [exec_recoveryIntervalExpiry, if_pos ⟨hst, hle⟩], hrow⟩
  · rw [exec_warmUpExpiry, if_neg fun h => hn.elim (fun hs => hs h.1) fun ht => by omega]
  · rw [exec_hotHoldExpiry, if_neg fun h => hn.elim (fun hs => hs h.1) fun ht => by omega]
  · rw [exec_warmHoldExpiry, if_neg fun h => hn.elim (fun hs => hs h.1) fun ht => by omega]
  · rw [exec_recoveryIntervalExpiry, if_neg fun h => hn.elim (fun hs => hs h.1) fun ht => by omega]
  · exact ⟨_, rfl, rfl, rfl, rfl, (acts_putUnit (ps := [.duty]) i _ s (by decide)).parts⟩
  · exact ⟨putUnit i { s.duty.units[i] with attempts := 0 } s, by rw [exec_attemptsReset, if_pos ⟨hst, hle⟩], rfl, rfl, rfl,
      (acts_putUnit (ps := [.duty]) i _ s (by decide)).parts⟩
  · rw [exec_attemptsReset, if_neg hn]

end Sys2Proof.Machine
end

section
/-! SUPPORT. The direction machine (R101 to R105): what the trains that follow it leave of the flow, and how it goes from one direction
to the next. -/

namespace Sys2Proof.Machine

/-! ### The flow while the trains follow -/

/-- A flow but for the withdrawal capacity and T. -/
def Flow.course (f : Flow) : Flow := { f with t := 0, cWdr := 0 }

/-- T is T_raw limited to the capacities held (R96). -/
def Flow.limited (f : Flow) : Prop := f.t = max (-(f.cWdr : Int)) (min (f.cInj : Int) f.tRaw)

theorem courseFree (f : Flow) : DewFree (fun s => s.flow.course = f) where
  raise _ _ _ _ _ h := h
  putTrain _ _ _ _ h := h

theorem handAtZero_flow (s : State) :
    (handWithdrawalAtZero s).flow = limitT { s.flow with cWdr := withdrawalCapacity s } := by
  dsimp only [handWithdrawalAtZero]
  split
  · rw [State.setFlow_flow, (recut_plant _).2.2]
    rfl
  · rfl

theorem follow_course (s : State) : (followDirection handWithdrawalAtZero s).flow.course = s.flow.course :=
  followDirection_kept (P := fun u => u.flow.course = s.flow.course)
    ((courseFree _).kept fun u hu => by rw [handAtZero_flow]; exact hu) (courseFree _).rest rfl

theorem limitedFree : DewFree (fun s => s.flow.limited) where
  raise _ _ _ _ _ h := h
  putTrain _ _ _ _ h := h

theorem follow_limited {s : State} (h : s.flow.limited) : (followDirection handWithdrawalAtZero s).flow.limited :=
  followDirection_kept (P := fun u => u.flow.limited) (limitedFree.kept fun u _ => by rw [handAtZero_flow]; rfl) limitedFree.rest h

theorem does_sendStandby (t : Fin 2) (s : State) : Acts [.dry] s [] (sendStandby t s) := by
  dsimp only [sendStandby]
  split
  · exact acts_setDry s _ (by decide)
  · exact .refl _ s

theorem acts_reshare (s : State) : Acts [.dry] s [] (reshare s) := acts_setDry s _ (by decide)

/-- Outside WITHDRAWING the trains that follow change their own records alone. -/
theorem follow_rest {hand : Hand} {s : State} (h : s.flow.dir ≠ .withdrawing) : Acts [.dry] s [] (followDirection hand s) := by
  rw [followDirection, if_neg (by simpa using h)]
  exact ((does_sendStandby 0 s).trans (does_sendStandby 1 _)).trans (acts_reshare _)

/-! ### A direction entered -/

/-- The last direction after one is entered (R104). -/
def lastOf (d : FlowDir) (old : Option Direction) : Option Direction :=
  match d with
  | .injecting => some .inject
  | .withdrawing => some .withdraw
  | .hold => old
  | .turnaround => old

/-- The flow as a direction is entered. -/
def Flow.entered (f : Flow) (d : FlowDir) : Flow := { f with dir := d, lastDir := lastOf d f.lastDir }

/-- The event of a direction entered. -/
def dirTold (s : State) (d : FlowDir) : Raised := ⟨gasTime s, .directionChanged, none, some (d.code : Int)⟩

/-- The event of a turnaround entered. -/
def turnTold (s : State) : Raised := ⟨gasTime s, .turnaroundBegin, none, some (s.site.turnHold : Int)⟩

section
variable (s : State) (d : FlowDir)

theorem enterDir_eq : enterDir d s =
    followDirection handWithdrawalAtZero (raise .directionChanged none (some (d.code : Int)) (s.setFlow (s.flow.entered d))) := by
  cases d <;> rfl

theorem enterDir_course : (enterDir d s).flow.course = (s.flow.entered d).course := by
  rw [enterDir_eq, follow_course]
  rfl

theorem enterDir_limited (h : s.flow.limited) : (enterDir d s).flow.limited := by
  rw [enterDir_eq]
  exact follow_limited h

theorem acts_entered : Acts [.flow, .evq] s [dirTold s d] (raise .directionChanged none (some (d.code : Int))
    (s.setFlow (s.flow.entered d))) :=
  (acts_setFlow s (s.flow.entered d) List.mem_cons_self).trans (acts_raise _ _ _ _ (List.mem_cons_of_mem _ List.mem_cons_self))

theorem does_followAtZero (u : State) : Does flowParts u (followDirection handWithdrawalAtZero u) :=
  (flowFree_of_subset (List.Subset.refl flowParts) u).flow.follow u (.refl _ u)

theorem does_enterDir : Does flowParts s (enterDir d s) :=
  (flowFree_of_subset (List.Subset.refl flowParts) s).flow.enterDir d (.refl _ s)

theorem does_enterTurnaround : Does flowParts s (enterTurnaround s) :=
  (flowFree_of_subset (List.Subset.refl flowParts) s).flow.enterTurnaround (.refl _ s)

theorem does_endAtZero : Does flowParts s (endAtZero s) :=
  (flowFree_of_subset (List.Subset.refl flowParts) s).flow.endAtZero (.refl _ s)

theorem does_stepCut (x : Int) : Does flowParts s (stepCut x s) :=
  (flowFree_of_subset (List.Subset.refl flowParts) s).flow.stepCut x (.refl _ s)

theorem enterDir_told : toldBetween s (enterDir d s) [dirTold s d] := by
  rw [enterDir_eq]
  exact (acts_entered s d).toldBetween.after (does_followAtZero _)

/-- A direction but WITHDRAWING is entered with its one event. -/
theorem enterDir_rest (h : d ≠ .withdrawing) : Acts [.flow, .dry, .evq] s [dirTold s d] (enterDir d s) := by
  rw [enterDir_eq]
  exact ((acts_entered s d).mono (by decide)).trans ((follow_rest h).mono (by decide))
end

/-! ### A turnaround entered -/

/-- The state in which the trains follow a turnaround. -/
def turning (s : State) : State :=
  raise .turnaroundBegin none (some (s.site.turnHold : Int)) (s.setFlow { s.flow with dir := .turnaround, timer := s.site.turnHold })

section
variable (s : State)

theorem acts_turning : Acts [.flow, .evq] s [turnTold s] (turning s) :=
  (acts_setFlow s { s.flow with dir := .turnaround, timer := s.site.turnHold } List.mem_cons_self).trans
    (acts_raise _ _ _ _ (List.mem_cons_of_mem _ List.mem_cons_self))

/-- The state that a turnaround holds in. -/
def turned : State := followDirection handWithdrawalAtZero (turning s)

theorem acts_turned : Acts [.flow, .dry, .evq] s [turnTold s] (turned s) :=
  ((acts_turning s).mono (by decide)).trans ((follow_rest (hand := handWithdrawalAtZero) (s := turning s) nofun).mono (by decide))

theorem turned_flow : (turned s).flow = { s.flow with dir := .turnaround, timer := s.site.turnHold } :=
  (follow_rest (hand := handWithdrawalAtZero) (s := turning s) nofun).parts .flow (by decide)

theorem enterTurnaround_eq : enterTurnaround s = if s.site.turnHold = 0 then expireTurnaround (turned s) else turned s := rfl

end

/-! ### Redirected (R101 to R105) -/

/-- A direction is entered, after the events `before`. -/
def Enters (s t : State) (before : List Raised) (d : FlowDir) : Prop :=
  t.flow.dir = d ∧ t.flow.lastDir = lastOf d s.flow.lastDir ∧ toldBetween s t (before ++ [dirTold t d])

/-- The direction leaves through TURNAROUND. -/
def Turns (s t : State) : Prop :=
  (t.site.turnHold ≠ 0 → t.flow.dir = .turnaround ∧ t.flow.timer = t.site.turnHold ∧ t.flow.lastDir = s.flow.lastDir
    ∧ toldBetween s t [turnTold t])
  ∧ (t.site.turnHold = 0 → t.flow.timer = 0 ∧ Enters s t [turnTold t] (chosenDir t.flow.tRaw))

/-- The direction stands. -/
def DirStays (s t : State) : Prop := t.flow.dir = s.flow.dir ∧ t.flow.timer = s.flow.timer ∧ t.flow.lastDir = s.flow.lastDir

/-- A direction ends, T_raw being what it is. -/
def Ends (s t : State) : Prop := if t.flow.tRaw = 0 then Enters s t [] .hold else Turns s t

section
variable {s t : State}

theorem redirected_hold (hdir : s.flow.dir = .hold) : redirected s t ↔
    if t.flow.tRaw = 0 then DirStays s t
    else if 0 < t.flow.tRaw ∧ s.flow.lastDir = some .inject then Enters s t [] .injecting
    else if t.flow.tRaw < 0 ∧ s.flow.lastDir = some .withdraw then Enters s t [] .withdrawing
    else Turns s t := by
  unfold redirected DirStays Turns chosenDir
  rw [hdir]
  dsimp only
  split_ifs <;> exact Iff.rfl

theorem redirected_injecting (hdir : s.flow.dir = .injecting) : redirected s t ↔
    if t.flow.setpoint = 0 ∧ t.flow.tRaw ≤ 0 then Ends s t else DirStays s t := by
  unfold redirected DirStays Ends Turns chosenDir
  rw [hdir]
  dsimp only
  split_ifs <;> exact Iff.rfl

theorem redirected_withdrawing (hdir : s.flow.dir = .withdrawing) : redirected s t ↔
    if t.flow.setpoint = 0 ∧ 0 ≤ t.flow.tRaw then Ends s t else DirStays s t := by
  unfold redirected DirStays Ends Turns chosenDir
  rw [hdir]
  dsimp only
  split_ifs <;> exact Iff.rfl

theorem redirected_turnaround (hdir : s.flow.dir = .turnaround) : redirected s t ↔ DirStays s t := by
  unfold redirected DirStays
  rw [hdir]
end

/-! ### From a state to the next -/

/-- What a statement about the direction reads of the flow it begins with. -/
def SameDir (f g : Flow) : Prop := g.dir = f.dir ∧ g.timer = f.timer ∧ g.lastDir = f.lastDir

/-- What it reads of the state it ends with, the events apart. -/
structure SameCourse (t u : State) : Prop where
  dir : SameDir t.flow u.flow
  tRaw : u.flow.tRaw = t.flow.tRaw
  setpoint : u.flow.setpoint = t.flow.setpoint
  site : u.site = t.site
  clock : u.clock = t.clock

/-- What the flow controller tells from `s` to `t` is told from `s'` to `t'`. -/
def KeepsTold (s t s' t' : State) : Prop :=
  ∀ es : List Raised, (∀ e ∈ es, e.kind.source = .flowController) → toldBetween s t es → toldBetween s' t' es

section
variable {s t s' t' : State} (hs : SameDir s.flow s'.flow) (ht : SameCourse t t') (htold : KeepsTold s t s' t')
include hs ht htold

theorem Enters.congr {before : List Raised} {d : FlowDir} (hbefore : ∀ e ∈ before, e.kind.source = .flowController)
    (h : Enters s t before d) : Enters s' t' before d := by
  obtain ⟨hd, hlast, hev⟩ := h
  have hlast' : lastOf d s'.flow.lastDir = lastOf d s.flow.lastDir := by rw [hs.2.2]
  have hdir : dirTold t' d = dirTold t d := by rw [dirTold, dirTold, gasTime, gasTime, ht.clock]
  refine ⟨ht.dir.1.trans hd, ht.dir.2.2.trans (hlast.trans hlast'.symm), ?_⟩
  rw [hdir]
  refine htold _ (fun e he => ?_) hev
  rcases List.mem_append.mp he with he | he
  · exact hbefore e he
  · rw [List.mem_singleton.mp he]
    rfl

theorem Turns.congr (h : Turns s t) : Turns s' t' := by
  have hturn : turnTold t' = turnTold t := by rw [turnTold, turnTold, gasTime, gasTime, ht.clock, ht.site]
  have hbegun : ∀ e ∈ [turnTold t], e.kind.source = .flowController := fun e he => by
    rw [List.mem_singleton.mp he]
    rfl
  rw [Turns, ht.site, hturn, ht.tRaw]
  refine ⟨fun hhold => ?_, fun hzero => ?_⟩
  · obtain ⟨hd, htimer, hlast, hev⟩ := h.1 hhold
    exact ⟨ht.dir.1.trans hd, ht.dir.2.1.trans htimer, ht.dir.2.2.trans (hlast.trans hs.2.2.symm), htold _ hbegun hev⟩
  · obtain ⟨htimer, henters⟩ := h.2 hzero
    exact ⟨ht.dir.2.1.trans htimer, henters.congr hs ht htold hbegun⟩

theorem Ends.congr (h : Ends s t) : Ends s' t' := by
  unfold Ends at h ⊢
  rw [ht.tRaw]
  split
  · next hz =>
    rw [if_pos hz] at h
    exact Enters.congr hs ht htold nofun h
  · next hz =>
    rw [if_neg hz] at h
    exact Turns.congr hs ht htold h

omit htold in
theorem DirStays.congr (h : DirStays s t) : DirStays s' t' :=
  ⟨ht.dir.1.trans (h.1.trans hs.1.symm), ht.dir.2.1.trans (h.2.1.trans hs.2.1.symm), ht.dir.2.2.trans (h.2.2.trans hs.2.2.symm)⟩

/-- The direction goes as R101 to R105 say between other states too. -/
theorem redirected_congr (h : redirected s t) : redirected s' t' := by
  cases hdir : s.flow.dir
  case hold =>
    rw [redirected_hold hdir] at h
    rw [redirected_hold (hs.1.trans hdir), ht.tRaw, hs.2.2]
    split_ifs at h ⊢
    · exact h.congr hs ht
    · exact Enters.congr hs ht htold nofun h
    · exact Enters.congr hs ht htold nofun h
    · exact h.congr hs ht htold
  case injecting =>
    rw [redirected_injecting hdir] at h
    rw [redirected_injecting (hs.1.trans hdir), ht.setpoint, ht.tRaw]
    split_ifs at h ⊢
    · exact h.congr hs ht htold
    · exact h.congr hs ht
  case withdrawing =>
    rw [redirected_withdrawing hdir] at h
    rw [redirected_withdrawing (hs.1.trans hdir), ht.setpoint, ht.tRaw]
    split_ifs at h ⊢
    · exact h.congr hs ht htold
    · exact h.congr hs ht
  case turnaround =>
    rw [redirected_turnaround hdir] at h
    rw [redirected_turnaround (hs.1.trans hdir)]
    exact h.congr hs ht
end

theorem SameDir.refl (f : Flow) : SameDir f f := ⟨rfl, rfl, rfl⟩

theorem SameCourse.refl (s : State) : SameCourse s s := ⟨.refl _, rfl, rfl, rfl, rfl⟩

/-- What is done before, leaving the direction. -/
theorem redirected_before {ps : List Part} {s u t : State} (hd : Does ps s u) (hs : SameDir u.flow s.flow) (h : redirected u t) : redirected s t :=
  redirected_congr hs (.refl t) (fun _ _ htold => htold.before hd) h

/-- What is done afterwards, leaving the direction, T_raw and S. -/
theorem redirected_after {ps : List Part} {s t u : State} (hd : Does ps t u) (ht : SameCourse t u) (h : redirected s t) : redirected s u :=
  redirected_congr (.refl _) ht (fun _ _ htold => htold.after hd) h

theorem redirected_gathered {f : State → State} {s : State} (h : redirected s.gatheringEvents (f s.gatheringEvents)) :
    redirected s (gathered f s) :=
  redirected_congr (s := s.gatheringEvents) (t := f s.gatheringEvents) ⟨rfl, rfl, rfl⟩ ⟨⟨rfl, rfl, rfl⟩, rfl, rfl, rfl, rfl⟩
    (fun _ hes htold => toldBetween_gathered htold hes) h

/-! ### The direction machine's acts (R101 to R103) -/

section
variable {s : State}

/-- What the trains that follow leave of a flow. -/
structure CourseKept (f g : Flow) : Prop where
  tRaw : g.tRaw = f.tRaw
  setpoint : g.setpoint = f.setpoint
  lastCut : g.lastCut = f.lastCut
  cInj : g.cInj = f.cInj
  limited : f.limited → g.limited

theorem CourseKept.refl (f : Flow) : CourseKept f f := ⟨rfl, rfl, rfl, rfl, id⟩

theorem CourseKept.trans {f g h : Flow} (a : CourseKept f g) (b : CourseKept g h) : CourseKept f h :=
  ⟨b.tRaw.trans a.tRaw, b.setpoint.trans a.setpoint, b.lastCut.trans a.lastCut, b.cInj.trans a.cInj, b.limited ∘ a.limited⟩

theorem course_fields {f g : Flow} (h : g.course = f.course) : SameDir f g ∧ g.tRaw = f.tRaw ∧ g.setpoint = f.setpoint
    ∧ g.lastCut = f.lastCut ∧ g.cInj = f.cInj := by
  simp only [Flow.course, Flow.mk.injEq] at h
  obtain ⟨hraw, _, hset, hdir, hlast, htimer, hcut, hinj, _⟩ := h
  exact ⟨⟨hdir, htimer, hlast⟩, hraw, hset, hcut, hinj⟩

/-! #### A direction entered -/

theorem enterDir_fields (d : FlowDir) : SameDir (s.flow.entered d) (enterDir d s).flow ∧ CourseKept s.flow (enterDir d s).flow := by
  obtain ⟨hdir, hraw, hset, hcut, hinj⟩ := course_fields (enterDir_course s d)
  exact ⟨hdir, hraw, hset, hcut, hinj, enterDir_limited s d⟩

theorem enterDir_clock (d : FlowDir) : (enterDir d s).clock = s.clock := (does_enterDir s d).clock_eq (by decide)

theorem dirTold_congr {t u : State} (h : u.clock = t.clock) (d : FlowDir) : dirTold u d = dirTold t d := by
  rw [dirTold, dirTold, gasTime, gasTime, h]

theorem turnTold_congr {t u : State} (h : u.clock = t.clock) (hsite : u.site = t.site) : turnTold u = turnTold t := by
  rw [turnTold, turnTold, gasTime, gasTime, h, hsite]

theorem enters_enterDir (d : FlowDir) : Enters s (enterDir d s) [] d := by
  obtain ⟨hdir, _, hlast⟩ := (enterDir_fields (s := s) d).1
  refine ⟨hdir, hlast, ?_⟩
  rw [dirTold_congr (enterDir_clock d)]
  exact enterDir_told s d

/-! #### Through TURNAROUND -/

theorem enterTurnaround_held (h : s.site.turnHold ≠ 0) : enterTurnaround s = turned s := by rw [enterTurnaround_eq, if_neg h]

theorem enterTurnaround_expired (h : s.site.turnHold = 0) : enterTurnaround s =
    enterDir (chosenDir s.flow.tRaw) ((turned s).setFlow { (turned s).flow with timer := 0 }) := by
  have hraw : (turned s).flow.tRaw = s.flow.tRaw := by rw [turned_flow]
  rw [enterTurnaround_eq, if_pos h, expireTurnaround, hraw]

theorem courseKept_enterTurnaround : CourseKept s.flow (enterTurnaround s).flow := by
  have hturned : CourseKept s.flow (turned s).flow := by
    rw [turned_flow]
    exact ⟨rfl, rfl, rfl, rfl, id⟩
  by_cases h : s.site.turnHold = 0
  · rw [enterTurnaround_expired h]
    have hzero : CourseKept (turned s).flow ((turned s).setFlow { (turned s).flow with timer := 0 }).flow := ⟨rfl, rfl, rfl, rfl, id⟩
    exact (hturned.trans hzero).trans (enterDir_fields _).2
  · rw [enterTurnaround_held h]
    exact hturned

theorem turns_enterTurnaround : Turns s (enterTurnaround s) := by
  have hsite : (enterTurnaround s).site = s.site := (does_enterTurnaround s).site_eq (by decide)
  have hclock : (enterTurnaround s).clock = s.clock := (does_enterTurnaround s).clock_eq (by decide)
  rw [Turns, turnTold_congr hclock hsite, hsite, courseKept_enterTurnaround.tRaw]
  refine ⟨fun h => ?_, fun h => ?_⟩
  · rw [enterTurnaround_held h, turned_flow]
    exact ⟨rfl, rfl, rfl, (acts_turned s).toldBetween⟩
  · rw [enterTurnaround_expired h]
    have hzero : Acts [.flow, .dry, .evq] s [turnTold s] ((turned s).setFlow { (turned s).flow with timer := 0 }) :=
      (acts_turned s).trans (acts_setFlow (turned s) { (turned s).flow with timer := 0 } (by decide))
    obtain ⟨hdir, htimer, hlast⟩ := (enterDir_fields (s := (turned s).setFlow { (turned s).flow with timer := 0 })
      (chosenDir s.flow.tRaw)).1
    refine ⟨htimer, hdir, hlast.trans ?_, ?_⟩
    · show lastOf _ (turned s).flow.lastDir = _
      rw [turned_flow]
    · rw [dirTold_congr (enterDir_clock _)]
      exact hzero.toldBetween.trans (enterDir_told _ _)

/-! #### A direction that ends, or is chosen -/

theorem ends_leave : Ends s (if s.flow.tRaw = 0 then enterDir .hold s else enterTurnaround s) := by
  unfold Ends
  split_ifs with h h' h'
  · exact enters_enterDir .hold
  · exact absurd ((enterDir_fields (s := s) .hold).2.tRaw.trans h) h'
  · exact absurd (courseKept_enterTurnaround.tRaw.symm.trans h') h
  · exact turns_enterTurnaround

theorem courseKept_leave : CourseKept s.flow (if s.flow.tRaw = 0 then enterDir .hold s else enterTurnaround s).flow := by
  split
  · exact (enterDir_fields .hold).2
  · exact courseKept_enterTurnaround

theorem DirStays.refl (s : State) : DirStays s s := ⟨rfl, rfl, rfl⟩

/-- R102 ends a direction as stated. -/
theorem endAtZero_spec : CourseKept s.flow (endAtZero s).flow ∧ (s.flow.dir ≠ .hold → redirected s (endAtZero s)) := by
  dsimp only [endAtZero]
  split
  · next hdir =>
    rw [redirected_injecting hdir]
    by_cases hend : s.flow.setpoint = 0 ∧ s.flow.tRaw ≤ 0
    · rw [if_pos hend, courseKept_leave.setpoint, courseKept_leave.tRaw, if_pos hend]
      exact ⟨courseKept_leave, fun _ => ends_leave⟩
    · rw [if_neg hend, if_neg hend]
      exact ⟨.refl _, fun _ => .refl s⟩
  · next hdir =>
    rw [redirected_withdrawing hdir]
    by_cases hend : s.flow.setpoint = 0 ∧ 0 ≤ s.flow.tRaw
    · rw [if_pos hend, courseKept_leave.setpoint, courseKept_leave.tRaw, if_pos hend]
      exact ⟨courseKept_leave, fun _ => ends_leave⟩
    · rw [if_neg hend, if_neg hend]
      exact ⟨.refl _, fun _ => .refl s⟩
  · next hdir => exact ⟨.refl _, fun h => absurd hdir h⟩
  · next hdir =>
    rw [redirected_turnaround hdir]
    exact ⟨.refl _, fun _ => .refl s⟩

theorem courseKept_endAtZero : CourseKept s.flow (endAtZero s).flow := endAtZero_spec.1

theorem redirected_endAtZero (h : s.flow.dir ≠ .hold) : redirected s (endAtZero s) := endAtZero_spec.2 h

/-- R101 leaves HOLD as stated. -/
theorem assessHold_spec (hdir : s.flow.dir = .hold) : CourseKept s.flow (assessHold s).flow ∧ redirected s (assessHold s) := by
  dsimp only [assessHold]
  by_cases hz : s.flow.tRaw = 0
  · rw [if_pos hz, redirected_hold hdir, if_pos hz]
    exact ⟨.refl _, .refl s⟩
  rw [if_neg hz]
  by_cases hinj : 0 < s.flow.tRaw ∧ s.flow.lastDir = some .inject
  · have hkept := (enterDir_fields (s := s) .injecting).2
    rw [if_pos hinj, redirected_hold hdir, hkept.tRaw, if_neg hz, if_pos hinj]
    exact ⟨hkept, enters_enterDir _⟩
  rw [if_neg hinj]
  by_cases hwdr : s.flow.tRaw < 0 ∧ s.flow.lastDir = some .withdraw
  · have hkept := (enterDir_fields (s := s) .withdrawing).2
    rw [if_pos hwdr, redirected_hold hdir, hkept.tRaw, if_neg hz, if_neg hinj, if_pos hwdr]
    exact ⟨hkept, enters_enterDir _⟩
  · rw [if_neg hwdr, redirected_hold hdir, courseKept_enterTurnaround.tRaw, if_neg hz, if_neg hinj, if_neg hwdr]
    exact ⟨courseKept_enterTurnaround, turns_enterTurnaround⟩

/-- The direction machine goes as stated, whatever state it is in. -/
theorem actOnTarget_spec : CourseKept s.flow (actOnTarget s).flow ∧ redirected s (actOnTarget s) := by
  dsimp only [actOnTarget]
  split
  · next hdir => exact assessHold_spec hdir
  · next hdir => exact ⟨courseKept_endAtZero, redirected_endAtZero (by rw [hdir]; nofun)⟩
  · next hdir => exact ⟨courseKept_endAtZero, redirected_endAtZero (by rw [hdir]; nofun)⟩
  · next hdir =>
    rw [redirected_turnaround hdir]
    exact ⟨.refl _, .refl s⟩

/-- T_raw recomputed, T with it, and the direction after it. -/
theorem recomputeTarget_spec : redirected s (recomputeTarget s) ∧ (recomputeTarget s).flow.tRaw = rawTarget s
    ∧ (recomputeTarget s).flow.setpoint = s.flow.setpoint ∧ (recomputeTarget s).flow.cInj = s.flow.cInj
    ∧ (recomputeTarget s).flow.limited := by
  obtain ⟨hkept, hdir⟩ := actOnTarget_spec (s := s.setFlow (limitT { s.flow with tRaw := rawTarget s }))
  refine ⟨redirected_before (acts_setFlow (ps := [.flow]) s _ (by decide)).does ⟨rfl, rfl, rfl⟩ hdir, hkept.tRaw, hkept.setpoint, hkept.cInj,
    hkept.limited rfl⟩

end

end Sys2Proof.Machine
end

section
/-! SUPPORT. The step cut, the ramp and the turnaround's end (R98, R99, R103): O40. -/

namespace Sys2Proof.Machine

/-- What is cut since a state follows it. -/
theorem recutsSince.follows {s t : State} (h : recutsSince s t) : recutFollows s t :=
  recutFollows_of_trail h ⟨rfl, rfl, rfl, rfl⟩ (fun l hl => ⟨l, hl, fun _ he => he⟩) ⟨rfl, rfl, rfl⟩

/-! ### The step cut (R99) -/

/-- The event of a step cut. -/
def cutTold (s : State) (x : Int) : Raised := ⟨gasTime s, .stepCut, none, some x⟩

/-- The part as S is cut, before a direction may end. -/
def atCut (x : Int) (s : State) : State :=
  reshare (raise .stepCut none (some x) (s.setFlow { s.flow with setpoint := x, lastCut := some (s.flow.setpoint, x) }))

theorem stepCut_eq (x : Int) (s : State) : stepCut x s = endAtZero (atCut x s) := rfl

theorem acts_atCut (x : Int) (s : State) : Acts [.flow, .dry, .evq] s [cutTold s x] (atCut x s) := by
  have hset := acts_setFlow (ps := [.flow, .dry, .evq]) s
    { s.flow with setpoint := x, lastCut := some (s.flow.setpoint, x) } (by decide)
  exact (hset.trans (acts_raise _ .stepCut none (some x) (by decide))).trans ((acts_reshare _).mono (by decide))

/-- What a step cut to `x` leaves. -/
structure CutTo (s t : State) (x : Int) : Prop where
  setpoint : t.flow.setpoint = x
  lastCut : t.flow.lastCut = some (s.flow.setpoint, x)
  told : ∃ l : List Raised, t.evq = s.evq.pushAll (cutTold s x :: l)
  tRaw : t.flow.tRaw = s.flow.tRaw
  cInj : t.flow.cInj = s.flow.cInj
  limited : s.flow.limited → t.flow.limited
  course : s.flow.dir ≠ .hold → redirected s t

theorem stepCut_spec (x : Int) (s : State) : CutTo s (stepCut x s) x := by
  have hacts := acts_atCut x s
  have hkept : CourseKept (atCut x s).flow (stepCut x s).flow := courseKept_endAtZero
  obtain ⟨l, hl⟩ := (does_endAtZero (atCut x s)).appends
  refine ⟨hkept.setpoint, hkept.lastCut, ⟨l, ?_⟩, hkept.tRaw, hkept.cInj, hkept.limited, fun hdir => ?_⟩
  · rw [stepCut_eq, hl, hacts.told, ← pushAll_append]
    rfl
  · exact redirected_before hacts.does ⟨rfl, rfl, rfl⟩ (redirected_endAtZero hdir)

/-- Outside WITHDRAWING a direction entered leaves the capacities and T. -/
theorem enterDir_flow {s : State} {d : FlowDir} (h : d ≠ .withdrawing) : (enterDir d s).flow = s.flow.entered d := by
  rw [enterDir_eq]
  exact (follow_rest (hand := handWithdrawalAtZero)
    (s := raise .directionChanged none (some (d.code : Int)) (s.setFlow (s.flow.entered d))) h).parts .flow (by decide)

/-- WITHDRAWING ends without a train that enters the capacity. -/
theorem endAtZero_cWdr {s : State} (h : s.flow.dir = .withdrawing) : (endAtZero s).flow.cWdr = s.flow.cWdr := by
  dsimp only [endAtZero]
  rw [h]
  dsimp only
  split_ifs with hend hz
  · rw [enterDir_flow (d := .hold) nofun]
    rfl
  · by_cases hhold : s.site.turnHold = 0
    · have hchosen : chosenDir s.flow.tRaw ≠ .withdrawing := by
        unfold chosenDir
        have := hend.2
        split_ifs
        · exact nofun
        · omega
        · exact nofun
      rw [enterTurnaround_expired hhold, enterDir_flow hchosen]
      show (turned s).flow.cWdr = _
      rw [turned_flow]
    · rw [enterTurnaround_held hhold, turned_flow]
  · rfl

section
variable {s : State} {c : Nat}

theorem receiveInj_cut (h : c < s.flow.cInj ∧ (c : Int) < s.flow.setpoint) :
    receiveInj c s = stepCut c (s.setFlow (limitT { s.flow with cInj := c })) := if_pos h

theorem receiveInj_rest (h : ¬(c < s.flow.cInj ∧ (c : Int) < s.flow.setpoint)) :
    receiveInj c s = s.setFlow (limitT { s.flow with cInj := c }) := if_neg h

theorem receiveWdr_cut (h : c < s.flow.cWdr ∧ s.flow.setpoint < -(c : Int)) :
    receiveWdr c s = stepCut (-(c : Int)) (s.setFlow (limitT { s.flow with cWdr := c })) := if_pos h

theorem receiveWdr_rest (h : ¬(c < s.flow.cWdr ∧ s.flow.setpoint < -(c : Int))) :
    receiveWdr c s = s.setFlow (limitT { s.flow with cWdr := c }) := if_neg h

/-- A step cut of a state whose flow takes a new capacity. -/
theorem CutTo.retaken {f : Flow} {t : State} {x : Int} (h : CutTo (s.setFlow f) t x) (hset : f.setpoint = s.flow.setpoint)
    (hraw : f.tRaw = s.flow.tRaw) (hlim : f.limited) (hdir : SameDir f s.flow) :
    t.flow.setpoint = x ∧ t.flow.lastCut = some (s.flow.setpoint, x) ∧ (∃ l : List Raised, t.evq = s.evq.pushAll (cutTold s x :: l))
    ∧ t.flow.tRaw = s.flow.tRaw ∧ t.flow.t = max (-(t.flow.cWdr : Int)) (min (t.flow.cInj : Int) s.flow.tRaw)
    ∧ (s.flow.dir ≠ .hold → redirected s t) := by
  have hlimited : t.flow.t = max (-(t.flow.cWdr : Int)) (min (t.flow.cInj : Int) t.flow.tRaw) := h.limited hlim
  have htRaw : t.flow.tRaw = s.flow.tRaw := h.tRaw.trans hraw
  refine ⟨h.setpoint, h.lastCut.trans ?_, h.told, htRaw, htRaw ▸ hlimited, fun hne => ?_⟩
  · rw [State.setFlow_flow, hset]
  · exact redirected_before (acts_setFlow (ps := [.flow]) s f (by decide)).does hdir (h.course (by rw [State.setFlow_flow, ← hdir.1]; exact hne))

theorem receiveInj_follows : recutFollows s (receiveInj c s) :=
  ((recutFlow s).receiveInj c (recutsSince_setFlow _ (recutsSince_refl s))).follows

theorem receiveWdr_follows : recutFollows s (receiveWdr c s) :=
  ((recutFlow s).receiveWdr c (recutsSince_setFlow _ (recutsSince_refl s))).follows
end

/-! ### Gathered responses -/

theorem gathered_congr {f g : State → State} {s : State} (h : f s.gatheringEvents = g s.gatheringEvents) : gathered f s = gathered g s := by
  have hf (k : State → State) : gathered k s =
      ((k s.gatheringEvents).setEvq (appendEvents (interleave (k s.gatheringEvents).evq.entries.length
        (k s.gatheringEvents).evq.entries (k s.gatheringEvents).world).1 s.evq)).setWorld
        (interleave (k s.gatheringEvents).evq.entries.length (k s.gatheringEvents).evq.entries (k s.gatheringEvents).world).2 := rfl
  rw [hf, hf, h]

/-- A response that writes the flow alone. -/
theorem gathered_setFlow {f : State → State} {s : State} {x : Flow} (h : f s.gatheringEvents = s.gatheringEvents.setFlow x) :
    gathered f s = s.setFlow x := by
  rw [gathered_congr (g := fun u => u.setFlow x) h]
  rfl

/-- A response that writes the scheduler's state alone. -/
theorem gathered_setDuty {f : State → State} {s : State} {x : Duty} (h : f s.gatheringEvents = s.gatheringEvents.setDuty x) :
    gathered f s = s.setDuty x := by
  rw [gathered_congr (g := fun u => u.setDuty x) h]
  rfl

/-- One event gathered is the one appended. -/
theorem gathered_one {f : State → State} {s : State} {ps : List Part} {e : Raised} (h : Acts ps s.gatheringEvents [e] (f s.gatheringEvents)) :
    (gathered f s).evq = s.evq.pushAll [e] := by
  obtain ⟨m, hm, hperm, _⟩ := gathered_pushAll f s [e] h.told
  rw [hm, List.perm_singleton.mp hperm]

/-! ### The ramp (R97, R98) -/

section
variable {s : State}

/-- The part as S is moved, before a direction may end. -/
def ramped (s : State) : State := reshare (s.setFlow { s.flow with setpoint := rampTo (goal s.flow) s.flow.setpoint (rampRate s) })

theorem acts_ramped (s : State) : Acts [.flow, .dry] s [] (ramped s) :=
  (acts_setFlow s { s.flow with setpoint := rampTo (goal s.flow) s.flow.setpoint (rampRate s) } (by decide)).trans
    ((acts_reshare _).mono (by decide))

theorem flowSecond_ramps (h : s.flow.dir ≠ .turnaround) : flowSecond s = if ramping s.flow then endAtZero (ramped s) else s := by
  dsimp only [flowSecond]
  split
  · next hdir => exact absurd hdir h
  all_goals rfl

theorem flowSecond_turns (h : s.flow.dir = .turnaround) : flowSecond s =
    if s.flow.timer ≤ 1 then expireTurnaround s else s.setFlow { s.flow with timer := s.flow.timer - 1 } := by
  dsimp only [flowSecond]
  rw [h]

theorem rampTo_eq (g x : Int) (n : Nat) : rampTo g x n = if x < g then min g (x + n) else max g (x - n) := by
  unfold rampTo
  split_ifs <;> omega

theorem flowSecond_setpoint (h : s.flow.dir ≠ .turnaround) :
    (flowSecond s).flow.setpoint = rampTo (goal s.flow) s.flow.setpoint (rampRate s) := by
  rw [flowSecond_ramps h]
  split
  · exact courseKept_endAtZero.setpoint
  · next hrest =>
    have heq : s.flow.setpoint = goal s.flow := by simpa [ramping] using hrest
    rw [rampTo_eq, ← heq, if_neg (Int.lt_irrefl _)]
    omega

theorem flowSecond_tRaw (h : s.flow.dir ≠ .turnaround) : (flowSecond s).flow.tRaw = s.flow.tRaw := by
  rw [flowSecond_ramps h]
  split
  · exact courseKept_endAtZero.tRaw
  · rfl

/-- A direction stands where S does, away from 0. -/
theorem redirected_refl (hdir : s.flow.dir ≠ .hold) (hset : s.flow.setpoint ≠ 0) : redirected s s := by
  cases h : s.flow.dir
  case hold => exact absurd h hdir
  case injecting =>
    rw [redirected_injecting h, if_neg fun hz => hset hz.1]
    exact .refl s
  case withdrawing =>
    rw [redirected_withdrawing h, if_neg fun hz => hset hz.1]
    exact .refl s
  case turnaround =>
    rw [redirected_turnaround h]
    exact .refl s

theorem redirected_flowSecond (hdir : s.flow.dir ≠ .hold) (hturn : s.flow.dir ≠ .turnaround) (hset : s.flow.setpoint ≠ 0) :
    redirected s (flowSecond s) := by
  rw [flowSecond_ramps hturn]
  split
  · exact redirected_before (acts_ramped s).does ⟨rfl, rfl, rfl⟩ (redirected_endAtZero hdir)
  · exact redirected_refl hdir hset

theorem gathered_does {f : State → State} {s : State} (h : Does flowParts s.gatheringEvents (f s.gatheringEvents)) :
    s.changesOnly flowParts (gathered f s) := (Does.gathered (by decide) (by decide) h).parts

theorem gathered_recutFlow {f : State → State} {s : State} (h : ∀ u : State, recutsSince u (f u)) : recutFollows s (gathered f s) :=
  recutFollows_gathered (h _) ⟨rfl, rfl, rfl⟩ rfl

/-- What a turnaround's end leaves. -/
theorem expireTurnaround_row (s : State) : ∃ l m : List Raised,
    SameDir (({ s.flow with timer := 0 } : Flow).entered (chosenDir s.flow.tRaw)) (gathered expireTurnaround s).flow
    ∧ (gathered expireTurnaround s).flow.setpoint = s.flow.setpoint
    ∧ (gathered expireTurnaround s).evq = s.evq.pushAll (l ++ dirTold s (chosenDir s.flow.tRaw) :: m)
    ∧ (chosenDir s.flow.tRaw ≠ .withdrawing → l = [] ∧ m = [])
    ∧ recutFollows s (gathered expireTurnaround s) ∧ s.changesOnly flowParts (gathered expireTurnaround s) := by
  have hzero : Acts [.flow, .dry, .evq] s.gatheringEvents []
      (s.gatheringEvents.setFlow { s.flow with timer := 0 }) := acts_setFlow s.gatheringEvents _ (by decide)
  obtain ⟨hdir, hkept⟩ := enterDir_fields (s := s.gatheringEvents.setFlow { s.flow with timer := 0 }) (chosenDir s.flow.tRaw)
  have hdoes := gathered_does (does_expireTurnaround s.gatheringEvents)
  have hrecut : recutFollows s (gathered expireTurnaround s) :=
    gathered_recutFlow fun u => (recutFlow u).expireTurnaround (recutsSince_refl u)
  by_cases hwdr : chosenDir s.flow.tRaw = .withdrawing
  · have htold : toldBetween s.gatheringEvents (expireTurnaround s.gatheringEvents) [dirTold s (chosenDir s.flow.tRaw)] :=
      (enterDir_told _ _).before hzero.does
    obtain ⟨l, m, hlm⟩ := toldBetween_singleton (toldBetween_gathered (b := .flowController) htold (by simp [dirTold, EventKind.source]))
    exact ⟨l, m, hdir, hkept.setpoint, hlm, fun h => absurd hwdr h, hrecut, hdoes⟩
  · have hacts : Acts [.flow, .dry, .evq] s.gatheringEvents [dirTold s (chosenDir s.flow.tRaw)] (expireTurnaround s.gatheringEvents) :=
      hzero.trans (enterDir_rest _ _ hwdr)
    exact ⟨[], [], hdir, hkept.setpoint, gathered_one hacts, fun _ => ⟨rfl, rfl⟩, hrecut, hdoes⟩

theorem exec_rampStep (s : State) : exec .rampStep s = .next (gathered flowSecond s) := rfl

theorem exec_turnaroundExpiry (s : State) : exec .turnaroundExpiry s =
    .next (if s.flow.dir = .turnaround ∧ s.flow.timer ≤ 1 then gathered expireTurnaround s else s) := rfl

/-- Settles O40: the ramp and a cut write S, and then end the direction where S comes to 0. -/
theorem rampStepAndTurnaroundExpiry : Obligations.RampStepAndTurnaroundExpiry := by
  refine ⟨fun s c => ⟨fun h => ?_, fun h => receiveInj_rest h, fun h => ?_, fun h => receiveWdr_rest h⟩, fun s => ?_⟩
  · have hspec := stepCut_spec (c : Int) (s.setFlow (limitT { s.flow with cInj := c }))
    obtain ⟨hset, hcut, htold, hraw, hlim, hdir⟩ := hspec.retaken rfl rfl rfl ⟨rfl, rfl, rfl⟩
    rw [← receiveInj_cut h] at hspec hset hcut htold hraw hlim hdir
    exact ⟨hspec.cInj, hset, hcut, htold, hraw, hlim, hdir, receiveInj_follows,
      ((does_receiveInj (List.Subset.refl flowParts) s c).mono (by decide)).parts⟩
  · have hspec := stepCut_spec (-(c : Int)) (s.setFlow (limitT { s.flow with cWdr := c }))
    obtain ⟨hset, hcut, htold, hraw, hlim, hdir⟩ := hspec.retaken rfl rfl rfl ⟨rfl, rfl, rfl⟩
    rw [← receiveWdr_cut h] at hset hcut htold hraw hlim hdir
    refine ⟨⟨hset, hcut, htold, hraw, hlim, hdir, receiveWdr_follows,
      ((does_receiveWdr (List.Subset.refl flowParts) s c).mono (by decide)).parts⟩, fun hwdr => ?_⟩
    rw [receiveWdr_cut h]
    exact endAtZero_cWdr (s := atCut _ _) hwdr
  · intro g rate
    have hgoal : goal s.flow = g := rfl
    have hrate : (rampRate s : Int) = rate := by
      simp only [rate, rampRate, hgoal]
      split_ifs
      all_goals rfl
    refine ⟨fun hturn => ⟨_, exec_rampStep s, ?_, fun hhold hset => ?_, ?_, ?_, ?_⟩, fun hturn => ?_, fun hdir hlong => ⟨?_, ?_⟩,
      fun hdir hlast => ?_⟩
    · rw [← hgoal, ← hrate]
      exact (flowSecond_setpoint (s := s.gatheringEvents) hturn).trans (rampTo_eq _ _ _)
    · exact redirected_gathered (redirected_flowSecond (s := s.gatheringEvents) hhold hturn hset)
    · exact flowSecond_tRaw (s := s.gatheringEvents) hturn
    · exact gathered_recutFlow fun u => (recutFlow u).flowSecond (recutsSince_refl u)
    · exact gathered_does (does_flowSecond s.gatheringEvents)
    · rw [exec_turnaroundExpiry, if_neg fun h => hturn h.1]
    · have hsecond : flowSecond s.gatheringEvents = s.gatheringEvents.setFlow { s.flow with timer := s.flow.timer - 1 } := by
        rw [flowSecond_turns (s := s.gatheringEvents) hdir]
        exact if_neg (Nat.not_le.mpr hlong)
      rw [exec_rampStep, gathered_setFlow hsecond]
    · rw [exec_turnaroundExpiry, if_neg fun h => absurd h.2 (Nat.not_le.mpr hlong)]
    · obtain ⟨l, m, ⟨hd, htimer, hlastDir⟩, hset, hev, hrest, hrecut, hparts⟩ := expireTurnaround_row s
      have hsecond : flowSecond s.gatheringEvents = expireTurnaround s.gatheringEvents := by
        rw [flowSecond_turns (s := s.gatheringEvents) hdir]
        exact if_pos hlast
      refine ⟨_, l, m, by rw [exec_rampStep, gathered_congr hsecond], by rw [exec_turnaroundExpiry, if_pos ⟨hdir, hlast⟩], hd, htimer, hset,
        ?_, hev, hrest, hrecut, hparts⟩
      rw [hlastDir]
      show lastOf (chosenDir s.flow.tRaw) s.flow.lastDir = _
      unfold chosenDir
      split_ifs <;> rfl
end

end Sys2Proof.Machine
end

section
/-! SUPPORT. The unit requests (R129 to R132): O46. -/

namespace Sys2Proof.Machine

/-! ### The capacities of the units -/

/-- What a unit adds to a sum of capacities. -/
def CUnit.figure (p : UnitState → Bool) (u : CUnit) : Nat := if p u.state then u.cfg.capacity else 0

theorem toList_eq_finRange {α : Type} {n : Nat} (v : Vector α n) : v.toList = (List.finRange n).map (fun i => v[i]) :=
  List.ext_getElem (by simp) fun k hk hm => by simp

theorem capacitySum_eq (p : UnitState → Bool) (s : State) :
    capacitySum p s = ((List.finRange 6).map (fun i => (s.duty.units[i]).figure p)).sum := by
  rw [capacitySum, toList_eq_finRange, List.map_map]
  rfl

theorem capacitySum_le {s t : State} {p : UnitState → Bool}
    (h : ∀ i : Fin 6, (s.duty.units[i]).figure p ≤ (t.duty.units[i]).figure p) : capacitySum p s ≤ capacitySum p t := by
  rw [capacitySum_eq, capacitySum_eq]
  exact List.sum_le_sum fun i _ => h i

section
variable {s : State} {i : Fin 6} {v : CUnit} {p : UnitState → Bool}

theorem putUnit_getElem (j : Fin 6) : (putUnit i v s).duty.units[j] = if i = j then v.renote s.site.startLimit else s.duty.units[j] := by
  rw [putUnit_units, Fin.getElem_fin, setVec_getElem]
  exact if_congr Fin.ext_iff.symm rfl rfl

theorem capacitySum_putUnit_le (h : (s.duty.units[i]).figure p ≤ v.figure p) : capacitySum p s ≤ capacitySum p (putUnit i v s) := by
  refine capacitySum_le fun j => ?_
  rw [putUnit_getElem]
  split
  · next hij => rw [← hij]; exact h
  · exact Nat.le_refl _

theorem capacitySum_putUnit (h : v.figure p = (s.duty.units[i]).figure p) : capacitySum p (putUnit i v s) = capacitySum p s := by
  rw [capacitySum_eq, capacitySum_eq]
  refine congrArg List.sum (List.map_congr_left fun j _ => ?_)
  rw [putUnit_getElem]
  split
  · next hij => rw [← hij]; exact h
  · rfl

theorem figure_disabled {u : CUnit} (h : u.state = .disabled) (hp : p .disabled = false) : u.figure p = 0 := by
  rw [CUnit.figure, h, hp]
  rfl
end

/-! ### A hand-over without a fall (R115) -/

theorem handInjection_rest {s : State} (hd : s.duty.declared ≤ declaredInjection s) (hc : readyInjection s = s.flow.cInj) :
    handInjection s = s.setDuty { s.duty with declared := declaredInjection s, ready := readyInjection s } := by
  dsimp only [handInjection]
  rw [if_neg (Nat.not_lt.mpr hd), if_pos hc]
  rfl

/-- A unit's record put where no declared capacity falls and C_inj_ready stands. -/
theorem gathered_putUnit {s : State} {i : Fin 6} {v : CUnit} (hcur : injCurrent s)
    (hd : (s.duty.units[i]).figure UnitState.declares ≤ v.figure UnitState.declares)
    (hr : v.figure (· == .loaded) = (s.duty.units[i]).figure (· == .loaded)) :
    gathered handInjection (putUnit i v s) = s.setDuty { s.duty with
      units := setVec s.duty.units i (v.renote s.site.startLimit), declared := declaredInjection (putUnit i v s) } := by
  obtain ⟨⟨hdeclared, hready⟩, hheld⟩ := hcur
  have hsum : readyInjection (putUnit i v s) = s.duty.ready := by
    rw [hready, readyInjection, capacitySum_putUnit hr]
    rfl
  have hle : s.duty.declared ≤ declaredInjection (putUnit i v s) := by
    have hsum := capacitySum_putUnit_le hd
    rw [hdeclared]
    show min _ s.site.injRight ≤ min _ s.site.injRight
    omega
  have hrest : handInjection (putUnit i v s).gatheringEvents = (putUnit i v s).gatheringEvents.setDuty
      { (putUnit i v s).duty with declared := declaredInjection (putUnit i v s), ready := readyInjection (putUnit i v s) } :=
    handInjection_rest (s := (putUnit i v s).gatheringEvents) hle (hsum.trans hheld.symm)
  rw [gathered_setDuty hrest, hsum]
  rfl

/-! ### A fall that cuts S (R99) -/

/-- What is left where C_inj_ready falls below S. -/
structure InjCut (s t : State) : Prop where
  setpoint : t.flow.setpoint = readyInjection s
  lastCut : t.flow.lastCut = some (s.flow.setpoint, (readyInjection s : Int))
  told : toldBetween s t [cutTold s (readyInjection s)]

theorem handInjection_cuts {s : State} (hfall : readyInjection s < s.flow.cInj) (hcut : (readyInjection s : Int) < s.flow.setpoint) :
    InjCut s (handInjection s) := by
  have hkept {u t : State} (hflow : t.flow = u.flow) (hd : Does dutyParts u t) (hu : InjCut s u) : InjCut s t :=
    ⟨by rw [hflow]; exact hu.setpoint, by rw [hflow]; exact hu.lastCut, hu.told.after hd⟩
  have hworld {u : State} (n : Nat) : Does dutyParts u (u.setWorld n) := (acts_setWorld u n (by decide)).does
  have hrecut {u : State} : Does dutyParts u (recut u) := does_recut (by decide) (by decide) u
  refine handInjection_reaches (K := fun u => u.flow = s.flow ∧ Does dutyParts s u) (fun u n hu => ⟨hu.1, hu.2.trans (hworld n)⟩)
    (fun u n hu => hkept (u := u) (t := u.setWorld n) rfl (hworld n) hu) (fun u hu => ⟨(recut_plant u).2.2.trans hu.1, hu.2.trans hrecut⟩)
    (fun u hu => hkept (recut_plant u).2.2 hrecut hu) (fun u hu => ?_)
    (fun heq => absurd hfall (by omega)) ⟨rfl, (acts_setDuty s _ (by decide)).does⟩
  obtain ⟨hflow, hdoes⟩ := hu
  have hclock : gasTime u = gasTime s := by rw [gasTime, gasTime, hdoes.clock_eq (by decide)]
  have hspec := stepCut_spec (readyInjection s : Int) (u.setFlow (limitT { u.flow with cInj := readyInjection s }))
  rw [← receiveInj_cut (by rw [hflow]; exact ⟨hfall, hcut⟩)] at hspec
  obtain ⟨l, hl⟩ := hspec.told
  have htold : toldBetween u (receiveInj (readyInjection s) u) [cutTold s (readyInjection s)] := by
    refine ⟨_, hl, ?_⟩
    rw [cutTold, ← hclock]
    exact List.singleton_sublist.mpr List.mem_cons_self
  refine ⟨hspec.setpoint, ?_, htold.before hdoes⟩
  · rw [← hflow]
    exact hspec.lastCut

/-! ### O46 -/

section
variable {s : State} {b : Block} {i : Fin 6}

theorem rosterField_eq {l : Vector (Fin 6) 6} (h : ∀ (k : Nat) (hk : k < 6), fieldW b k = (l[k]).val) : rosterField b = l.toList := by
  have hfin (k : Nat) (hk : k < 6) : fieldFin 6 b k = some l[k] := fieldFin_eq_some (h k hk)
  rw [toList_eq_finRange]
  simp only [rosterField, List.range_eq_range', List.range', List.filterMap_cons, List.filterMap_nil, hfin 0 (by decide), hfin 1 (by decide),
    hfin 2 (by decide), hfin 3 (by decide), hfin 4 (by decide), hfin 5 (by decide), Nat.zero_add, Nat.reduceAdd]
  rfl

theorem out1_word (w : Word) : out1 w.toNat = [w] := by
  rw [out1, BitVec.ofNat_toNat, BitVec.setWidth_eq]

/-- A block of six words that name the members of a roster is that roster's reply. -/
theorem rosterReply_eq {l : Vector (Fin 6) 6} (hlen : b.length = 6) (h : ∀ (k : Nat) (hk : k < 6), fieldW b k = (l[k]).val) :
    l.toList.flatMap (fun i => out1 i.val) = b := by
  match b, hlen with
  | [a₀, a₁, a₂, a₃, a₄, a₅], _ =>
    have hword (k : Nat) (hk : k < 6) (w : Word) (hw : fieldW [a₀, a₁, a₂, a₃, a₄, a₅] k = w.toNat) : out1 (l[k]).val = [w] := by
      rw [← h k hk, hw, out1_word]
    rw [toList_eq_finRange]
    show out1 (l[0]).val ++ (out1 (l[1]).val ++ (out1 (l[2]).val ++ (out1 (l[3]).val ++ (out1 (l[4]).val ++ (out1 (l[5]).val ++ []))))) = _
    rw [hword 0 (by decide) a₀ rfl, hword 1 (by decide) a₁ rfl, hword 2 (by decide) a₂ rfl, hword 3 (by decide) a₃ rfl,
      hword 4 (by decide) a₄ rfl, hword 5 (by decide) a₅ rfl]
    rfl

theorem reqRosterSet_taken {l : Vector (Fin 6) 6} (hs : s.plain) (hlen : b.length = 6)
    (h : ∀ (k : Nat) (hk : k < 6), fieldW b k = (l[k]).val) (hall : ∀ i : Fin 6, i ∈ l.toList) :
    reqRosterSet b s = taken b (s.setDuty { s.duty with roster := l }) := by
  have hroster : rosterOf l.toList s.duty.roster = l := Vector.toList_inj.mp (rosterOf_toList l.length_toList _)
  dsimp only [reqRosterSet]
  rw [rosterField_eq h, checked_passed, rosterReply_eq hlen h, hroster]
  intro p hp
  rcases List.mem_append.mp hp with hp | hp
  · exact modeChecks_hold hs (by simp [hlen]) p hp
  · rw [List.mem_singleton.mp hp]
    simp only [Vector.length_toList, decide_true, Bool.true_and, List.all_eq_true, List.contains_iff_mem]
    exact fun i _ => hall i

theorem renote_of_not_waits {u : CUnit} (h : u.state.waits = false) (n : Nat) : u.renote n = { u with limitNoted := false } := by
  rw [CUnit.renote, CUnit.blocked, h, Bool.false_and, Bool.and_false]

/-- The configuration that a block of UNIT SET gives. -/
def unitCfgOf (b : Block) (k : Option (Fin 16)) : UnitCfg := ⟨field2 b 1, k, fieldW b 4 / 2 == 1, fieldW b 4 % 2 == 1, fieldW b 5⟩

/-- A unit's record with a new configuration (R129). -/
def CUnit.configure (u : CUnit) (c : UnitCfg) : CUnit := { u with configured := true, cfg := c }

theorem unitSetEffect_eq : unitSetEffect b i s = taken (out1 i.val ++ out1 (s.duty.units[i]).state.code)
    (gathered handInjection (putUnit i ((s.duty.units[i]).configure (unitCfgOf b (fieldFin 16 b 3))) s)) := rfl

theorem reqUnitSet_taken {k : Fin 16} (hs : s.plain) (hcur : injCurrent s) (hi : fieldW b 0 = i.val) (hlen : b.length = 6)
    (hoff : (s.duty.units[i]).state = .disabled) (hlow : 1 ≤ field2 b 1) (hhigh : field2 b 1 ≤ 4000000) (hk : fieldW b 3 = k.val)
    (hw : s.curves[k] ≠ []) (h4 : fieldW b 4 ≤ 3) (h5 : fieldW b 5 ≤ 3) :
    reqUnitSet b s = taken (out1 i.val ++ out1 0) (s.setDuty { s.duty with
      units := setVec s.duty.units i { s.duty.units[i] with configured := true, cfg := unitCfgOf b (some k), limitNoted := false } }) := by
  have hmodes : firstFailure (modeChecks (b.length == 6) s) = none := firstFailure_none.mpr (modeChecks_hold hs (by simp [hlen]))
  have hfig (p : UnitState → Bool) (hp : p .disabled = false) {u : CUnit} (hu : u.state = .disabled) :
      u.figure p = (s.duty.units[i]).figure p := by rw [figure_disabled hu hp, figure_disabled hoff hp]
  have hset (v : CUnit) (hv : v.state = .disabled) : gathered handInjection (putUnit i v s) =
      s.setDuty { s.duty with units := setVec s.duty.units i { v with limitNoted := false } } := by
    rw [gathered_putUnit hcur (Nat.le_of_eq (hfig UnitState.declares rfl hv).symm) (hfig (· == .loaded) rfl hv),
      renote_of_not_waits (by rw [hv]; rfl), declaredInjection, capacitySum_putUnit (hfig UnitState.declares rfl hv)]
    show s.setDuty { s.duty with units := _, declared := declaredInjection s } = _
    rw [← hcur.1.1]
  dsimp only [reqUnitSet]
  rw [hmodes]
  dsimp only
  rw [fieldFin_eq_some hi]
  dsimp only
  rw [checked_passed]
  · have hcode : out1 (s.duty.units[i]).state.code = out1 0 := by
      rw [hoff]
      rfl
    rw [unitSetEffect_eq, hset ((s.duty.units[i]).configure _) hoff, hcode, fieldFin_eq_some hk]
    rfl
  · have hnames : namesWritten s b 3 = true := by rw [namesWritten_eq, hk, writtenId_fin]; simpa [curveWritten] using hw
    simpa [hlow, hhigh, h4, h5, hnames] using hoff

theorem reqUnitEnable_off (hs : s.plain) (hi : fieldW b 0 = i.val) (hlen : b.length = 2) (h : fieldW b 1 = 0) :
    reqUnitEnable b s = disableUnit i s := by
  have hmodes : firstFailure (modeChecks (b.length == 2) s) = none := firstFailure_none.mpr (modeChecks_hold hs (by simp [hlen]))
  dsimp only [reqUnitEnable]
  rw [hmodes]
  dsimp only
  rw [fieldFin_eq_some hi, h]
  rfl

theorem reqUnitEnable_on (hs : s.plain) (hi : fieldW b 0 = i.val) (hlen : b.length = 2) (h : fieldW b 1 = 1) :
    reqUnitEnable b s = enableUnit i s := by
  have hmodes : firstFailure (modeChecks (b.length == 2) s) = none := firstFailure_none.mpr (modeChecks_hold hs (by simp [hlen]))
  dsimp only [reqUnitEnable]
  rw [hmodes]
  dsimp only
  rw [fieldFin_eq_some hi, h]
  rfl

/-- A unit's record put and both capacities handed on. -/
def putAndHand (i : Fin 6) (v : CUnit) (u : State) : State := handInjection (putUnit i v u)

theorem gathered_putAndHand (v : CUnit) : gathered handInjection (putUnit i v s) = gathered (putAndHand i v) s := rfl

/-- A unit disabled. -/
def CUnit.off (u : CUnit) : CUnit := { u.uncounted with state := .disabled, phaseTimer := 0 }

/-- A unit enabled. -/
def CUnit.enabled (u : CUnit) : CUnit :=
  { u with state := .cold, phaseTimer := 0, attempts := 0, overload := 0, noRun := 0, tripCause := none }

theorem disableUnit_again (h : (s.duty.units[i]).state = .disabled) : disableUnit i s = taken (out1 0) s := by
  dsimp only [disableUnit]
  rw [h]
  rfl

theorem disableUnit_off (h : (s.duty.units[i]).state ≠ .disabled) :
    disableUnit i s = taken (out1 (s.duty.units[i]).state.code) (gathered (putAndHand i (s.duty.units[i]).off) s) := by
  dsimp only [disableUnit]
  rw [if_neg (by simpa using h)]
  rfl

theorem enableUnit_on (h : (s.duty.units[i]).state = .disabled) (hconf : (s.duty.units[i]).configured = true) :
    enableUnit i s = taken (out1 1) (gathered (putAndHand i (s.duty.units[i]).enabled) s) := by
  dsimp only [enableUnit]
  rw [if_pos (by simpa using ⟨h, hconf⟩)]
  rfl

theorem enableUnit_refused (h : ¬((s.duty.units[i]).state = .disabled ∧ (s.duty.units[i]).configured = true)) :
    enableUnit i s = refuse .state s := by
  dsimp only [enableUnit]
  rw [if_neg (by simpa using h)]

/-- What a unit's record put leaves. -/
structure UnitPut (i : Fin 6) (v : CUnit) (s t : State) : Prop where
  units : t.duty.units = setVec s.duty.units i (v.renote s.site.startLimit)
  roster : t.duty.roster = s.duty.roster
  fuel : t.duty.fuel = s.duty.fuel
  current : capacitiesCurrent t = true
  follows : recutFollows s t
  parts : s.changesOnly dutyParts t

theorem unitPut (v : CUnit) (hw : wdrCurrent s) : UnitPut i v s (gathered (putAndHand i v) s) := by
  obtain ⟨⟨hunits, hroster, hfuel⟩, hinj, _, hrecut, hparts⟩ := gathered_handed (f := putAndHand i v) (s := s)
    (u := putUnit i v s.gatheringEvents) (es := []) rfl (acts_putUnit i v _ (by decide)) rfl nofun
  refine ⟨hunits, hroster, hfuel, (capacitiesCurrent_iff _).mpr ⟨hinj, ?_⟩, hrecut, hparts⟩
  exact wdrCurrent_handInjection (s := putUnit i v s.gatheringEvents) hw

/-- The step cut that a unit's record put brings. -/
theorem unitPut_cuts (v : CUnit) (hcur : injCurrent s) (hfall : (gathered (putAndHand i v) s).duty.ready < s.duty.ready)
    (hcut : ((gathered (putAndHand i v) s).duty.ready : Int) < s.flow.setpoint) :
    (gathered (putAndHand i v) s).flow.setpoint = (gathered (putAndHand i v) s).duty.ready
    ∧ (gathered (putAndHand i v) s).flow.lastCut = some (s.flow.setpoint, ((gathered (putAndHand i v) s).duty.ready : Int))
    ∧ ∃ l m : List Raised, (gathered (putAndHand i v) s).evq
        = s.evq.pushAll (l ++ ⟨gasTime s, .stepCut, none, some ((gathered (putAndHand i v) s).duty.ready : Int)⟩ :: m) := by
  have hready : (gathered (putAndHand i v) s).duty.ready = readyInjection (putUnit i v s.gatheringEvents) :=
    congrArg Duty.ready (handInjection_duty (putUnit i v s.gatheringEvents))
  rw [hready] at hfall hcut ⊢
  obtain ⟨hset, hlast, htold⟩ := handInjection_cuts (s := putUnit i v s.gatheringEvents) (hfall.trans_eq hcur.2.symm) hcut
  have hbefore : toldBetween s.gatheringEvents (putAndHand i v s.gatheringEvents)
      [cutTold s (readyInjection (putUnit i v s.gatheringEvents))] :=
    toldBetween.before htold (acts_putUnit (ps := [.duty]) i v _ (by decide)).does
  exact ⟨hset, hlast, toldBetween_singleton (toldBetween_gathered (b := .flowController) hbefore (by simp [EventKind.source]))⟩

theorem runPermit_of_state {t : State} (h : (t.duty.units[i]).state.runs = false) : runPermit t i = false := h
end

/-- Settles O46: a unit's record is put and the capacities handed on, which of a unit DISABLED before or after is no fall or a fall of
its own capacity. -/
theorem unitRequestsChangeOneUnit : Obligations.UnitRequestsChangeOneUnit := by
  refine ⟨fun s b c _ => keepsItsChecks_all c s, fun s b hs hcap => ?_⟩
  obtain ⟨hinj, hwdr⟩ := (capacitiesCurrent_iff s).mp hcap
  refine ⟨fun l hlen h hall => exec_taken rfl hs.1 (reqRosterSet_taken hs hlen h hall), fun i hi => ⟨?_, ?_, ?_, ?_, ?_⟩⟩
  · intro k hlen hoff hlow hhigh hk hw h4 h5
    exact exec_taken rfl hs.1 (reqUnitSet_taken hs hinj hi hlen hoff hlow hhigh hk hw h4 h5)
  · intro hlen hzero hoff
    exact exec_taken rfl hs.1 ((reqUnitEnable_off hs hi hlen hzero).trans (disableUnit_again hoff))
  · intro hlen hzero hon
    have hput := unitPut (i := i) (s.duty.units[i]).off hwdr
    have hunits : (gathered (putAndHand i (s.duty.units[i]).off) s).duty.units = setVec s.duty.units i
        { (s.duty.units[i]).off with limitNoted := false } := by
      rw [hput.units, renote_of_not_waits rfl]
    refine ⟨_, exec_taken rfl hs.1 ((reqUnitEnable_off hs hi hlen hzero).trans (disableUnit_off hon)), hunits, hput.roster, hput.fuel,
      hput.current, runPermit_of_state ?_, hput.follows, hput.parts, unitPut_cuts _ hinj⟩
    rw [hunits, Fin.getElem_fin, setVec_getElem, if_pos rfl]
    rfl
  · intro hlen hone hoff hconf
    have hput := unitPut (i := i) (s.duty.units[i]).enabled hwdr
    have hrest := gathered_putUnit (s := s) (i := i) (v := (s.duty.units[i]).enabled) hinj
      (by rw [figure_disabled hoff rfl]; exact Nat.zero_le _) (by rw [figure_disabled hoff rfl]; rfl)
    rw [gathered_putAndHand] at hrest
    refine ⟨_, exec_taken rfl hs.1 ((reqUnitEnable_on hs hi hlen hone).trans (enableUnit_on hoff hconf)), ?_, hput.roster, hput.fuel,
      hput.current, ?_, ?_⟩
    · rw [hput.units]
      rfl
    · rw [hrest]
      rfl
    · rw [hrest]
      exact (acts_setDuty (ps := [.duty]) s _ (by decide)).parts
  · intro hlen hone hnot
    have href : reqUnitEnable b s = refuse .state s := (reqUnitEnable_on hs hi hlen hone).trans (enableUnit_refused hnot)
    exact congrArg Host.Outcome.next (serve_refused hs.1 href)

end Sys2Proof.Machine
end

section
/-! SUPPORT. The unit part of a report (R123 to R127): O45. -/

namespace Sys2Proof.Machine

/-! ### One act among others -/

section
variable {K P : State → Prop} {s : State}

/-- Of actions in an order the world takes, one that makes `P` of `K`, where the others keep both. -/
theorem inAnyOrder_once {fs l : List (State → State)} {f : State → State} (hperm : fs.Perm (f :: l))
    (hworld : ∀ u n, K u → K (u.setWorld n)) (hK : ∀ g ∈ l, ∀ u, K u → K (g u)) (hf : ∀ u, K u → P (f u))
    (hP : ∀ g ∈ l, ∀ u, P u → P (g u)) (h : K s) : P (inAnyOrder fs s) := by
  obtain ⟨p, hp, n, he⟩ := inAnyOrder_cases fs s
  obtain ⟨as, bs, rfl⟩ := List.append_of_mem ((hp.trans hperm).mem_iff.mpr List.mem_cons_self)
  have hrest : (as ++ bs).Perm l := (List.perm_cons f).mp (List.perm_middle.symm.trans (hp.trans hperm))
  rw [he, inOrder, List.foldl_append, List.foldl_cons]
  refine inOrder_preserves P bs (fun g hg => hP g (hrest.mem_iff.mp (List.mem_append_right as hg))) _ (hf _ ?_)
  exact inOrder_preserves K as (fun g hg => hK g (hrest.mem_iff.mp (List.mem_append_left bs hg))) _ (hworld s n h)

/-- Of acts in a row, one that makes `P` of `K`, where the others keep both. -/
theorem foldl_once {α : Type} {f : α → State → State} {l : List α} {i : α} (hi : i ∈ l) (hnd : l.Nodup)
    (hK : ∀ j ≠ i, ∀ u, K u → K (f j u)) (hf : ∀ u, K u → P (f i u)) (hP : ∀ j ≠ i, ∀ u, P u → P (f j u)) (h : K s) :
    P (l.foldl (fun t j => f j t) s) := by
  obtain ⟨as, bs, rfl⟩ := List.append_of_mem hi
  obtain ⟨hnot, _⟩ := List.nodup_cons.mp (List.nodup_middle.mp hnd)
  rw [List.foldl_append, List.foldl_cons]
  refine foldl_preserves P f bs (fun j hj => hP j fun he => ?_) _ (hf _ ?_)
  · exact hnot (List.mem_append_right as (he ▸ hj))
  · exact foldl_preserves K f as (fun j hj => hK j fun he => hnot (List.mem_append_left bs (he ▸ hj))) s h
end

/-! ### The recut that a report brings -/

/-- What changes neither schedule, clock nor declared capacities. -/
theorem recutsSince_aside {ps : List Part} {s t u : State} (h : recutsSince s t) (hd : Does ps t u) (hclock : Part.clock ∉ ps)
    (hsched : Part.sched ∉ ps) (hduty : u.duty.declared = t.duty.declared) (hdry : u.dry.capacity = t.dry.capacity) : recutsSince s u := by
  have hsame : u.sched = t.sched := hd.sched_eq hsched
  have hclk : u.clock = t.clock := hd.clock_eq hclock
  obtain ⟨⟨l, htrail⟩, hfits⟩ := h
  obtain ⟨m, hm⟩ := hd.appends
  refine ⟨⟨l ++ m, hclk.trans htrail.clock, by rw [hm, htrail.told, pushAll_append], by rw [hsame]; exact htrail.length,
    fun i r q hr hq hne => ?_⟩, fun hfall => ?_⟩
  · rw [hsame] at hq
    obtain ⟨hlater, hc, hmem⟩ := htrail.records i r q hr hq hne
    exact ⟨hlater, hc, List.mem_append_left m hmem⟩
  · rw [hsame, hduty, hdry] at hfall
    exact laterHoursFit_mono hclk hsame (Nat.le_of_eq hduty.symm) (Nat.le_of_eq hdry.symm) (hfits hfall)

theorem takeReport_follows (b : Block) (s : State) : recutFollows s (takeReport b s) := by
  refine recutFollows_gathered ?_ ⟨rfl, rfl, rfl⟩ rfl
  refine inAnyOrder_preserves (recutsSince s.gatheringEvents) _ (fun f hf u hu => ?_) (fun u n hu => recutsSince_setWorld n hu) _
    (recutsSince_refl _)
  simp only [List.mem_cons, List.not_mem_nil, or_false] at hf
  rcases hf with rfl | rfl | rfl
  · have hmeter := does_reportMeter u b
    exact recutsSince_aside hu hmeter (by decide) (by decide) (congrArg Duty.declared (hmeter.duty_eq (by decide)))
      (congrArg Drying.capacity (hmeter.dry_eq (by decide)))
  · exact (recutDuty _).reportUnits b hu
  · exact (recutDry _).reportTrains b _ hu

/-- A report taken. -/
theorem exec_stationReport {s : State} {b : Block} (hr : restoring s = false) (hu : isUnrestored s = false) (hlen : b.length = 30) :
    exec (.stationReport b) s = .next (answeredWith 0x01 .ok (stationReportReply (takeReport b s)) s (takeReport b s)) := by
  refine exec_taken rfl hr (checked_passed (fun p hp => ?_) s _)
  simp only [List.mem_cons, List.not_mem_nil, or_false] at hp
  rcases hp with rfl | rfl
  · simp [hlen]
  · simp [hu]

/-! ### One unit's part -/

section
variable {s : State} {i : Fin 6}

/-- What an act for another unit, for the trains or for the meter leaves of unit `i`. -/
structure LeavesUnit (i : Fin 6) (s t : State) : Prop where
  unit : t.duty.units[i] = s.duty.units[i]
  does : Does reportParts s t

theorem LeavesUnit.trans {u t : State} (h : LeavesUnit i s t) (h' : LeavesUnit i t u) : LeavesUnit i s u :=
  ⟨h'.unit.trans h.unit, h.does.trans h'.does⟩

/-- A unit's record is kept by the moves of the others. -/
theorem unitOther {j : Fin 6} (hj : j ≠ i) (s : State) :
    UnitKept j (fun t => t.duty.units[i] = s.duty.units[i]) (fun t => t.duty.units[i] = s.duty.units[i]) :=
  .whole (fun _ _ _ _ _ h => h)
    (fun t v _ h => by
      rw [putUnit_getElem, if_neg hj]
      exact h)
    fun t h => by
      rw [handInjection_duty]
      exact h

theorem does_reportUnit (i : Fin 6) (feedback : Nat) (load : Int) (s : State) : Does dutyParts s (reportUnit i feedback load s) :=
  ((dutyKept_of_subset (List.Subset.refl dutyParts) s).unit i).reportUnit feedback load (.refl _ s)

theorem leavesUnit_report {j : Fin 6} (hj : j ≠ i) (feedback : Nat) (load : Int) (s : State) :
    LeavesUnit i s (reportUnit j feedback load s) :=
  ⟨(unitOther hj s).reportUnit feedback load rfl, (does_reportUnit j feedback load s).mono (by decide)⟩

theorem leavesUnit_of_does {ps : List Part} {t : State} (h : Does ps s t) (hduty : Part.duty ∉ ps) (hps : ps ⊆ reportParts) :
    LeavesUnit i s t := ⟨by rw [h.duty_eq hduty], h.mono hps⟩

theorem does_reportTrains (b : Block) (s : State) : Does flowParts s (reportTrains b s) :=
  (dryKept_of_subset (List.Subset.refl flowParts) s).reportTrains b s (.refl _ s)

/-- What unit `i`'s part of a report makes, the whole report makes, where no other act can break it. -/
theorem takeReport_unit {P : State → Prop} (b : Block) (i : Fin 6)
    (hmake : ∀ u, LeavesUnit i s.gatheringEvents u → P (reportUnit i (fieldW b (6 + 3 * i.val)) (fieldI2 b (7 + 3 * i.val)) u))
    (hmeter : ∀ u, P u → P (reportMeter b u)) (htrains : ∀ u, P u → P (reportTrains b u))
    (hothers : ∀ j ≠ i, ∀ u, P u → P (reportUnit j (fieldW b (6 + 3 * j.val)) (fieldI2 b (7 + 3 * j.val)) u)) :
    P (inAnyOrder [reportMeter b, reportUnits b, reportTrains b] s.gatheringEvents) := by
  refine inAnyOrder_once (K := LeavesUnit i s.gatheringEvents) (f := reportUnits b) (l := [reportMeter b, reportTrains b])
    (List.Perm.swap _ _ _) (fun u n hu => ?_) (fun g hg u hu => ?_) (fun u hu => ?_) (fun g hg u hu => ?_) ⟨rfl, .refl _ _⟩
  · exact hu.trans (leavesUnit_of_does (acts_setWorld (ps := [.world]) u n (by decide)).does (by decide) (by decide))
  · rcases List.mem_pair.mp hg with rfl | rfl
    · exact hu.trans (leavesUnit_of_does (does_reportMeter u b) (by decide) (by decide))
    · exact hu.trans (leavesUnit_of_does (does_reportTrains b u) (by decide) (by decide))
  · exact foldl_once (f := fun j t => reportUnit j (fieldW b (6 + 3 * j.val)) (fieldI2 b (7 + 3 * j.val)) t) (List.mem_finRange i)
      (List.nodup_finRange 6) (fun j hj v hv => hv.trans (leavesUnit_report hj _ _ v)) hmake hothers hu
  · rcases List.mem_pair.mp hg with rfl | rfl
    · exact hmeter u hu
    · exact htrains u hu

/-! #### The trip (R123, R127) -/

/-- The record of a unit that is tripped. -/
def CUnit.tripped (u : CUnit) (cause : TripCause) : CUnit := { u with
  state := if u.recoverable then .tripped else .lockedOut
  phaseTimer := if u.recoverable then recoveryInterval u.cfg.policy else 0
  loadedSeconds := 0, overload := 0, noRun := 0, limitNoted := false, tripCause := some cause }

/-- The events of a trip. -/
def tripTold (s : State) (i : Fin 6) (u : CUnit) (cause : TripCause) : List Raised :=
  ⟨gasTime s, .unitTripped, some i.val, some (tripCode (some cause) : Int)⟩
    :: if u.recoverable then [] else [⟨gasTime s, .unitLockedOut, some i.val, some (u.attempts : Int)⟩]

theorem handInjection_units (s : State) : (handInjection s).duty.units = s.duty.units := by rw [handInjection_duty]

/-- A record that leaves its phase for a trip state. -/
def CUnit.tripTo (u : CUnit) (cause : TripCause) (st : UnitState) (timer : Nat) : CUnit :=
  { u.uncounted with state := st, phaseTimer := timer, tripCause := some cause }

theorem tripUnit_recovers {cause : TripCause} (h : (s.duty.units[i]).recoverable = true) : tripUnit cause i s =
    handInjection (raise .unitTripped (some i.val) (some (tripCode (some cause) : Int))
      (putUnit i ((s.duty.units[i]).tripTo cause .tripped (recoveryInterval (s.duty.units[i]).cfg.policy)) s)) := if_pos h

theorem tripUnit_locks {cause : TripCause} (h : ¬(s.duty.units[i]).recoverable = true) : tripUnit cause i s =
    handInjection (raise .unitLockedOut (some i.val) (some ((s.duty.units[i]).attempts : Int))
      (raise .unitTripped (some i.val) (some (tripCode (some cause) : Int))
        (putUnit i ((s.duty.units[i]).tripTo cause .lockedOut 0) s))) := if_neg h

theorem putUnit_own (v : CUnit) : (putUnit i v s).duty.units[i] = v.renote s.site.startLimit := by rw [putUnit_getElem, if_pos rfl]

theorem does_handInjectionDuty (s : State) : Does dutyParts s (handInjection s) := does_handInjection (by decide) s (by decide)

theorem tripUnit_spec (cause : TripCause) (i : Fin 6) (s : State) :
    (tripUnit cause i s).duty.units[i] = (s.duty.units[i]).tripped cause ∧ injCurrent (tripUnit cause i s)
    ∧ toldBetween s (tripUnit cause i s) (tripTold s i (s.duty.units[i]) cause) := by
  by_cases hrec : (s.duty.units[i]).recoverable = true
  · rw [tripUnit_recovers hrec, tripTold, if_pos hrec, CUnit.tripped, if_pos hrec, if_pos hrec]
    refine ⟨?_, injCurrent_handInjection _, (acts_putUnit_raise i _ _ _ _ s).toldBetween.after (does_handInjectionDuty _)⟩
    rw [handInjection_units]
    exact (putUnit_own _).trans (renote_of_not_waits rfl _)
  · rw [tripUnit_locks hrec, tripTold, if_neg hrec, CUnit.tripped, if_neg hrec, if_neg hrec]
    have hacts := (acts_putUnit_raise i ((s.duty.units[i]).tripTo cause .lockedOut 0) .unitTripped (some i.val)
        (some (tripCode (some cause) : Int)) s).trans
      (acts_raise _ .unitLockedOut (some i.val) (some ((s.duty.units[i]).attempts : Int)) (by decide))
    refine ⟨?_, injCurrent_handInjection _, hacts.toldBetween.after (does_handInjectionDuty _)⟩
    rw [handInjection_units]
    exact (putUnit_own _).trans (renote_of_not_waits rfl _)

/-! #### The tests of a report (R123 to R126) -/

/-- The cause of a trip that a report brings, the record having taken the report's values. -/
def tripCauseOf (limit : Nat) (u : CUnit) : Option TripCause :=
  if u.state.runs = true ∧ u.feedback = .fault then some .feedback
  else if u.state = .loaded ∧ 3 ≤ noRunAfter u then some .noRun
  else if u.state = .loaded ∧ limit ≤ overloadAfter u ∧ 0 < overloadAfter u then some .overload
  else none

/-- The record after the tests that trip nothing. -/
def CUnit.tested (u : CUnit) : CUnit :=
  if u.state = .loaded then { u with noRun := noRunAfter u, overload := overloadAfter u } else u

/-- A record put, whatever its counts, and then tripped. -/
theorem trip_after {s' : State} {u v : CUnit} {n : Nat} (hs : Acts [.duty, .evq] s [] s') (hunit : s'.duty.units[i] = v.renote n)
    (hv : v = { u with noRun := v.noRun, overload := v.overload }) (cause : TripCause) :
    (tripUnit cause i s').duty.units[i] = u.tripped cause ∧ injCurrent (tripUnit cause i s')
    ∧ toldBetween s (tripUnit cause i s') (tripTold s i u cause) := by
  have htripped : (v.renote n).tripped cause = u.tripped cause := by
    rw [hv]
    rfl
  have htold : tripTold s' i (v.renote n) cause = tripTold s i u cause := by
    have hclock : gasTime s' = gasTime s := by rw [gasTime, gasTime, hs.does.clock_eq (by decide)]
    rw [tripTold, tripTold, hclock, hv]
    rfl
  obtain ⟨hrec, hinj, hev⟩ := tripUnit_spec cause i s'
  rw [hunit, htripped] at hrec
  rw [hunit, htold] at hev
  exact ⟨hrec, hinj, hev.before hs.does⟩

theorem reportUnit_spec (i : Fin 6) (feedback : Nat) (load : Int) (s : State) :
    (tripCauseOf s.site.overloadLimit ((s.duty.units[i]).takeReport feedback load) = none →
      (reportUnit i feedback load s).duty.units[i] = ((s.duty.units[i]).takeReport feedback load).tested.renote s.site.startLimit)
    ∧ ∀ cause, tripCauseOf s.site.overloadLimit ((s.duty.units[i]).takeReport feedback load) = some cause →
      (reportUnit i feedback load s).duty.units[i] = ((s.duty.units[i]).takeReport feedback load).tripped cause
      ∧ injCurrent (reportUnit i feedback load s)
      ∧ toldBetween s (reportUnit i feedback load s) (tripTold s i ((s.duty.units[i]).takeReport feedback load) cause) := by
  have hput (u v : CUnit) : Acts [.duty, .evq] s [] (putUnit i v (putUnit i u s)) :=
    (acts_putUnit i u s (by decide)).trans (acts_putUnit i v _ (by decide))
  dsimp only [reportUnit, tripCauseOf]
  generalize (s.duty.units[i]).takeReport feedback load = u
  have hsame : overloadAfter { u with noRun := noRunAfter u } = overloadAfter u := rfl
  simp only [Bool.and_eq_true, beq_iff_eq, hsame]
  by_cases hfault : u.state.runs = true ∧ u.feedback = .fault
  · simp only [if_pos hfault]
    refine ⟨nofun, fun cause hcause => ?_⟩
    obtain rfl := Option.some.inj hcause
    exact trip_after (acts_putUnit i u s (by decide)) (putUnit_own u) rfl _
  simp only [if_neg hfault]
  by_cases hloaded : u.state = .loaded
  · simp only [if_pos hloaded, and_iff_right hloaded]
    by_cases hrun : 3 ≤ noRunAfter u
    · simp only [if_pos hrun]
      refine ⟨nofun, fun cause hcause => ?_⟩
      obtain rfl := Option.some.inj hcause
      exact trip_after (hput _ _) (putUnit_own _) rfl _
    simp only [if_neg hrun]
    by_cases hover : s.site.overloadLimit ≤ overloadAfter u ∧ 0 < overloadAfter u
    · simp only [if_pos hover]
      refine ⟨nofun, fun cause hcause => ?_⟩
      obtain rfl := Option.some.inj hcause
      exact trip_after (hput _ _) (putUnit_own _) rfl _
    · simp only [if_neg hover]
      refine ⟨fun _ => ?_, nofun⟩
      have htested : u.tested = { u with noRun := noRunAfter u, overload := overloadAfter u } := if_pos hloaded
      exact (putUnit_own _).trans (congrArg (CUnit.renote s.site.startLimit) htested.symm)
  · simp only [hloaded, false_and, if_false]
    refine ⟨fun _ => ?_, nofun⟩
    have htested : u.tested = u := if_neg hloaded
    exact (putUnit_own u).trans (congrArg (CUnit.renote s.site.startLimit) htested.symm)

theorem feedbackOf_eq (n : Nat) : feedbackOf n = if n = 0 then .stopped else if n = 1 then .running else .fault := by
  match n with
  | 0 => rfl
  | 1 => rfl
  | n + 2 => rfl

/-- The load stands above 1,100 thousandths of the capacity. -/
def CUnit.overloaded (u : CUnit) : Bool := decide (u.cfg.capacity * 1100 < u.load * 1000)

/-- The cause as R123 to R126 word it. -/
theorem tripCauseOf_eq {limit : Nat} (hlimit : limit ≤ 15) (u : CUnit) : tripCauseOf limit u =
    if u.state.runs = true ∧ u.feedback = .fault then some .feedback
    else if u.state = .loaded ∧ u.feedback = .stopped ∧ 3 ≤ u.noRun + 1 then some .noRun
    else if u.state = .loaded ∧ u.overloaded = true ∧ limit ≤ u.overload + 1 then some .overload
    else none := by
  unfold tripCauseOf
  by_cases hfault : u.state.runs = true ∧ u.feedback = .fault
  · rw [if_pos hfault, if_pos hfault]
  rw [if_neg hfault, if_neg hfault]
  have hover : (u.state = .loaded ∧ limit ≤ overloadAfter u ∧ 0 < overloadAfter u)
      ↔ u.state = .loaded ∧ u.overloaded = true ∧ limit ≤ u.overload + 1 := by
    refine and_congr_right fun _ => ?_
    unfold overloadAfter CUnit.overloaded
    rw [decide_eq_true_eq]
    split_ifs with hload
    · simp only [hload, true_and]
      omega
    · simp only [hload, false_and, iff_false]
      omega
  have hrun : (u.state = .loaded ∧ 3 ≤ noRunAfter u) ↔ u.state = .loaded ∧ u.feedback = .stopped ∧ 3 ≤ u.noRun + 1 := by
    refine and_congr_right fun hloaded => ?_
    cases hfeedback : u.feedback
    case stopped =>
      rw [noRunAfter, hfeedback]
      simp only [true_and]
      omega
    case running =>
      rw [noRunAfter, hfeedback]
      simp
    case fault => exact absurd ⟨by rw [hloaded]; rfl, hfeedback⟩ hfault
  rw [if_congr hrun rfl (if_congr hover rfl rfl)]
end

/-- The record as the tests that trip nothing leave it. -/
theorem tested_eq {limit : Nat} {u : CUnit} (h : tripCauseOf limit u = none) : u.tested = if u.state = .loaded then
    { u with
      noRun := if u.feedback = .stopped then u.noRun + 1 else 0
      overload := if u.overloaded = true then min (u.overload + 1) 15 else 0 }
    else u := by
  unfold CUnit.tested
  split
  · next hloaded =>
    have hfault : u.feedback ≠ .fault := fun hf => by
      rw [tripCauseOf, if_pos ⟨by rw [hloaded]; rfl, hf⟩] at h
      exact absurd h nofun
    have hrun : ¬3 ≤ noRunAfter u := fun hr => by
      rw [tripCauseOf, if_neg fun hf => hfault hf.2, if_pos ⟨hloaded, hr⟩] at h
      exact absurd h nofun
    have hcount : noRunAfter u = if u.feedback = .stopped then u.noRun + 1 else 0 := by
      cases hfeedback : u.feedback
      case stopped =>
        rw [noRunAfter, hfeedback] at hrun ⊢
        dsimp only at hrun ⊢
        rw [if_pos rfl]
        omega
      case running =>
        rw [noRunAfter, hfeedback]
        rfl
      case fault => exact absurd hfeedback hfault
    have hover : overloadAfter u = if u.overloaded = true then min (u.overload + 1) 15 else 0 := by
      unfold overloadAfter CUnit.overloaded
      simp only [decide_eq_true_eq]
    rw [hcount, hover]
  · rfl

theorem tripTold_source (s : State) (i : Fin 6) (u : CUnit) (cause : TripCause) :
    ∀ e ∈ tripTold s i u cause, e.kind.source = .dutyScheduler := by
  intro e he
  rcases List.mem_cons.mp he with rfl | he
  · rfl
  · split at he
    · exact absurd he List.not_mem_nil
    · rw [List.mem_singleton.mp he]
      rfl

/-- What unit `i`'s part of a report leaves, and every other act of the report keeps. -/
structure Reported (s : State) (i : Fin 6) (w : CUnit) (es : List Raised) (trips : Prop) (t : State) : Prop where
  unit : t.duty.units[i] = w
  told : toldBetween s t es
  current : trips → injCurrent t

theorem Reported.keep {s t u : State} {i : Fin 6} {w : CUnit} {es : List Raised} {trips : Prop} (h : Reported s i w es trips t)
    (hunit : u.duty.units[i] = t.duty.units[i]) (hd : Does reportParts t u) (hinj : injCurrent t → injCurrent u) :
    Reported s i w es trips u := ⟨hunit.trans h.unit, h.told.after hd, fun ht => hinj (h.current ht)⟩

theorem Reported.gathered {f : State → State} {s : State} {i : Fin 6} {w : CUnit} {es : List Raised} {trips : Prop}
    (hes : ∀ e ∈ es, e.kind.source = .dutyScheduler) (h : Reported s.gatheringEvents i w es trips (f s.gatheringEvents)) :
    Reported s i w es trips (Machine.gathered f s) := ⟨h.unit, toldBetween_gathered h.told hes, h.current⟩

/-- The report taken, as unit `i` sees it. -/
theorem takeReport_reported {s : State} {b : Block} {i : Fin 6} {w : CUnit} {es : List Raised} {trips : Prop}
    (hes : ∀ e ∈ es, e.kind.source = .dutyScheduler)
    (hmake : ∀ u, LeavesUnit i s.gatheringEvents u →
      Reported u i w es trips (reportUnit i (fieldW b (6 + 3 * i.val)) (fieldI2 b (7 + 3 * i.val)) u)) :
    Reported s i w es trips (takeReport b s) := by
  have hall : Reported s.gatheringEvents i w es trips (inAnyOrder [reportMeter b, reportUnits b, reportTrains b] s.gatheringEvents) := by
    refine takeReport_unit b i (fun u hu => ?_) (fun u hu => ?_) (fun u hu => ?_) (fun j hj u hu => ?_)
    · have hmade := hmake u hu
      exact ⟨hmade.unit, hmade.told.before hu.does, hmade.current⟩
    · have hmeter := does_reportMeter u b
      exact hu.keep (by rw [hmeter.duty_eq (by decide)]) (hmeter.mono (by decide)) fun h =>
        injCurrent_congr (hmeter.duty_eq (by decide)) (hmeter.site_eq (by decide)) (congrArg Flow.cInj (hmeter.flow_eq (by decide))) h
    · have htrains := does_reportTrains b u
      exact hu.keep (by rw [htrains.duty_eq (by decide)]) (htrains.mono (by decide)) (injDry.reportTrains b u)
    · have hother := leavesUnit_report hj (fieldW b (6 + 3 * j.val)) (fieldI2 b (7 + 3 * j.val)) u
      exact hu.keep hother.unit hother.does fun h => (injUnit j).reportUnit _ _ h
  exact hall.gathered hes

/-- Two events told between two states, in their order among the others. -/
theorem toldBetween_pair {s t : State} {e f : Raised} (h : toldBetween s t [e, f]) :
    ∃ l m n : List Raised, t.evq = s.evq.pushAll (l ++ [e] ++ m ++ [f] ++ n) := by
  obtain ⟨k, hk, hsub⟩ := h
  obtain ⟨r₁, r₂, rfl, he, hf⟩ := List.cons_sublist_iff.mp hsub
  obtain ⟨l, m₁, rfl⟩ := List.append_of_mem he
  obtain ⟨m₂, n, rfl⟩ := List.append_of_mem (List.singleton_sublist.mp hf)
  exact ⟨l, m₁ ++ m₂, n, by rw [hk]; simp⟩

/-- Settles O45: unit i's part of a report tests its record, and no other act of the report writes it. -/
theorem reportsTripUnits : Obligations.ReportsTripUnits := by
  intro s b i hr hu hlen hlimit u word load feedback above cause recovers code taken
  have htaken : u.takeReport word (fieldI2 b (7 + 3 * i.val)) = taken := by
    simp only [CUnit.takeReport, feedbackOf_eq, taken, feedback, load]
  have hcause : tripCauseOf s.site.overloadLimit taken = cause := tripCauseOf_eq hlimit taken
  have hunit (v : State) (hv : LeavesUnit i s.gatheringEvents v) : v.duty.units[i] = u ∧ v.site = s.site ∧ gasTime v = gasTime s :=
    ⟨hv.unit, hv.does.site_eq (by decide), by rw [gasTime, gasTime, hv.does.clock_eq (by decide)]; rfl⟩
  rcases hc : cause with _ | c
  · have hreported : Reported s i (taken.tested.renote s.site.startLimit) [] False (takeReport b s) := by
      refine takeReport_reported nofun fun v hv => ?_
      obtain ⟨hvu, hsite, _⟩ := hunit v hv
      have hspec := (reportUnit_spec i word (fieldI2 b (7 + 3 * i.val)) v).1
      rw [hvu, hsite, htaken, hcause] at hspec
      exact ⟨hspec hc, toldBetween_nil (does_reportUnit i _ _ v), False.elim⟩
    refine ⟨_, _, [], [], [], exec_stationReport hr hu hlen, takeReport_follows b s, fun _ => ?_, fun h => absurd rfl h⟩
    rw [hreported.unit, tested_eq (hcause.trans hc)]
    rfl
  · have hreported : Reported s i (taken.tripped c) (tripTold s i taken c) True (takeReport b s) := by
      refine takeReport_reported (tripTold_source s i taken c) fun v hv => ?_
      · obtain ⟨hvu, hsite, htime⟩ := hunit v hv
        have hspec := (reportUnit_spec i word (fieldI2 b (7 + 3 * i.val)) v).2 c
        rw [hvu, hsite, htaken, hcause] at hspec
        obtain ⟨hrec, hinj, htold⟩ := hspec hc
        rw [tripTold, htime] at htold
        exact ⟨hrec, htold, fun _ => hinj⟩
    have hrecovers : taken.recoverable = recovers := by
      simp only [CUnit.recoverable, recovers, taken, Bool.decide_or, Bool.decide_and]
      rfl
    obtain ⟨⟨hdeclared, hready⟩, hheld⟩ := hreported.current trivial
    have hrecord : (takeReport b s).duty.units[i] = { taken with
        state := if recovers = true then .tripped else .lockedOut
        phaseTimer := if recovers = true then (if u.cfg.policy = 1 then 300 else 1800) else 0
        loadedSeconds := 0, overload := 0, noRun := 0, limitNoted := false, tripCause := some c } := by
      rw [hreported.unit, CUnit.tripped, hrecovers]
      rfl
    have hpermit : runPermit (takeReport b s) i = false := by
      rw [runPermit, hrecord]
      dsimp only
      split_ifs <;> rfl
    have htold := hreported.told
    rw [tripTold, hrecovers] at htold
    obtain ⟨l, m, n, hev⟩ : ∃ l m n : List Raised, (takeReport b s).evq = s.evq.pushAll (l
        ++ [⟨gasTime s, .unitTripped, some i.val, some (tripCode (some c) : Int)⟩] ++ m
        ++ (if recovers = true then [] else [⟨gasTime s, .unitLockedOut, some i.val, some (u.attempts : Int)⟩]) ++ n) := by
      split at htold
      · next hyes =>
        obtain ⟨l, n, hln⟩ := toldBetween_singleton htold
        exact ⟨l, [], n, by rw [hln, if_pos hyes]; simp⟩
      · next hno =>
        obtain ⟨l, m, n, hlmn⟩ := toldBetween_pair htold
        exact ⟨l, m, n, by rw [hlmn, if_neg hno]⟩
    have hcode : (tripCode (some c) : Int) = code := by rw [← hc]
    rw [hcode] at hev
    exact ⟨_, _, l, m, n, exec_stationReport hr hu hlen, takeReport_follows b s, nofun,
      fun _ => ⟨hrecord, hpermit, hdeclared, hready, hheld, hev⟩⟩

end Sys2Proof.Machine
end

section
/-! SUPPORT. What the hand-over of the withdrawal capacity leaves of the trains (R99, R141, R142), and the dew point where it takes
neither excursion nor recovery (R153 to R155): O53. -/

namespace Sys2Proof.Machine

/-! ### A train record among the others -/

/-- A train record but for its share. -/
def Train.unshared (x : Train) : Train := { x with share := 0 }

/-- A property of a train record that no share can break. -/
def ShareFree (Q : Train → Prop) : Prop := ∀ (x : Train) (n : Nat), Q x → Q { x with share := n }

theorem shareFree_unshared (x : Train) : ShareFree (fun y => y.unshared = x.unshared) := fun _ _ h => h

theorem of_unshared {x y : Train} (h : y.unshared = x.unshared) : y = { x with share := y.share } := by
  calc y = { y.unshared with share := y.share } := rfl
    _ = { x.unshared with share := y.share } := by rw [h]
    _ = { x with share := y.share } := rfl

section
variable {s : State} {t i : Fin 2} {Q : Train → Prop}

theorem putTrain_own (x : Train) : (putTrain t x s).dry.trains[t] = x := by rw [putTrain_trains, if_pos rfl]

theorem putTrain_other (x : Train) (h : t ≠ i) : (putTrain t x s).dry.trains[i] = s.dry.trains[i] := by
  rw [putTrain_trains, if_neg h]

theorem putTrain_self : putTrain t s.dry.trains[t] s = s := by
  exact (congrArg (fun v => s.setDry { s.dry with trains := v }) (setVec_self s.dry.trains t)).trans rfl

theorem putTrain_putTrain (t : Fin 2) (x y : Train) (s : State) : (putTrain t y (putTrain t x s)).dry = (putTrain t y s).dry := by
  show ({ s.dry with trains := setVec (setVec s.dry.trains t x) t y } : Drying) = { s.dry with trains := setVec s.dry.trains t y }
  rw [setVec_setVec]

theorem ShareFree.reshare (hQ : ShareFree Q) (h : Q s.dry.trains[i]) : Q (reshare s).dry.trains[i] := by
  rw [reshare_trains]
  exact hQ _ _ h

theorem unshared_reshare (s : State) (i : Fin 2) : ((reshare s).dry.trains[i]).unshared = (s.dry.trains[i]).unshared := by
  rw [reshare_trains]
  rfl

/-- What acts elsewhere than at train `t` keep: the other train's moves, the shares, the flow, the recut and the world. -/
structure Aside (t : Fin 2) (P : State → Prop) : Prop where
  raise : ∀ s k a b, k.ofFlow = true → (k = .dewWarning → a ≠ some t.val) → P s → P (Machine.raise k a b s)
  putTrain : ∀ s i x, i ≠ t → P s → P (Machine.putTrain i x s)
  reshare : ∀ s, P s → P (Machine.reshare s)
  setFlow : ∀ s x, P s → P (s.setFlow x)
  recut : ∀ s, P s → P (Machine.recut s)
  setWorld : ∀ s n, P s → P (s.setWorld n)
  capacity : ∀ s n, P s → P (s.setDry { s.dry with capacity := n })

theorem recut_trains (s : State) : (Machine.recut s).dry.trains = s.dry.trains := by rw [recut_dry]

theorem ShareFree.aside (hQ : ShareFree Q) : Aside t (fun s => Q s.dry.trains[t]) where
  raise _ _ _ _ _ _ h := h
  putTrain s i x hi h := by
    show Q (Machine.putTrain i x s).dry.trains[t]
    rw [putTrain_other x hi]
    exact h
  reshare _ h := hQ.reshare h
  setFlow _ _ h := h
  recut s h := by
    show Q (Machine.recut s).dry.trains[t]
    rw [recut_trains]
    exact h
  setWorld _ _ h := h
  capacity _ _ h := h

/-- The moves of another train. -/
theorem Aside.dew {P : State → Prop} (hP : Aside t P) (hi : i ≠ t) {hand : Hand} (hhand : ∀ s, P s → P (hand s)) : DewKept hand i P where
  raise s k a b hk hwarn h := hP.raise s k a b hk (fun hd he => hi (Fin.ext (Option.some.inj ((hwarn hd).1.symm.trans he)))) h
  quiet s y _ _ _ h := hP.putTrain s i y hi h
  leave s y _ _ h := hhand _ (hP.reshare _ (hP.putTrain s i y hi h))
  join s y _ _ _ h := hP.reshare _ (hP.putTrain s i y hi h)
  reshare := hP.reshare

theorem ShareFree.dew (hQ : ShareFree Q) (hi : i ≠ t) {hand : Hand} (hhand : ∀ s : State, Q s.dry.trains[t] → Q (hand s).dry.trains[t]) :
    DewKept hand i (fun s => Q s.dry.trains[t]) := hQ.aside.dew hi hhand

theorem ShareFree.train (hQ : ShareFree Q) (hi : i ≠ t) (hhand : ∀ s : State, Q s.dry.trains[t] → Q (handWithdrawal s).dry.trains[t]) :
    TrainKept handWithdrawal i (fun s => Q s.dry.trains[t]) (fun s => Q s.dry.trains[t]) where
  toDewKept := hQ.dew hi hhand
  weaken _ h := h
  raiseB _ _ _ _ _ h := h
  moveB s y _ h := by
    show Q (putTrain i y s).dry.trains[t]
    rw [putTrain_other y hi]
    exact h
  move s y _ _ _ _ h := by
    show Q (putTrain i y s).dry.trains[t]
    rw [putTrain_other y hi]
    exact h
  handed s h := hhand s h

/-! ### A train that is not in service (R141) -/

theorem not_inService {x : Train} (h : x.inService = false) : x.state ≠ .online ∧ x.state ≠ .standby := by
  constructor <;> intro he <;> rw [Train.inService, he] at h <;> exact absurd h nofun

/-- What the train `t` that follows the direction keeps too. -/
structure Follows (t : Fin 2) (P : State → Prop) : Prop extends Aside t P where
  bring : ∀ hand : Hand, (∀ s, P s → P (hand s)) → ∀ s, P s → P (bringOnline hand t s)
  send : ∀ s, P s → P (sendStandby t s)

/-- A train that is not in service follows nowhere. -/
theorem Aside.resting {P : State → Prop} (hP : Aside t P) (hrest : ∀ s, P s → (s.dry.trains[t]).inService = false) : Follows t P where
  toAside := hP
  bring hand _ s h := by
    rw [bringOnline_of_ne (not_inService (hrest _ h)).2]
    exact h
  send s h := by
    rw [sendStandby_of_ne (not_inService (hrest _ h)).1]
    exact h

section
variable {P : State → Prop} (hP : Follows t P)
include hP

theorem Follows.follow {hand : Hand} (hhand : ∀ s, P s → P (hand s)) (h : P s) : P (followDirection hand s) := by
  have hbring (i : Fin 2) {u : State} (hu : P u) : P (bringOnline hand i u) := by
    by_cases hi : i = t
    · rw [hi]
      exact hP.bring hand hhand _ hu
    · exact (hP.dew hi hhand).bringOnline hu
  have hsend (i : Fin 2) {u : State} (hu : P u) : P (sendStandby i u) := by
    by_cases hi : i = t
    · rw [hi]
      exact hP.send _ hu
    · dsimp only [sendStandby]
      split
      · exact hP.putTrain _ _ _ hi hu
      · exact hu
  dsimp only [followDirection]
  split
  · exact hP.reshare _ (hbring 1 (hbring 0 h))
  · exact hP.reshare _ (hsend 1 (hsend 0 h))

theorem Follows.handAtZero (h : P s) : P (handWithdrawalAtZero s) := by
  have hcap := hP.capacity s (withdrawalCapacity s) h
  dsimp only [handWithdrawalAtZero]
  split
  · exact hP.setFlow _ _ (hP.recut _ hcap)
  · exact hP.setFlow _ _ hcap

theorem Follows.flow : FlowKept P P where
  weaken _ h := h
  raise s k a b hk hwarn h := hP.raise s k a b hk (fun hd => absurd hd hwarn) h
  setFlow s x _ _ h := hP.setFlow s x h
  quiet s x _ _ _ _ h := hP.setFlow s x h
  follow _ h := hP.follow (fun _ hu => hP.handAtZero hu) h
  reshare := hP.reshare

theorem Follows.hand (h : P s) : P (handWithdrawal s) :=
  handWithdrawal_preserves P s hP.recut (fun c _ hu => hP.flow.receiveWdr c (hP.setFlow _ _ hu)) hP.reshare hP.setWorld
    (hP.capacity s _ h)
end

/-- A train that is not in service keeps its record, but for its share. -/
theorem rests_of_unshared {x : Train} (hx : x.inService = false) (h : (s.dry.trains[t]).unshared = x.unshared) :
    (s.dry.trains[t]).inService = false := by
  have hstate := congrArg Train.state h
  exact (congrArg (fun st : TrainState => st == .standby || st == .online) hstate).trans hx

theorem unshared_hand (h : (s.dry.trains[t]).inService = false) :
    ((handWithdrawal s).dry.trains[t]).unshared = (s.dry.trains[t]).unshared :=
  ((shareFree_unshared s.dry.trains[t]).aside.resting fun _ hu => rests_of_unshared h hu).hand
    (P := fun u => (u.dry.trains[t]).unshared = (s.dry.trains[t]).unshared) rfl

/-! ### No step cut (R99) -/

/-- The withdrawal capacity handed on cuts no S. -/
def calm (s : State) : Prop := ¬(withdrawalCapacity s < s.flow.cWdr ∧ s.flow.setpoint < -(withdrawalCapacity s : Int))

/-- What a hand-over without a step cut leaves. -/
structure Handed (s u : State) : Prop where
  course : u.flow.course = s.flow.course
  trains : ∀ i : Fin 2, (u.dry.trains[i]).unshared = (s.dry.trains[i]).unshared

theorem Handed.refl (s : State) : Handed s s := ⟨rfl, fun _ => rfl⟩

theorem Handed.trans {u v : State} (h : Handed s u) (h' : Handed u v) : Handed s v :=
  ⟨h'.course.trans h.course, fun i => (h'.trains i).trans (h.trains i)⟩

theorem handed_reshare (s : State) : Handed s (reshare s) := ⟨rfl, unshared_reshare s⟩

theorem handed_recut (s : State) : Handed s (recut s) := ⟨by rw [(recut_plant s).2.2], fun i => by rw [recut_trains]⟩

theorem handed_of_calm (h : calm s) : Handed s (handWithdrawal s) := by
  refine handWithdrawal_reaches (K := fun u => Handed s u ∧ u.flow.cWdr = s.flow.cWdr) (P := Handed s) (fun u n hu => ⟨⟨hu.1.1, hu.1.2⟩, hu.2⟩)
    (fun u n hu => ⟨hu.1, hu.2⟩) (fun u hu => ⟨hu.1.trans (handed_recut u), ?_⟩) (fun u hu => hu.trans (handed_recut u)) (fun u hu => ?_)
    (fun _ => ⟨rfl, fun _ => rfl⟩) (fun u hu => hu.trans (handed_reshare u)) ⟨⟨rfl, fun _ => rfl⟩, rfl⟩
  · rw [(recut_plant u).2.2]
    exact hu.2
  · rw [receiveWdr_rest (by rw [hu.2, (course_fields hu.1.course).2.2.1]; exact h)]
    exact ⟨hu.1.course, hu.1.trains⟩

/-- A capacity that does not fall below the one held cuts no S. -/
theorem calm_of_le (h : s.flow.cWdr ≤ withdrawalCapacity s) : calm s := fun hc => absurd hc.1 (Nat.not_lt.mpr h)

theorem withdrawalCapacity_putTrain_le {x : Train} (h : (s.dry.trains[t]).figure ≤ x.figure) :
    withdrawalCapacity s ≤ withdrawalCapacity (putTrain t x s) := by
  have hfig (i : Fin 2) : (s.dry.trains[i]).figure ≤ ((putTrain t x s).dry.trains[i]).figure := by
    rw [putTrain_trains]
    split
    · next hi => exact hi ▸ h
    · exact Nat.le_refl _
  have h0 := hfig 0
  have h1 := hfig 1
  have hsite : (putTrain t x s).site = s.site := rfl
  rw [withdrawalCapacity_eq, withdrawalCapacity_eq, hsite]
  omega

/-! ### The dew point where it takes nothing (R153 to R155) -/

/-- The excursion timer as an assessment leaves it. -/
def Train.excursionSet (x : Train) : Train :=
  { x with excursion := if x.cfg.spec < x.dew then some (x.excursion.getD x.cfg.excursionDelay) else none }

/-- The recovery timer as an assessment leaves it. -/
def Train.recoverySet (x : Train) : Train :=
  { x with recovery := if x.dew < x.cfg.warn then some (x.recovery.getD x.cfg.recoveryDelay) else none }

/-- An assessment takes an excursion. -/
def Train.leaves (x : Train) : Prop := x.cfg.spec < x.dew ∧ x.excursion = none ∧ x.cfg.excursionDelay = 0

/-- An assessment takes a recovery. -/
def Train.returns (x : Train) : Prop := x.dew < x.cfg.warn ∧ x.recovery = none ∧ x.cfg.recoveryDelay = 0

theorem assessSpec_leaves {hand : Hand} (h : (s.dry.trains[t]).leaves) : assessSpec hand t s = takeExcursion hand t s := by
  obtain ⟨hspec, hnone, hdelay⟩ := h
  dsimp only [assessSpec]
  rw [if_pos hspec, if_pos hdelay, hnone]

theorem assessSpec_rests {hand : Hand} (h : ¬(s.dry.trains[t]).leaves) :
    assessSpec hand t s = putTrain t (s.dry.trains[t]).excursionSet s := by
  dsimp only [assessSpec, Train.excursionSet]
  by_cases hspec : (s.dry.trains[t]).cfg.spec < (s.dry.trains[t]).dew
  · rw [if_pos hspec, if_pos hspec]
    cases hexc : (s.dry.trains[t]).excursion with
    | none => exact if_neg fun hdelay => h ⟨hspec, hexc, hdelay⟩
    | some n =>
      dsimp only [Option.getD]
      rw [← hexc]
      exact putTrain_self.symm
  · rw [if_neg hspec, if_neg hspec]

theorem assessRecovery_returns {hand : Hand} (h : (s.dry.trains[t]).returns) : assessRecovery hand t s = takeRecovery hand t s := by
  obtain ⟨hwarn, hnone, hdelay⟩ := h
  dsimp only [assessRecovery]
  rw [if_pos hwarn, if_pos hdelay, hnone]

theorem assessRecovery_rests {hand : Hand} (h : ¬(s.dry.trains[t]).returns) :
    assessRecovery hand t s = putTrain t (s.dry.trains[t]).recoverySet s := by
  dsimp only [assessRecovery, Train.recoverySet]
  by_cases hwarn : (s.dry.trains[t]).dew < (s.dry.trains[t]).cfg.warn
  · rw [if_pos hwarn, if_pos hwarn]
    cases hrec : (s.dry.trains[t]).recovery with
    | none => exact if_neg fun hdelay => h ⟨hwarn, hrec, hdelay⟩
    | some n =>
      dsimp only [Option.getD]
      rw [← hrec]
      exact putTrain_self.symm
  · rw [if_neg hwarn, if_neg hwarn]

/-- The warning's arming as an assessment leaves it. -/
def Train.armedSet (x : Train) : Train := { x with armed := decide (x.dew < x.cfg.warn) }

/-- The warning of a train. -/
def warnTold (s : State) (t : Fin 2) : List Raised :=
  if (s.dry.trains[t]).armed = true ∧ (s.dry.trains[t]).cfg.warn ≤ (s.dry.trains[t]).dew then
    [⟨gasTime s, .dewWarning, some t.val, some (s.dry.trains[t]).dew⟩] else []

theorem acts_putTrain {ps : List Part} (t : Fin 2) (x : Train) (s : State) (h : Part.dry ∈ ps) : Acts ps s [] (putTrain t x s) :=
  acts_setDry s _ h

theorem dewWarning_spec (t : Fin 2) (s : State) :
    Acts [.dry, .evq] s (warnTold s t) (dewWarning t s) ∧ (dewWarning t s).dry = (putTrain t (s.dry.trains[t]).armedSet s).dry := by
  dsimp only [dewWarning, warnTold, Train.armedSet]
  by_cases hwarn : (s.dry.trains[t]).dew < (s.dry.trains[t]).cfg.warn
  · rw [if_pos hwarn, if_neg fun h => absurd h.2 (Int.not_le.mpr hwarn), decide_eq_true hwarn]
    exact ⟨acts_putTrain t _ s (by decide), rfl⟩
  · rw [if_neg hwarn, decide_eq_false hwarn]
    cases harmed : (s.dry.trains[t]).armed
    · rw [if_neg nofun, if_neg (by simp), ← harmed]
      exact ⟨.refl _ s, congrArg State.dry (putTrain_self (s := s) (t := t)).symm⟩
    · rw [if_pos rfl, if_pos ⟨rfl, Int.not_lt.mp hwarn⟩]
      exact ⟨(acts_putTrain t _ s (by decide)).trans (acts_raise _ .dewWarning (some t.val) _ (by decide)), rfl⟩

theorem dewWarning_train (t i : Fin 2) (s : State) :
    (dewWarning t s).dry.trains[i] = if t = i then (s.dry.trains[t]).armedSet else s.dry.trains[i] := by
  rw [(dewWarning_spec t s).2]
  exact putTrain_trains t i _ s

/-! ### The recovery (R155) -/

/-- The state a train comes back in. -/
def backState (d : FlowDir) : TrainState := if d = .withdrawing then .online else .standby

/-- A train that comes back to specification. -/
def backTrain (d : FlowDir) (x : Train) : Train := ({ x with state := backState d, recovery := none } : Train).masked

theorem masked_mask (x : Train) : x.masked.mask = x.cfg.maskChoice := by
  unfold Train.masked
  split
  · next h => exact h.symm
  · rfl

theorem masked_recovery {x : Train} (h : x.recovery = none) : x.masked.recovery = none := by
  unfold Train.masked
  split
  · exact h
  · rfl

theorem backTrain_state (d : FlowDir) (x : Train) : (backTrain d x).state = backState d := (Train.masked_keeps _).1

theorem masked_body (x : Train) : x.masked.body = x.body := (Train.masked_move x x.state x.recovery).body

theorem backTrain_body (d : FlowDir) (x : Train) : (backTrain d x).body = x.body := (Train.masked_move x _ _).body

/-- The part as a train comes back, before it is assessed. -/
def broughtBack (t : Fin 2) (s : State) : State :=
  raise .onSpec (some t.val) (some (s.dry.trains[t]).dew)
    (handWithdrawal (reshare (putTrain t (backTrain s.flow.dir s.dry.trains[t]) s)))

theorem takeRecovery_eq (t : Fin 2) (s : State) : takeRecovery handWithdrawal t s =
    if (s.dry.trains[t]).cfg.maskChoice = 0 then assessOnline handWithdrawal t (broughtBack t s) else broughtBack t s := by
  have hst : (if (s.flow.dir == .withdrawing) = true then TrainState.online else .standby) = backState s.flow.dir :=
    if_congr beq_iff_eq rfl rfl
  dsimp only [takeRecovery]
  rw [hst]
  rfl

/-- A train out of the capacity that comes back into it cuts no S. -/
theorem calm_back (hcur : wdrCurrent s) (hx : (s.dry.trains[t]).inService = false) :
    calm (reshare (putTrain t (backTrain s.flow.dir s.dry.trains[t]) s)) := by
  refine calm_of_le ?_
  rw [withdrawalCapacity_reshare]
  refine Nat.le_trans (Nat.le_of_eq (hcur.2.trans hcur.1)) (withdrawalCapacity_putTrain_le ?_)
  rw [Train.figure, hx]
  exact Nat.zero_le _

theorem body_cfg {x y : Train} (h : y.body = x.body) : y.cfg = x.cfg ∧ y.dew = x.dew := by
  simp only [Train.body, Train.mk.injEq] at h
  obtain ⟨_, hcfg, _, _, _, _, _, _, _, hdew, _⟩ := h
  exact ⟨hcfg, hdew⟩

theorem unshared_body {x y : Train} (h : y.unshared = x.unshared) : y.body = x.body := by rw [of_unshared h]; rfl

/-- What an assessment in ONLINE that takes no excursion leaves. -/
theorem assessOnline_rests {hand : Hand} (h : ¬(s.dry.trains[t]).leaves) : (assessOnline hand t s).flow = s.flow
    ∧ (∀ i ≠ t, (assessOnline hand t s).dry.trains[i] = s.dry.trains[i])
    ∧ (assessOnline hand t s).dry.trains[t] = if (s.dry.trains[t]).state = .online ∧ (s.dry.trains[t]).mask = 0 then
        (s.dry.trains[t]).excursionSet.armedSet else s.dry.trains[t] := by
  have hcond : ((s.dry.trains[t]).state == .online && (s.dry.trains[t]).mask == 0) = true
      ↔ (s.dry.trains[t]).state = .online ∧ (s.dry.trains[t]).mask = 0 := by
    rw [Bool.and_eq_true, beq_iff_eq, beq_iff_eq]
  dsimp only [assessOnline]
  by_cases hon : (s.dry.trains[t]).state = .online ∧ (s.dry.trains[t]).mask = 0
  · rw [if_pos (hcond.mpr hon), if_pos hon, assessSpec_rests h]
    refine ⟨(dewWarning_spec t _).1.does.flow_eq (by decide), fun i hi => ?_, ?_⟩
    · rw [dewWarning_train, if_neg (Ne.symm hi), putTrain_other _ (Ne.symm hi)]
    · rw [dewWarning_train, if_pos rfl, putTrain_own]
  · rw [if_neg (mt hcond.mp hon), if_neg hon]
    exact ⟨rfl, fun _ _ => rfl, rfl⟩

/-- What a recovery leaves that neither cuts S nor is assessed out of specification again. -/
structure Recovered (t : Fin 2) (s u : State) : Prop where
  state : (u.dry.trains[t]).state = backState s.flow.dir
  mask : (u.dry.trains[t]).mask = (s.dry.trains[t]).cfg.maskChoice
  recovery : (u.dry.trains[t]).recovery = none
  course : u.flow.course = s.flow.course
  others : ∀ i ≠ t, (u.dry.trains[i]).unshared = (s.dry.trains[i]).unshared

theorem recovered_brought (hcalm : calm (reshare (putTrain t (backTrain s.flow.dir s.dry.trains[t]) s))) :
    Recovered t s (broughtBack t s) ∧ ((broughtBack t s).dry.trains[t]).body = (s.dry.trains[t]).body := by
  have hhand := handed_of_calm hcalm
  have hown : ((broughtBack t s).dry.trains[t]).unshared = (backTrain s.flow.dir s.dry.trains[t]).unshared :=
    (hhand.trains t).trans ((unshared_reshare _ t).trans (by rw [putTrain_own]))
  refine ⟨⟨?_, ?_, ?_, hhand.course, fun i hi => ?_⟩, (unshared_body hown).trans (backTrain_body _ _)⟩
  · exact (congrArg Train.state hown).trans (backTrain_state _ _)
  · exact (congrArg Train.mask hown).trans (masked_mask _)
  · exact (congrArg Train.recovery hown).trans (masked_recovery rfl)
  · exact (hhand.trains i).trans ((unshared_reshare _ i).trans (by rw [putTrain_other _ (Ne.symm hi)]))

theorem takeRecovery_calm (hcur : wdrCurrent s) (hx : (s.dry.trains[t]).inService = false)
    (hstays : ¬((s.dry.trains[t]).cfg.maskChoice = 0 ∧ (s.dry.trains[t]).cfg.spec < (s.dry.trains[t]).dew
      ∧ (s.dry.trains[t]).cfg.excursionDelay = 0)) : Recovered t s (takeRecovery handWithdrawal t s) := by
  obtain ⟨⟨hstate, hmask, hrec, hcourse, hothers⟩, hbody⟩ := recovered_brought (calm_back hcur hx)
  rw [takeRecovery_eq]
  split
  · next hchoice =>
    obtain ⟨hcfg, hdew⟩ := body_cfg hbody
    have hin : ¬((broughtBack t s).dry.trains[t]).leaves := fun h => hstays ⟨hchoice, by rw [← hcfg, ← hdew]; exact h.1, hcfg ▸ h.2.2⟩
    obtain ⟨hflow, hrest, hown⟩ := assessOnline_rests (hand := handWithdrawal) hin
    refine ⟨?_, ?_, ?_, by rw [hflow]; exact hcourse, fun i hi => by rw [hrest i hi]; exact hothers i hi⟩
    all_goals
      rw [hown]
      split
    · exact hstate
    · exact hstate
    · exact hmask
    · exact hmask
    · exact hrec
    · exact hrec
  · exact ⟨hstate, hmask, hrec, hcourse, hothers⟩

/-! ### A train's row -/

theorem Does.gasTime {ps : List Part} {u v : State} (h : Does ps u v) (hclock : Part.clock ∉ ps) : Machine.gasTime v = Machine.gasTime u := by
  rw [Machine.gasTime, Machine.gasTime, h.clock_eq hclock]

theorem flowTrain (s : State) (t : Fin 2) : TrainKept handWithdrawal t (Does flowParts s) (Does flowParts s) :=
  trainKept_of_subset (List.Subset.refl flowParts) s (fun u hu => hu.trans (does_handWithdrawal (List.Subset.refl flowParts) u)) t

theorem told_takeRecovery (t : Fin 2) (s : State) :
    toldBetween s (takeRecovery handWithdrawal t s) [⟨gasTime s, .onSpec, some t.val, some (s.dry.trains[t]).dew⟩] := by
  have hput : Acts flowParts s [] (reshare (putTrain t (backTrain s.flow.dir s.dry.trains[t]) s)) :=
    (acts_putTrain t _ s (by decide)).trans ((acts_reshare _).mono (by decide))
  have hdoes := hput.does.trans (does_handWithdrawal (List.Subset.refl flowParts) (reshare _))
  have hback : toldBetween s (broughtBack t s) [⟨gasTime s, .onSpec, some t.val, some (s.dry.trains[t]).dew⟩] := by
    rw [← hdoes.gasTime (by decide)]
    exact (acts_raise (ps := flowParts) _ .onSpec _ _ (by decide)).toldBetween.before hdoes
  rw [takeRecovery_eq]
  split
  · exact hback.after ((flowTrain _ t).assessOnline (.refl _ _))
  · exact hback

/-- The parts that a response of the drying supervisor writes. -/
theorem gathered_drying {f : State → State} (h : Does flowParts s.gatheringEvents (f s.gatheringEvents)) :
    s.changesOnly [.world, .dry, .flow, .sched, .evq] (gathered f s) :=
  ((Does.gathered (by decide) (by decide) h).mono (by decide)).parts

theorem gathered_wdrCurrent {f : State → State} (h : wdrCurrent (f s.gatheringEvents)) : wdrCurrent (gathered f s) := h

theorem gathered_train {f : State → State} (i : Fin 2) : (gathered f s).dry.trains[i] = (f s.gatheringEvents).dry.trains[i] := rfl

/-- The part as an excursion is taken, before it is told. -/
def excursed (t : Fin 2) (s : State) : State :=
  handWithdrawal (reshare (putTrain t { s.dry.trains[t] with state := .offSpec, excursion := none } s))

theorem takeExcursion_eq (t : Fin 2) (s : State) :
    takeExcursion handWithdrawal t s = raise .offSpec (some t.val) (some (s.dry.trains[t]).dew) (excursed t s) := rfl

theorem does_excursed (t : Fin 2) (s : State) : Does flowParts s (excursed t s) :=
  (((acts_putTrain t _ s (by decide)).trans ((acts_reshare _).mono (by decide))).does (ps := flowParts)).trans
    (does_handWithdrawal (List.Subset.refl flowParts) _)

theorem told_takeExcursion (t : Fin 2) (s : State) :
    toldBetween s (takeExcursion handWithdrawal t s) [⟨gasTime s, .offSpec, some t.val, some (s.dry.trains[t]).dew⟩] := by
  rw [takeExcursion_eq, ← (does_excursed t s).gasTime (by decide)]
  exact (acts_raise (ps := flowParts) _ .offSpec _ _ (by decide)).toldBetween.before (does_excursed t s)

theorem excursed_train (t : Fin 2) (s : State) : ((excursed t s).dry.trains[t]).unshared =
    ({ s.dry.trains[t] with state := .offSpec, excursion := none } : Train).unshared := by
  have hput : ((reshare (putTrain t { s.dry.trains[t] with state := .offSpec, excursion := none } s)).dry.trains[t]).unshared =
      ({ s.dry.trains[t] with state := .offSpec, excursion := none } : Train).unshared := by
    rw [unshared_reshare, putTrain_own]
  have hstate := congrArg Train.state hput
  exact (unshared_hand (by rw [Train.inService]; exact hstate ▸ rfl)).trans hput

/-- The events of the drying supervisor in a gathered response. -/
theorem gathered_tells {f : State → State} {k : EventKind} {a : Option Nat} {b : Option Int}
    (h : toldBetween s.gatheringEvents (f s.gatheringEvents) [⟨gasTime s, k, a, b⟩]) :
    ∃ l m : List Raised, (gathered f s).evq = s.evq.pushAll (l ++ ⟨gasTime s, k, a, b⟩ :: m) :=
  toldBetween_singleton (toldBetween_gathered (b := k.source) h fun e he => by rw [List.mem_singleton.mp he])

theorem exec_offSpec (s : State) (t : Fin 2) : exec (.offSpec t) s =
    .next (if (s.dry.trains[t]).state = .online ∧ lastSecond (s.dry.trains[t]).excursion then
      gathered (takeExcursion handWithdrawal t) s else s) := rfl

theorem exec_onSpec (s : State) (t : Fin 2) : exec (.onSpec t) s =
    .next (if (s.dry.trains[t]).state = .offSpec ∧ lastSecond (s.dry.trains[t]).recovery then
      gathered (takeRecovery handWithdrawal t) s else s) := rfl

theorem backState_ne_offSpec (d : FlowDir) : (backState d == .offSpec) = false := by
  unfold backState
  split <;> rfl

/-- Settles O53: a train that has left the capacity is left alone by what its hand-over brings, and one that comes back cuts no S. -/
theorem trainLeavesAndReturnsToSpec : Obligations.TrainLeavesAndReturnsToSpec := by
  intro s i
  refine ⟨fun h => by rw [exec_offSpec, if_neg h], fun hon hlast => ?_, fun h => by rw [exec_onSpec, if_neg h], fun hoff hlast hcur hsafe hin => ?_⟩
  · have hrow := excursed_train i s.gatheringEvents
    have hcurrent : wdrCurrent (takeExcursion handWithdrawal i s.gatheringEvents) := wdrCurrent_handWithdrawal _
    obtain ⟨hcap, hheld⟩ := gathered_wdrCurrent (f := takeExcursion handWithdrawal i) hcurrent
    have hstate : ((gathered (takeExcursion handWithdrawal i) s).dry.trains[i]).state = .offSpec := congrArg Train.state hrow
    have hexc : ((gathered (takeExcursion handWithdrawal i) s).dry.trains[i]).excursion = none := congrArg Train.excursion hrow
    have htold := gathered_tells (told_takeExcursion i s.gatheringEvents)
    have hrecut : recutFollows s (gathered (takeExcursion handWithdrawal i) s) :=
      gathered_recutFlow fun u => (recutTrain u i).takeExcursion (recutsSince_refl u)
    have hparts := gathered_drying (f := takeExcursion handWithdrawal i) ((flowTrain s.gatheringEvents i).takeExcursion (.refl _ s.gatheringEvents))
    exact ⟨_, by rw [exec_offSpec, if_pos ⟨hon, hlast⟩], hstate, hexc, beq_iff_eq.mpr hstate, hcap, hheld, htold, hrecut, hparts⟩
  · obtain ⟨hinj, hwdr⟩ := (capacitiesCurrent_iff s).mp hcur
    have hx : (s.dry.trains[i]).inService = false := by rw [Train.inService, hoff]; rfl
    have hback := takeRecovery_calm (s := s.gatheringEvents) (t := i) hwdr hx hin
    have hstate : ((gathered (takeRecovery handWithdrawal i) s).dry.trains[i]).state = backState s.flow.dir := hback.state
    have htold := gathered_tells (told_takeRecovery i s.gatheringEvents)
    have hrecut : recutFollows s (gathered (takeRecovery handWithdrawal i) s) :=
      gathered_recutFlow fun u => (recutTrain u i).takeRecovery (recutsSince_refl u)
    have hparts := gathered_drying (f := takeRecovery handWithdrawal i) ((flowTrain s.gatheringEvents i).takeRecovery (.refl _ s.gatheringEvents))
    refine ⟨_, by rw [exec_onSpec, if_pos ⟨hoff, hlast⟩], hstate, hback.mask, hback.recovery, ?_, ?_, ?_, htold, hrecut, hparts⟩
    · rw [divert, hstate]
      exact backState_ne_offSpec _
    · exact (capacitiesCurrent_iff _).mpr ⟨(injTrain (fun _ h => injCurrent_handWithdrawal h) i).takeRecovery (s := s.gatheringEvents) hinj,
        (wdrTrain i).takeRecovery (s := s.gatheringEvents) hwdr⟩
    · exact (course_fields hback.course).2.2.1

end

end Sys2Proof.Machine
end

section
/-! SUPPORT. The beds of a train (R148 to R151): what a swap, a bed taken up, the saturation test and a phase's end leave of its
record, whatever the hand-over of the capacity brings. -/

namespace Sys2Proof.Machine

/-! ### A record's body -/

/-- Two train records of one body. -/
structure Alike (x y : Train) : Prop where
  configured : y.configured = x.configured
  cfg : y.cfg = x.cfg
  service : y.service = x.service
  degraded : y.degraded = x.degraded
  deferred : y.deferred = x.deferred
  water : y.water = x.water
  temp : y.temp = x.temp
  dew : y.dew = x.dew
  bedCap : y.bedCap = x.bedCap
  lo : y.lo = x.lo
  hi : y.hi = x.hi

theorem Alike.of_body {x y : Train} (h : y.body = x.body) : Alike x y := by
  simp only [Train.body, Train.mk.injEq] at h
  obtain ⟨hconf, hcfg, hservice, _, hdeg, hdef, _, hwater, htemp, hdew, hcap, _, _, _, _, hlo, hhi⟩ := h
  exact ⟨hconf, hcfg, hservice, hdeg, hdef, hwater, htemp, hdew, hcap, hlo, hhi⟩

theorem Alike.bed {x y : Train} (h : Alike x y) (j : Side) : y.bed j = x.bed j := by
  cases j
  · exact h.lo
  · exact h.hi

theorem Alike.adsorbing {x y : Train} (h : Alike x y) : y.adsorbing = x.adsorbing := by rw [Train.adsorbing, Train.adsorbing, h.lo, h.hi]

theorem Alike.readyBed {x y : Train} (h : Alike x y) : y.readyBed = x.readyBed := by rw [Train.readyBed, Train.readyBed, h.lo, h.hi]

theorem Side.partner_partner (j : Side) : j.partner.partner = j := by cases j <;> rfl

theorem setBed_bed (x : Train) (j : Side) (b : Bed) : (x.setBed j b).bed j = b := by cases j <;> rfl

theorem setBed_partner (x : Train) (j : Side) (b : Bed) : (x.setBed j b).bed j.partner = x.bed j.partner := by cases j <;> rfl

theorem adsorbing_some {x : Train} {j : Side} (h : (x.bed j).state = .adsorbing) (hp : (x.bed j.partner).state ≠ .adsorbing) :
    x.adsorbing = some j := by
  cases j
  · exact if_pos h
  · exact (if_neg hp).trans (if_pos h)

theorem adsorbing_none {x : Train} {j : Side} (h : (x.bed j).state ≠ .adsorbing) (hp : (x.bed j.partner).state ≠ .adsorbing) :
    x.adsorbing = none := by
  cases j
  · exact (if_neg h).trans (if_neg hp)
  · exact (if_neg hp).trans (if_neg h)

/-- A train whose bed `i` has swapped with its partner (R148). -/
def Train.swapped (x : Train) (i : Side) : Train :=
  { (x.setBed i { x.bed i with state := .heating, timer := x.cfg.heating }).setBed i.partner ⟨.adsorbing, 0, 0⟩ with
    degraded := false, deferred := false }

theorem swapped_beds (x : Train) (i : Side) :
    (x.swapped i).bed i = ⟨.heating, (x.bed i).load, x.cfg.heating⟩ ∧ (x.swapped i).bed i.partner = ⟨.adsorbing, 0, 0⟩ := by
  cases i <;> exact ⟨rfl, rfl⟩

theorem swapped_cfg (x : Train) (i : Side) : (x.swapped i).cfg = x.cfg := by cases i <;> rfl

/-- A train that has taken up its bed `i` (R151). -/
def Train.takenUp (x : Train) (i : Side) : Train := { x.setBed i ⟨.adsorbing, 0, 0⟩ with degraded := false }

theorem takenUp_beds (x : Train) (i : Side) :
    (x.takenUp i).bed i = ⟨.adsorbing, 0, 0⟩ ∧ (x.takenUp i).bed i.partner = x.bed i.partner := by
  cases i <;> exact ⟨rfl, rfl⟩

theorem takenUp_cfg (x : Train) (i : Side) : (x.takenUp i).cfg = x.cfg := by cases i <;> rfl

/-- The ADSORBING bed `i` is saturated (R149). -/
def Train.saturated (x : Train) (i : Side) : Bool := decide (x.capUnits ≤ (x.bed i).load)

theorem saturated_congr {x y : Train} {i : Side} (hcap : y.bedCap = x.bedCap) (hbed : y.bed i = x.bed i) : y.saturated i = x.saturated i := by
  rw [Train.saturated, Train.saturated, Train.capUnits, Train.capUnits, hcap, hbed]

theorem degradedContribution_congr {x y : Train} (h : y.cfg = x.cfg) : y.degradedContribution = x.degradedContribution := by
  rw [Train.degradedContribution, Train.degradedContribution, h]

/-- A train whose swap-deferred flag is `p`. -/
def Train.defer (x : Train) (p : Bool) : Train := { x with deferred := p }

/-- A train whose DEGRADED flag is `p`. -/
def Train.degrade (x : Train) (p : Bool) : Train := { x with degraded := p }

theorem flagged_bed (x : Train) (p q : Bool) (k : Side) : ((x.defer p).degrade q).bed k = x.bed k := by cases k <;> rfl

/-- A train tested where it does not swap (R148, R149). -/
def Train.stayed (x : Train) (i : Side) : Train := (x.defer (reachedSwap x (x.bed i))).degrade (x.saturated i)

theorem stayed_bed (x : Train) (i k : Side) : (x.stayed i).bed k = x.bed k := flagged_bed x _ _ k

theorem stayed_degraded (x : Train) (i : Side) : (x.stayed i).degraded = x.saturated i := rfl

theorem stayed_deferred (x : Train) (i : Side) : (x.stayed i).deferred = reachedSwap x (x.bed i) := rfl

/-! ### Tied to the record -/

/-- What no act of the flow can break, the hand-over does not break. -/
def HandFree (hand : Hand) : Prop := ∀ P : State → Prop, FlowFree P → ∀ u, P u → P (hand u)

theorem handFree_withdrawal : HandFree handWithdrawal := fun _ hP _ hu => hP.handWithdrawal hu

theorem handFree_id : HandFree id := fun _ _ _ hu => hu

/-- The record of train `t` has the body of `b`. -/
def hasBody (t : Fin 2) (b : Train) (s : State) : Prop := (s.dry.trains[t]).body = b.body

/-- It has, and its mask is loaded. -/
def hasMasked (t : Fin 2) (b : Train) (s : State) : Prop := hasBody t b s ∧ (s.dry.trains[t]).mask = b.cfg.maskChoice

theorem bodyFree (t : Fin 2) (b : Train) : FlowFree (hasBody t b) := bodyKept t b

section
variable {s : State} {t i : Fin 2} {b : Train}

theorem hasBody.alike (h : hasBody t b s) : Alike b s.dry.trains[t] := .of_body h

theorem hasMasked_of_trains {u : State} (htrain : u.dry.trains[t] = s.dry.trains[t]) (h : hasMasked t b s) : hasMasked t b u := by
  rw [hasMasked, hasBody, htrain]
  exact h

theorem hasMasked_putTrain {x : Train} (hx : DewMove s.dry.trains[i] x) (h : hasMasked t b s) : hasMasked t b (putTrain i x s) := by
  by_cases hi : i = t
  · subst hi
    have hcfg : (s.dry.trains[i]).cfg = b.cfg := h.1.alike.cfg
    rw [hasMasked, hasBody, putTrain_own]
    refine ⟨hx.body.trans h.1, hx.mask.elim (fun hm => hm.trans h.2) fun hm => hm.trans (by rw [hcfg])⟩
  · exact hasMasked_of_trains (putTrain_other x hi) h

theorem maskedFree (t : Fin 2) (b : Train) : FlowFree (hasMasked t b) where
  raise _ _ _ _ _ h := h
  setFlow _ _ h := h
  putTrain _ _ _ hx h := hasMasked_putTrain hx h
  recut s h := hasMasked_of_trains (by rw [recut_trains]) h
  setWorld _ _ h := h
  capacity _ _ h := h

/-- A mask loaded. -/
theorem hasMasked_loadMask {hand : Hand} (hhand : HandFree hand) (h : hasBody t b s) : hasMasked t b (loadMask hand t s) := by
  have hput : hasMasked t b (putTrain t (s.dry.trains[t]).masked s) := by
    rw [hasMasked, hasBody, putTrain_own]
    exact ⟨(masked_body _).trans h, (masked_mask _).trans (by rw [h.alike.cfg])⟩
  dsimp only [loadMask]
  split
  · exact ((maskedFree t b).kept (fun u hu => hhand _ (maskedFree t b) u hu) t).assess hput
  · exact hput

end

/-! ### Swap, take-up and saturation (R148, R149, R151) -/

/-- The event of a bed that begins to adsorb. -/
def swapTold (s : State) (t : Fin 2) (i : Side) : Raised := ⟨gasTime s, .bedSwap, some t.val, some (bedIndex t i : Int)⟩

section
variable {hand : Hand} (hhand : HandFree hand) (s : State) (t : Fin 2) (i : Side)
include hhand

theorem does_handFree (u : State) (hu : Does flowParts s u) : Does flowParts s (hand u) :=
  hhand _ (flowFree_of_subset (List.Subset.refl flowParts) s) u hu

theorem flowTrainOf : TrainKept hand t (Does flowParts s) (Does flowParts s) :=
  trainKept_of_subset (List.Subset.refl flowParts) s (fun u hu => does_handFree hhand s u hu) t

omit hhand in
theorem told_last {u v : State} {k : EventKind} {a : Option Nat} {b : Option Int} (hv : v = raise k a b u) (hd : Does flowParts s u) :
    toldBetween s v [⟨gasTime s, k, a, b⟩] := by
  rw [hv, ← hd.gasTime (by decide)]
  exact (acts_raise (ps := flowParts) _ k a b (by decide)).toldBetween.before hd

theorem swapBeds_spec : hasMasked t ((s.dry.trains[t]).swapped i) (swapBeds hand t i s)
    ∧ toldBetween s (swapBeds hand t i s) [swapTold s t i.partner] := by
  have hput : hasBody t ((s.dry.trains[t]).swapped i) (putTrain t ((s.dry.trains[t]).swapped i) s) :=
    congrArg Train.body (putTrain_own _)
  have hdput : Does flowParts s (putTrain t ((s.dry.trains[t]).swapped i) s) := (acts_putTrain t _ s (by decide)).does
  have hhanded : hasBody t ((s.dry.trains[t]).swapped i)
      (if (s.dry.trains[t]).degraded then hand (putTrain t ((s.dry.trains[t]).swapped i) s) else putTrain t ((s.dry.trains[t]).swapped i) s)
      ∧ Does flowParts s
      (if (s.dry.trains[t]).degraded then hand (putTrain t ((s.dry.trains[t]).swapped i) s) else putTrain t ((s.dry.trains[t]).swapped i) s) := by
    split
    · exact ⟨hhand _ (bodyFree t _) _ hput, does_handFree hhand s _ hdput⟩
    · exact ⟨hput, hdput⟩
  exact ⟨hasMasked_loadMask hhand hhanded.1, told_last s rfl ((flowTrainOf hhand s t).loadMask hhanded.2)⟩

theorem takeUpBed_spec : hasMasked t ((s.dry.trains[t]).takenUp i) (takeUpBed hand t i s)
    ∧ toldBetween s (takeUpBed hand t i s) [swapTold s t i] := by
  have hput : hasBody t ((s.dry.trains[t]).takenUp i) (putTrain t ((s.dry.trains[t]).takenUp i) s) :=
    congrArg Train.body (putTrain_own _)
  have hdput : Does flowParts s (putTrain t ((s.dry.trains[t]).takenUp i) s) := (acts_putTrain t _ s (by decide)).does
  have hhanded : hasBody t ((s.dry.trains[t]).takenUp i)
      (if (s.dry.trains[t]).degraded then hand (putTrain t ((s.dry.trains[t]).takenUp i) s) else putTrain t ((s.dry.trains[t]).takenUp i) s)
      ∧ Does flowParts s
      (if (s.dry.trains[t]).degraded then hand (putTrain t ((s.dry.trains[t]).takenUp i) s) else putTrain t ((s.dry.trains[t]).takenUp i) s) := by
    split
    · exact ⟨hhand _ (bodyFree t _) _ hput, does_handFree hhand s _ hdput⟩
    · exact ⟨hput, hdput⟩
  exact ⟨hasMasked_loadMask hhand hhanded.1, told_last s rfl ((flowTrainOf hhand s t).loadMask hhanded.2)⟩

/-- The event of a train that becomes DEGRADED. -/
def degradedTold (s : State) (t : Fin 2) : Raised :=
  ⟨gasTime s, .trainDegraded, some t.val, some ((s.dry.trains[t]).degradedContribution : Int)⟩

theorem testSaturation_spec : hasBody t ((s.dry.trains[t]).degrade ((s.dry.trains[t]).saturated i)) (testSaturation hand t i s)
    ∧ ((s.dry.trains[t]).saturated i = true → (s.dry.trains[t]).degraded = false →
      toldBetween s (testSaturation hand t i s) [degradedTold s t]) := by
  have hput (p : Bool) : hasBody t ((s.dry.trains[t]).degrade p) (putTrain t ((s.dry.trains[t]).degrade p) s) :=
    congrArg Train.body (putTrain_own _)
  have hsat : decide ((s.dry.trains[t]).capUnits ≤ ((s.dry.trains[t]).bed i).load) = (s.dry.trains[t]).saturated i := rfl
  dsimp only [testSaturation]
  rw [hsat]
  cases hx : (s.dry.trains[t]).saturated i <;> cases hdeg : (s.dry.trains[t]).degraded
  · refine ⟨?_, nofun⟩
    show (s.dry.trains[t]).body = _
    rw [← hdeg]
    rfl
  · exact ⟨hhand _ (bodyFree t _) _ (hput false), nofun⟩
  · refine ⟨hhand _ (bodyFree t _) _ (hput true), fun _ _ => ?_⟩
    have htold : toldBetween s (raise .trainDegraded (some t.val) (some ((s.dry.trains[t]).degradedContribution : Int))
        (putTrain t ((s.dry.trains[t]).degrade true) s)) [degradedTold s t] :=
      told_last s rfl (acts_putTrain t _ s (by decide)).does
    exact htold.after (does_handFree hhand _ _ (.refl _ _))
  · refine ⟨?_, nofun⟩
    show (s.dry.trains[t]).body = _
    rw [← hdeg]
    rfl

end

/-- The event of a swap that is deferred. -/
def deferTold (s : State) (t : Fin 2) (i : Side) : Raised :=
  ⟨gasTime s, .bedSwapDeferred, some t.val, some (bedPermille s.dry.trains[t] ((s.dry.trains[t]).bed i) : Int)⟩

theorem defer_cfg (x : Train) (p : Bool) : (x.defer p).cfg = x.cfg := rfl

theorem defer_bedCap (x : Train) (p : Bool) : (x.defer p).bedCap = x.bedCap := rfl

theorem defer_degraded (x : Train) (p : Bool) : (x.defer p).degraded = x.degraded := rfl

theorem defer_bed (x : Train) (p : Bool) (k : Side) : (x.defer p).bed k = x.bed k := by cases k <;> rfl

section
variable (s : State) (t : Fin 2) (i : Side)

theorem deferSwap_set (h : (s.dry.trains[t]).deferred = true) : deferSwap t i s = s := if_pos h

theorem deferSwap_clear (h : (s.dry.trains[t]).deferred = false) : deferSwap t i s = raise .bedSwapDeferred (some t.val)
    (some (bedPermille s.dry.trains[t] ((s.dry.trains[t]).bed i) : Int)) (putTrain t ((s.dry.trains[t]).defer true) s) := by
  dsimp only [deferSwap]
  rw [h]
  rfl

theorem deferSwap_train : (deferSwap t i s).dry.trains[t] = (s.dry.trains[t]).defer true := by
  cases h : (s.dry.trains[t]).deferred
  · rw [deferSwap_clear s t i h]
    exact putTrain_own _
  · rw [deferSwap_set s t i h, Train.defer, ← h]

variable {hand : Hand}

theorem bedTest_none (h : (s.dry.trains[t]).adsorbing = none) : bedTest hand t s = s := by
  dsimp only [bedTest]
  rw [h]

theorem bedTest_swaps {i : Side} (h : (s.dry.trains[t]).adsorbing = some i) (hreach : reachedSwap s.dry.trains[t] ((s.dry.trains[t]).bed i) = true)
    (hready : ((s.dry.trains[t]).bed i.partner).state = .ready) : bedTest hand t s = swapBeds hand t i s := by
  dsimp only [bedTest]
  rw [h]
  dsimp only
  rw [if_pos hreach, if_pos hready]

/-- The part as the saturation of a bed that does not swap is tested. -/
def flagged : State :=
  if reachedSwap s.dry.trains[t] ((s.dry.trains[t]).bed i) then deferSwap t i s else putTrain t ((s.dry.trains[t]).defer false) s

theorem bedTest_stays {i : Side} (h : (s.dry.trains[t]).adsorbing = some i) (hstay : ¬(reachedSwap s.dry.trains[t] ((s.dry.trains[t]).bed i) = true
    ∧ ((s.dry.trains[t]).bed i.partner).state = .ready)) : bedTest hand t s = testSaturation hand t i (flagged s t i) := by
  dsimp only [bedTest, flagged]
  rw [h]
  dsimp only
  split
  · next hreach => rw [if_neg fun hready => hstay ⟨hreach, hready⟩]
  · rfl

theorem flagged_train : (flagged s t i).dry.trains[t] =
    (s.dry.trains[t]).defer (reachedSwap s.dry.trains[t] ((s.dry.trains[t]).bed i)) := by
  by_cases hreach : reachedSwap s.dry.trains[t] ((s.dry.trains[t]).bed i) = true
  · have hflag : flagged s t i = deferSwap t i s := if_pos hreach
    rw [hflag, hreach, deferSwap_train]
  · have hflag : flagged s t i = putTrain t ((s.dry.trains[t]).defer false) s := if_neg hreach
    rw [hflag, Bool.eq_false_of_not_eq_true hreach, putTrain_own]

/-- The events of a test that does not swap, up to the saturation. -/
def flagTold : List Raised :=
  if reachedSwap s.dry.trains[t] ((s.dry.trains[t]).bed i) = true ∧ (s.dry.trains[t]).deferred = false then [deferTold s t i] else []

theorem acts_flagged : Acts [.dry, .evq] s (flagTold s t i) (flagged s t i) := by
  by_cases hreach : reachedSwap s.dry.trains[t] ((s.dry.trains[t]).bed i) = true
  · have hflag : flagged s t i = deferSwap t i s := if_pos hreach
    rw [hflag, flagTold]
    cases hdef : (s.dry.trains[t]).deferred
    · rw [if_pos ⟨hreach, rfl⟩, deferSwap_clear s t i hdef]
      exact (acts_putTrain t _ s (by decide)).trans (acts_raise _ .bedSwapDeferred _ _ (by decide))
    · rw [if_neg (fun h => absurd h.2 nofun), deferSwap_set s t i hdef]
      exact .refl _ s
  · have hflag : flagged s t i = putTrain t ((s.dry.trains[t]).defer false) s := if_neg hreach
    rw [hflag, flagTold, if_neg fun h => hreach h.1]
    exact acts_putTrain t _ s (by decide)

theorem saturated_flagged (k : Side) : ((flagged s t i).dry.trains[t]).saturated k = (s.dry.trains[t]).saturated k := by
  rw [flagged_train]
  exact saturated_congr (defer_bedCap _ _) (defer_bed _ _ _)

theorem degradedTold_flagged : degradedTold (flagged s t i) t = degradedTold s t := by
  rw [degradedTold, degradedTold, (acts_flagged s t i).does.gasTime (by decide), flagged_train, degradedContribution_congr (defer_cfg _ _)]

variable {s t i} (hhand : HandFree hand) (h : (s.dry.trains[t]).adsorbing = some i)
  (hstay : ¬(reachedSwap s.dry.trains[t] ((s.dry.trains[t]).bed i) = true ∧ ((s.dry.trains[t]).bed i.partner).state = .ready))
include hhand h hstay

/-- A bed tested that does not swap. -/
theorem bedTest_stays_body : hasBody t ((s.dry.trains[t]).stayed i) (bedTest hand t s) := by
  have hbody := (testSaturation_spec hhand (flagged s t i) t i).1
  rw [saturated_flagged, flagged_train] at hbody
  rw [bedTest_stays s t h hstay]
  exact hbody

theorem bedTest_stays_defers (hreach : reachedSwap s.dry.trains[t] ((s.dry.trains[t]).bed i) = true)
    (hdef : (s.dry.trains[t]).deferred = false) : toldBetween s (bedTest hand t s) [deferTold s t i] := by
  have hfirst := (acts_flagged s t i).toldBetween
  rw [flagTold, if_pos ⟨hreach, hdef⟩] at hfirst
  rw [bedTest_stays s t h hstay]
  exact hfirst.after ((flowTrainOf hhand _ t).testSaturation i (.refl _ _))

theorem bedTest_stays_degrades (hsat : (s.dry.trains[t]).saturated i = true) (hdeg : (s.dry.trains[t]).degraded = false) :
    toldBetween s (bedTest hand t s) [degradedTold s t] := by
  have htold := (testSaturation_spec hhand (flagged s t i) t i).2
  rw [saturated_flagged, degradedTold_flagged] at htold
  rw [bedTest_stays s t h hstay]
  refine (htold hsat ?_).before (acts_flagged s t i).does
  rw [flagged_train, defer_degraded]
  exact hdeg

omit hhand h hstay
variable (s t)

theorem takeUp_out (h : (s.dry.trains[t]).state = .out) : takeUp hand t s = s := by
  dsimp only [takeUp]
  rw [if_pos (beq_iff_eq.mpr h)]

theorem takeUp_some {i : Side} (h : (s.dry.trains[t]).adsorbing = some i) : takeUp hand t s = s := by
  dsimp only [takeUp]
  rw [h]
  exact ite_self _

theorem takeUp_none (h : (s.dry.trains[t]).readyBed = none) : takeUp hand t s = s := by
  dsimp only [takeUp]
  rw [h]
  split
  · rfl
  · split
    · next hready => exact absurd hready nofun
    · rfl

theorem takeUp_takes {i : Side} (hout : (s.dry.trains[t]).state ≠ .out) (h : (s.dry.trains[t]).adsorbing = none)
    (hready : (s.dry.trains[t]).readyBed = some i) : takeUp hand t s = takeUpBed hand t i s := by
  dsimp only [takeUp]
  rw [if_neg (by simpa using hout), h, hready]

end

end Sys2Proof.Machine
end

section
/-! SUPPORT. The ends of a bed's phases and of a mask (R150 to R155): O52. -/

namespace Sys2Proof.Machine

/-! ### Gathered responses of one block -/

theorem sourcesOf_le {es : List Event} {b : EventSource} (h : ∀ e ∈ es, e.kind.source = b) : (sourcesOf es).length ≤ 1 := by
  have hfold : ∀ (l : List EventSource), (l = [] ∨ l = [b]) →
      (es.foldl (fun l e => if l.contains e.kind.source then l else l ++ [e.kind.source]) l = []
        ∨ es.foldl (fun l e => if l.contains e.kind.source then l else l ++ [e.kind.source]) l = [b]) := by
    induction es with
    | nil => exact fun l hl => hl
    | cons e es ih =>
      intro l hl
      refine ih (fun e' he' => h e' (List.mem_cons_of_mem e he')) _ ?_
      dsimp only
      rw [h e List.mem_cons_self]
      rcases hl with rfl | rfl
      · exact .inr rfl
      · exact .inr (if_pos (by simp))
  rcases hfold [] (.inl rfl) with h0 | h1
  · exact (congrArg List.length h0).trans_le (Nat.zero_le 1)
  · exact (congrArg List.length h1).le

/-- The events of one block stand as they were raised, and the world takes nothing. -/
theorem Acts.gathered_one {ps : List Part} {f : State → State} {s : State} {l : List Raised} {b : EventSource}
    (h : Acts ps s.gatheringEvents l (f s.gatheringEvents)) (he : Part.evq ∈ ps) (hb : ∀ e ∈ l, e.kind.source = b) :
    Acts ps s l (Machine.gathered f s) := by
  have hl : (f s.gatheringEvents).evq.entries.map Event.raised = l := by
    rw [h.told, (pushAll_gathered _ l rfl).1]
    rfl
  have hsources : (sourcesOf (f s.gatheringEvents).evq.entries).length ≤ 1 :=
    sourcesOf_le (b := b) fun e he => hb e.raised (hl ▸ List.mem_map_of_mem he)
  have hnone := interleave_one (f s.gatheringEvents).evq.entries.length (f s.gatheringEvents).evq.entries
    (f s.gatheringEvents).world hsources
  refine ⟨fun p hp => ?_, ?_⟩
  · have hpart := h.parts p hp
    cases p
    case evq => exact absurd he hp
    case world =>
      show (interleave _ _ _).2 = s.world
      rw [hnone]
      exact hpart
    all_goals exact hpart
  · show appendEvents (interleave _ _ _).1 s.evq = _
    rw [hnone, appendEvents_eq, hl]

/-- A response that writes the drying supervisor's state alone. -/
theorem gathered_setDry {f : State → State} {s : State} {x : Drying} (h : f s.gatheringEvents = s.gatheringEvents.setDry x) :
    gathered f s = s.setDry x := by
  rw [gathered_congr (g := fun u => u.setDry x) h]
  rfl

/-! ### A bed cooled (R150, R151) -/

theorem gasFree (n : Nat) : FlowFree (fun s => s.dry.gas = n) where
  raise _ _ _ _ _ h := h
  setFlow _ _ h := h
  putTrain _ _ _ _ h := h
  recut s h := by
    rw [recut_dry]
    exact h
  setWorld _ _ h := h
  capacity _ _ h := h

theorem gasTrain (n : Nat) (t : Fin 2) : TrainKept handWithdrawal t (fun s => s.dry.gas = n) (fun s => s.dry.gas = n) :=
  .whole (gasFree n).toDewFree (fun _ _ _ h => h) fun _ h => (gasFree n).handWithdrawal h

/-- A train whose bed `j` has cooled. -/
def Train.cooled (x : Train) (j : Side) : Train := x.setBed j Bed.fresh

theorem cooled_beds (x : Train) (j : Side) : (x.cooled j).bed j = ⟨.ready, 0, 0⟩ ∧ (x.cooled j).bed j.partner = x.bed j.partner :=
  ⟨setBed_bed x j _, setBed_partner x j _⟩

theorem cooled_fields (x : Train) (j : Side) : (x.cooled j).cfg = x.cfg ∧ (x.cooled j).bedCap = x.bedCap ∧ (x.cooled j).state = x.state := by
  cases j <;> exact ⟨rfl, rfl, rfl⟩

section
variable (s : State) (t : Fin 2) (j : Side)

/-- The part as a bed has cooled. -/
def cooledDown : State := putTrain t ((s.dry.trains[t]).cooled j) s

theorem endCooling_eq : endCooling t j s = takeUp handWithdrawal t (bedTest handWithdrawal t (cooledDown s t j)) := rfl

theorem cooledDown_train : (cooledDown s t j).dry.trains[t] = (s.dry.trains[t]).cooled j := putTrain_own _

theorem does_cooledDown : Does flowParts s (cooledDown s t j) := (acts_putTrain t _ s (by decide)).does

theorem swapTold_congr {u v : State} (h : Does flowParts u v) : swapTold v t j = swapTold u t j := by
  rw [swapTold, swapTold, h.gasTime (by decide)]

/-- The partner's test against the swap point reads what it read. -/
theorem reached_cooled {x : Train} : reachedSwap (x.cooled j) ((x.cooled j).bed j.partner) = true
    ↔ x.bedCap * 3600000000 * x.cfg.swapPoint ≤ (x.bed j.partner).load * 1000 := by
  obtain ⟨hcfg, hcap, _⟩ := cooled_fields x j
  rw [(cooled_beds x j).2, reachedSwap, Train.capUnits, hcfg, hcap, decide_eq_true_iff]

variable {s t j}

/-- The cooled bed adsorbs, the partner heats. -/
theorem endCooling_swaps (hp : ((s.dry.trains[t]).bed j.partner).state = .adsorbing)
    (hreach : (s.dry.trains[t]).bedCap * 3600000000 * (s.dry.trains[t]).cfg.swapPoint ≤ ((s.dry.trains[t]).bed j.partner).load * 1000) :
    hasMasked t (((s.dry.trains[t]).cooled j).swapped j.partner) (endCooling t j s) ∧ toldBetween s (endCooling t j s) [swapTold s t j] := by
  have hown := cooledDown_train s t j
  obtain ⟨hbed, hpartner⟩ := cooled_beds s.dry.trains[t] j
  have hads : ((cooledDown s t j).dry.trains[t]).adsorbing = some j.partner := by
    rw [hown]
    exact adsorbing_some (by rw [hpartner]; exact hp) (by rw [Side.partner_partner, hbed]; nofun)
  have htest : bedTest handWithdrawal t (cooledDown s t j) = swapBeds handWithdrawal t j.partner (cooledDown s t j) := by
    refine bedTest_swaps _ _ hads ?_ ?_
    · rw [hown, reached_cooled]
      exact hreach
    · rw [hown, Side.partner_partner, hbed]
  obtain ⟨hbody, htold⟩ := swapBeds_spec handFree_withdrawal (cooledDown s t j) t j.partner
  rw [hown] at hbody
  rw [Side.partner_partner, swapTold_congr t j (does_cooledDown s t j)] at htold
  have hads' : ((swapBeds handWithdrawal t j.partner (cooledDown s t j)).dry.trains[t]).adsorbing = some j := by
    rw [hbody.1.alike.adsorbing]
    obtain ⟨hfirst, hsecond⟩ := swapped_beds ((s.dry.trains[t]).cooled j) j.partner
    rw [Side.partner_partner] at hsecond
    exact adsorbing_some (by rw [hsecond]) (by rw [hfirst]; nofun)
  rw [endCooling_eq, htest, takeUp_some _ _ hads']
  exact ⟨hbody, htold.before (does_cooledDown s t j)⟩

/-- The cooled bed is READY beside its partner. -/
theorem endCooling_stays (hp : ((s.dry.trains[t]).bed j.partner).state = .adsorbing)
    (hreach : ¬(s.dry.trains[t]).bedCap * 3600000000 * (s.dry.trains[t]).cfg.swapPoint ≤ ((s.dry.trains[t]).bed j.partner).load * 1000) :
    hasBody t (((s.dry.trains[t]).cooled j).stayed j.partner) (endCooling t j s) := by
  have hown := cooledDown_train s t j
  obtain ⟨hbed, hpartner⟩ := cooled_beds s.dry.trains[t] j
  have hads : ((cooledDown s t j).dry.trains[t]).adsorbing = some j.partner := by
    rw [hown]
    exact adsorbing_some (by rw [hpartner]; exact hp) (by rw [Side.partner_partner, hbed]; nofun)
  have hbody := bedTest_stays_body handFree_withdrawal hads fun h => hreach ((reached_cooled j).mp (by rw [hown] at h; exact h.1))
  rw [hown] at hbody
  have hads' : ((bedTest handWithdrawal t (cooledDown s t j)).dry.trains[t]).adsorbing = some j.partner := by
    rw [hbody.alike.adsorbing, ← hads, hown, Train.adsorbing, Train.adsorbing]
    have hlo := stayed_bed ((s.dry.trains[t]).cooled j) j.partner .lo
    have hhi := stayed_bed ((s.dry.trains[t]).cooled j) j.partner .hi
    simp only [Train.bed] at hlo hhi
    rw [hlo, hhi]
  rw [endCooling_eq, takeUp_some _ _ hads']
  exact hbody

theorem bedTest_cooled_none (hp : ((s.dry.trains[t]).bed j.partner).state ≠ .adsorbing) :
    ((cooledDown s t j).dry.trains[t]).adsorbing = none ∧ bedTest handWithdrawal t (cooledDown s t j) = cooledDown s t j := by
  have hnone : ((cooledDown s t j).dry.trains[t]).adsorbing = none := by
    rw [cooledDown_train]
    obtain ⟨hbed, hpartner⟩ := cooled_beds s.dry.trains[t] j
    exact adsorbing_none (j := j) (by rw [hbed]; nofun) (by rw [hpartner]; exact hp)
  exact ⟨hnone, bedTest_none _ _ hnone⟩

theorem endCooling_out (hp : ((s.dry.trains[t]).bed j.partner).state ≠ .adsorbing) (hout : (s.dry.trains[t]).state = .out) :
    endCooling t j s = cooledDown s t j := by
  obtain ⟨_, htest⟩ := bedTest_cooled_none hp
  rw [endCooling_eq, htest, takeUp_out]
  rw [cooledDown_train]
  exact (cooled_fields _ _).2.2.trans hout

theorem endCooling_takes {i : Side} (hp : ((s.dry.trains[t]).bed j.partner).state ≠ .adsorbing) (hout : (s.dry.trains[t]).state ≠ .out)
    (hready : ((s.dry.trains[t]).cooled j).readyBed = some i) :
    hasMasked t (((s.dry.trains[t]).cooled j).takenUp i) (endCooling t j s) ∧ toldBetween s (endCooling t j s) [swapTold s t i] := by
  obtain ⟨hnone, htest⟩ := bedTest_cooled_none hp
  have hown := cooledDown_train s t j
  have htake : takeUp handWithdrawal t (cooledDown s t j) = takeUpBed handWithdrawal t i (cooledDown s t j) := by
    refine takeUp_takes _ _ ?_ hnone ?_
    · rw [hown, (cooled_fields _ _).2.2]
      exact hout
    · rw [hown]
      exact hready
  obtain ⟨hbody, htold⟩ := takeUpBed_spec handFree_withdrawal (cooledDown s t j) t i
  rw [hown] at hbody
  rw [swapTold_congr t i (does_cooledDown s t j)] at htold
  rw [endCooling_eq, htest, htake]
  exact ⟨hbody, htold.before (does_cooledDown s t j)⟩

theorem readyBed_cooled (h : j = .lo ∨ ((s.dry.trains[t]).bed j.partner).state ≠ .ready) : ((s.dry.trains[t]).cooled j).readyBed = some j := by
  cases j
  · rfl
  · exact (if_neg (h.resolve_left nofun)).trans (if_pos rfl)

theorem readyBed_cooled_lo (h : j = .hi) (hp : ((s.dry.trains[t]).bed j.partner).state = .ready) :
    ((s.dry.trains[t]).cooled j).readyBed = some .lo := by
  subst h
  exact if_pos hp

end

end Sys2Proof.Machine
end

section
/-! SUPPORT. A mask's end (R152 to R155): what the assessment leaves of the train and which warnings it raises. O52. -/

namespace Sys2Proof.Machine

/-! ### Warnings raised (R154) -/

/-- A warning of train `t`. -/
def isWarning (t : Fin 2) (e : Raised) : Bool := decide (e.kind = .dewWarning ∧ e.subject = some t.val)

/-- From `s` to `u` no warning of train `t` is raised. -/
def unwarned (t : Fin 2) (s u : State) : Prop := ∃ l : List Raised, u.evq = s.evq.pushAll l ∧ l.filter (isWarning t) = []

section
variable {s u : State} {t : Fin 2}

theorem unwarned_raise {k : EventKind} {a : Option Nat} {b : Option Int} (hk : k = .dewWarning → a ≠ some t.val) (h : unwarned t s u) :
    unwarned t s (raise k a b u) := by
  obtain ⟨l, hl, hnone⟩ := h
  refine ⟨l ++ [⟨gasTime u, k, a, b⟩], by rw [raise_eq, State.setEvq_evq, hl, pushAll_append], ?_⟩
  rw [List.filter_append, hnone, List.nil_append, List.filter_eq_nil_iff]
  intro e he
  rw [List.mem_singleton.mp he, isWarning, decide_eq_true_iff]
  exact fun hw => hk hw.1 hw.2

theorem unwarned_recut (h : unwarned t s u) : unwarned t s (recut u) := by
  refine foldl_preserves (unwarned t s) recutHour _ (fun n _ v hv => ?_) u h
  dsimp only [recutHour]
  split
  · exact hv
  · exact unwarned_raise nofun hv

theorem unwarnedAside (s : State) (t : Fin 2) : Aside t (unwarned t s) where
  raise _ _ _ _ _ hk h := unwarned_raise hk h
  putTrain _ _ _ _ h := h
  reshare _ h := h
  setFlow _ _ h := h
  recut _ h := unwarned_recut h
  setWorld _ _ h := h
  capacity _ _ h := h

theorem Aside.and {P R : State → Prop} (hP : Aside t P) (hR : Aside t R) : Aside t (fun u => P u ∧ R u) where
  raise u k a b hk hw h := ⟨hP.raise u k a b hk hw h.1, hR.raise u k a b hk hw h.2⟩
  putTrain u i x hi h := ⟨hP.putTrain u i x hi h.1, hR.putTrain u i x hi h.2⟩
  reshare u h := ⟨hP.reshare u h.1, hR.reshare u h.2⟩
  setFlow u x h := ⟨hP.setFlow u x h.1, hR.setFlow u x h.2⟩
  recut u h := ⟨hP.recut u h.1, hR.recut u h.2⟩
  setWorld u n h := ⟨hP.setWorld u n h.1, hR.setWorld u n h.2⟩
  capacity u n h := ⟨hP.capacity u n h.1, hR.capacity u n h.2⟩

/-- The train's own moves where its dew point stands below the warn level. -/
theorem Aside.coldDew {P : State → Prop} (hP : Aside t P) (hmove : ∀ s x, DewMove s.dry.trains[t] x → P s → P (Machine.putTrain t x s))
    (hbelow : ∀ s, P s → (s.dry.trains[t]).dew < (s.dry.trains[t]).cfg.warn) {hand : Hand} (hhand : ∀ s, P s → P (hand s)) :
    DewKept hand t P where
  raise s k a b hk hwarn h := hP.raise s k a b hk (fun hd => absurd (hwarn hd).2 (Int.not_le.mpr (hbelow s h))) h
  quiet s x hx _ _ h := hmove s x hx h
  leave s x hx _ h := hhand _ (hP.reshare _ (hmove s x hx h))
  join s x hx _ _ h := hP.reshare _ (hmove s x hx h)
  reshare := hP.reshare

theorem Aside.cold {P : State → Prop} (hP : Aside t P) (hmove : ∀ s x, DewMove s.dry.trains[t] x → P s → P (Machine.putTrain t x s))
    (hbelow : ∀ s, P s → (s.dry.trains[t]).dew < (s.dry.trains[t]).cfg.warn) : Follows t P where
  toAside := hP
  bring _ hhand _ h := (hP.coldDew hmove hbelow hhand).bringOnline h
  send s h := by
    dsimp only [sendStandby]
    split
    · exact hmove s _ ⟨rfl, .inl rfl, .inl rfl⟩ h
    · exact h

/-- The warning of train `t` from `s` to `v`: once at or above the warn level, where it was armed. -/
structure Warned (t : Fin 2) (s v : State) : Prop where
  told : ∃ l : List Raised, v.evq = s.evq.pushAll l ∧ l.filter (isWarning t) = warnTold s t
  armed : (v.dry.trains[t]).armed = decide ((s.dry.trains[t]).dew < (s.dry.trains[t]).cfg.warn)

theorem warnTold_filter (s : State) (t : Fin 2) : (warnTold s t).filter (isWarning t) = warnTold s t := by
  rw [warnTold]
  split
  · exact List.filter_eq_self.mpr fun e he => by rw [List.mem_singleton.mp he, isWarning]; exact decide_eq_true ⟨rfl, rfl⟩
  · rfl

theorem warnTold_congr {u : State} (hclock : gasTime u = gasTime s) (harmed : (u.dry.trains[t]).armed = (s.dry.trains[t]).armed)
    (hcfg : (u.dry.trains[t]).cfg = (s.dry.trains[t]).cfg) (hdew : (u.dry.trains[t]).dew = (s.dry.trains[t]).dew) :
    warnTold u t = warnTold s t := by
  rw [warnTold, warnTold, hclock, harmed, hcfg, hdew]

theorem warnTold_source (s : State) (t : Fin 2) : ∀ e ∈ warnTold s t, e.kind.source = .dryingSupervisor := by
  rw [warnTold]
  intro e he
  split at he
  · rw [List.mem_singleton.mp he]
    rfl
  · exact absurd he List.not_mem_nil

theorem Warned.gathered {f : State → State} (h : Warned t s.gatheringEvents (f s.gatheringEvents)) : Warned t s (Machine.gathered f s) := by
  obtain ⟨⟨l, hl, hwarn⟩, harmed⟩ := h
  obtain ⟨m, hm, _, hfilter⟩ := gathered_pushAll f s l hl
  have hsource (k : List Raised) : k.filter (isWarning t) =
      (k.filter (fun r => r.kind.source == .dryingSupervisor)).filter (isWarning t) := by
    rw [List.filter_filter]
    refine List.filter_congr fun e _ => ?_
    cases hw : isWarning t e
    · rfl
    · rw [(decide_eq_true_iff.mp hw).1]
      rfl
  refine ⟨⟨m, hm, ?_⟩, harmed⟩
  rw [hsource, hfilter, ← hsource, hwarn]
  rfl

/-! ### The assessment (R152 to R155) -/

variable {hand : Hand}

theorem assess_online (h : (s.dry.trains[t]).state = .online) : assess hand t s = assessOnline hand t s := by
  dsimp only [assess]
  rw [h]

theorem assess_offSpec (h : (s.dry.trains[t]).state = .offSpec) : assess hand t s = assessOffSpec hand t s := by
  dsimp only [assess]
  rw [h]

theorem assess_idle (hon : (s.dry.trains[t]).state ≠ .online) (hoff : (s.dry.trains[t]).state ≠ .offSpec) : assess hand t s = s := by
  dsimp only [assess]
  split
  · next h => exact absurd h hon
  · next h => exact absurd h hoff
  · rfl

/-- A train whose mask has run out. -/
def Train.unmasked (x : Train) : Train := { x with mask := 0 }

theorem assess_unmasked_online (hmask : (s.dry.trains[t]).mask = 0) (hon : (s.dry.trains[t]).state = .online) :
    assess hand t s = dewWarning t (assessSpec hand t s) := by
  rw [assess_online hon]
  dsimp only [assessOnline]
  rw [if_pos]
  rw [hon, hmask]
  rfl

theorem assess_unmasked_offSpec (hmask : (s.dry.trains[t]).mask = 0) (hoff : (s.dry.trains[t]).state = .offSpec) :
    assess hand t s = assessRecovery hand t (dewWarning t s) := by
  rw [assess_offSpec hoff]
  dsimp only [assessOffSpec]
  rw [if_pos]
  rw [hoff, hmask]
  rfl

/-- An assessment in ONLINE that takes no excursion. -/
theorem assess_stays (hmask : (s.dry.trains[t]).mask = 0) (hon : (s.dry.trains[t]).state = .online) (hin : ¬(s.dry.trains[t]).leaves) :
    Acts [.dry, .evq] s (warnTold s t) (assess hand t s) ∧ (assess hand t s).dry =
      (putTrain t (s.dry.trains[t]).excursionSet.armedSet s).dry := by
  have hput : warnTold (putTrain t (s.dry.trains[t]).excursionSet s) t = warnTold s t := by
    refine warnTold_congr rfl ?_ ?_ ?_ <;> rw [putTrain_own] <;> rfl
  obtain ⟨hacts, hdry⟩ := dewWarning_spec t (putTrain t (s.dry.trains[t]).excursionSet s)
  rw [assess_unmasked_online hmask hon, assessSpec_rests hin]
  rw [hput] at hacts
  refine ⟨(acts_putTrain t _ s (by decide)).trans hacts, ?_⟩
  rw [hdry, putTrain_own, putTrain_putTrain]

/-- An assessment in OFF_SPEC that takes no recovery. -/
theorem assess_waits (hmask : (s.dry.trains[t]).mask = 0) (hoff : (s.dry.trains[t]).state = .offSpec) (hout : ¬(s.dry.trains[t]).returns) :
    Acts [.dry, .evq] s (warnTold s t) (assess hand t s) ∧ (assess hand t s).dry =
      (putTrain t (s.dry.trains[t]).armedSet.recoverySet s).dry := by
  obtain ⟨hacts, hdry⟩ := dewWarning_spec t s
  have hown : (dewWarning t s).dry.trains[t] = (s.dry.trains[t]).armedSet := by rw [dewWarning_train, if_pos rfl]
  rw [assess_unmasked_offSpec hmask hoff, assessRecovery_rests (by rw [hown]; exact hout), hown]
  refine ⟨List.append_nil (warnTold s t) ▸ hacts.trans (acts_putTrain t _ _ (by decide)), ?_⟩
  have hput := putTrain_putTrain t (s.dry.trains[t]).armedSet (s.dry.trains[t]).armedSet.recoverySet s
  rw [← hput]
  exact congrArg (fun d : Drying => { d with trains := setVec d.trains t (s.dry.trains[t]).armedSet.recoverySet }) hdry

theorem warned_of_acts {v : State} {ps : List Part} (h : Acts ps s (warnTold s t) v)
    (harmed : (v.dry.trains[t]).armed = decide ((s.dry.trains[t]).dew < (s.dry.trains[t]).cfg.warn)) : Warned t s v :=
  ⟨⟨_, h.told, warnTold_filter s t⟩, harmed⟩

/-- A train that leaves specification is warned of once, after it has left. -/
theorem warned_leaves {x : Train} {v : State} (hx : (v.dry.trains[t]).unshared = x.unshared) (harmed : x.armed = (s.dry.trains[t]).armed)
    (hcfg : x.cfg = (s.dry.trains[t]).cfg) (hdew : x.dew = (s.dry.trains[t]).dew) (hclock : gasTime v = gasTime s) (h : unwarned t s v) :
    Warned t s (dewWarning t v) := by
  obtain ⟨l, hl, hnone⟩ := h
  have hsame := of_unshared hx
  have htold : warnTold v t = warnTold s t := by
    refine warnTold_congr hclock ?_ ?_ ?_ <;> rw [hsame]
    · exact harmed
    · exact hcfg
    · exact hdew
  have hacts := (dewWarning_spec t v).1
  rw [htold] at hacts
  refine ⟨⟨l ++ warnTold s t, by rw [hacts.told, hl, pushAll_append], ?_⟩, ?_⟩
  · rw [List.filter_append, hnone, warnTold_filter]
    rfl
  · rw [dewWarning_train, if_pos rfl, hsame]
    show decide (x.dew < x.cfg.warn) = _
    rw [hcfg, hdew]

theorem unwarned_excursed {s' : State} (h : unwarned t s' s) : unwarned t s' (takeExcursion handWithdrawal t s) := by
  have hP : Aside t (fun u => unwarned t s' u ∧ (u.dry.trains[t]).state = .offSpec) :=
    (unwarnedAside s' t).and (ShareFree.aside (Q := fun y => y.state = .offSpec) fun _ _ hy => hy)
  have hrest : Follows t (fun u => unwarned t s' u ∧ (u.dry.trains[t]).state = .offSpec) :=
    hP.resting fun u hu => by rw [Train.inService, hu.2]; rfl
  have hput : ((reshare (putTrain t { s.dry.trains[t] with state := .offSpec, excursion := none } s)).dry.trains[t]).state = .offSpec := by
    rw [reshare_trains, putTrain_own]
  have hleft : unwarned t s' (reshare (putTrain t { s.dry.trains[t] with state := .offSpec, excursion := none } s)) := h
  exact unwarned_raise nofun (hrest.hand ⟨hleft, hput⟩).1

/-- A train that comes back below the warn level is warned of by nothing. -/
theorem warned_returns {u : State} (hdew : (s.dry.trains[t]).dew < (s.dry.trains[t]).cfg.warn) (hu : unwarned t s u)
    (hbody : hasBody t s.dry.trains[t] u) (harmed : (u.dry.trains[t]).armed = decide ((s.dry.trains[t]).dew < (s.dry.trains[t]).cfg.warn)) :
    Warned t s (takeRecovery handWithdrawal t u) := by
  have hside : Aside t (fun v => unwarned t s v ∧ hasBody t s.dry.trains[t] v
      ∧ (v.dry.trains[t]).armed = decide ((s.dry.trains[t]).dew < (s.dry.trains[t]).cfg.warn)) :=
    (unwarnedAside s t).and (ShareFree.aside (Q := fun y => y.body = (s.dry.trains[t]).body
      ∧ y.armed = decide ((s.dry.trains[t]).dew < (s.dry.trains[t]).cfg.warn)) fun _ _ hy => hy)
  have hmove (v : State) (x : Train) (hx : DewMove v.dry.trains[t] x) (hv : unwarned t s v ∧ hasBody t s.dry.trains[t] v
      ∧ (v.dry.trains[t]).armed = decide ((s.dry.trains[t]).dew < (s.dry.trains[t]).cfg.warn)) :
      unwarned t s (putTrain t x v) ∧ hasBody t s.dry.trains[t] (putTrain t x v)
      ∧ ((putTrain t x v).dry.trains[t]).armed = decide ((s.dry.trains[t]).dew < (s.dry.trains[t]).cfg.warn) := by
    obtain ⟨hnone, hb, ha⟩ := hv
    rw [hasBody, putTrain_own]
    refine ⟨hnone, hx.body.trans hb, hx.armed.elim (fun h => h.trans ha) fun h => ?_⟩
    rw [h, hb.alike.dew, hb.alike.cfg]
  have hbelow (v : State) (hv : unwarned t s v ∧ hasBody t s.dry.trains[t] v
      ∧ (v.dry.trains[t]).armed = decide ((s.dry.trains[t]).dew < (s.dry.trains[t]).cfg.warn)) :
      (v.dry.trains[t]).dew < (v.dry.trains[t]).cfg.warn := by
    rw [hv.2.1.alike.dew, hv.2.1.alike.cfg]
    exact hdew
  obtain ⟨⟨l, hl, hnone⟩, _, ha⟩ := (hside.coldDew hmove hbelow fun _ hv => (hside.cold hmove hbelow).hand hv).takeRecovery ⟨hu, hbody, harmed⟩
  refine ⟨⟨l, hl, ?_⟩, ha⟩
  rw [hnone, warnTold, if_neg fun hw => absurd hw.2 (Int.not_le.mpr hdew)]

/-! #### Leaving specification and returning (R153, R155) -/

omit hand in
theorem unwarned_refl (s : State) (t : Fin 2) : unwarned t s s := ⟨[], rfl, rfl⟩

/-- A train that leaves specification. -/
def Train.left (x : Train) : Train := { x with state := .offSpec, excursion := none }

section
variable (hmask : (s.dry.trains[t]).mask = 0) (hon : (s.dry.trains[t]).state = .online) (hout : (s.dry.trains[t]).leaves)
include hmask hon hout

theorem assess_leaves : assess handWithdrawal t s = dewWarning t (takeExcursion handWithdrawal t s) := by
  rw [assess_unmasked_online hmask hon, assessSpec_leaves hout]

theorem told_assess_leaves :
    toldBetween s (assess handWithdrawal t s) [⟨gasTime s, .offSpec, some t.val, some (s.dry.trains[t]).dew⟩] := by
  rw [assess_leaves hmask hon hout]
  exact (told_takeExcursion t s).after (dewWarning_spec t _).1.does

theorem assess_leaves_train : ((assess handWithdrawal t s).dry.trains[t]).unshared = (s.dry.trains[t]).left.armedSet.unshared := by
  have hrow := of_unshared (excursed_train t s)
  have hsame : (takeExcursion handWithdrawal t s).dry.trains[t] = (excursed t s).dry.trains[t] := rfl
  rw [assess_leaves hmask hon hout, dewWarning_train, if_pos rfl, hsame, hrow]
  rfl
end

section
variable (hmask : (s.dry.trains[t]).mask = 0) (hoff : (s.dry.trains[t]).state = .offSpec) (hback : (s.dry.trains[t]).returns)
include hmask hoff hback

theorem assess_returns : assess handWithdrawal t s = takeRecovery handWithdrawal t (dewWarning t s) := by
  rw [assess_unmasked_offSpec hmask hoff, assessRecovery_returns]
  rw [dewWarning_train, if_pos rfl]
  exact hback

theorem told_assess_returns :
    toldBetween s (assess handWithdrawal t s) [⟨gasTime s, .onSpec, some t.val, some (s.dry.trains[t]).dew⟩] := by
  have hbefore := (dewWarning_spec t s).1
  have htold := told_takeRecovery t (dewWarning t s)
  rw [dewWarning_train, if_pos rfl, hbefore.does.gasTime (by decide)] at htold
  rw [assess_returns hmask hoff hback]
  exact htold.before hbefore.does

theorem assess_returns_train (hwarn : (s.dry.trains[t]).cfg.warn ≤ (s.dry.trains[t]).cfg.spec) (hcur : wdrCurrent s) :
    Recovered t s (assess handWithdrawal t s) := by
  have hown : (dewWarning t s).dry.trains[t] = (s.dry.trains[t]).armedSet := by rw [dewWarning_train, if_pos rfl]
  have hflow : (dewWarning t s).flow = s.flow := (dewWarning_spec t s).1.parts .flow (by decide)
  have hquiet : wdrCurrent (dewWarning t s) := (wdrDew (hand := handWithdrawal) wdrCurrent_handWithdrawal t).dewWarning hcur
  have hrec := takeRecovery_calm (t := t) hquiet (by rw [hown]; show (s.dry.trains[t]).inService = false; rw [Train.inService, hoff]; rfl)
    (by
      rw [hown]
      intro hstays
      have hdew : (s.dry.trains[t]).dew < (s.dry.trains[t]).cfg.warn := hback.1
      have hspec : (s.dry.trains[t]).cfg.spec < (s.dry.trains[t]).dew := hstays.2.1
      omega)
  obtain ⟨hstate, hchoice, hrecovery, hcourse, hothers⟩ := hrec
  rw [hown] at hchoice
  rw [hflow] at hstate hcourse
  rw [assess_returns hmask hoff hback]
  refine ⟨hstate, hchoice, hrecovery, hcourse, fun i hi => (hothers i hi).trans ?_⟩
  rw [dewWarning_train, if_neg (Ne.symm hi)]
end

/-- An assessment warns once at or above the warn level. -/
theorem assess_warned (hmask : (s.dry.trains[t]).mask = 0) (h : (s.dry.trains[t]).state = .online ∨ (s.dry.trains[t]).state = .offSpec) :
    Warned t s (assess handWithdrawal t s) := by
  rcases h with hon | hoff
  · by_cases hout : (s.dry.trains[t]).leaves
    · rw [assess_leaves hmask hon hout]
      exact warned_leaves (v := takeExcursion handWithdrawal t s) (excursed_train t s) rfl rfl rfl
        ((does_excursed t s).gasTime (by decide)) (unwarned_excursed (unwarned_refl s t))
    · obtain ⟨hacts, hrow⟩ := assess_stays (hand := handWithdrawal) hmask hon hout
      exact warned_of_acts hacts (by rw [hrow, putTrain_own]; rfl)
  · by_cases hback : (s.dry.trains[t]).returns
    · rw [assess_returns hmask hoff hback]
      have hdew := hback.1
      have hacts := (dewWarning_spec t s).1
      rw [warnTold, if_neg fun hw => absurd hw.2 (Int.not_le.mpr hdew)] at hacts
      have hrow : (dewWarning t s).dry.trains[t] = (s.dry.trains[t]).armedSet := by rw [dewWarning_train, if_pos rfl]
      exact warned_returns hdew ⟨[], hacts.told, rfl⟩ (by rw [hasBody, hrow]; rfl) (by rw [hrow]; rfl)
    · obtain ⟨hacts, hrow⟩ := assess_waits (hand := handWithdrawal) hmask hoff hback
      exact warned_of_acts hacts (by rw [hrow, putTrain_own]; rfl)

end

/-! ### A mask's end -/

section
variable {s : State} {t : Fin 2}

/-- The part as a mask has run out. -/
def unmaskedAt (s : State) (t : Fin 2) : State := putTrain t (s.dry.trains[t]).unmasked s

theorem endMask_eq : endMask t s = assess handWithdrawal t (unmaskedAt s t) := rfl

theorem unmaskedAt_train : (unmaskedAt s t).dry.trains[t] = (s.dry.trains[t]).unmasked := putTrain_own _

theorem acts_unmaskedAt : Acts [.dry, .evq] s [] (unmaskedAt s t) := acts_putTrain t _ s (by decide)

theorem warnTold_unmaskedAt : warnTold (unmaskedAt s t) t = warnTold s t := by
  refine warnTold_congr rfl ?_ ?_ ?_ <;> rw [unmaskedAt_train] <;> rfl

theorem endMask_stays (hon : (s.dry.trains[t]).state = .online) (hin : ¬(s.dry.trains[t]).leaves) :
    Acts [.dry, .evq] s (warnTold s t) (endMask t s) ∧
      (endMask t s).dry.trains[t] = (s.dry.trains[t]).unmasked.excursionSet.armedSet := by
  have hown := unmaskedAt_train (s := s) (t := t)
  obtain ⟨hacts, hdry⟩ := assess_stays (hand := handWithdrawal) (s := unmaskedAt s t) (t := t) (by rw [hown]; rfl) (by rw [hown]; exact hon)
    (by rw [hown]; exact hin)
  rw [warnTold_unmaskedAt] at hacts
  refine ⟨acts_unmaskedAt.trans hacts, ?_⟩
  rw [endMask_eq, hdry, putTrain_own, hown]

theorem endMask_waits (hoff : (s.dry.trains[t]).state = .offSpec) (hout : ¬(s.dry.trains[t]).returns) :
    Acts [.dry, .evq] s (warnTold s t) (endMask t s) ∧
      (endMask t s).dry.trains[t] = (s.dry.trains[t]).unmasked.armedSet.recoverySet := by
  have hown := unmaskedAt_train (s := s) (t := t)
  obtain ⟨hacts, hdry⟩ := assess_waits (hand := handWithdrawal) (s := unmaskedAt s t) (t := t) (by rw [hown]; rfl) (by rw [hown]; exact hoff)
    (by rw [hown]; exact hout)
  rw [warnTold_unmaskedAt] at hacts
  refine ⟨acts_unmaskedAt.trans hacts, ?_⟩
  rw [endMask_eq, hdry, putTrain_own, hown]

theorem endMask_idle (hon : (s.dry.trains[t]).state ≠ .online) (hoff : (s.dry.trains[t]).state ≠ .offSpec) :
    endMask t s = unmaskedAt s t := by
  have hown := unmaskedAt_train (s := s) (t := t)
  rw [endMask_eq, assess_idle (by rw [hown]; exact hon) (by rw [hown]; exact hoff)]

/-- A mask's end warns once at or above the warn level. -/
theorem endMask_warned (h : (s.dry.trains[t]).state = .online ∨ (s.dry.trains[t]).state = .offSpec) : Warned t s (endMask t s) := by
  have hown := unmaskedAt_train (s := s) (t := t)
  obtain ⟨⟨l, hl, hfilter⟩, harmed⟩ := assess_warned (s := unmaskedAt s t) (t := t) (by rw [hown]; rfl) (by rw [hown]; exact h)
  rw [hown] at harmed
  rw [warnTold_unmaskedAt] at hfilter
  exact ⟨⟨l, hl, hfilter⟩, harmed⟩

end

end Sys2Proof.Machine
end

section
/-! SUPPORT. The ends of a bed's phases and of a mask, as their rows give them (R148 to R155): O52. -/

namespace Sys2Proof.Machine

section
variable (s : State) (i : Fin 4) (t : Fin 2) (j : Side)

theorem exec_heatingEnd : exec (.heatingEnd i) s = .next
    (if ((s.dry.trains[(bedOwner i).1]).bed (bedOwner i).2).state = .heating ∧ ((s.dry.trains[(bedOwner i).1]).bed (bedOwner i).2).timer ≤ 1
      then endHeating (bedOwner i).1 (bedOwner i).2 s else s) := rfl

theorem exec_coolingEnd : exec (.coolingEnd i) s = .next
    (if ((s.dry.trains[(bedOwner i).1]).bed (bedOwner i).2).state = .cooling ∧ ((s.dry.trains[(bedOwner i).1]).bed (bedOwner i).2).timer ≤ 1
      then gathered (endCooling (bedOwner i).1 (bedOwner i).2) s else s) := rfl

theorem exec_maskExpiry : exec (.maskExpiry t) s = .next (if (s.dry.trains[t]).mask = 1 then gathered (endMask t) s else s) := rfl

theorem bedIndex_owner : ∀ k : Fin 4, bedIndex (bedOwner k).1 (bedOwner k).2 = k.val := by decide

theorem bedIndex_eq : bedIndex t j = 2 * t.val + (if j = .hi then 1 else 0) := by cases j <;> rfl
end

/-! ### A bed cooled (R150, R151) -/

section
variable (s : State) (t : Fin 2) (j : Side)

/-- The beds of train `t` in `u`: the cooled bed `j` and its partner. -/
def bedsAre (u : State) (cooled partner : Bed) : Prop := (u.dry.trains[t]).bed j = cooled ∧ (u.dry.trains[t]).bed j.partner = partner

variable {s t j}

theorem bedsAre_of_body {u : State} {x : Train} (h : hasBody t x u) : bedsAre t j u (x.bed j) (x.bed j.partner) :=
  ⟨h.alike.bed j, h.alike.bed j.partner⟩

variable (s t j)

/-- A cooled bed and its partner as the train finds them. -/
structure Cooled (u : State) : Prop where
  swaps : ((s.dry.trains[t]).bed j.partner).state = .adsorbing →
    (s.dry.trains[t]).bedCap * 3600000000 * (s.dry.trains[t]).cfg.swapPoint ≤ ((s.dry.trains[t]).bed j.partner).load * 1000 →
    bedsAre t j u ⟨.adsorbing, 0, 0⟩ ⟨.heating, ((s.dry.trains[t]).bed j.partner).load, (s.dry.trains[t]).cfg.heating⟩
      ∧ toldBetween s u [swapTold s t j]
  stays : ((s.dry.trains[t]).bed j.partner).state = .adsorbing →
    ¬(s.dry.trains[t]).bedCap * 3600000000 * (s.dry.trains[t]).cfg.swapPoint ≤ ((s.dry.trains[t]).bed j.partner).load * 1000 →
    bedsAre t j u ⟨.ready, 0, 0⟩ ((s.dry.trains[t]).bed j.partner)
  out : ((s.dry.trains[t]).bed j.partner).state ≠ .adsorbing → (s.dry.trains[t]).state = .out →
    bedsAre t j u ⟨.ready, 0, 0⟩ ((s.dry.trains[t]).bed j.partner)
  takes : ((s.dry.trains[t]).bed j.partner).state ≠ .adsorbing → (s.dry.trains[t]).state ≠ .out →
    (j = .lo ∨ ((s.dry.trains[t]).bed j.partner).state ≠ .ready) →
    bedsAre t j u ⟨.adsorbing, 0, 0⟩ ((s.dry.trains[t]).bed j.partner) ∧ toldBetween s u [swapTold s t j]
  lower : (s.dry.trains[t]).state ≠ .out → j = .hi → ((s.dry.trains[t]).bed j.partner).state = .ready →
    bedsAre t j u ⟨.ready, 0, 0⟩ ⟨.adsorbing, 0, 0⟩ ∧ toldBetween s u [swapTold s t .lo]

theorem cooled_endCooling : Cooled s t j (endCooling t j s) := by
  obtain ⟨hbed, hpartner⟩ := cooled_beds s.dry.trains[t] j
  refine ⟨fun hp hreach => ?_, fun hp hreach => ?_, fun hp hout => ?_, fun hp hout hlo => ?_, fun hout hj hready => ?_⟩
  · obtain ⟨⟨hbody, _⟩, htold⟩ := endCooling_swaps hp hreach
    obtain ⟨hheats, hadsorbs⟩ := swapped_beds ((s.dry.trains[t]).cooled j) j.partner
    have hbeds := bedsAre_of_body (j := j) hbody
    rw [hheats, hpartner, (cooled_fields _ j).1] at hbeds
    rw [Side.partner_partner] at hadsorbs
    rw [hadsorbs] at hbeds
    exact ⟨hbeds, htold⟩
  · have hbeds := bedsAre_of_body (j := j) (endCooling_stays hp hreach)
    rw [stayed_bed, stayed_bed, hbed, hpartner] at hbeds
    exact hbeds
  · rw [endCooling_out hp hout]
    have hbeds := bedsAre_of_body (j := j) (congrArg Train.body (cooledDown_train s t j))
    rw [hbed, hpartner] at hbeds
    exact hbeds
  · obtain ⟨⟨hbody, _⟩, htold⟩ := endCooling_takes hp hout (readyBed_cooled hlo)
    obtain ⟨hadsorbs, hother⟩ := takenUp_beds ((s.dry.trains[t]).cooled j) j
    have hbeds := bedsAre_of_body (j := j) hbody
    rw [hadsorbs, hother, hpartner] at hbeds
    exact ⟨hbeds, htold⟩
  · have hp : ((s.dry.trains[t]).bed j.partner).state ≠ .adsorbing := by rw [hready]; nofun
    obtain ⟨⟨hbody, _⟩, htold⟩ := endCooling_takes hp hout (readyBed_cooled_lo hj hready)
    obtain ⟨hadsorbs, hother⟩ := takenUp_beds ((s.dry.trains[t]).cooled j) .lo
    have hbeds := bedsAre_of_body (j := j) hbody
    subst hj
    exact ⟨⟨hbeds.1.trans (hother.trans hbed), hbeds.2.trans hadsorbs⟩, htold⟩

variable {s t j}

theorem Cooled.gathered {f : State → State} (h : Cooled s.gatheringEvents t j (f s.gatheringEvents)) : Cooled s t j (Machine.gathered f s) := by
  have htold (k : Side) (hk : toldBetween s.gatheringEvents (f s.gatheringEvents) [swapTold s t k]) :
      toldBetween s (Machine.gathered f s) [swapTold s t k] :=
    toldBetween_gathered (b := .dryingSupervisor) hk fun e he => by rw [List.mem_singleton.mp he]; rfl
  obtain ⟨hswaps, hstays, hout, htakes, hlower⟩ := h
  exact ⟨fun a b => ⟨(hswaps a b).1, htold _ (hswaps a b).2⟩, hstays, hout, fun a b c => ⟨(htakes a b c).1, htold _ (htakes a b c).2⟩,
    fun a b c => ⟨(hlower a b c).1, htold _ (hlower a b c).2⟩⟩

/-- A cooled bed ends READY or ADSORBING, its load 0. -/
theorem Cooled.bed {u : State} (h : Cooled s t j u) : (((u.dry.trains[t]).bed j).state = .ready ∨ ((u.dry.trains[t]).bed j).state = .adsorbing)
    ∧ ((u.dry.trains[t]).bed j).load = 0 := by
  have hcase : (u.dry.trains[t]).bed j = ⟨.ready, 0, 0⟩ ∨ (u.dry.trains[t]).bed j = ⟨.adsorbing, 0, 0⟩ := by
    by_cases hp : ((s.dry.trains[t]).bed j.partner).state = .adsorbing
    · by_cases hreach : (s.dry.trains[t]).bedCap * 3600000000 * (s.dry.trains[t]).cfg.swapPoint ≤ ((s.dry.trains[t]).bed j.partner).load * 1000
      · exact .inr (h.swaps hp hreach).1.1
      · exact .inl (h.stays hp hreach).1
    · by_cases hout : (s.dry.trains[t]).state = .out
      · exact .inl (h.out hp hout).1
      · by_cases hlo : j = .lo ∨ ((s.dry.trains[t]).bed j.partner).state ≠ .ready
        · exact .inr (h.takes hp hout hlo).1.1
        · obtain ⟨hj, hready⟩ := not_or.mp hlo
          have hhi : j = .hi := by cases j
                                   · exact absurd rfl hj
                                   · rfl
          exact .inl (h.lower hout hhi (not_not.mp hready)).1.1
  rcases hcase with he | he <;> rw [he]
  · exact ⟨.inl rfl, rfl⟩
  · exact ⟨.inr rfl, rfl⟩
end

/-! ### A mask's end -/

section
variable {s : State} {t : Fin 2}

/-- A mask's end that takes neither excursion nor recovery writes the drying supervisor's state alone. -/
theorem gathered_endMask (h : Acts [.dry, .evq] s.gatheringEvents (warnTold s t) (endMask t s.gatheringEvents)) :
    s.changesOnly [.dry, .evq] (gathered (endMask t) s) :=
  (h.gathered_one (by decide) (warnTold_source s t)).does.parts

theorem told_endMask_leaves (hon : (s.dry.trains[t]).state = .online) (hout : (s.dry.trains[t]).leaves) :
    toldBetween s (endMask t s) [⟨gasTime s, .offSpec, some t.val, some (s.dry.trains[t]).dew⟩] := by
  have hown := unmaskedAt_train (s := s) (t := t)
  have htold := told_assess_leaves (s := unmaskedAt s t) (t := t) (by rw [hown]; rfl) (by rw [hown]; exact hon) (by rw [hown]; exact hout)
  rw [hown] at htold
  exact htold.before acts_unmaskedAt.does

theorem told_endMask_returns (hoff : (s.dry.trains[t]).state = .offSpec) (hback : (s.dry.trains[t]).returns) :
    toldBetween s (endMask t s) [⟨gasTime s, .onSpec, some t.val, some (s.dry.trains[t]).dew⟩] := by
  have hown := unmaskedAt_train (s := s) (t := t)
  have htold := told_assess_returns (s := unmaskedAt s t) (t := t) (by rw [hown]; rfl) (by rw [hown]; exact hoff) (by rw [hown]; exact hback)
  rw [hown] at htold
  exact htold.before acts_unmaskedAt.does

theorem endMask_leaves_train (hon : (s.dry.trains[t]).state = .online) (hout : (s.dry.trains[t]).leaves) :
    ((endMask t s).dry.trains[t]).mask = 0 ∧ ((endMask t s).dry.trains[t]).state = .offSpec
    ∧ ((endMask t s).dry.trains[t]).excursion = none := by
  have hown := unmaskedAt_train (s := s) (t := t)
  have hrow := assess_leaves_train (s := unmaskedAt s t) (t := t) (by rw [hown]; rfl) (by rw [hown]; exact hon) (by rw [hown]; exact hout)
  rw [hown] at hrow
  rw [endMask_eq, of_unshared hrow]
  exact ⟨rfl, rfl, rfl⟩

theorem endMask_returns_train (hoff : (s.dry.trains[t]).state = .offSpec) (hback : (s.dry.trains[t]).returns)
    (hwarn : (s.dry.trains[t]).cfg.warn ≤ (s.dry.trains[t]).cfg.spec) (hcur : wdrCurrent s) :
    ((endMask t s).dry.trains[t]).mask = (s.dry.trains[t]).cfg.maskChoice
    ∧ ((endMask t s).dry.trains[t]).state = backState s.flow.dir ∧ ((endMask t s).dry.trains[t]).recovery = none := by
  have hown := unmaskedAt_train (s := s) (t := t)
  obtain ⟨hstate, hmask, hrec, _, _⟩ := assess_returns_train (s := unmaskedAt s t) (t := t) (by rw [hown]; rfl) (by rw [hown]; exact hoff)
    (by rw [hown]; exact hback) (by rw [hown]; exact hwarn) (wdrCurrent_putTrain rfl hcur)
  rw [hown] at hmask
  exact ⟨hmask, hstate, hrec⟩

end

/-- The end of a cooling, as its row gives it. -/
theorem coolingRow (s : State) (t : Fin 2) (j : Side) : Cooled s t j (gathered (endCooling t j) s)
    ∧ (gathered (endCooling t j) s).dry.gas = s.dry.gas ∧ recutFollows s (gathered (endCooling t j) s)
    ∧ s.changesOnly [.world, .dry, .flow, .sched, .evq] (gathered (endCooling t j) s) :=
  ⟨Cooled.gathered (cooled_endCooling s.gatheringEvents t j), (gasTrain _ t).endCooling j (s := s.gatheringEvents) rfl,
    gathered_recutFlow fun u => (recutTrain u t).endCooling j (recutsSince_refl u),
    gathered_drying ((flowTrain s.gatheringEvents t).endCooling j (.refl _ s.gatheringEvents))⟩

/-- The row of a mask's end that changes the capacity. -/
theorem maskRow (s : State) (t : Fin 2) : recutFollows s (gathered (endMask t) s)
    ∧ s.changesOnly [.world, .dry, .flow, .sched, .evq] (gathered (endMask t) s) :=
  ⟨gathered_recutFlow fun u => (recutTrain u t).endMask (recutsSince_refl u),
    gathered_drying ((flowTrain s.gatheringEvents t).endMask (.refl _ s.gatheringEvents))⟩

/-- Settles O52: a cooled bed finds its partner adsorbing or not, and a mask's end assesses the train in the state it is in. -/
theorem bedAndMaskPhasesEnd : Obligations.BedAndMaskPhasesEnd := by
  refine ⟨fun s i => ?_, fun s t => ?_⟩
  · have hindex := bedIndex_owner i
    refine ⟨(bedIndex_eq _ _).symm.trans hindex, fun hst hle => ?_, fun hn => by rw [exec_heatingEnd, if_neg hn], fun hst hle => ?_,
      fun hn => by rw [exec_coolingEnd, if_neg hn]⟩
    · rw [exec_heatingEnd, if_pos ⟨hst, hle⟩]
      rfl
    · obtain ⟨hcooled, hgas, hrecut, hparts⟩ := coolingRow s (bedOwner i).1 (bedOwner i).2
      obtain ⟨hbed, hload⟩ := hcooled.bed
      obtain ⟨hswaps, hstays, hout, htakes, hlower⟩ := hcooled
      have hevent : swapTold s (bedOwner i).1 (bedOwner i).2 =
          ⟨gasTime s, .bedSwap, some (bedOwner i).1.val, some (i.val : Int)⟩ := by rw [swapTold, hindex]
      rw [hevent] at hswaps htakes
      refine ⟨_, by rw [exec_coolingEnd, if_pos ⟨hst, hle⟩], hbed, hload, hgas, ⟨fun hp hreach => ?_, hstays, hout, fun hp ho hlo => ?_,
        fun ho hj hready => ?_⟩, hrecut, hparts⟩
      · exact ⟨(hswaps hp hreach).1, toldBetween_singleton (hswaps hp hreach).2⟩
      · exact ⟨(htakes hp ho hlo).1, toldBetween_singleton (htakes hp ho hlo).2⟩
      · exact ⟨(hlower ho hj hready).1, toldBetween_singleton (hlower ho hj hready).2⟩
  · obtain ⟨hrecut, hparts⟩ := maskRow s t
    refine ⟨fun hn => by rw [exec_maskExpiry, if_neg hn], fun hm hon hoff => ?_, fun hm hon hin => ?_, fun hm hon hspec hdelay hnone => ?_,
      fun hm hoff hin => ?_, fun hm hoff hdew hdelay hnone hwarn hcur hsafe => ?_, fun hm hst => ?_⟩
    · rw [exec_maskExpiry, if_pos hm, gathered_setDry (endMask_idle (s := s.gatheringEvents) hon hoff)]
      rfl
    · have hstay : ¬(s.dry.trains[t]).leaves := by
        rintro ⟨h1, h2, h3⟩
        rcases hin with h | h | h
        · omega
        · omega
        · exact h h2
      obtain ⟨hacts, hrow⟩ := endMask_stays (s := s.gatheringEvents) hon hstay
      have hown : (gathered (endMask t) s).dry.trains[t] = (s.dry.trains[t]).unmasked.excursionSet.armedSet := hrow
      refine ⟨_, by rw [exec_maskExpiry, if_pos hm], ?_, ?_, ?_, gathered_endMask hacts⟩ <;> rw [hown]
      · rfl
      · exact hon
      · rfl
    · obtain ⟨hmask, hstate, hexc⟩ := endMask_leaves_train (s := s.gatheringEvents) hon ⟨hspec, hnone, hdelay⟩
      exact ⟨gathered (endMask t) s, by rw [exec_maskExpiry, if_pos hm], hmask, hstate, hexc,
        gathered_tells (told_endMask_leaves (s := s.gatheringEvents) hon ⟨hspec, hnone, hdelay⟩), hrecut, hparts⟩
    · have hstay : ¬(s.dry.trains[t]).returns := by
        rintro ⟨h1, h2, h3⟩
        rcases hin with h | h | h
        · omega
        · omega
        · exact h h2
      obtain ⟨hacts, hrow⟩ := endMask_waits (s := s.gatheringEvents) hoff hstay
      have hown : (gathered (endMask t) s).dry.trains[t] = (s.dry.trains[t]).unmasked.armedSet.recoverySet := hrow
      refine ⟨_, by rw [exec_maskExpiry, if_pos hm], ?_, ?_, ?_, gathered_endMask hacts⟩ <;> rw [hown]
      · rfl
      · exact hoff
      · rfl
    · obtain ⟨hmask, hstate, hrec⟩ := endMask_returns_train (s := s.gatheringEvents) hoff ⟨hdew, hnone, hdelay⟩ hwarn
        ((capacitiesCurrent_iff s).mp hcur).2
      exact ⟨gathered (endMask t) s, by rw [exec_maskExpiry, if_pos hm], hmask, hstate, hrec,
        gathered_tells (told_endMask_returns (s := s.gatheringEvents) hoff ⟨hdew, hnone, hdelay⟩), hrecut, hparts⟩
    · obtain ⟨⟨l, hl, hfilter⟩, harmed⟩ := Warned.gathered (f := endMask t) (endMask_warned (s := s.gatheringEvents) hst)
      exact ⟨_, l, by rw [exec_maskExpiry, if_pos hm], hl, harmed, hfilter⟩

end Sys2Proof.Machine
end

section
/-! SUPPORT. A train that is OUT, whose capacity stands (R140, R142), and a direction that stands until S is 0 (R102). -/

namespace Sys2Proof.Machine

/-! ### The hand-over of a capacity that stands -/

section
variable {s u v : State} {t i j : Fin 2}

/-- A capacity that stands and is held is handed on to no one. -/
theorem handWithdrawal_current (h : wdrCurrent s) : handWithdrawal s = reshare s := by
  have hsame : s.setDry { s.dry with capacity := withdrawalCapacity s } = s := by
    rw [← h.1]
    rfl
  dsimp only [handWithdrawal]
  rw [if_neg (by rw [← h.1]; exact Nat.lt_irrefl _), if_pos (h.1.symm.trans h.2.symm), hsame]
  rfl

theorem reshare_stand (h : sharesStand s) : reshare s = s := by
  have h0 : ({ s.dry.trains[(0 : Fin 2)] with share := (flowShares s).1 } : Train) = s.dry.trains[(0 : Fin 2)] := by rw [← h.1]
  have h1 : ({ s.dry.trains[(1 : Fin 2)] with share := (flowShares s).2 } : Train) = s.dry.trains[(1 : Fin 2)] := by rw [← h.2]
  rw [reshare_eq, h0, h1, putTrain_self, putTrain_self]

theorem figure_out {x : Train} (h : x.state = .out) : x.figure = 0 := by
  rw [Train.figure, Train.inService, h]
  rfl

theorem sharesAlike_out {x y : Train} (hx : x.state = .out) (hy : y.state = .out) : SharesAlike x y := by
  refine ⟨hy.trans hx.symm, ?_, fun h => absurd (hx.symm.trans h) nofun⟩
  rw [Train.weight, Train.weight, hx, hy]
  rfl

theorem share_out (h : sharesStand s) (hout : (s.dry.trains[t]).state = .out) : (s.dry.trains[t]).share = 0 := by
  rw [sharesStand, flowShares_eq, sharesOf_eq] at h
  fin_cases t
  · exact h.1.trans (by unfold shareOf; rw [show (s.dry.trains[(0 : Fin 2)]).state = .out from hout])
  · exact h.2.trans (by unfold shareOf; rw [show (s.dry.trains[(1 : Fin 2)]).state = .out from hout])

/-- What is done for a train that is OUT leaves of the part: its capacity is current, and the other train stands but for its share,
which stands too where the shares do. -/
structure Idle (t : Fin 2) (s u : State) : Prop where
  current : wdrCurrent u
  out : (u.dry.trains[t]).state = .out
  others : ∀ i ≠ t, (u.dry.trains[i]).unshared = (s.dry.trains[i]).unshared
  stand : sharesStand s → sharesStand u ∧ ∀ i ≠ t, u.dry.trains[i] = s.dry.trains[i]

theorem Idle.refl (hcur : wdrCurrent s) (hout : (s.dry.trains[t]).state = .out) : Idle t s s :=
  ⟨hcur, hout, fun _ _ => rfl, fun h => ⟨h, fun _ _ => rfl⟩⟩

theorem Idle.trans (h : Idle t s u) (h' : Idle t u v) : Idle t s v :=
  ⟨h'.current, h'.out, fun i hi => (h'.others i hi).trans (h.others i hi),
    fun hs => ⟨(h'.stand (h.stand hs).1).1, fun i hi => ((h'.stand (h.stand hs).1).2 i hi).trans ((h.stand hs).2 i hi)⟩⟩

theorem Idle.put {x : Train} (h : Idle t s u) (hx : x.state = .out) (hshare : x.share = (u.dry.trains[t]).share) : Idle t s (putTrain t x u) := by
  refine h.trans ⟨wdrCurrent_putTrain (by rw [figure_out hx, figure_out h.out]) h.current, by rw [putTrain_own]; exact hx,
    fun i hi => by rw [putTrain_other x (Ne.symm hi)],
    fun hs => ⟨sharesStand_putTrain (sharesAlike_out h.out hx) hshare hs, fun i hi => putTrain_other x (Ne.symm hi)⟩⟩

theorem Idle.raise (k : EventKind) (a : Option Nat) (b : Option Int) (h : Idle t s u) : Idle t s (Machine.raise k a b u) :=
  ⟨h.current, h.out, h.others, h.stand⟩

theorem Idle.hand (h : Idle t s u) : Idle t s (handWithdrawal u) ∧ Acts [.dry, .evq] u [] (handWithdrawal u)
    ∧ ((handWithdrawal u).dry.trains[t]).unshared = (u.dry.trains[t]).unshared := by
  rw [handWithdrawal_current h.current]
  refine ⟨h.trans ⟨wdrCurrent_reshare h.current, by rw [reshare_trains]; exact h.out, fun i _ => unshared_reshare u i, fun hs => ?_⟩,
    (acts_reshare u).mono (by decide), unshared_reshare u t⟩
  rw [reshare_stand hs]
  exact ⟨hs, fun _ _ => rfl⟩

/-! ### A bed tested in a train that is OUT (R148, R149) -/

theorem loadMask_idle {hand : Hand} (hon : (s.dry.trains[t]).state ≠ .online) (hoff : (s.dry.trains[t]).state ≠ .offSpec) :
    loadMask hand t s = putTrain t (s.dry.trains[t]).masked s := by
  have hstate := (Train.masked_keeps s.dry.trains[t]).1
  dsimp only [loadMask]
  rw [assess_idle (by rw [putTrain_own, hstate]; exact hon) (by rw [putTrain_own, hstate]; exact hoff)]
  exact ite_self _

theorem Idle.loadMask (h : Idle t s u) : Idle t s (Machine.loadMask handWithdrawal t u)
    ∧ Acts [.dry, .evq] u [] (Machine.loadMask handWithdrawal t u) := by
  obtain ⟨hstate, hshare⟩ := Train.masked_keeps u.dry.trains[t]
  rw [loadMask_idle (by rw [h.out]; nofun) (by rw [h.out]; nofun)]
  exact ⟨h.put (hstate.trans h.out) hshare, acts_putTrain t _ u (by decide)⟩

/-- The bed swaps. -/
theorem Idle.swapBeds (h : Idle t s u) (k : Side) : Idle t s (Machine.swapBeds handWithdrawal t k u)
    ∧ Acts [.dry, .evq] u [swapTold u t k.partner] (Machine.swapBeds handWithdrawal t k u) := by
  have hput : Idle t s (putTrain t ((u.dry.trains[t]).swapped k) u) := by
    refine h.put ?_ ?_ <;> cases k
    · exact h.out
    · exact h.out
    · rfl
    · rfl
  have hacts : Acts [.dry, .evq] u [] (putTrain t ((u.dry.trains[t]).swapped k) u) := acts_putTrain t _ u (by decide)
  have hhanded : Idle t s (if (u.dry.trains[t]).degraded then handWithdrawal (putTrain t ((u.dry.trains[t]).swapped k) u)
        else putTrain t ((u.dry.trains[t]).swapped k) u)
      ∧ Acts [.dry, .evq] u [] (if (u.dry.trains[t]).degraded then handWithdrawal (putTrain t ((u.dry.trains[t]).swapped k) u)
        else putTrain t ((u.dry.trains[t]).swapped k) u) := by
    split
    · exact ⟨hput.hand.1, hacts.trans hput.hand.2.1⟩
    · exact ⟨hput, hacts⟩
  obtain ⟨hidle, hmask⟩ := hhanded.1.loadMask
  have hbefore := hhanded.2.trans hmask
  refine ⟨hidle.raise _ _ _, ?_⟩
  have hraise := acts_raise (ps := [.dry, .evq]) (Machine.loadMask handWithdrawal t (if (u.dry.trains[t]).degraded then
    handWithdrawal (putTrain t ((u.dry.trains[t]).swapped k) u) else putTrain t ((u.dry.trains[t]).swapped k) u))
    .bedSwap (some t.val) (some (bedIndex t k.partner : Int)) (by decide)
  rw [hbefore.does.gasTime (by decide)] at hraise
  exact hbefore.trans hraise

/-- The event of a saturation found. -/
def saturationTold (s : State) (t : Fin 2) (k : Side) : List Raised :=
  if (s.dry.trains[t]).saturated k = true ∧ (s.dry.trains[t]).degraded = false then [degradedTold s t] else []

theorem degrade_self {x : Train} {p : Bool} (h : x.degraded = p) : x.degrade p = x := by rw [Train.degrade, ← h]

section
variable {hand : Hand} {k : Side}

theorem saturationTold_one (hsat : (u.dry.trains[t]).saturated k = true) (hdeg : (u.dry.trains[t]).degraded = false) :
    saturationTold u t k = [degradedTold u t] := if_pos ⟨hsat, hdeg⟩

theorem saturationTold_none (h : ¬((u.dry.trains[t]).saturated k = true ∧ (u.dry.trains[t]).degraded = false)) :
    saturationTold u t k = [] := if_neg h

theorem testSaturation_sets (hsat : (u.dry.trains[t]).saturated k = true) (hdeg : (u.dry.trains[t]).degraded = false) :
    testSaturation hand t k u = hand (raise .trainDegraded (some t.val) (some ((u.dry.trains[t]).degradedContribution : Int))
      (putTrain t ((u.dry.trains[t]).degrade true) u)) := by
  unfold Train.saturated at hsat
  dsimp only [testSaturation]
  simp only [hsat, hdeg, Bool.not_false, Bool.and_true, if_true]
  rfl

theorem testSaturation_clears (hsat : (u.dry.trains[t]).saturated k = false) (hdeg : (u.dry.trains[t]).degraded = true) :
    testSaturation hand t k u = hand (putTrain t ((u.dry.trains[t]).degrade false) u) := by
  unfold Train.saturated at hsat
  dsimp only [testSaturation]
  simp only [hsat, hdeg, Bool.not_false, Bool.not_true, Bool.and_true, Bool.and_false, Bool.false_eq_true, if_false, if_true]
  rfl

theorem testSaturation_rests (h : (u.dry.trains[t]).saturated k = (u.dry.trains[t]).degraded) : testSaturation hand t k u = u := by
  unfold Train.saturated at h
  dsimp only [testSaturation]
  rw [h]
  cases (u.dry.trains[t]).degraded <;> rfl
end

theorem Idle.testSaturation (h : Idle t s u) (k : Side) : Idle t s (Machine.testSaturation handWithdrawal t k u)
    ∧ Acts [.dry, .evq] u (saturationTold u t k) (Machine.testSaturation handWithdrawal t k u)
    ∧ ((Machine.testSaturation handWithdrawal t k u).dry.trains[t]).unshared =
      ((u.dry.trains[t]).degrade ((u.dry.trains[t]).saturated k)).unshared := by
  have hput (p : Bool) : Idle t s (putTrain t ((u.dry.trains[t]).degrade p) u) := h.put h.out rfl
  have hown (p : Bool) := putTrain_own (s := u) (t := t) ((u.dry.trains[t]).degrade p)
  cases hx : (u.dry.trains[t]).saturated k <;> cases hdeg : (u.dry.trains[t]).degraded
  · rw [testSaturation_rests (hx.trans hdeg.symm), saturationTold_none (fun hs => absurd (hx.symm.trans hs.1) nofun), degrade_self hdeg]
    exact ⟨h, .refl _ u, rfl⟩
  · rw [testSaturation_clears hx hdeg, saturationTold_none fun hs => absurd (hx.symm.trans hs.1) nofun]
    obtain ⟨hidle, hacts, hsame⟩ := (hput false).hand
    exact ⟨hidle, (acts_putTrain t _ u (by decide)).trans hacts, hsame.trans (congrArg Train.unshared (hown false))⟩
  · rw [testSaturation_sets hx hdeg, saturationTold_one hx hdeg]
    obtain ⟨hidle, hacts, hsame⟩ := ((hput true).raise .trainDegraded (some t.val) (some ((u.dry.trains[t]).degradedContribution : Int))).hand
    have hraise : Acts [.dry, .evq] u [degradedTold u t] (Machine.raise .trainDegraded (some t.val)
        (some ((u.dry.trains[t]).degradedContribution : Int)) (putTrain t ((u.dry.trains[t]).degrade true) u)) :=
      (acts_putTrain t _ u (by decide)).trans (acts_raise _ _ _ _ (by decide))
    exact ⟨hidle, hraise.trans hacts, hsame.trans (congrArg Train.unshared (hown true))⟩
  · rw [testSaturation_rests (hx.trans hdeg.symm), saturationTold_none (fun hs => absurd (hdeg.symm.trans hs.2) nofun), degrade_self hdeg]
    exact ⟨h, .refl _ u, rfl⟩

theorem Idle.flagged (h : Idle t s u) (k : Side) : Idle t s (Machine.flagged u t k) := by
  unfold Machine.flagged
  split
  · cases hdef : (u.dry.trains[t]).deferred
    · rw [deferSwap_clear u t k hdef]
      exact (h.put (x := (u.dry.trains[t]).defer true) h.out rfl).raise _ _ _
    · rw [deferSwap_set u t k hdef]
      exact h
  · exact h.put (x := (u.dry.trains[t]).defer false) h.out rfl

/-- What a test of a bed in a train that is OUT leaves. -/
theorem Idle.bedTest (h : Idle t s u) : Idle t s (Machine.bedTest handWithdrawal t u) := by
  dsimp only [Machine.bedTest]
  split
  · exact h
  · next k _ =>
    have hstay : Idle t s (if reachedSwap u.dry.trains[t] ((u.dry.trains[t]).bed k) then deferSwap t k u
        else putTrain t ((u.dry.trains[t]).defer false) u) := h.flagged k
    split
    · next hreach =>
      rw [if_pos hreach] at hstay
      split
      · exact (h.swapBeds k).1
      · exact (hstay.testSaturation k).1
    · next hreach =>
      rw [if_neg hreach] at hstay
      exact (hstay.testSaturation k).1

theorem Idle.bedTest_stays (h : Idle t s u) {k : Side} (hads : (u.dry.trains[t]).adsorbing = some k)
    (hstay : ¬(reachedSwap u.dry.trains[t] ((u.dry.trains[t]).bed k) = true ∧ ((u.dry.trains[t]).bed k.partner).state = .ready)) :
    Acts [.dry, .evq] u (flagTold u t k ++ saturationTold u t k) (Machine.bedTest handWithdrawal t u)
    ∧ ((Machine.bedTest handWithdrawal t u).dry.trains[t]).unshared = ((u.dry.trains[t]).stayed k).unshared := by
  obtain ⟨_, hacts, hsame⟩ := (h.flagged k).testSaturation k
  have htold : saturationTold (Machine.flagged u t k) t k = saturationTold u t k := by
    rw [saturationTold, saturationTold, saturated_flagged, degradedTold_flagged, flagged_train, defer_degraded]
  rw [htold] at hacts
  rw [saturated_flagged, flagged_train] at hsame
  rw [Machine.bedTest_stays u t hads hstay]
  exact ⟨(acts_flagged u t k).trans hacts, hsame⟩

end

/-! ### The other train while the direction stands (R99, R102) -/

/-- While the direction is `d` the record of train `j` has the property `Q`; else S is 0. -/
def whileDir (d : FlowDir) (j : Fin 2) (Q : Train → Prop) (u : State) : Prop :=
  u.flow.dir = d ∧ Q u.dry.trains[j] ∨ u.flow.dir ≠ d ∧ u.flow.setpoint = 0

section
variable {s : State} {d : FlowDir} {i j : Fin 2} {Q : Train → Prop}

/-- A direction that ends is another one, with S at 0. -/
theorem endAtZero_ends (s : State) : endAtZero s = s ∨ (endAtZero s).flow.dir ≠ s.flow.dir ∧ (endAtZero s).flow.setpoint = 0 := by
  have hkept := courseKept_endAtZero (s := s)
  have hhold : (enterDir .hold s).flow.dir = .hold := (enterDir_fields .hold).1.1
  have hturn : s.site.turnHold ≠ 0 → (enterTurnaround s).flow.dir = .turnaround := fun h => by rw [enterTurnaround_held h, turned_flow]
  have hchosen : s.site.turnHold = 0 → (enterTurnaround s).flow.dir = chosenDir s.flow.tRaw := fun h => by
    rw [enterTurnaround_expired h]
    exact (enterDir_fields _).1.1
  have hleave (hd : s.flow.dir ≠ .hold ∧ s.flow.dir ≠ .turnaround) (hc : s.flow.tRaw ≠ 0 → chosenDir s.flow.tRaw ≠ s.flow.dir) :
      (if s.flow.tRaw = 0 then enterDir .hold s else enterTurnaround s).flow.dir ≠ s.flow.dir := by
    split
    · rw [hhold]
      exact Ne.symm hd.1
    · next hz =>
      by_cases ht : s.site.turnHold = 0
      · rw [hchosen ht]
        exact hc hz
      · rw [hturn ht]
        exact Ne.symm hd.2
  dsimp only [endAtZero] at hkept ⊢
  cases hdir : s.flow.dir
  case hold => exact .inl rfl
  case turnaround => exact .inl rfl
  case injecting =>
    rw [hdir] at hkept hleave
    dsimp only at hkept ⊢
    by_cases hend : s.flow.setpoint = 0 ∧ s.flow.tRaw ≤ 0
    · rw [if_pos hend] at hkept ⊢
      refine .inr ⟨hleave ⟨nofun, nofun⟩ fun hz => ?_, hkept.setpoint.trans hend.1⟩
      rw [chosenDir, if_neg (by omega), if_pos (by omega)]
      nofun
    · rw [if_neg hend]
      exact .inl rfl
  case withdrawing =>
    rw [hdir] at hkept hleave
    dsimp only at hkept ⊢
    by_cases hend : s.flow.setpoint = 0 ∧ 0 ≤ s.flow.tRaw
    · rw [if_pos hend] at hkept ⊢
      refine .inr ⟨hleave ⟨nofun, nofun⟩ fun hz => ?_, hkept.setpoint.trans hend.1⟩
      rw [chosenDir, if_pos (by omega)]
      nofun
    · rw [if_neg hend]
      exact .inl rfl

variable (hQ : ShareFree Q)
include hQ

theorem whileDir_reshare (h : whileDir d j Q s) : whileDir d j Q (reshare s) := h.imp_left fun hs => ⟨hs.1, hQ.reshare hs.2⟩

omit hQ in
theorem whileDir_recut (h : whileDir d j Q s) : whileDir d j Q (recut s) := by
  rw [whileDir, (recut_plant s).2.2, recut_trains]
  exact h

theorem whileDir_receiveWdr (c : Nat) (h : whileDir d j Q s) : whileDir d j Q (receiveWdr c s) := by
  by_cases hcut : c < s.flow.cWdr ∧ s.flow.setpoint < -(c : Int)
  · rcases h with ⟨hdir, hq⟩ | ⟨_, hz⟩
    · rw [receiveWdr_cut hcut, stepCut_eq]
      have hat : (atCut (-(c : Int)) (s.setFlow (limitT { s.flow with cWdr := c }))).flow.dir = d := hdir
      have hrow : Q (atCut (-(c : Int)) (s.setFlow (limitT { s.flow with cWdr := c }))).dry.trains[j] := hQ.reshare hq
      rcases endAtZero_ends (atCut (-(c : Int)) (s.setFlow (limitT { s.flow with cWdr := c }))) with he | ⟨hne, hz⟩
      · rw [he]
        exact .inl ⟨hat, hrow⟩
      · exact .inr ⟨hat ▸ hne, hz⟩
    · omega
  · rw [receiveWdr_rest hcut]
    exact h

theorem whileDir_hand (h : whileDir d j Q s) : whileDir d j Q (handWithdrawal s) :=
  handWithdrawal_preserves (whileDir d j Q) s (fun _ hu => whileDir_recut hu) (fun c _ hu => whileDir_receiveWdr hQ c hu)
    (fun _ hu => whileDir_reshare hQ hu) (fun _ _ hu => hu) h

omit hQ in
theorem whileDir_putTrain (hi : i ≠ j) (x : Train) (h : whileDir d j Q s) : whileDir d j Q (putTrain i x s) := by
  rw [whileDir, putTrain_other x hi]
  exact h

theorem whileDirTrain (hi : i ≠ j) : TrainKept handWithdrawal i (whileDir d j Q) (whileDir d j Q) where
  raise _ _ _ _ _ _ h := h
  quiet _ _ _ _ _ h := whileDir_putTrain hi _ h
  leave _ _ _ _ h := whileDir_hand hQ (whileDir_reshare hQ (whileDir_putTrain hi _ h))
  join _ _ _ _ _ h := whileDir_reshare hQ (whileDir_putTrain hi _ h)
  reshare _ h := whileDir_reshare hQ h
  weaken _ h := h
  raiseB _ _ _ _ _ h := h
  moveB _ _ _ h := whileDir_putTrain hi _ h
  move _ _ _ _ _ _ h := whileDir_putTrain hi _ h
  handed _ h := whileDir_hand hQ h

end

end Sys2Proof.Machine
end

section
/-! SUPPORT. The train requests (R140, R151, R156): O49. -/

namespace Sys2Proof.Machine

/-! ### TRAIN SET (R156) -/

section
variable {s : State} {b : Block} {i : Fin 2}

/-- A train as TRAIN SET gives it, its bed capacity formed. -/
def Train.configure (x : Train) (c : TrainCfg) (cap : Nat) : Train := { x with configured := true, cfg := c, bedCap := cap }

theorem formBedCap_configured {x : Train} {c : TrainCfg} {k : Fin 16} (hk : c.curve = some k) :
    formBedCap s { x with configured := true, cfg := c } = x.configure c (evalCurve s.curves[k] x.temp) := by
  rw [formBedCap, Train.configure]
  simp only [hk, if_true]

/-- The train's record put and its bed tested. -/
def setAndTest (i : Fin 2) (v : Train) (u : State) : State := bedTest handWithdrawal i (putTrain i v u)

theorem gathered_setAndTest (v : Train) : gathered (bedTest handWithdrawal i) (putTrain i v s) = gathered (setAndTest i v) s := rfl

theorem reqTrainSet_taken {k : Fin 16} (hs : s.plain) (hi : fieldW b 0 = i.val) (hlen : b.length = 17)
    (hout : (s.dry.trains[i]).state = .out) (hrange : trainCfgInRange (trainCfgOf b 1) = true)
    (hwarn : (trainCfgOf b 1).warn < (trainCfgOf b 1).spec) (hk : fieldW b 4 = k.val) (hw : s.curves[k] ≠ []) :
    reqTrainSet b s = taken (out1 i.val
        ++ out1 ((gathered (setAndTest i ((s.dry.trains[i]).configure (trainCfgOf b 1) (evalCurve s.curves[k] (s.dry.trains[i]).temp))) s).dry.trains[i]).state.code
        ++ out1 ((gathered (setAndTest i ((s.dry.trains[i]).configure (trainCfgOf b 1) (evalCurve s.curves[k] (s.dry.trains[i]).temp))) s).dry.trains[i]).bedCap)
      (gathered (setAndTest i ((s.dry.trains[i]).configure (trainCfgOf b 1) (evalCurve s.curves[k] (s.dry.trains[i]).temp))) s) := by
  have hmodes : firstFailure (modeChecks (b.length == 17) s) = none := firstFailure_none.mpr (modeChecks_hold hs (by simp [hlen]))
  have hcurve : (trainCfgOf b 1).curve = some k := fieldFin_eq_some hk
  dsimp only [reqTrainSet]
  rw [hmodes]
  dsimp only
  rw [fieldFin_eq_some hi]
  dsimp only
  rw [checked_passed]
  · dsimp only [trainSetEffect]
    rw [formBedCap_configured hcurve, gathered_setAndTest]
  · have hnames : namesWritten s b 4 = true := by rw [namesWritten_eq, hk, writtenId_fin]; simpa [curveWritten] using hw
    simpa [hrange, hwarn, hnames] using hout

end

/-- What TRAIN SET leaves of a train that is OUT. -/
structure TrainSet (i : Fin 2) (v : Train) (s t : State) : Prop where
  idle : Idle i s t
  inj : injCurrent s → injCurrent t
  parts : s.changesOnly [.dry, .evq] t
  rests : v.adsorbing = none → (t.dry.trains[i]).body = v.body ∧ t.evq = s.evq
  swaps : ∀ k, v.adsorbing = some k → reachedSwap v (v.bed k) = true → (v.bed k.partner).state = .ready →
    (t.dry.trains[i]).body = (v.swapped k).body ∧ (t.dry.trains[i]).mask = v.cfg.maskChoice ∧ t.evq = s.evq.pushAll [swapTold s i k.partner]
  stays : ∀ k, v.adsorbing = some k → ¬(reachedSwap v (v.bed k) = true ∧ (v.bed k.partner).state = .ready) →
    (t.dry.trains[i]).unshared = (v.stayed k).unshared
    ∧ t.evq = s.evq.pushAll ((if reachedSwap v (v.bed k) = true ∧ v.deferred = false then
        [⟨gasTime s, .bedSwapDeferred, some i.val, some (bedPermille v (v.bed k) : Int)⟩] else [])
      ++ if v.saturated k = true ∧ v.degraded = false then
        [⟨gasTime s, .trainDegraded, some i.val, some (v.degradedContribution : Int)⟩] else [])

section
variable {s : State} {i : Fin 2} {v : Train}

theorem flagTold_source (u : State) (k : Side) : ∀ e ∈ flagTold u i k ++ saturationTold u i k, e.kind.source = .dryingSupervisor := by
  intro e he
  rcases List.mem_append.mp he with he | he
  · rw [flagTold] at he
    split at he
    · rw [List.mem_singleton.mp he]
      rfl
    · exact absurd he List.not_mem_nil
  · rw [saturationTold] at he
    split at he
    · rw [List.mem_singleton.mp he]
      rfl
    · exact absurd he List.not_mem_nil

theorem flagTold_put (k : Side) : flagTold (putTrain i v s) i k = if reachedSwap v (v.bed k) = true ∧ v.deferred = false then
    [⟨gasTime s, .bedSwapDeferred, some i.val, some (bedPermille v (v.bed k) : Int)⟩] else [] := by
  rw [flagTold, deferTold, putTrain_own]
  rfl

theorem saturationTold_put (k : Side) : saturationTold (putTrain i v s) i k = if v.saturated k = true ∧ v.degraded = false then
    [⟨gasTime s, .trainDegraded, some i.val, some (v.degradedContribution : Int)⟩] else [] := by
  rw [saturationTold, degradedTold, putTrain_own]
  rfl

/-- The events of a test in a train that is OUT. -/
theorem acts_setAndTest {l : List Raised} (h : Acts [.dry, .evq] (putTrain i v s.gatheringEvents) l (setAndTest i v s.gatheringEvents))
    (hl : ∀ e ∈ l, e.kind.source = .dryingSupervisor) : Acts [.dry, .evq] s l (gathered (setAndTest i v) s) :=
  ((acts_putTrain i v s.gatheringEvents (by decide)).trans h).gathered_one (by decide) hl

theorem trainSet_spec (hcur : wdrCurrent s) (hout : (s.dry.trains[i]).state = .out) (hv : v.state = .out)
    (hshare : v.share = (s.dry.trains[i]).share) : TrainSet i v s (gathered (setAndTest i v) s) := by
  have hput : Idle i s.gatheringEvents (putTrain i v s.gatheringEvents) := (Idle.refl (s := s.gatheringEvents) hcur hout).put hv hshare
  have hown := putTrain_own (s := s.gatheringEvents) (t := i) v
  have hnone (h : v.adsorbing = none) : setAndTest i v s.gatheringEvents = putTrain i v s.gatheringEvents :=
    bedTest_none _ _ (by rw [hown]; exact h)
  have hswap (k : Side) (h : v.adsorbing = some k) (hreach : reachedSwap v (v.bed k) = true) (hready : (v.bed k.partner).state = .ready) :
      setAndTest i v s.gatheringEvents = swapBeds handWithdrawal i k (putTrain i v s.gatheringEvents) :=
    bedTest_swaps _ _ (by rw [hown]; exact h) (by rw [hown]; exact hreach) (by rw [hown]; exact hready)
  have hswapped (k : Side) (h : v.adsorbing = some k) (hreach : reachedSwap v (v.bed k) = true) (hready : (v.bed k.partner).state = .ready) :
      Acts [.dry, .evq] s [swapTold s i k.partner] (gathered (setAndTest i v) s) := by
    refine acts_setAndTest ?_ fun e he => by rw [List.mem_singleton.mp he]; rfl
    rw [hswap k h hreach hready]
    exact (hput.swapBeds k).2
  have hstayed (k : Side) (h : v.adsorbing = some k) (hstay : ¬(reachedSwap v (v.bed k) = true ∧ (v.bed k.partner).state = .ready)) :
      Acts [.dry, .evq] s (flagTold (putTrain i v s.gatheringEvents) i k ++ saturationTold (putTrain i v s.gatheringEvents) i k)
        (gathered (setAndTest i v) s)
      ∧ ((gathered (setAndTest i v) s).dry.trains[i]).unshared = (v.stayed k).unshared := by
    obtain ⟨hacts, hsame⟩ := hput.bedTest_stays (k := k) (by rw [hown]; exact h) (by rw [hown]; exact hstay)
    rw [hown] at hsame
    exact ⟨acts_setAndTest hacts (flagTold_source _ k), hsame⟩
  refine ⟨⟨hput.bedTest.current, hput.bedTest.out, hput.bedTest.others, hput.bedTest.stand⟩, fun hinj => ?_, ?_, fun h => ?_,
    fun k h hreach hready => ?_, fun k h hstay => ?_⟩
  · exact (injTrain (fun _ hu => injCurrent_handWithdrawal hu) i).bedTest (s := putTrain i v s.gatheringEvents) hinj
  · cases h : v.adsorbing with
    | none =>
      rw [gathered_setDry (hnone h)]
      exact (acts_setDry (ps := [.dry, .evq]) s _ (by decide)).parts
    | some k =>
      by_cases hstay : reachedSwap v (v.bed k) = true ∧ (v.bed k.partner).state = .ready
      · exact (hswapped k h hstay.1 hstay.2).parts
      · exact (hstayed k h hstay).1.parts
  · rw [gathered_setDry (hnone h)]
    exact ⟨congrArg Train.body hown, rfl⟩
  · obtain ⟨hbody, _⟩ := swapBeds_spec handFree_withdrawal (putTrain i v s.gatheringEvents) i k
    rw [hown] at hbody
    have hmask : hasMasked i (v.swapped k) (gathered (setAndTest i v) s) := by
      refine hasMasked_of_trains (s := setAndTest i v s.gatheringEvents) rfl ?_
      rw [hswap k h hreach hready]
      exact hbody
    refine ⟨hmask.1, ?_, (hswapped k h hreach hready).told⟩
    rw [hmask.2, swapped_cfg]
  · obtain ⟨hacts, hsame⟩ := hstayed k h hstay
    have hevq := hacts.told
    rw [flagTold_put, saturationTold_put] at hevq
    exact ⟨hsame, hevq⟩

end

end Sys2Proof.Machine
end

section
/-! SUPPORT. A train taken out of service, and one brought in (R140, R141, R151): O49. -/

namespace Sys2Proof.Machine

/-! ### TRAIN SERVICE, out (R140) -/

section
variable {s : State} {b : Block} {i : Fin 2}

theorem gathered_put {f : State → State} (v : Train) : gathered f (putTrain i v s) = gathered (fun u => f (putTrain i v u)) s := rfl

theorem gathered_injCurrent {f : State → State} (h : injCurrent (f s.gatheringEvents)) : injCurrent (gathered f s) := h

theorem gathered_hasBody {f : State → State} {x : Train} (h : hasBody i x (f s.gatheringEvents)) : hasBody i x (gathered f s) := h

theorem gathered_hasMasked {f : State → State} {x : Train} (h : hasMasked i x (f s.gatheringEvents)) : hasMasked i x (gathered f s) := h

theorem gathered_whileDir {f : State → State} {d : FlowDir} {Q : Train → Prop} (h : whileDir d i Q (f s.gatheringEvents)) :
    whileDir d i Q (gathered f s) := h

/-- A train that leaves service. -/
def Train.outOfService (x : Train) : Train := { x with state := .out, service := false, share := 0, excursion := none, recovery := none }

/-- A train's record put and the capacity handed on. -/
def putAndHandWithdrawal (i : Fin 2) (v : Train) (u : State) : State := handWithdrawal (putTrain i v u)

theorem reqTrainService_out (hs : s.plain) (hi : fieldW b 0 = i.val) (hlen : b.length = 2) (h : fieldW b 1 = 0) :
    reqTrainService b s = serviceOut i s := by
  have hmodes : firstFailure (modeChecks (b.length == 2) s) = none := firstFailure_none.mpr (modeChecks_hold hs (by simp [hlen]))
  dsimp only [reqTrainService]
  rw [hmodes]
  dsimp only
  rw [fieldFin_eq_some hi, h]
  rfl

theorem reqTrainService_in (hs : s.plain) (hi : fieldW b 0 = i.val) (hlen : b.length = 2) (h : fieldW b 1 = 1) :
    reqTrainService b s = serviceIn i s := by
  have hmodes : firstFailure (modeChecks (b.length == 2) s) = none := firstFailure_none.mpr (modeChecks_hold hs (by simp [hlen]))
  dsimp only [reqTrainService]
  rw [hmodes]
  dsimp only
  rw [fieldFin_eq_some hi, h]
  rfl

theorem serviceOut_again (h : (s.dry.trains[i]).state = .out) : serviceOut i s = taken (out1 0) s := by
  dsimp only [serviceOut]
  rw [h]
  rfl

theorem serviceOut_leaves (h : (s.dry.trains[i]).state ≠ .out) :
    serviceOut i s = taken (out1 0) (gathered (putAndHandWithdrawal i (s.dry.trains[i]).outOfService) s) := by
  dsimp only [serviceOut]
  rw [if_neg (by simpa using h)]
  rfl

/-- A train that enters service. -/
def Train.inStandby (x : Train) : Train := { x with state := .standby, service := true }

/-- The train put into STANDBY, and what follows (R140). -/
def putAndEnter (i : Fin 2) (v : Train) (u : State) : State := enterService i (putTrain i v u)

theorem gathered_enterService (v : Train) : gathered (enterService i) (putTrain i v s) = gathered (putAndEnter i v) s := gathered_put v

theorem serviceIn_enters (h : (s.dry.trains[i]).state = .out) (hconf : (s.dry.trains[i]).configured = true) :
    serviceIn i s = taken (out1 ((gathered (putAndEnter i (s.dry.trains[i]).inStandby) s).dry.trains[i]).state.code)
      (gathered (putAndEnter i (s.dry.trains[i]).inStandby) s) := by
  dsimp only [serviceIn]
  rw [if_pos (by simpa using ⟨h, hconf⟩), gathered_enterService]
  rfl

theorem serviceIn_refused (h : ¬((s.dry.trains[i]).state = .out ∧ (s.dry.trains[i]).configured = true)) : serviceIn i s = refuse .state s := by
  dsimp only [serviceIn]
  rw [if_neg (by simpa using h)]

end

/-! ### What both leave -/

/-- What a train that leaves or enters service leaves of the part. -/
structure ServiceRow (s t : State) : Prop where
  current : capacitiesCurrent s = true → capacitiesCurrent t = true
  follows : recutFollows s t
  parts : s.changesOnly [.world, .dry, .flow, .sched, .evq] t

section
variable {s : State} {i j : Fin 2} {v : Train}

theorem sparesOther {t : State} (hdir : t.flow.dir = s.flow.dir)
    (h : whileDir s.flow.dir j (fun y => y.unshared = (s.dry.trains[j]).unshared) t) :
    t.dry.trains[j] = { s.dry.trains[j] with share := (t.dry.trains[j]).share } := by
  rcases h with ⟨_, hq⟩ | ⟨hne, _⟩
  · exact of_unshared hq
  · exact absurd hdir hne

theorem whileDir_start (hj : j ≠ i) : whileDir s.flow.dir j (fun y => y.unshared = (s.dry.trains[j]).unshared) (putTrain i v s) :=
  .inl ⟨rfl, by rw [putTrain_other v (Ne.symm hj)]⟩

theorem putTrain_recutsSince (u : State) : recutsSince u (putTrain i v u) :=
  recutsSince_of_acts (acts_putTrain (ps := [.dry]) i v u (by decide)) (by decide) (by decide) rfl rfl

theorem does_put (u : State) : Does flowParts u (putTrain i v u) := (acts_putTrain i v u (by decide)).does

/-- What a train that leaves service leaves. -/
theorem leaveRow : ServiceRow s (gathered (putAndHandWithdrawal i v) s) := by
  refine ⟨fun hcur => ?_, gathered_recutFlow fun u => recutsSince_handWithdrawal (putTrain_recutsSince u), ?_⟩
  · have hinj : injCurrent (putTrain i v s.gatheringEvents) := ((capacitiesCurrent_iff s).mp hcur).1
    exact (capacitiesCurrent_iff _).mpr ⟨injCurrent_handWithdrawal hinj, wdrCurrent_handWithdrawal (putTrain i v s.gatheringEvents)⟩
  · exact gathered_drying (f := putAndHandWithdrawal i v)
      ((does_put s.gatheringEvents).trans (does_handWithdrawal (List.Subset.refl flowParts) _))

theorem leave_train (hv : v.inService = false) : ((gathered (putAndHandWithdrawal i v) s).dry.trains[i]).unshared = v.unshared := by
  have hown := putTrain_own (s := s.gatheringEvents) (t := i) v
  have hhand := unshared_hand (s := putTrain i v s.gatheringEvents) (t := i) (by rw [hown]; exact hv)
  rw [hown] at hhand
  exact hhand

theorem leave_share (hv : v.state = .out) : ((gathered (putAndHandWithdrawal i v) s).dry.trains[i]).share = 0 := by
  have hrow := leave_train (s := s) (i := i) (v := v) (by rw [Train.inService, hv]; rfl)
  have hstate := congrArg Train.state hrow
  exact share_out (s := handWithdrawal (putTrain i v s.gatheringEvents)) (sharesStand_handWithdrawal _) (hstate.trans hv)

theorem leave_other (hj : j ≠ i) (hdir : (gathered (putAndHandWithdrawal i v) s).flow.dir = s.flow.dir) :
    (gathered (putAndHandWithdrawal i v) s).dry.trains[j] =
      { s.dry.trains[j] with share := ((gathered (putAndHandWithdrawal i v) s).dry.trains[j]).share } :=
  sparesOther (t := gathered (putAndHandWithdrawal i v) s) hdir
    (whileDir_hand (shareFree_unshared _) (whileDir_start (s := s.gatheringEvents) hj))

/-! ### TRAIN SERVICE, in (R140, R141, R151) -/

theorem does_enterService (u : State) : Does flowParts u (enterService i u) := (flowTrain u i).enterService (.refl _ u)

/-- What a train that enters service leaves. -/
theorem enterRow : ServiceRow s (gathered (putAndEnter i v) s) := by
  refine ⟨fun hcur => ?_, gathered_recutFlow fun u => (recutTrain u i).enterService (putTrain_recutsSince u), ?_⟩
  · have hinj : injCurrent (putTrain i v s.gatheringEvents) := ((capacitiesCurrent_iff s).mp hcur).1
    have hinj' := gathered_injCurrent (f := putAndEnter i v) ((injTrain (fun _ hu => injCurrent_handWithdrawal hu) i).enterService hinj)
    have hwdr := gathered_wdrCurrent (f := putAndEnter i v)
      (wdrCurrent_handWithdrawal (bringOnline handWithdrawal i (takeUp handWithdrawal i (putTrain i v s.gatheringEvents))))
    exact (capacitiesCurrent_iff _).mpr ⟨hinj', hwdr⟩
  · exact gathered_drying (f := putAndEnter i v) ((does_put s.gatheringEvents).trans (does_enterService _))

theorem enter_other (hj : j ≠ i) (hdir : (gathered (putAndEnter i v) s).flow.dir = s.flow.dir) :
    (gathered (putAndEnter i v) s).dry.trains[j] =
      { s.dry.trains[j] with share := ((gathered (putAndEnter i v) s).dry.trains[j]).share } :=
  sparesOther (t := gathered (putAndEnter i v) s) hdir (gathered_whileDir (f := putAndEnter i v)
    ((whileDirTrain (shareFree_unshared _) (Ne.symm hj)).enterService (whileDir_start (s := s.gatheringEvents) hj)))

/-! #### Its beds -/

/-- The rest of entering service, after a bed is taken up. -/
def entered (i : Fin 2) (u : State) : State := handWithdrawal (bringOnline handWithdrawal i u)

theorem enterService_eq (u : State) : enterService i u = entered i (takeUp handWithdrawal i u) := rfl

theorem entered_keeps {P : State → Prop} (hP : FlowFree P) {u : State} (h : P u) : P (entered i u) :=
  hP.handWithdrawal ((hP.dew i).bringOnline h)

/-- The record of a train that enters service without taking a bed up keeps its body. -/
theorem enter_body (h : takeUp handWithdrawal i (putTrain i v s.gatheringEvents) = putTrain i v s.gatheringEvents) :
    hasBody i v (gathered (putAndEnter i v) s) := by
  have hput : hasBody i v (putTrain i v s.gatheringEvents) := congrArg Train.body (putTrain_own v)
  have hend : hasBody i v (putAndEnter i v s.gatheringEvents) := by
    rw [putAndEnter, enterService_eq, h]
    exact entered_keeps (bodyFree i v) hput
  exact gathered_hasBody hend

/-- One that takes up its bed `k` adsorbs with it, its mask loaded. -/
theorem enter_takes {k : Side} (hout : v.state ≠ .out) (hnone : v.adsorbing = none) (hready : v.readyBed = some k) :
    hasMasked i (v.takenUp k) (gathered (putAndEnter i v) s) ∧ toldBetween s (gathered (putAndEnter i v) s) [swapTold s i k] := by
  have hown := putTrain_own (s := s.gatheringEvents) (t := i) v
  have htake : takeUp handWithdrawal i (putTrain i v s.gatheringEvents) = takeUpBed handWithdrawal i k (putTrain i v s.gatheringEvents) :=
    takeUp_takes _ _ (by rw [hown]; exact hout) (by rw [hown]; exact hnone) (by rw [hown]; exact hready)
  obtain ⟨hbody, htold⟩ := takeUpBed_spec handFree_withdrawal (putTrain i v s.gatheringEvents) i k
  rw [hown] at hbody
  have hmask : hasMasked i (v.takenUp k) (putAndEnter i v s.gatheringEvents) := by
    rw [putAndEnter, enterService_eq, htake]
    exact entered_keeps (maskedFree i _) hbody
  have hend : toldBetween s.gatheringEvents (putAndEnter i v s.gatheringEvents) [swapTold s i k] := by
    rw [putAndEnter, enterService_eq, htake]
    have hafter : Does flowParts (takeUpBed handWithdrawal i k (putTrain i v s.gatheringEvents))
        (entered i (takeUpBed handWithdrawal i k (putTrain i v s.gatheringEvents))) :=
      entered_keeps (flowFree_of_subset (List.Subset.refl flowParts) _) (.refl _ _)
    exact (htold.after hafter).before (does_put s.gatheringEvents)
  exact ⟨gathered_hasMasked hmask, toldBetween_gathered (b := .dryingSupervisor) hend fun e he => by rw [List.mem_singleton.mp he]; rfl⟩

end

end Sys2Proof.Machine
end

section
/-! SUPPORT. The state and the mask of a train that enters service, which cuts no S (R140, R141, R152): O49. -/

namespace Sys2Proof.Machine

/-! ### A train that is not OUT stays so (R140) -/

/-- Train `t` is not OUT. -/
def notOut (t : Fin 2) (s : State) : Prop := (s.dry.trains[t]).state ≠ .out

section
variable {s u : State} {t i : Fin 2}

theorem notOut_of_trains (h : u.dry.trains[t] = s.dry.trains[t]) (hs : notOut t s) : notOut t u := by
  rw [notOut, h]
  exact hs

theorem notOut_reshare (h : notOut t s) : notOut t (reshare s) := by
  rw [notOut, reshare_trains]
  exact h

theorem notOut_putTrain {x : Train} (hx : i = t → x.state ≠ .out) (h : notOut t s) : notOut t (putTrain i x s) := by
  rw [notOut, putTrain_trains]
  split
  · next hi => exact hx hi
  · exact h

theorem notOutDew {hand : Hand} (hhand : ∀ u, notOut t u → notOut t (hand u)) (i : Fin 2) : DewKept hand i (notOut t) where
  raise _ _ _ _ _ _ h := h
  quiet s x _ hstate _ h := notOut_putTrain (fun hi => by rw [hstate, hi]; exact h) h
  leave s x _ hx h := hhand _ (notOut_reshare (notOut_putTrain (fun _ => hx) h))
  join s x _ _ honline h := notOut_reshare (notOut_putTrain (fun _ => by rw [honline]; nofun) h)
  reshare _ h := notOut_reshare h

theorem notOut_sendStandby (i : Fin 2) (h : notOut t s) : notOut t (sendStandby i s) := by
  dsimp only [sendStandby]
  split
  · exact notOut_putTrain (fun _ => nofun) h
  · exact h

theorem notOut_handAtZero (h : notOut t s) : notOut t (handWithdrawalAtZero s) := by
  rw [notOut, handAtZero_trains]
  exact h

theorem notOutFlow : FlowKept (notOut t) (notOut t) where
  weaken _ h := h
  raise _ _ _ _ _ _ h := h
  setFlow _ _ _ _ h := h
  quiet _ _ _ _ _ _ h := h
  follow _ h := followDirection_kept (fun i => notOutDew (fun _ hu => notOut_handAtZero hu) i)
    (fun _ hu => notOut_reshare (notOut_sendStandby 1 (notOut_sendStandby 0 hu))) h
  reshare _ h := notOut_reshare h

theorem notOut_hand (h : notOut t s) : notOut t (handWithdrawal s) :=
  handWithdrawal_preserves (notOut t) s (fun u hu => notOut_of_trains (by rw [recut_trains]) hu) (fun c _ hu => notOutFlow.receiveWdr c hu)
    (fun _ hu => notOut_reshare hu) (fun _ _ hu => hu) h

theorem notOutDrying (t i : Fin 2) : DewKept handWithdrawal i (notOut t) := notOutDew (fun _ hu => notOut_hand hu) i

theorem notOut_takeUp (h : notOut t s) : notOut t (takeUp handWithdrawal t s) := by
  have hput (k : Side) : notOut t (putTrain t ((s.dry.trains[t]).takenUp k) s) := notOut_putTrain (fun _ => by cases k <;> exact h) h
  have htake (k : Side) : notOut t (takeUpBed handWithdrawal t k s) := by
    have hhanded : notOut t (if (s.dry.trains[t]).degraded then handWithdrawal (putTrain t ((s.dry.trains[t]).takenUp k) s)
        else putTrain t ((s.dry.trains[t]).takenUp k) s) := by
      split
      · exact notOut_hand (hput k)
      · exact hput k
    exact (notOutDrying t t).loadMask hhanded
  dsimp only [takeUp]
  split
  · exact h
  · split
    · exact htake _
    · exact h

theorem enter_notOut {v : Train} (hv : v.state ≠ .out) : notOut t (gathered (putAndEnter t v) s) := by
  have hput : notOut t (putTrain t v s.gatheringEvents) := by
    rw [notOut, putTrain_own]
    exact hv
  have hend : notOut t (putAndEnter t v s.gatheringEvents) := notOut_hand ((notOutDrying t t).bringOnline (notOut_takeUp hput))
  exact fun h => hend h

/-! ### The capacity only rises (R99, R142) -/

/-- A train that is OUT adds nothing: any state with the other's part has no less capacity. -/
theorem withdrawalCapacity_le_of_out (hout : (s.dry.trains[t]).state = .out) (hsite : u.site = s.site)
    (hother : ∀ k ≠ t, (u.dry.trains[k]).figure = (s.dry.trains[k]).figure) : withdrawalCapacity s ≤ withdrawalCapacity u := by
  rw [withdrawalCapacity_eq, withdrawalCapacity_eq, hsite]
  have hnone := figure_out hout
  fin_cases t
  · have h1 := hother 1 (by decide)
    have h0 : (s.dry.trains[(0 : Fin 2)]).figure = 0 := hnone
    omega
  · have h0 := hother 0 (by decide)
    have h1 : (s.dry.trains[(1 : Fin 2)]).figure = 0 := hnone
    omega

/-- A train enters service: the direction and S are as they were, and no capacity handed on can cut S. -/
structure Entering (t : Fin 2) (s u : State) : Prop where
  course : u.flow.course = s.flow.course
  held : u.flow.cWdr ≤ withdrawalCapacity u

theorem Entering.put {x : Train} (h : Entering t s u) (hx : (u.dry.trains[t]).figure ≤ x.figure) : Entering t s (putTrain t x u) :=
  ⟨h.course, Nat.le_trans h.held (withdrawalCapacity_putTrain_le hx)⟩

theorem Entering.reshare (h : Entering t s u) : Entering t s (reshare u) :=
  ⟨h.course, by rw [withdrawalCapacity_reshare]; exact h.held⟩

theorem Entering.raise (k : EventKind) (a : Option Nat) (b : Option Int) (h : Entering t s u) : Entering t s (Machine.raise k a b u) :=
  ⟨h.course, h.held⟩

theorem Entering.hand (h : Entering t s u) : Entering t s (handWithdrawal u) ∧ Handed u (handWithdrawal u) := by
  have hhanded := handed_of_calm (calm_of_le h.held)
  have hcur := wdrCurrent_handWithdrawal u
  exact ⟨⟨hhanded.course.trans h.course, Nat.le_of_eq (hcur.2.trans hcur.1)⟩, hhanded⟩

theorem masked_figure (x : Train) : x.masked.figure = x.figure := by
  unfold Train.masked
  split <;> rfl

theorem Entering.mask (h : Entering t s u) : Entering t s (putTrain t (u.dry.trains[t]).masked u) := h.put (masked_figure _).ge

/-- A bed taken up by a train in STANDBY. -/
theorem Entering.takeUp {v : Train} (hcur : wdrCurrent s) (hout : (s.dry.trains[t]).state = .out) (hv : v.state = .standby) :
    Entering t s (takeUp handWithdrawal t (putTrain t v s)) ∧ ((takeUp handWithdrawal t (putTrain t v s)).dry.trains[t]).state = .standby := by
  have hown := putTrain_own (s := s) (t := t) v
  have hput (x : Train) : Entering t s (putTrain t x s) := by
    refine ⟨rfl, Nat.le_trans (Nat.le_of_eq (hcur.2.trans hcur.1)) (withdrawalCapacity_le_of_out hout rfl fun k hk => ?_)⟩
    rw [putTrain_other x (Ne.symm hk)]
  have htake (k : Side) : Entering t s (takeUpBed handWithdrawal t k (putTrain t v s))
      ∧ ((takeUpBed handWithdrawal t k (putTrain t v s)).dry.trains[t]).state = .standby := by
    have htaken : (v.takenUp k).state = .standby := by cases k <;> exact hv
    have hbed : putTrain t ((putTrain t v s).dry.trains[t].takenUp k) (putTrain t v s) = putTrain t (v.takenUp k) s := by
      rw [hown]
      exact congrArg s.setDry (putTrain_putTrain t v (v.takenUp k) s)
    have hhanded : Entering t s (if v.degraded then handWithdrawal (putTrain t (v.takenUp k) s) else putTrain t (v.takenUp k) s)
        ∧ ((if v.degraded then handWithdrawal (putTrain t (v.takenUp k) s) else putTrain t (v.takenUp k) s).dry.trains[t]).state = .standby := by
      split
      · obtain ⟨hent, hsame⟩ := (hput (v.takenUp k)).hand
        have hstate := congrArg Train.state (hsame.trains t)
        exact ⟨hent, hstate.trans (by rw [putTrain_own]; exact htaken)⟩
      · exact ⟨hput _, by rw [putTrain_own]; exact htaken⟩
    have heq : takeUpBed handWithdrawal t k (putTrain t v s) = Machine.raise .bedSwap (some t.val) (some (bedIndex t k : Int))
        (loadMask handWithdrawal t (if v.degraded then handWithdrawal (putTrain t (v.takenUp k) s) else putTrain t (v.takenUp k) s)) := by
      rw [← hbed]
      unfold takeUpBed
      rw [hown]
      rfl
    obtain ⟨hent, hstate⟩ := hhanded
    rw [heq, loadMask_idle (by rw [hstate]; nofun) (by rw [hstate]; nofun)]
    refine ⟨hent.mask.raise _ _ _, ?_⟩
    exact (congrArg Train.state (putTrain_own _)).trans ((Train.masked_keeps _).1.trans hstate)
  have hnone : Entering t s (putTrain t v s) ∧ ((putTrain t v s).dry.trains[t]).state = .standby := ⟨hput v, by rw [hown]; exact hv⟩
  dsimp only [Machine.takeUp]
  split
  · exact hnone
  · split
    · exact htake _
    · exact hnone

/-- A train that comes ONLINE. -/
def Train.onlined (x : Train) : Train := { x with state := .online }

theorem loadMask_choice {hand : Hand} (h : (u.dry.trains[t]).cfg.maskChoice ≠ 0) : loadMask hand t u = putTrain t (u.dry.trains[t]).masked u :=
  if_neg h

theorem bringOnline_standby {hand : Hand} (hstate : (u.dry.trains[t]).state = .standby) (hdir : u.flow.dir = .withdrawing) :
    bringOnline hand t u = loadMask hand t (Machine.reshare (putTrain t (u.dry.trains[t]).onlined u)) := by
  dsimp only [bringOnline]
  rw [hstate, hdir]
  rfl

theorem bringOnline_elsewhere {hand : Hand} (hdir : u.flow.dir ≠ .withdrawing) : bringOnline hand t u = u := by
  rw [bringOnline, beq_false_of_ne hdir, Bool.and_false]
  rfl

/-- The end of entering service: STANDBY where the part does not withdraw, else ONLINE with the mask loaded. -/
theorem Entering.enters (h : Entering t s u) (hstate : (u.dry.trains[t]).state = .standby) :
    (s.flow.dir ≠ .withdrawing → ((entered t u).dry.trains[t]).state = .standby)
    ∧ (s.flow.dir = .withdrawing → (u.dry.trains[t]).cfg.maskChoice ≠ 0 →
      ((entered t u).dry.trains[t]).state = .online ∧ ((entered t u).dry.trains[t]).mask = (u.dry.trains[t]).cfg.maskChoice) := by
  have hdir : u.flow.dir = s.flow.dir := (course_fields h.course).1.1
  constructor
  · intro hne
    have hrow := congrArg Train.state (h.hand.2.trains t)
    rw [entered, bringOnline_elsewhere (by rw [hdir]; exact hne)]
    exact hrow.trans hstate
  · intro hwdr hchoice
    have hown : (Machine.reshare (putTrain t (u.dry.trains[t]).onlined u)).dry.trains[t] =
        { (u.dry.trains[t]).onlined with share := ((Machine.reshare (putTrain t (u.dry.trains[t]).onlined u)).dry.trains[t]).share } :=
      of_unshared (by rw [unshared_reshare, putTrain_own])
    have hjoin : Entering t s (Machine.reshare (putTrain t (u.dry.trains[t]).onlined u)) := by
      refine (h.put ?_).reshare
      rw [Train.figure, Train.figure, Train.inService, hstate]
      exact Nat.le_refl _
    have hcfg := congrArg Train.cfg hown
    have honline := congrArg Train.state hown
    have hrow := hjoin.mask.hand.2.trains t
    rw [putTrain_own] at hrow
    have hst := congrArg Train.state hrow
    have hmask := congrArg Train.mask hrow
    have hchoice' : ((Machine.reshare (putTrain t (u.dry.trains[t]).onlined u)).dry.trains[t]).cfg.maskChoice ≠ 0 := by
      rw [hcfg]
      exact hchoice
    rw [entered, bringOnline_standby hstate (hdir.trans hwdr), loadMask_choice hchoice']
    refine ⟨hst.trans ((Train.masked_keeps _).1.trans honline), hmask.trans ((masked_mask _).trans ?_)⟩
    rw [hcfg]
    rfl

end

end Sys2Proof.Machine
end

section
/-! SUPPORT. The requests to a train settled (R140, R142, R156): O49. -/

namespace Sys2Proof.Machine

/-! ### TRAIN SET (R156) -/

section
variable (x : Train) (c : TrainCfg) (cap : Nat) (k : Side)

theorem configure_bed : (x.configure c cap).bed k = x.bed k := by cases k <;> rfl

theorem configure_bedCap : (x.configure c cap).bedCap = cap := rfl

theorem configure_cfg : (x.configure c cap).cfg = c := rfl

theorem reachedSwap_configure : reachedSwap (x.configure c cap) ((x.configure c cap).bed k) =
    decide (cap * 3600000000 * c.swapPoint ≤ (x.bed k).load * 1000) := by
  rw [reachedSwap, Train.capUnits, configure_bed, configure_bedCap, configure_cfg]

theorem saturated_configure : (x.configure c cap).saturated k = decide (cap * 3600000000 ≤ (x.bed k).load) := by
  rw [Train.saturated, Train.capUnits, configure_bed, configure_bedCap]

theorem bedPermille_configure : (bedPermille (x.configure c cap) ((x.configure c cap).bed k) : Int) =
    if cap * 3600000000 = 0 then (1000 : Int) else (((x.bed k).load * 1000 / (cap * 3600000000) : Nat) : Int) := by
  rw [bedPermille, Train.capUnits, configure_bed, configure_bedCap, Nat.cast_ite]
  rfl

end

theorem stayed_flags (x : Train) (k : Side) : ∃ p q, x.stayed k = (x.defer p).degrade q := ⟨_, _, rfl⟩

theorem flagged_fields (x : Train) (p q : Bool) : (((x.defer p).degrade q).configured = x.configured
    ∧ ((x.defer p).degrade q).cfg = x.cfg ∧ ((x.defer p).degrade q).bedCap = x.bedCap)
    ∧ ((x.defer p).degrade q).lo = x.lo ∧ ((x.defer p).degrade q).hi = x.hi ∧ ((x.defer p).degrade q).mask = x.mask :=
  ⟨⟨rfl, rfl, rfl⟩, rfl, rfl, rfl⟩

/-- A test of the bed that does not swap changes the two flags alone. -/
theorem stayed_fields (x : Train) (k : Side) : ((x.stayed k).configured = x.configured
    ∧ (x.stayed k).cfg = x.cfg ∧ (x.stayed k).bedCap = x.bedCap)
    ∧ (x.stayed k).lo = x.lo ∧ (x.stayed k).hi = x.hi ∧ (x.stayed k).mask = x.mask := by
  obtain ⟨p, q, hpq⟩ := stayed_flags x k
  rw [hpq]
  exact flagged_fields x p q

section
variable {s t : State} {i j : Fin 2} {v : Train}

theorem TrainSet.sparesOther (h : TrainSet i v s t) (hj : j ≠ i) :
    t.dry.trains[j] = { s.dry.trains[j] with share := (t.dry.trains[j]).share } := of_unshared (h.idle.others j hj)

theorem TrainSet.otherStands (h : TrainSet i v s t) (hj : j ≠ i) (hs : sharesCurrent s = true) : t.dry.trains[j] = s.dry.trains[j] :=
  (h.idle.stand ((sharesStand_iff s).mp hs)).2 j hj

theorem TrainSet.capacities (h : TrainSet i v s t) (hs : capacitiesCurrent s = true) : capacitiesCurrent t = true :=
  (capacitiesCurrent_iff t).mpr ⟨h.inj ((capacitiesCurrent_iff s).mp hs).1, h.idle.current⟩

theorem TrainSet.setpoint (h : TrainSet i v s t) : t.flow.setpoint = s.flow.setpoint :=
  congrArg Flow.setpoint (h.parts .flow (by decide))

/-- What every test of the bed keeps of the record. -/
theorem TrainSet.keeps (h : TrainSet i v s t) :
    (t.dry.trains[i]).configured = v.configured ∧ (t.dry.trains[i]).cfg = v.cfg ∧ (t.dry.trains[i]).bedCap = v.bedCap := by
  cases hads : v.adsorbing with
  | none => exact ⟨(Alike.of_body (h.rests hads).1).configured, (Alike.of_body (h.rests hads).1).cfg, (Alike.of_body (h.rests hads).1).bedCap⟩
  | some k =>
    by_cases hswap : reachedSwap v (v.bed k) = true ∧ (v.bed k.partner).state = .ready
    · have halike := Alike.of_body (h.swaps k hads hswap.1 hswap.2).1
      have hsw : (v.swapped k).configured = v.configured ∧ (v.swapped k).bedCap = v.bedCap := by cases k <;> exact ⟨rfl, rfl⟩
      exact ⟨halike.configured.trans hsw.1, halike.cfg.trans (swapped_cfg v k), halike.bedCap.trans hsw.2⟩
    · rw [of_unshared (h.stays k hads hswap).1]
      exact (stayed_fields v k).1

end

section
variable {s t : State} {i : Fin 2} {x : Train} {c : TrainCfg} {cap : Nat} {k : Side}
  (h : TrainSet i (x.configure c cap) s t)
include h

/-- No bed adsorbs: no test. -/
theorem TrainSet.untested (hlo : x.lo.state ≠ .adsorbing) (hhi : x.hi.state ≠ .adsorbing) :
    (t.dry.trains[i]).lo = x.lo ∧ (t.dry.trains[i]).hi = x.hi ∧ (t.dry.trains[i]).degraded = x.degraded
    ∧ (t.dry.trains[i]).deferred = x.deferred ∧ t.evq = s.evq := by
  obtain ⟨hbody, hevq⟩ := h.rests (adsorbing_none (j := .lo) hlo hhi)
  have halike := Alike.of_body hbody
  exact ⟨halike.lo, halike.hi, halike.degraded, halike.deferred, hevq⟩

variable (hads : (x.bed k).state = .adsorbing) (hpartner : (x.bed k.partner).state ≠ .adsorbing)
include hads hpartner

omit h in
theorem configure_adsorbing : (x.configure c cap).adsorbing = some k :=
  adsorbing_some (by rw [configure_bed]; exact hads) (by rw [configure_bed]; exact hpartner)

/-- The bed swaps with its READY partner. -/
theorem TrainSet.swapped (hreach : cap * 3600000000 * c.swapPoint ≤ (x.bed k).load * 1000) (hready : (x.bed k.partner).state = .ready) :
    (t.dry.trains[i]).bed k = ⟨.heating, (x.bed k).load, c.heating⟩ ∧ (t.dry.trains[i]).bed k.partner = ⟨.adsorbing, 0, 0⟩
    ∧ (t.dry.trains[i]).degraded = false ∧ (t.dry.trains[i]).deferred = false ∧ (t.dry.trains[i]).mask = c.maskChoice
    ∧ toldBetween s t [swapTold s i k.partner] := by
  obtain ⟨hbody, hmask, hevq⟩ := h.swaps k (configure_adsorbing hads hpartner)
    ((reachedSwap_configure x c cap k).trans (decide_eq_true hreach)) (by rw [configure_bed]; exact hready)
  have hbeds := swapped_beds (x.configure c cap) k
  have halike := Alike.of_body hbody
  rw [configure_bed] at hbeds
  exact ⟨(halike.bed k).trans hbeds.1, (halike.bed k.partner).trans hbeds.2, halike.degraded.trans (by cases k <;> rfl),
    halike.deferred.trans (by cases k <;> rfl), hmask, toldBetween_of_mem hevq (List.mem_singleton_self _)⟩

/-- The bed does not swap. -/
theorem TrainSet.stayed (hstay : ¬(cap * 3600000000 * c.swapPoint ≤ (x.bed k).load * 1000 ∧ (x.bed k.partner).state = .ready)) :
    (t.dry.trains[i]).lo = x.lo ∧ (t.dry.trains[i]).hi = x.hi
    ∧ (t.dry.trains[i]).degraded = decide (cap * 3600000000 ≤ (x.bed k).load)
    ∧ (t.dry.trains[i]).deferred = decide (cap * 3600000000 * c.swapPoint ≤ (x.bed k).load * 1000)
    ∧ (t.dry.trains[i]).mask = x.mask
    ∧ t.evq = s.evq.pushAll ((if decide (cap * 3600000000 * c.swapPoint ≤ (x.bed k).load * 1000) = true ∧ x.deferred = false then
        [⟨gasTime s, .bedSwapDeferred, some i.val,
          some (if cap * 3600000000 = 0 then 1000 else ((x.bed k).load * 1000 / (cap * 3600000000) : Nat))⟩] else [])
      ++ if decide (cap * 3600000000 ≤ (x.bed k).load) = true ∧ x.degraded = false then
        [⟨gasTime s, .trainDegraded, some i.val, some (c.nominal * c.degradedFactor / 1000 : Nat)⟩] else []) := by
  obtain ⟨hrow, hevq⟩ := h.stays k (configure_adsorbing hads hpartner) (by
    rw [reachedSwap_configure, decide_eq_true_iff, configure_bed]
    exact hstay)
  rw [reachedSwap_configure, bedPermille_configure, saturated_configure] at hevq
  rw [of_unshared hrow]
  obtain ⟨_, hlo, hhi, hmask⟩ := stayed_fields (x.configure c cap) k
  exact ⟨hlo, hhi, (stayed_degraded _ k).trans (saturated_configure x c cap k),
    (stayed_deferred _ k).trans (reachedSwap_configure x c cap k), hmask, hevq⟩

end

/-! ### TRAIN SERVICE (R140) -/

section
variable {s : State} {i : Fin 2} {v : Train}

/-- What a train taken out leaves in its record. -/
theorem leave_fields (h : ((gathered (putAndHandWithdrawal i v) s).dry.trains[i]).unshared = v.unshared) :
    ((gathered (putAndHandWithdrawal i v) s).dry.trains[i]).state = v.state
    ∧ ((gathered (putAndHandWithdrawal i v) s).dry.trains[i]).service = v.service
    ∧ ((gathered (putAndHandWithdrawal i v) s).dry.trains[i]).excursion = v.excursion
    ∧ ((gathered (putAndHandWithdrawal i v) s).dry.trains[i]).recovery = v.recovery
    ∧ ((gathered (putAndHandWithdrawal i v) s).dry.trains[i]).lo = v.lo
    ∧ ((gathered (putAndHandWithdrawal i v) s).dry.trains[i]).hi = v.hi := by
  rw [of_unshared h]
  exact ⟨rfl, rfl, rfl, rfl, rfl, rfl⟩

theorem enter_stays (h : takeUp handWithdrawal i (putTrain i v s.gatheringEvents) = putTrain i v s.gatheringEvents) :
    ((gathered (putAndEnter i v) s).dry.trains[i]).lo = v.lo ∧ ((gathered (putAndEnter i v) s).dry.trains[i]).hi = v.hi :=
  have halike := Alike.of_body (enter_body h)
  ⟨halike.lo, halike.hi⟩

/-- A train that enters service adsorbs with its bed `k`. -/
def takesUp (i : Fin 2) (k : Side) (v : Train) (s t : State) : Prop :=
  (t.dry.trains[i]).bed k = ⟨.adsorbing, 0, 0⟩ ∧ (t.dry.trains[i]).bed k.partner = v.bed k.partner
  ∧ (t.dry.trains[i]).degraded = false ∧ (t.dry.trains[i]).mask = v.cfg.maskChoice
  ∧ toldBetween s t [swapTold s i k]

/-- A bed that a train that enters service takes up. -/
theorem enter_bed {k : Side} (hout : v.state ≠ .out) (hlo : v.lo.state ≠ .adsorbing) (hhi : v.hi.state ≠ .adsorbing)
    (hready : v.readyBed = some k) :
    takesUp i k v s (gathered (putAndEnter i v) s) := by
  obtain ⟨hmasked, htold⟩ := enter_takes (s := s) (i := i) hout (adsorbing_none (j := .lo) hlo hhi) hready
  obtain ⟨hown, hother⟩ := takenUp_beds v k
  have halike := Alike.of_body hmasked.1
  refine ⟨(halike.bed k).trans hown, (halike.bed _).trans hother, halike.degraded, hmasked.2.trans ?_, htold⟩
  rw [takenUp_cfg]

/-- The beds of a train that enters service: it keeps an ADSORBING one, else takes its lowest-indexed READY one. -/
theorem enter_beds (hout : v.state ≠ .out) :
    if v.lo.state = .adsorbing ∨ v.hi.state = .adsorbing then
      ((gathered (putAndEnter i v) s).dry.trains[i]).lo = v.lo ∧ ((gathered (putAndEnter i v) s).dry.trains[i]).hi = v.hi
    else if v.lo.state = .ready then takesUp i .lo v s (gathered (putAndEnter i v) s)
    else if v.hi.state = .ready then takesUp i .hi v s (gathered (putAndEnter i v) s)
    else ((gathered (putAndEnter i v) s).dry.trains[i]).lo = v.lo ∧ ((gathered (putAndEnter i v) s).dry.trains[i]).hi = v.hi := by
  have hown := putTrain_own (s := s.gatheringEvents) (t := i) v
  by_cases hads : v.lo.state = .adsorbing ∨ v.hi.state = .adsorbing
  · rw [if_pos hads]
    obtain ⟨k, hk⟩ : ∃ k, v.adsorbing = some k := by
      by_cases hlo : v.lo.state = .adsorbing
      · exact ⟨.lo, if_pos hlo⟩
      · exact ⟨.hi, (if_neg hlo).trans (if_pos (hads.resolve_left hlo))⟩
    exact enter_stays (takeUp_some _ _ (by rw [hown]; exact hk))
  rw [if_neg hads]
  obtain ⟨hlo, hhi⟩ := not_or.mp hads
  by_cases hready : v.lo.state = .ready
  · rw [if_pos hready]
    exact enter_bed hout hlo hhi (if_pos hready)
  rw [if_neg hready]
  by_cases hready' : v.hi.state = .ready
  · rw [if_pos hready']
    exact enter_bed hout hlo hhi ((if_neg hready).trans (if_pos hready'))
  rw [if_neg hready']
  exact enter_stays (takeUp_none _ _ (by rw [hown]; exact (if_neg hready).trans (if_neg hready')))

/-- Taking a bed up leaves configuration and service flag as they were. -/
theorem takeUp_keeps (u : State) : ((takeUp handWithdrawal i u).dry.trains[i]).cfg = (u.dry.trains[i]).cfg
    ∧ ((takeUp handWithdrawal i u).dry.trains[i]).service = (u.dry.trains[i]).service := by
  by_cases hout : (u.dry.trains[i]).state = .out
  · rw [takeUp_out u i hout]
    exact ⟨rfl, rfl⟩
  cases hads : (u.dry.trains[i]).adsorbing with
  | some k =>
    rw [takeUp_some u i hads]
    exact ⟨rfl, rfl⟩
  | none =>
    cases hready : (u.dry.trains[i]).readyBed with
    | some k =>
      rw [takeUp_takes u i hout hads hready]
      have halike := Alike.of_body (takeUpBed_spec handFree_withdrawal u i k).1.1
      exact ⟨halike.cfg.trans (takenUp_cfg _ _), halike.service.trans (by cases k <;> rfl)⟩
    | none =>
      rw [takeUp_none u i hready]
      exact ⟨rfl, rfl⟩

/-- The service flag is the one the request gives. -/
theorem enter_service : ((gathered (putAndEnter i v) s).dry.trains[i]).service = v.service := by
  have htake := (takeUp_keeps (i := i) (putTrain i v s.gatheringEvents)).2
  rw [putTrain_own] at htake
  have hend : hasBody i ((takeUp handWithdrawal i (putTrain i v s.gatheringEvents)).dry.trains[i]) (putAndEnter i v s.gatheringEvents) :=
    entered_keeps (bodyFree i _) rfl
  exact (Alike.of_body (gathered_hasBody hend)).service.trans htake

/-- A train enters service in STANDBY, or ONLINE with its mask loaded while the part withdraws. -/
theorem enter_state (hcur : wdrCurrent s) (hout : (s.dry.trains[i]).state = .out) (hv : v.state = .standby) :
    (s.flow.dir ≠ .withdrawing → ((gathered (putAndEnter i v) s).dry.trains[i]).state = .standby)
    ∧ (s.flow.dir = .withdrawing → v.cfg.maskChoice ≠ 0 →
      ((gathered (putAndEnter i v) s).dry.trains[i]).state = .online
      ∧ ((gathered (putAndEnter i v) s).dry.trains[i]).mask = v.cfg.maskChoice) := by
  obtain ⟨hent, hstate⟩ := Entering.takeUp (s := s.gatheringEvents) (t := i) hcur hout hv
  obtain ⟨helse, hwdr⟩ := hent.enters hstate
  have hcfg : ((takeUp handWithdrawal i (putTrain i v s.gatheringEvents)).dry.trains[i]).cfg = v.cfg := by
    rw [(takeUp_keeps _).1, putTrain_own]
  rw [hcfg] at hwdr
  exact ⟨helse, hwdr⟩

end

/-! ### The obligation -/

section
variable {s : State} {b : Block} {i j : Fin 2}

theorem trainSet_row (hs : s.plain) (hcur : capacitiesCurrent s = true) (hi : fieldW b 0 = i.val) {k : Fin 16} (hlen : b.length = 17)
    (hout : (s.dry.trains[i]).state = .out) (hrange : trainCfgInRange (trainCfgOf b 1) = true)
    (hwarn : (trainCfgOf b 1).warn < (trainCfgOf b 1).spec) (hk : fieldW b 4 = k.val) (hw : s.curves[k] ≠ []) :
    ∃ t : State, exec (.trainSet b) s =
        .next (answeredWith 0x48 .ok (out1 i.val ++ out1 0 ++ out1 (evalCurve s.curves[k] (s.dry.trains[i]).temp)) s t)
      ∧ TrainSet i ((s.dry.trains[i]).configure (trainCfgOf b 1) (evalCurve s.curves[k] (s.dry.trains[i]).temp)) s t := by
  have hrow := trainSet_spec (s := s) (i := i)
    (v := (s.dry.trains[i]).configure (trainCfgOf b 1) (evalCurve s.curves[k] (s.dry.trains[i]).temp))
    ((capacitiesCurrent_iff s).mp hcur).2 hout hout rfl
  refine ⟨_, ?_, hrow⟩
  rw [exec_taken rfl hs.1 (reqTrainSet_taken hs hi hlen hout hrange hwarn hk hw), hrow.idle.out, hrow.keeps.2.2]
  rfl

end

/-- Settles O49: the test that TRAIN SET makes either swaps or sets the flags; a train taken out hands the capacity on, and
one brought in takes a bed up, and comes ONLINE while the part withdraws. -/
theorem trainRequestsChangeTheTrain : Obligations.TrainRequestsChangeTheTrain := by
  refine ⟨fun s b c _ => keepsItsChecks_all c s, fun s b i j hs hcur _ hi hj =>
    ⟨fun k hlen hout hrange hwarn hk hw => ?_, fun hlen hf hout => ?_, fun hlen hf hout => ?_, fun hlen hf hout hconf => ?_,
      fun hlen hf hno => congrArg Host.Outcome.next (serve_refused hs.1 ((reqTrainService_in hs hi hlen hf).trans (serviceIn_refused hno)))⟩⟩
  · obtain ⟨t, hexec, hrow⟩ := trainSet_row hs hcur hi hlen hout hrange hwarn hk hw
    obtain ⟨hconf, hcfg, hcap⟩ := hrow.keeps
    refine ⟨t, hexec, hconf, hcfg, hrow.idle.out, hcap, hrow.sparesOther hj, hrow.otherStands hj, ⟨hrow.untested, fun k' hads hpartner =>
      ⟨hrow.swapped hads hpartner, fun hstay => ?_⟩⟩, hrow.capacities hcur, hrow.setpoint, hrow.parts⟩
    obtain ⟨hlo, hhi, hdeg, hdef, hmask, hevq⟩ := hrow.stayed hads hpartner hstay
    refine ⟨hlo, hhi, hdeg, hdef, hmask, fun hreach hclear => ?_, fun hsat hclear => ?_, fun hno hno' => ?_⟩
    · refine toldBetween_of_mem hevq (List.mem_append_left _ ?_)
      rw [if_pos ⟨decide_eq_true hreach, hclear⟩]
      exact List.mem_singleton_self _
    · refine toldBetween_of_mem hevq (List.mem_append_right _ ?_)
      rw [if_pos ⟨hsat, hclear⟩]
      exact List.mem_singleton_self _
    · rw [if_neg fun h => hno ⟨of_decide_eq_true h.1, h.2⟩, if_neg hno'] at hevq
      exact hevq
  · exact exec_taken rfl hs.1 ((reqTrainService_out hs hi hlen hf).trans (serviceOut_again hout))
  · obtain ⟨hcap, hrecut, hparts⟩ := leaveRow (s := s) (i := i) (v := (s.dry.trains[i]).outOfService)
    obtain ⟨hstate, hservice, hexc, hrec, hlo, hhi⟩ := leave_fields (leave_train (s := s) (i := i) (v := (s.dry.trains[i]).outOfService) rfl)
    refine ⟨_, exec_taken rfl hs.1 ((reqTrainService_out hs hi hlen hf).trans (serviceOut_leaves hout)), hstate, hservice, leave_share rfl,
      hexc, hrec, hlo, hhi, ?_, leave_other hj, hcap hcur, hrecut, hparts⟩
    rw [divert, hstate]
    rfl
  · obtain ⟨hcap, hrecut, hparts⟩ := enterRow (s := s) (i := i) (v := (s.dry.trains[i]).inStandby)
    obtain ⟨helse, hwdr⟩ := enter_state (v := (s.dry.trains[i]).inStandby) ((capacitiesCurrent_iff s).mp hcur).2 hout rfl
    refine ⟨gathered (putAndEnter i (s.dry.trains[i]).inStandby) s,
      exec_taken rfl hs.1 ((reqTrainService_in hs hi hlen hf).trans (serviceIn_enters hout hconf)),
      enter_service, enter_notOut nofun, helse, hwdr, ?_, enter_other hj, hcap hcur, hrecut, hparts⟩
    exact enter_beds (v := (s.dry.trains[i]).inStandby) nofun

end Sys2Proof.Machine
end

section
/-! SUPPORT. One train's part of a report, and what the rest of the report leaves of it (R145, R164): O50. -/

namespace Sys2Proof.Machine

/-! ### The rest of the report -/

/-- What no act of the report but the train `t`'s own part can break. -/
structure Beside (t : Fin 2) (P : State → Prop) : Prop extends Follows t P where
  elsewhere : ∀ u v, Does [.world, .meter, .duty, .evq] u v → P u → P v

section
variable {s : State} {t i : Fin 2} {P : State → Prop} {Q : Train → Prop}

/-- A property of the train's record. -/
theorem Follows.beside (h : Follows t (fun u => Q u.dry.trains[t])) : Beside t (fun u => Q u.dry.trains[t]) where
  toFollows := h
  elsewhere u v hd hu := by
    show Q v.dry.trains[t]
    rw [hd.dry_eq (by decide)]
    exact hu

/-- A record out of service keeps what no share can break. -/
theorem ShareFree.restsBeside (hQ : ShareFree Q) (hrest : ∀ y, Q y → y.inService = false) : Beside t (fun u => Q u.dry.trains[t]) :=
  (hQ.aside.resting fun _ hu => hrest _ hu).beside

/-- What no move of the dew point can break. -/
theorem ShareFree.movedBeside (hQ : ShareFree Q) (hmove : ∀ x y, DewMove x y → Q x → Q y) : Beside t (fun u => Q u.dry.trains[t]) := by
  have hput (u : State) (x : Train) (hx : DewMove u.dry.trains[t] x) (hu : Q u.dry.trains[t]) : Q (putTrain t x u).dry.trains[t] := by
    rw [putTrain_own]
    exact hmove _ _ hx hu
  have hown (hand : Hand) (hhand : ∀ u : State, Q u.dry.trains[t] → Q (hand u).dry.trains[t]) : DewKept hand t (fun u => Q u.dry.trains[t]) :=
    { raise := fun _ _ _ _ _ _ h => h
      quiet := fun u x hx _ _ h => hput u x hx h
      leave := fun u x hx _ h => hhand _ (hQ.reshare (hput u x hx h))
      join := fun u x hx _ _ h => hQ.reshare (hput u x hx h)
      reshare := fun _ h => hQ.reshare h }
  refine Follows.beside ⟨hQ.aside, fun hand hhand u hu => (hown hand hhand).bringOnline hu, fun u hu => ?_⟩
  dsimp only [sendStandby]
  split
  · exact hput u _ ⟨rfl, .inl rfl, .inl rfl⟩ hu
  · exact hu

/-- Events told stay told. -/
theorem toldBeside (s : State) (es : List Raised) : Beside t (fun u => toldBetween s u es) := by
  have hdoes {ps : List Part} (u v : State) (h : toldBetween s u es) (hd : Does ps u v) : toldBetween s v es := h.after hd
  refine ⟨⟨⟨fun u k a b _ _ h => hdoes u _ h (acts_raise (ps := [.evq]) u k a b (by decide)).does, fun _ _ _ _ h => h, fun _ h => h, fun _ _ h => h,
    fun u h => hdoes u _ h (does_recut (ps := flowParts) (by decide) (by decide) u), fun _ _ h => h, fun _ _ h => h⟩, fun hand hhand u hu => ?_,
    fun u hu => ?_⟩, fun u v hd h => hdoes u v h hd⟩
  · have hkept : DewKept hand t (fun v => toldBetween s v es) :=
      { raise := fun v k a b _ _ h => hdoes v _ h (acts_raise (ps := [.evq]) v k a b (by decide)).does
        quiet := fun _ _ _ _ _ h => h
        leave := fun v x _ _ h => hhand (reshare (putTrain t x v)) h
        join := fun _ _ _ _ _ h => h
        reshare := fun _ h => h }
    exact hkept.bringOnline hu
  · dsimp only [sendStandby]
    split
    · exact hu
    · exact hu

variable (hP : Beside t P)
include hP

theorem Beside.handInjection (h : P s) : P (handInjection s) :=
  handInjection_preserves P s hP.recut (fun c _ hu => hP.flow.receiveInj c (hP.setFlow _ _ hu)) hP.setWorld
    (hP.elsewhere _ _ (acts_setDuty s _ (by decide)).does h)

theorem Beside.unit (i : Fin 6) : UnitKept i P P :=
  .whole (fun u k a b _ h => hP.elsewhere _ _ (acts_raise u k a b (by decide)).does h)
    (fun u _ _ h => hP.elsewhere _ _ (acts_setDuty u _ (by decide)).does h) fun _ h => hP.handInjection h

theorem Beside.reportUnits (b : Block) (h : P s) : P (reportUnits b s) :=
  foldl_preserves P (fun i u => reportUnit i (fieldW b (6 + 3 * i.val)) (fieldI2 b (7 + 3 * i.val)) u) _
    (fun i _ _ hu => (hP.unit i).reportUnit _ _ hu) s h

theorem Beside.reportMeter (b : Block) (h : P s) : P (reportMeter b s) := hP.elsewhere _ _ ((does_reportMeter s b).mono (by decide)) h

/-- The other train's moves. -/
theorem Beside.train (hi : i ≠ t) : TrainKept handWithdrawal i P P where
  toDewKept := hP.dew hi fun _ hu => hP.hand hu
  weaken _ h := h
  raiseB u k a b _ h := hP.elsewhere _ _ (acts_raise u k a b (by decide)).does h
  moveB u x _ h := hP.putTrain u i x hi h
  move u x _ _ _ _ h := hP.putTrain u i x hi h
  handed _ h := hP.hand h

end

/-! ### The trains' part (R145) -/

/-- One train's part of a report block. -/
def reportOwn (b : Block) (t : Fin 2) (s : State) : State :=
  reportTrain t (fieldI b (24 + 3 * t.val)) (fieldI b (25 + 3 * t.val)) (fieldI b (26 + 3 * t.val)) s

/-- A train's record as the report found it, with its share as it now stands. -/
def foundAt (t : Fin 2) (s u : State) : Train := { s.dry.trains[t] with share := (u.dry.trains[t]).share }

theorem reportTrains_eq (b : Block) (s : State) : reportTrains b s =
    if (reportOwn b 0 s).dry.trains[(1 : Fin 2)] = foundAt 1 s (reportOwn b 0 s) then reportOwn b 1 (reportOwn b 0 s)
    else followDirection handWithdrawal (sendStandby 1 (reportOwn b 1 (putTrain 1 (foundAt 1 s (reportOwn b 0 s)) (reportOwn b 0 s)))) := rfl

section
variable {s : State} {t i : Fin 2} {P : State → Prop}

theorem does_reportOwn (b : Block) (i : Fin 2) (s : State) : Does flowParts s (reportOwn b i s) := (flowTrain s i).reportTrain _ _ _ (.refl _ s)

theorem Beside.sendStandby (hP : Beside t P) (i : Fin 2) (h : P s) : P (sendStandby i s) := by
  by_cases hi : i = t
  · rw [hi]
    exact hP.send _ h
  · dsimp only [Machine.sendStandby]
    split
    · exact hP.putTrain _ _ _ hi h
    · exact h

/-- What one train's part makes of the record found, the trains' part makes. -/
theorem reportTrains_makes (b : Block) (hP : Beside t P)
    (hmake : ∀ v, (v.dry.trains[t]).unshared = (s.dry.trains[t]).unshared → Does flowParts s v → P (reportOwn b t v)) :
    P (reportTrains b s) := by
  have hfollow {u : State} (h : P u) : P (followDirection handWithdrawal (Machine.sendStandby 1 u)) :=
    hP.follow (fun _ hu => hP.hand hu) (hP.sendStandby 1 h)
  rw [reportTrains_eq]
  fin_cases t
  · have hown : P (reportOwn b 0 s) := hmake s rfl (.refl _ s)
    split
    · exact (hP.train (i := 1) (by decide)).reportTrain _ _ _ hown
    · exact hfollow ((hP.train (i := 1) (by decide)).reportTrain _ _ _ (hP.putTrain _ 1 _ (by decide) hown))
  · have hdoes := does_reportOwn b 0 s
    split
    · next hfound =>
      have hback := congrArg Train.unshared hfound
      exact hmake _ hback hdoes
    · have hback := congrArg Train.unshared (putTrain_own (t := 1) (s := reportOwn b 0 s) (foundAt 1 s (reportOwn b 0 s)))
      exact hfollow (hmake _ hback (hdoes.trans (does_put _)))

/-- What one train's part makes of the record that the acts before it leave, the report makes. -/
theorem takeReport_makes {K : State → Prop} {s : State} (b : Block) (hP : Beside t P) (hstart : K s) (hworld : ∀ u n, K u → K (u.setWorld n))
    (hmeter : ∀ u, K u → K (reportMeter b u)) (hunits : ∀ u, K u → K (reportUnits b u))
    (hmake : ∀ u v, K u → Does reportParts s u → (v.dry.trains[t]).unshared = (u.dry.trains[t]).unshared → Does reportParts s v →
      P (reportOwn b t v)) :
    P (inAnyOrder [reportMeter b, reportUnits b, reportTrains b] s) := by
  refine inAnyOrder_once (K := fun u => K u ∧ Does reportParts s u) (f := reportTrains b) (l := [reportMeter b, reportUnits b])
    (by exact List.perm_append_comm (l₁ := [reportMeter b, reportUnits b]) (l₂ := [reportTrains b]))
    (fun u n hu => ⟨hworld u n hu.1, hu.2.trans (acts_setWorld u n (by decide)).does⟩) (fun g hg u hu => ?_) (fun u hu => ?_) (fun g hg u hu => ?_)
    ⟨hstart, .refl _ s⟩
  · rcases List.mem_pair.mp hg with rfl | rfl
    · exact ⟨hmeter u hu.1, hu.2.trans ((does_reportMeter u b).mono (by decide))⟩
    · exact ⟨hunits u hu.1, hu.2.trans ((dutyKept_of_subset (List.Subset.refl dutyParts) u).reportUnits b (.refl _ u) |>.mono (by decide))⟩
  · exact reportTrains_makes b hP fun v hv hd => hmake u v hu.1 hu.2 hv (hu.2.trans (hd.mono (by decide)))
  · rcases List.mem_pair.mp hg with rfl | rfl
    · exact hP.reportMeter b hu
    · exact hP.reportUnits b hu

end

end Sys2Proof.Machine
end

section
/-! SUPPORT. What one train's own part of a report makes: its beds, their test, and the assessment of the dew point where the
test changes no figure (R145, R148, R149, R152 to R155): O50. -/

namespace Sys2Proof.Machine

/-! ### Records alike (R145) -/

section
variable {x y : Train} {k : Side}

theorem Alike.reached (h : Alike x y) (k : Side) : reachedSwap y (y.bed k) = reachedSwap x (x.bed k) := by
  rw [reachedSwap, reachedSwap, Train.capUnits, Train.capUnits, h.bedCap, h.cfg, h.bed]

theorem Alike.saturated (h : Alike x y) (k : Side) : y.saturated k = x.saturated k := saturated_congr h.bedCap (h.bed k)

theorem body_swapped (x : Train) (k : Side) : (x.swapped k).body = (x.body.swapped k).body := by cases k <;> rfl

theorem body_degrade (x : Train) (p q : Bool) : ((x.defer p).degrade q).body = ((x.body.defer p).degrade q).body := rfl

/-- What the swap makes of the body. -/
theorem swapped_congr (h : y.body = x.body) (k : Side) : (y.swapped k).body = (x.swapped k).body := by
  rw [body_swapped y, body_swapped x, h]

/-- What the test that does not swap makes of the body. -/
theorem stayed_congr (h : y.body = x.body) (k : Side) : (y.stayed k).body = (x.stayed k).body := by
  have halike := Alike.of_body h
  unfold Train.stayed
  rw [body_degrade y, body_degrade x, h, halike.reached, halike.saturated]

end

/-- A train's record as its part of a report gives it, the bed capacity formed anew. -/
def Train.reported (s : State) (b : Block) (t : Fin 2) (x : Train) : Train :=
  formBedCap s (x.takeReport (fieldI b (24 + 3 * t.val)) (fieldI b (25 + 3 * t.val)) (fieldI b (26 + 3 * t.val)))

section
variable {s u : State} {b : Block} {t : Fin 2} {x y : Train}

theorem formBedCap_congr (h : u.curves = s.curves) (x : Train) : formBedCap u x = formBedCap s x := by
  rw [formBedCap, formBedCap, h]

theorem reported_curves (h : u.curves = s.curves) (x : Train) : x.reported u b t = x.reported s b t := formBedCap_congr h _

theorem reported_body (h : y.body = x.body) : (y.reported s b t).body = (x.reported s b t).body := by
  have hbody (z : Train) : (z.reported s b t).body = (z.body.reported s b t).body := rfl
  rw [hbody y, hbody x, h]

theorem reported_unshared (h : y.unshared = x.unshared) : (y.reported s b t).unshared = (x.reported s b t).unshared := by
  rw [of_unshared h]
  rfl

end

/-! ### The beds (R148, R149) -/

/-- The test of the bed and the assessment. -/
def testAndAssess (t : Fin 2) (v : Train) (u : State) : State := assess handWithdrawal t (setAndTest t v u)

theorem reportOwn_eq (b : Block) (t : Fin 2) (u : State) : reportOwn b t u = testAndAssess t ((u.dry.trains[t]).reported u b t) u := rfl

section
variable {u : State} {t : Fin 2} {v : Train} {k : Side}

theorem own_rests (h : v.adsorbing = none) : hasBody t v (testAndAssess t v u) := by
  have hown := putTrain_own (s := u) (t := t) v
  refine ((bodyFree t v).dew t).assess ?_
  rw [setAndTest, bedTest_none _ _ (by rw [hown]; exact h)]
  exact congrArg Train.body hown

theorem own_swaps (h : v.adsorbing = some k) (hreach : reachedSwap v (v.bed k) = true) (hready : (v.bed k.partner).state = .ready) :
    hasMasked t (v.swapped k) (testAndAssess t v u) ∧ toldBetween u (testAndAssess t v u) [swapTold u t k.partner] := by
  have hown := putTrain_own (s := u) (t := t) v
  obtain ⟨hbody, htold⟩ := swapBeds_spec handFree_withdrawal (putTrain t v u) t k
  have hswap : setAndTest t v u = swapBeds handWithdrawal t k (putTrain t v u) :=
    bedTest_swaps _ _ (by rw [hown]; exact h) (by rw [hown]; exact hreach) (by rw [hown]; exact hready)
  rw [hown, ← hswap] at hbody
  rw [← hswap] at htold
  exact ⟨((maskedFree t _).dew t).assess hbody, (htold.after (does_assess (List.Subset.refl flowParts) _ t)).before (does_put u)⟩

theorem own_stays (h : v.adsorbing = some k) (hstay : ¬(reachedSwap v (v.bed k) = true ∧ (v.bed k.partner).state = .ready)) :
    hasBody t (v.stayed k) (testAndAssess t v u)
    ∧ (reachedSwap v (v.bed k) = true → v.deferred = false → toldBetween u (testAndAssess t v u)
        [⟨gasTime u, .bedSwapDeferred, some t.val, some (bedPermille v (v.bed k) : Int)⟩])
    ∧ (v.saturated k = true → v.degraded = false → toldBetween u (testAndAssess t v u)
        [⟨gasTime u, .trainDegraded, some t.val, some (v.degradedContribution : Int)⟩]) := by
  have hown := putTrain_own (s := u) (t := t) v
  have hads : ((putTrain t v u).dry.trains[t]).adsorbing = some k := by rw [hown]; exact h
  have hstay' : ¬(reachedSwap (putTrain t v u).dry.trains[t] (((putTrain t v u).dry.trains[t]).bed k) = true
      ∧ (((putTrain t v u).dry.trains[t]).bed k.partner).state = .ready) := by rw [hown]; exact hstay
  have hbody := bedTest_stays_body handFree_withdrawal hads hstay'
  have hdefers := bedTest_stays_defers handFree_withdrawal hads hstay'
  have hdegrades := bedTest_stays_degrades handFree_withdrawal hads hstay'
  rw [deferTold, hown] at hdefers
  rw [degradedTold, hown] at hdegrades
  rw [hown] at hbody
  exact ⟨((bodyFree t _).dew t).assess hbody, fun hreach hdef => ((hdefers hreach hdef).after (does_assess (List.Subset.refl flowParts) _ t)).before (does_put u),
    fun hsat hdeg => ((hdegrades hsat hdeg).after (does_assess (List.Subset.refl flowParts) _ t)).before (does_put u)⟩

/-! ### A test that changes no figure -/

/-- The test of the bed neither swaps nor changes the flag DEGRADED. -/
def Train.steady (v : Train) : Prop := v.adsorbing = none
  ∨ ∃ k, v.adsorbing = some k ∧ ¬(reachedSwap v (v.bed k) = true ∧ (v.bed k.partner).state = .ready) ∧ v.saturated k = v.degraded

theorem flagged_dry (u : State) (t : Fin 2) (k : Side) : (flagged u t k).dry =
    (putTrain t ((u.dry.trains[t]).defer (reachedSwap u.dry.trains[t] ((u.dry.trains[t]).bed k))) u).dry := by
  by_cases hreach : reachedSwap u.dry.trains[t] ((u.dry.trains[t]).bed k) = true
  · have hflag : flagged u t k = deferSwap t k u := if_pos hreach
    rw [hflag, hreach]
    cases hdef : (u.dry.trains[t]).deferred
    · rw [deferSwap_clear u t k hdef]
      rfl
    · rw [deferSwap_set u t k hdef, Train.defer, ← hdef]
      exact congrArg State.dry (putTrain_self (s := u) (t := t)).symm
  · have hflag : flagged u t k = putTrain t ((u.dry.trains[t]).defer false) u := if_neg hreach
    rw [hflag, Bool.eq_false_of_not_eq_true hreach]

/-- Such a test writes at most the flag of a deferred swap. -/
theorem Train.steady.tested (h : v.steady) (t : Fin 2) (u : State) : ∃ p l, Acts [.dry, .evq] u l (setAndTest t v u)
    ∧ (setAndTest t v u).dry = (putTrain t (v.defer p) u).dry := by
  have hown := putTrain_own (s := u) (t := t) v
  rcases h with hnone | ⟨k, hads, hstay, hsat⟩
  · rw [setAndTest, bedTest_none _ _ (by rw [hown]; exact hnone)]
    exact ⟨v.deferred, [], acts_putTrain t v u (by decide), rfl⟩
  · have htest := bedTest_stays (s := putTrain t v u) (t := t) (hand := handWithdrawal) (by rw [hown]; exact hads) (by rw [hown]; exact hstay)
    have hdry := flagged_dry (putTrain t v u) t k
    rw [hown] at hdry
    have hrest : testSaturation handWithdrawal t k (flagged (putTrain t v u) t k) = flagged (putTrain t v u) t k := by
      refine testSaturation_rests ?_
      rw [saturated_flagged, flagged_train, hown, defer_degraded]
      exact hsat
    rw [setAndTest, htest, hrest]
    exact ⟨_, _, (acts_putTrain t v u (by decide)).trans (acts_flagged _ t k), hdry.trans (putTrain_putTrain t v _ u)⟩

end

end Sys2Proof.Machine
end

section
/-! SUPPORT. A train's record while the direction stands, through a report (R99, R102, R141, R145): O50. -/

namespace Sys2Proof.Machine

/-! ### A direction that has ended -/

/-- The direction `d` has ended, with S at 0. -/
def gone (d : FlowDir) (u : State) : Prop := u.flow.dir ≠ d ∧ u.flow.setpoint = 0

section
variable {s u : State} {d : FlowDir} {t i : Fin 2}

theorem gone_hand (h : gone d s) : gone d (handWithdrawal s) := by
  have hnone : ShareFree (fun _ : Train => False) := fun _ _ hx => hx
  exact (whileDir_hand (j := 0) hnone (.inr h)).resolve_left fun h' => h'.2

theorem goneDew (i : Fin 2) : DewKept handWithdrawal i (gone d) where
  raise _ _ _ _ _ _ h := h
  quiet _ _ _ _ _ h := h
  leave s x _ _ h := gone_hand (s := reshare (putTrain i x s)) h
  join _ _ _ _ _ h := h
  reshare _ h := h

theorem goneTrain (i : Fin 2) : TrainKept handWithdrawal i (gone d) (gone d) where
  toDewKept := goneDew i
  weaken _ h := h
  raiseB _ _ _ _ _ h := h
  moveB _ _ _ h := h
  move _ _ _ _ _ _ h := h
  handed _ h := gone_hand h

theorem gone_sendStandby (i : Fin 2) (h : gone d s) : gone d (sendStandby i s) := by
  dsimp only [sendStandby]
  split
  · exact h
  · exact h

theorem gone_follow (h : gone d s) : gone d (followDirection handWithdrawal s) :=
  followDirection_kept goneDew (fun _ hu => gone_sendStandby 1 (gone_sendStandby 0 hu)) h

theorem gone_reportOwn (b : Block) (i : Fin 2) (h : gone d s) : gone d (reportOwn b i s) := (goneTrain i).reportTrain _ _ _ h

theorem gone_reportTrains (b : Block) (h : gone d s) : gone d (reportTrains b s) := by
  have hA : gone d (reportOwn b 0 s) := gone_reportOwn b 0 h
  rw [reportTrains_eq]
  split
  · exact gone_reportOwn b 1 hA
  · exact gone_follow (gone_sendStandby 1 (gone_reportOwn b 1 hA))

/-! ### A record while the direction stands -/

/-- A record that the trains' following of the direction `d` leaves alone. -/
def settledIn (d : FlowDir) (Q : Train → Prop) : Prop := ∀ y, Q y → (d = .withdrawing → y.state ≠ .standby) ∧ (d ≠ .withdrawing → y.state ≠ .online)

variable {Q : Train → Prop} (hQ : ShareFree Q) (hstand : settledIn d Q)
include hQ

theorem whileDir_receiveInj (c : Nat) (h : whileDir d t Q s) : whileDir d t Q (receiveInj c s) := by
  by_cases hcut : c < s.flow.cInj ∧ (c : Int) < s.flow.setpoint
  · rcases h with ⟨hdir, hq⟩ | ⟨_, hz⟩
    · rw [receiveInj_cut hcut, stepCut_eq]
      have hat : (atCut (c : Int) (s.setFlow (limitT { s.flow with cInj := c }))).flow.dir = d := hdir
      have hrow : Q (atCut (c : Int) (s.setFlow (limitT { s.flow with cInj := c }))).dry.trains[t] := hQ.reshare hq
      rcases endAtZero_ends (atCut (c : Int) (s.setFlow (limitT { s.flow with cInj := c }))) with he | ⟨hne, hz⟩
      · rw [he]
        exact .inl ⟨hat, hrow⟩
      · exact .inr ⟨hat ▸ hne, hz⟩
    · omega
  · rw [receiveInj_rest hcut]
    exact h

theorem whileDir_handInjection (h : whileDir d t Q s) : whileDir d t Q (handInjection s) :=
  handInjection_preserves (whileDir d t Q) s (fun _ hu => whileDir_recut hu) (fun c _ hu => whileDir_receiveInj hQ c hu) (fun _ _ hu => hu) h

theorem whileDir_reportUnits (b : Block) (h : whileDir d t Q s) : whileDir d t Q (reportUnits b s) := by
  have hunit (i : Fin 6) : UnitKept i (whileDir d t Q) (whileDir d t Q) :=
    .whole (fun _ _ _ _ _ hu => hu) (fun _ _ _ hu => hu) fun _ hu => whileDir_handInjection hQ hu
  exact foldl_preserves (whileDir d t Q) (fun i u => reportUnit i (fieldW b (6 + 3 * i.val)) (fieldI2 b (7 + 3 * i.val)) u) _
    (fun i _ _ hu => (hunit i).reportUnit _ _ hu) s h

omit hQ in
theorem whileDir_reportMeter (b : Block) (h : whileDir d t Q s) : whileDir d t Q (reportMeter b s) := by
  have hmeter := does_reportMeter s b
  rw [whileDir, hmeter.flow_eq (by decide), hmeter.dry_eq (by decide)]
  exact h

include hstand

theorem whileDir_bringOnline (i : Fin 2) (h : whileDir d t Q s) : whileDir d t Q (bringOnline handWithdrawal i s) := by
  by_cases hi : i = t
  · subst hi
    rcases h with ⟨hdir, hq⟩ | h
    · have hsame : bringOnline handWithdrawal i s = s := by
        by_cases hd : d = .withdrawing
        · exact bringOnline_of_ne ((hstand _ hq).1 hd)
        · exact bringOnline_elsewhere (by rw [hdir]; exact hd)
      rw [hsame]
      exact .inl ⟨hdir, hq⟩
    · exact .inr ((goneDew i).bringOnline h)
  · exact (whileDirTrain hQ hi).bringOnline h

omit hQ in
theorem whileDir_sendStandby (i : Fin 2) (hne : s.flow.dir ≠ .withdrawing) (h : whileDir d t Q s) : whileDir d t Q (sendStandby i s) := by
  by_cases hi : i = t
  · subst hi
    rcases h with ⟨hdir, hq⟩ | h
    · rw [sendStandby_of_ne ((hstand _ hq).2 (hdir ▸ hne))]
      exact .inl ⟨hdir, hq⟩
    · exact .inr (gone_sendStandby i h)
  · dsimp only [sendStandby]
    split
    · exact whileDir_putTrain hi _ h
    · exact h

theorem whileDir_follow (h : whileDir d t Q s) : whileDir d t Q (followDirection handWithdrawal s) := by
  have hdir (u : State) : (sendStandby 0 u).flow = u.flow := by
    dsimp only [sendStandby]
    split <;> rfl
  dsimp only [followDirection]
  split
  · exact whileDir_reshare hQ (whileDir_bringOnline hQ hstand 1 (whileDir_bringOnline hQ hstand 0 h))
  · next hne =>
    have hne' : s.flow.dir ≠ .withdrawing := by simpa using hne
    exact whileDir_reshare hQ (whileDir_sendStandby hstand 1 (by rw [hdir]; exact hne') (whileDir_sendStandby hstand 0 hne' h))

/-- What one train's part makes of the record found while the direction stands, the trains' part makes. -/
theorem reportTrains_while {x : Train} (b : Block) (h : whileDir d t (fun y => y.unshared = x.unshared) s)
    (hmake : ∀ v, v.flow.dir = d → (v.dry.trains[t]).unshared = x.unshared → Does flowParts s v → (wdrCurrent s → wdrCurrent v) →
      whileDir d t Q (reportOwn b t v)) : whileDir d t Q (reportTrains b s) := by
  rcases h with ⟨hdir, hx⟩ | h
  · rw [reportTrains_eq]
    obtain rfl | rfl : t = 0 ∨ t = 1 := by omega
    · have hown : whileDir d 0 Q (reportOwn b 0 s) := hmake s hdir hx (.refl _ s) id
      split
      · exact (whileDirTrain hQ (by decide)).reportTrain _ _ _ hown
      · have hput := whileDir_putTrain (i := 1) (by decide) (foundAt 1 s (reportOwn b 0 s)) hown
        have hB : whileDir d 0 Q (reportOwn b 1 (putTrain 1 (foundAt 1 s (reportOwn b 0 s)) (reportOwn b 0 s))) :=
          (whileDirTrain hQ (by decide)).reportTrain _ _ _ hput
        refine whileDir_follow hQ hstand ?_
        dsimp only [sendStandby]
        split
        · exact whileDir_putTrain (by decide) _ hB
        · exact hB
    · have hA : whileDir d 1 (fun y => y.unshared = x.unshared) (reportOwn b 0 s) :=
        (whileDirTrain (shareFree_unshared x) (by decide)).reportTrain _ _ _ (.inl ⟨hdir, hx⟩)
      rcases hA with ⟨hdir', hx'⟩ | hA
      · have hback : ((reportOwn b 0 s).dry.trains[(1 : Fin 2)]).unshared = (s.dry.trains[(1 : Fin 2)]).unshared := hx'.trans hx.symm
        have hfound : (reportOwn b 0 s).dry.trains[(1 : Fin 2)] = foundAt 1 s (reportOwn b 0 s) := of_unshared hback
        rw [if_pos hfound]
        exact hmake _ hdir' hx' (does_reportOwn b 0 s) ((wdrTrain 0).reportTrain _ _ _)
      · split
        · exact .inr (gone_reportOwn b 1 hA)
        · exact .inr (gone_follow (gone_sendStandby 1 (gone_reportOwn b 1 hA)))
  · exact .inr (gone_reportTrains b h)

/-- What one train's part makes of its record while the direction stands, the report makes. -/
theorem takeReport_while {x : Train} (b : Block) (hx : (s.dry.trains[t]).unshared = x.unshared) (hdir : s.flow.dir = d)
    (hmake : ∀ v, v.flow.dir = d → (v.dry.trains[t]).unshared = x.unshared → Does reportParts s v → (wdrCurrent s → wdrCurrent v) →
      whileDir d t Q (reportOwn b t v)) :
    whileDir d t Q (inAnyOrder [reportMeter b, reportUnits b, reportTrains b] s) := by
  have hfree := shareFree_unshared x
  refine inAnyOrder_once (K := fun u => whileDir d t (fun y => y.unshared = x.unshared) u ∧ Does reportParts s u ∧ (wdrCurrent s → wdrCurrent u))
    (f := reportTrains b) (l := [reportMeter b, reportUnits b])
    (by exact List.perm_append_comm (l₁ := [reportMeter b, reportUnits b]) (l₂ := [reportTrains b]))
    (fun u n hu => ⟨hu.1, hu.2.1.trans (acts_setWorld u n (by decide)).does, hu.2.2⟩) (fun g hg u hu => ?_) (fun u hu => ?_) (fun g hg u hu => ?_)
    ⟨.inl ⟨hdir, hx⟩, .refl _ s, id⟩
  · obtain ⟨hwhile, hdoes, hcur⟩ := hu
    rcases List.mem_pair.mp hg with rfl | rfl
    · have hmeter := does_reportMeter u b
      exact ⟨whileDir_reportMeter b hwhile, hdoes.trans (hmeter.mono (by decide)), fun hs =>
        wdrCurrent_plant (hmeter.dry_eq (by decide)) (hmeter.site_eq (by decide)) (hmeter.flow_eq (by decide)) (hcur hs)⟩
    · exact ⟨whileDir_reportUnits hfree b hwhile,
        hdoes.trans ((dutyKept_of_subset (List.Subset.refl dutyParts) u).reportUnits b (.refl _ u) |>.mono (by decide)),
        fun hs => wdrPlant.duty.reportUnits b (hcur hs)⟩
  · obtain ⟨hwhile, hdoes, hcur⟩ := hu
    exact reportTrains_while hQ hstand b hwhile fun v hv hvx hd hc => hmake v hv hvx (hdoes.trans (hd.mono (by decide))) fun hs => hc (hcur hs)
  · rcases List.mem_pair.mp hg with rfl | rfl
    · exact whileDir_reportMeter b hu
    · exact whileDir_reportUnits hQ b hu

end

end Sys2Proof.Machine
end

section
/-! SUPPORT. The assessment of a report (R152 to R155), and the report as one train sees it: O50. -/

namespace Sys2Proof.Machine

section
variable {u : State} {t : Fin 2} {v : Train} (h : v.steady) (hmask : v.mask = 0)
include h hmask

/-- The warning of a report. -/
theorem own_warned (hst : v.state = .online ∨ v.state = .offSpec) :
    (((testAndAssess t v u).dry.trains[t]).dew = v.dew ∧ ((testAndAssess t v u).dry.trains[t]).cfg = v.cfg
      ∧ ((testAndAssess t v u).dry.trains[t]).armed = decide (v.dew < v.cfg.warn))
    ∧ (v.armed = true → v.cfg.warn ≤ v.dew →
        toldBetween u (testAndAssess t v u) [⟨gasTime u, .dewWarning, some t.val, some v.dew⟩]) := by
  obtain ⟨p, l, hacts, hdry⟩ := h.tested t u
  have hown : (setAndTest t v u).dry.trains[t] = v.defer p := by rw [hdry, putTrain_own]
  obtain ⟨⟨m, hm, hfilter⟩, harmed⟩ := assess_warned (s := setAndTest t v u) (t := t) (by rw [hown]; exact hmask) (by rw [hown]; exact hst)
  have hbody : hasBody t (v.defer p) (testAndAssess t v u) := ((bodyFree t _).dew t).assess (congrArg Train.body hown)
  obtain ⟨hcfg, hdew⟩ := body_cfg hbody
  rw [hown] at harmed
  refine ⟨⟨hdew, hcfg, harmed⟩, fun harm hwarn => ?_⟩
  have hone : warnTold (setAndTest t v u) t = [⟨gasTime u, .dewWarning, some t.val, some v.dew⟩] := by
    rw [warnTold, hown, if_pos ⟨harm, hwarn⟩, hacts.does.gasTime (by decide)]
    rfl
  have hmem : (⟨gasTime u, .dewWarning, some t.val, some v.dew⟩ : Raised) ∈ m := by
    refine List.mem_of_mem_filter (p := isWarning t) ?_
    rw [hfilter, hone]
    exact List.mem_singleton_self _
  exact (toldBetween_of_mem hm hmem).before hacts.does

/-- A report takes an ONLINE train out of specification. -/
theorem own_leaves (hon : v.state = .online) (hout : v.leaves) : ((testAndAssess t v u).dry.trains[t]).state = .offSpec
    ∧ ((testAndAssess t v u).dry.trains[t]).excursion = none
    ∧ toldBetween u (testAndAssess t v u) [⟨gasTime u, .offSpec, some t.val, some v.dew⟩] := by
  obtain ⟨p, l, hacts, hdry⟩ := h.tested t u
  have hown : (setAndTest t v u).dry.trains[t] = v.defer p := by rw [hdry, putTrain_own]
  have hmask' : ((setAndTest t v u).dry.trains[t]).mask = 0 := by rw [hown]; exact hmask
  have hon' : ((setAndTest t v u).dry.trains[t]).state = .online := by rw [hown]; exact hon
  have hout' : ((setAndTest t v u).dry.trains[t]).leaves := by rw [hown]; exact hout
  have htold := told_assess_leaves hmask' hon' hout'
  have hrow := assess_leaves_train hmask' hon' hout'
  rw [hown, hacts.does.gasTime (by decide)] at htold
  have hstate := congrArg Train.state hrow
  have hexc := congrArg Train.excursion hrow
  exact ⟨hstate, hexc, htold.before hacts.does⟩

/-- A report leaves an ONLINE train ONLINE. -/
theorem own_online (hon : v.state = .online) (hin : ¬v.leaves) : (testAndAssess t v u).flow.dir = u.flow.dir
    ∧ ((testAndAssess t v u).dry.trains[t]).state = .online
    ∧ ((testAndAssess t v u).dry.trains[t]).excursion = if v.cfg.spec < v.dew then some (v.excursion.getD v.cfg.excursionDelay) else none := by
  obtain ⟨p, l, hacts, hdry⟩ := h.tested t u
  have hown : (setAndTest t v u).dry.trains[t] = v.defer p := by rw [hdry, putTrain_own]
  obtain ⟨hassess, hrow⟩ := assess_stays (s := setAndTest t v u) (t := t) (hand := handWithdrawal) (by rw [hown]; exact hmask)
    (by rw [hown]; exact hon) (by rw [hown]; exact hin)
  have hflow : (testAndAssess t v u).flow = u.flow := (hacts.trans hassess).parts .flow (by decide)
  have hend : (testAndAssess t v u).dry.trains[t] = (v.defer p).excursionSet.armedSet := by
    rw [testAndAssess, hrow, putTrain_own, hown]
  rw [hflow, hend]
  exact ⟨rfl, hon, rfl⟩

/-- A report leaves an OFF_SPEC train OFF_SPEC. -/
theorem own_waits (hoff : v.state = .offSpec) (hin : ¬v.returns) : ((testAndAssess t v u).dry.trains[t]).state = .offSpec
    ∧ ((testAndAssess t v u).dry.trains[t]).recovery = if v.dew < v.cfg.warn then some (v.recovery.getD v.cfg.recoveryDelay) else none := by
  obtain ⟨p, l, hacts, hdry⟩ := h.tested t u
  have hown : (setAndTest t v u).dry.trains[t] = v.defer p := by rw [hdry, putTrain_own]
  obtain ⟨hassess, hrow⟩ := assess_waits (s := setAndTest t v u) (t := t) (hand := handWithdrawal) (by rw [hown]; exact hmask)
    (by rw [hown]; exact hoff) (by rw [hown]; exact hin)
  have hend : (testAndAssess t v u).dry.trains[t] = (v.defer p).armedSet.recoverySet := by
    rw [testAndAssess, hrow, putTrain_own, hown]
  rw [hend]
  exact ⟨hoff, rfl⟩

/-- A report that brings an OFF_SPEC train back tells it. -/
theorem own_returns_told (hoff : v.state = .offSpec) (hback : v.returns) :
    toldBetween u (testAndAssess t v u) [⟨gasTime u, .onSpec, some t.val, some v.dew⟩] := by
  obtain ⟨p, l, hacts, hdry⟩ := h.tested t u
  have hown : (setAndTest t v u).dry.trains[t] = v.defer p := by rw [hdry, putTrain_own]
  have htold := told_assess_returns (s := setAndTest t v u) (t := t) (by rw [hown]; exact hmask) (by rw [hown]; exact hoff)
    (by rw [hown]; exact hback)
  rw [hown, hacts.does.gasTime (by decide)] at htold
  exact htold.before hacts.does

/-- A report brings an OFF_SPEC train back. -/
theorem own_returns (hoff : v.state = .offSpec) (hback : v.returns) (hwarn : v.cfg.warn ≤ v.cfg.spec) (hcur : wdrCurrent (putTrain t v u)) :
    (testAndAssess t v u).flow.dir = u.flow.dir ∧ ((testAndAssess t v u).dry.trains[t]).state = backState u.flow.dir
    ∧ ((testAndAssess t v u).dry.trains[t]).mask = v.cfg.maskChoice ∧ ((testAndAssess t v u).dry.trains[t]).recovery = none := by
  obtain ⟨p, l, hacts, hdry⟩ := h.tested t u
  have hown : (setAndTest t v u).dry.trains[t] = v.defer p := by rw [hdry, putTrain_own]
  have hflow : (setAndTest t v u).flow = u.flow := hacts.parts .flow (by decide)
  have hrec := assess_returns_train (s := setAndTest t v u) (t := t) (by rw [hown]; exact hmask) (by rw [hown]; exact hoff)
    (by rw [hown]; exact hback) (by rw [hown]; exact hwarn) ((wdrTrain t).bedTest hcur)
  obtain ⟨hstate, hchoice, hrecovery, hcourse, _⟩ := hrec
  rw [hown] at hchoice
  rw [hflow] at hstate hcourse
  exact ⟨(course_fields hcourse).1.1, hstate, hchoice, hrecovery⟩

end

end Sys2Proof.Machine
end

section
/-! SUPPORT. A station report as one train sees it (R145): O50. -/

namespace Sys2Proof.Machine

/-- The acts of a report. -/
def reportActs (b : Block) : List (State → State) := [reportMeter b, reportUnits b, reportTrains b]

section
variable {s : State} {b : Block} {j : Fin 2} {P : State → Prop} {Q : Train → Prop}

theorem takeReport_eq (b : Block) (s : State) : takeReport b s = gathered (inAnyOrder (reportActs b)) s := rfl

/-- What the train's own part makes of its body, the report makes. -/
theorem report_of_body (hP : Beside j P)
    (hmake : ∀ v, (v.dry.trains[j]).body = (s.dry.trains[j]).body → Does reportParts s v → P (reportOwn b j v)) :
    P (inAnyOrder (reportActs b) s) := by
  have hK : Beside j (fun u => (u.dry.trains[j]).body = (s.dry.trains[j]).body) :=
    ShareFree.movedBeside (Q := fun y => y.body = (s.dry.trains[j]).body) (fun _ _ h => h) fun _ _ hm h => hm.body.trans h
  exact takeReport_makes b hP (K := fun u => (u.dry.trains[j]).body = (s.dry.trains[j]).body) rfl hK.setWorld (fun _ hu => hK.reportMeter b hu)
    (fun _ hu => hK.reportUnits b hu) fun _ v hu _ hv hd => hmake v ((unshared_body hv).trans hu) hd

/-- The events that the train's own part tells, the report tells. -/
theorem report_tells (es : List Raised)
    (hmake : ∀ v, (v.dry.trains[j]).body = (s.dry.trains[j]).body → Does reportParts s v → toldBetween s (reportOwn b j v) es) :
    toldBetween s (inAnyOrder (reportActs b) s) es := report_of_body (P := fun u => toldBetween s u es) (toldBeside s es) hmake

/-- The train is ONLINE while S withdraws: no injection capacity cuts it. -/
def withdraws (x : Train) (j : Fin 2) (u : State) : Prop := u.flow.setpoint ≤ 0 ∧ (u.dry.trains[j]).unshared = x.unshared

theorem withdraws_handInjection {x : Train} (h : withdraws x j s) : withdraws x j (handInjection s) := by
  refine handInjection_preserves (withdraws x j) s (fun u hu => ?_) (fun c u hu => ?_) (fun _ _ hu => hu) h
  · rw [withdraws, (recut_plant u).2.2, recut_trains]
    exact hu
  · rw [receiveInj_rest fun hcut => absurd hcut.2 (by have := hu.1; omega)]
    exact hu

/-- What the train's own part makes of its record, the report makes, where no unit's part can change that record. -/
theorem report_of_row (hP : Beside j P) (hcase : (s.dry.trains[j]).inService = false ∨ s.flow.setpoint ≤ 0)
    (hmake : ∀ v, (v.dry.trains[j]).unshared = (s.dry.trains[j]).unshared → Does reportParts s v → P (reportOwn b j v)) :
    P (inAnyOrder (reportActs b) s) := by
  rcases hcase with hrest | hset
  · have hK : Beside j (fun u => (u.dry.trains[j]).unshared = (s.dry.trains[j]).unshared) := by
      refine (shareFree_unshared s.dry.trains[j]).restsBeside fun y hy => ?_
      have hstate := congrArg Train.state hy
      exact (congrArg (fun st : TrainState => st == .standby || st == .online) hstate).trans hrest
    exact takeReport_makes b hP (K := fun u => (u.dry.trains[j]).unshared = (s.dry.trains[j]).unshared) rfl hK.setWorld
      (fun _ hu => hK.reportMeter b hu) (fun _ hu => hK.reportUnits b hu) fun _ v hu _ hv hd => hmake v (hv.trans hu) hd
  · have hunit (i : Fin 6) : UnitKept i (withdraws s.dry.trains[j] j) (withdraws s.dry.trains[j] j) :=
      .whole (fun _ _ _ _ _ hu => hu) (fun _ _ _ hu => hu) fun _ hu => withdraws_handInjection hu
    refine takeReport_makes b hP (K := withdraws s.dry.trains[j] j) ⟨hset, rfl⟩ (fun _ _ hu => hu) (fun u hu => ?_) (fun u hu => ?_)
      fun _ v hu _ hv hd => hmake v (hv.trans hu.2) hd
    · have hmeter := does_reportMeter u b
      rw [withdraws, hmeter.flow_eq (by decide), hmeter.dry_eq (by decide)]
      exact hu
    · exact foldl_preserves (withdraws s.dry.trains[j] j)
        (fun i v => reportUnit i (fieldW b (6 + 3 * i.val)) (fieldI2 b (7 + 3 * i.val)) v) _ (fun i _ _ hv => (hunit i).reportUnit _ _ hv) u hu

/-! ### Its beds -/

/-- What a report makes of the train's record `w` as it takes it: beds, flags and their events. -/
structure BedsReported (j : Fin 2) (w : Train) (s t : State) : Prop where
  rests : w.adsorbing = none → hasBody j w t
  swaps : ∀ k, w.adsorbing = some k → reachedSwap w (w.bed k) = true → (w.bed k.partner).state = .ready →
    hasMasked j (w.swapped k) t ∧ toldBetween s t [swapTold s j k.partner]
  stays : ∀ k, w.adsorbing = some k → ¬(reachedSwap w (w.bed k) = true ∧ (w.bed k.partner).state = .ready) →
    hasBody j (w.stayed k) t
    ∧ (reachedSwap w (w.bed k) = true → w.deferred = false →
        toldBetween s t [⟨gasTime s, .bedSwapDeferred, some j.val, some (bedPermille w (w.bed k) : Int)⟩])
    ∧ (w.saturated k = true → w.degraded = false →
        toldBetween s t [⟨gasTime s, .trainDegraded, some j.val, some (w.degradedContribution : Int)⟩])

theorem hasBody_beside (w : Train) : Beside j (hasBody j w) :=
  ShareFree.movedBeside (Q := fun y => y.body = w.body) (fun _ _ h => h) fun _ _ hm h => hm.body.trans h

theorem hasMasked_beside (w : Train) : Beside j (hasMasked j w) := by
  refine ShareFree.movedBeside (Q := fun y => y.body = w.body ∧ y.mask = w.cfg.maskChoice) (fun _ _ h => h) fun x y hm h =>
    ⟨hm.body.trans h.1, hm.mask.elim (fun he => he.trans h.2) fun he => he.trans ?_⟩
  rw [(body_cfg h.1).1]

theorem bedPermille_alike {x y : Train} (h : Alike x y) (k : Side) : bedPermille y (y.bed k) = bedPermille x (x.bed k) := by
  rw [bedPermille, bedPermille, Train.capUnits, Train.capUnits, h.bedCap, h.bed]

theorem report_beds (b : Block) (j : Fin 2) (s : State) :
    BedsReported j ((s.dry.trains[j]).reported s b j) s (inAnyOrder (reportActs b) s) := by
  have hown (v : State) (hbody : (v.dry.trains[j]).body = (s.dry.trains[j]).body) (hd : Does reportParts s v) :
      ((v.dry.trains[j]).reported v b j).body = ((s.dry.trains[j]).reported s b j).body := by
    rw [reported_curves (hd.curves_eq (by decide))]
    exact reported_body hbody
  generalize (s.dry.trains[j]).reported s b j = w at hown
  refine ⟨fun hnone => ?_, fun k hads hreach hready => ?_, fun k hads hstay => ?_⟩
  · refine report_of_body (P := hasBody j w) (hasBody_beside w) fun v hbody hd => ?_
    have halike := Alike.of_body (hown v hbody hd)
    have hrow := own_rests (u := v) (t := j) (v := (v.dry.trains[j]).reported v b j) (by rw [halike.adsorbing]; exact hnone)
    rw [reportOwn_eq]
    exact hrow.trans (hown v hbody hd)
  · have hboth (v : State) (hbody : (v.dry.trains[j]).body = (s.dry.trains[j]).body) (hd : Does reportParts s v) :
        hasMasked j (w.swapped k) (reportOwn b j v) ∧ toldBetween s (reportOwn b j v) [swapTold s j k.partner] := by
      have halike := Alike.of_body (hown v hbody hd)
      obtain ⟨⟨hrow, hmask⟩, htold⟩ := own_swaps (u := v) (t := j) (v := (v.dry.trains[j]).reported v b j) (k := k)
        (by rw [halike.adsorbing]; exact hads) (by rw [halike.reached]; exact hreach) (by rw [halike.bed]; exact hready)
      rw [swapTold, hd.gasTime (by decide)] at htold
      rw [reportOwn_eq]
      refine ⟨⟨hrow.trans (swapped_congr (hown v hbody hd) k), hmask.trans ?_⟩, htold.before hd⟩
      rw [swapped_cfg, swapped_cfg, halike.cfg]
    exact ⟨report_of_body (P := hasMasked j (w.swapped k)) (hasMasked_beside _) fun v hv hd => (hboth v hv hd).1,
      report_tells _ fun v hv hd => (hboth v hv hd).2⟩
  · have hall (v : State) (hbody : (v.dry.trains[j]).body = (s.dry.trains[j]).body) (hd : Does reportParts s v) :
        hasBody j (w.stayed k) (reportOwn b j v)
        ∧ (reachedSwap w (w.bed k) = true → w.deferred = false →
            toldBetween s (reportOwn b j v) [⟨gasTime s, .bedSwapDeferred, some j.val, some (bedPermille w (w.bed k) : Int)⟩])
        ∧ (w.saturated k = true → w.degraded = false →
            toldBetween s (reportOwn b j v) [⟨gasTime s, .trainDegraded, some j.val, some (w.degradedContribution : Int)⟩]) := by
      have halike := Alike.of_body (hown v hbody hd)
      obtain ⟨hrow, hdefers, hdegrades⟩ := own_stays (u := v) (t := j) (v := (v.dry.trains[j]).reported v b j) (k := k)
        (by rw [halike.adsorbing]; exact hads) (by rw [halike.reached, halike.bed]; exact hstay)
      rw [halike.reached, halike.deferred, hd.gasTime (by decide), bedPermille_alike halike] at hdefers
      rw [halike.saturated, halike.degraded, hd.gasTime (by decide), degradedContribution_congr halike.cfg] at hdegrades
      rw [reportOwn_eq]
      exact ⟨hrow.trans (stayed_congr (hown v hbody hd) k), fun h1 h2 => (hdefers h1 h2).before hd, fun h1 h2 => (hdegrades h1 h2).before hd⟩
    exact ⟨report_of_body (P := hasBody j (w.stayed k)) (hasBody_beside _) fun v hv hd => (hall v hv hd).1,
      fun h1 h2 => report_tells _ fun v hv hd => (hall v hv hd).2.1 h1 h2,
      fun h1 h2 => report_tells _ fun v hv hd => (hall v hv hd).2.2 h1 h2⟩

end

end Sys2Proof.Machine
end

section
/-! SUPPORT. The dew point of a report settled (R152 to R155): O50. -/

namespace Sys2Proof.Machine

section
variable {x y : Train}

/-- What two records that differ in their share have in common of the dew point. -/
structure SameDew (x y : Train) : Prop where
  state : y.state = x.state
  mask : y.mask = x.mask
  armed : y.armed = x.armed
  cfg : y.cfg = x.cfg
  dew : y.dew = x.dew
  excursion : y.excursion = x.excursion
  recovery : y.recovery = x.recovery

theorem SameDew.of_unshared (h : y.unshared = x.unshared) : SameDew x y := by
  rw [Machine.of_unshared h]
  exact ⟨rfl, rfl, rfl, rfl, rfl, rfl, rfl⟩

theorem SameDew.leaves (h : SameDew x y) : y.leaves ↔ x.leaves := by rw [Train.leaves, Train.leaves, h.cfg, h.dew, h.excursion]

theorem SameDew.returns (h : SameDew x y) : y.returns ↔ x.returns := by rw [Train.returns, Train.returns, h.cfg, h.dew, h.recovery]

theorem Train.steady.alike (hx : x.steady) (h : Alike x y) : y.steady := by
  rcases hx with hnone | ⟨k, hads, hstay, hsat⟩
  · exact .inl (h.adsorbing.trans hnone)
  · exact .inr ⟨k, h.adsorbing.trans hads, by rw [h.reached, h.bed]; exact hstay, by rw [h.saturated, h.degraded]; exact hsat⟩

end

theorem offSpec_beside {j : Fin 2} {Q : Train → Prop} (hQ : ShareFree Q) : Beside j (fun u => (u.dry.trains[j]).state = .offSpec ∧ Q u.dry.trains[j]) :=
  ShareFree.restsBeside (Q := fun y => y.state = .offSpec ∧ Q y) (fun _ _ h => ⟨h.1, hQ _ _ h.2⟩) fun y hy => by rw [Train.inService, hy.1]; rfl

section
variable {s : State} {b : Block} {j : Fin 2} {w : Train}
  (hw : (s.dry.trains[j]).reported s b j = w) (hsteady : w.steady) (hmask : w.mask = 0)

section
include hw

/-- The record that the train's own part takes up. -/
theorem own_reported {v : State} (hv : (v.dry.trains[j]).unshared = (s.dry.trains[j]).unshared) (hd : Does reportParts s v) :
    ((v.dry.trains[j]).reported v b j).unshared = w.unshared := by
  rw [reported_curves (hd.curves_eq (by decide)), ← hw]
  exact reported_unshared hv

end

include hw hsteady hmask

/-- The warning of a report. -/
theorem report_warned (hst : w.state = .online ∨ w.state = .offSpec) (hcase : (s.dry.trains[j]).inService = false ∨ s.flow.setpoint ≤ 0) :
    ((inAnyOrder (reportActs b) s).dry.trains[j]).armed = decide (w.dew < w.cfg.warn)
    ∧ (w.armed = true → w.cfg.warn ≤ w.dew →
        toldBetween s (inAnyOrder (reportActs b) s) [⟨gasTime s, .dewWarning, some j.val, some w.dew⟩]) := by
  have hown (v : State) (hv : (v.dry.trains[j]).unshared = (s.dry.trains[j]).unshared) (hd : Does reportParts s v) :
      (((reportOwn b j v).dry.trains[j]).dew = w.dew ∧ ((reportOwn b j v).dry.trains[j]).cfg = w.cfg
        ∧ ((reportOwn b j v).dry.trains[j]).armed = decide (w.dew < w.cfg.warn))
      ∧ (w.armed = true → w.cfg.warn ≤ w.dew → toldBetween s (reportOwn b j v) [⟨gasTime s, .dewWarning, some j.val, some w.dew⟩]) := by
    have hrow := own_reported hw hv hd
    have hsame := SameDew.of_unshared hrow
    have hwarn := own_warned (u := v) (t := j) (hsteady.alike (.of_body (unshared_body hrow))) (hsame.mask.trans hmask) (by rw [hsame.state]; exact hst)
    rw [hsame.dew, hsame.cfg, hsame.armed, hd.gasTime (by decide)] at hwarn
    rw [reportOwn_eq]
    exact ⟨hwarn.1, fun h1 h2 => (hwarn.2 h1 h2).before hd⟩
  have hQ : Beside j (fun u => (u.dry.trains[j]).dew = w.dew ∧ (u.dry.trains[j]).cfg = w.cfg ∧ (u.dry.trains[j]).armed = decide (w.dew < w.cfg.warn)) := by
    refine ShareFree.movedBeside (Q := fun y => y.dew = w.dew ∧ y.cfg = w.cfg ∧ y.armed = decide (w.dew < w.cfg.warn))
      (fun _ _ h => h) fun x y hm hx => ?_
    obtain ⟨hcfg, hdew⟩ := body_cfg hm.body
    refine ⟨hdew.trans hx.1, hcfg.trans hx.2.1, hm.armed.elim (fun h => h.trans hx.2.2) fun h => h.trans ?_⟩
    rw [hx.1, hx.2.1]
  exact ⟨(report_of_row hQ hcase fun v hv hd => (hown v hv hd).1).2.2, fun h1 h2 =>
    report_of_row (P := fun u => toldBetween s u [⟨gasTime s, .dewWarning, some j.val, some w.dew⟩]) (toldBeside s _) hcase
      fun v hv hd => (hown v hv hd).2 h1 h2⟩

/-- A report takes the train out of specification. -/
theorem report_leaves (hon : w.state = .online) (hout : w.leaves) (hset : s.flow.setpoint ≤ 0) :
    (((inAnyOrder (reportActs b) s).dry.trains[j]).state = .offSpec ∧ ((inAnyOrder (reportActs b) s).dry.trains[j]).excursion = none)
    ∧ toldBetween s (inAnyOrder (reportActs b) s) [⟨gasTime s, .offSpec, some j.val, some w.dew⟩] := by
  have hown (v : State) (hv : (v.dry.trains[j]).unshared = (s.dry.trains[j]).unshared) (hd : Does reportParts s v) :
      (((reportOwn b j v).dry.trains[j]).state = .offSpec ∧ ((reportOwn b j v).dry.trains[j]).excursion = none)
      ∧ toldBetween s (reportOwn b j v) [⟨gasTime s, .offSpec, some j.val, some w.dew⟩] := by
    have hrow := own_reported hw hv hd
    have hsame := SameDew.of_unshared hrow
    obtain ⟨hstate, hexc, htold⟩ := own_leaves (u := v) (t := j) (hsteady.alike (.of_body (unshared_body hrow))) (hsame.mask.trans hmask)
      (hsame.state.trans hon) (hsame.leaves.mpr hout)
    rw [hsame.dew, hd.gasTime (by decide)] at htold
    rw [reportOwn_eq]
    exact ⟨⟨hstate, hexc⟩, htold.before hd⟩
  exact ⟨report_of_row (P := fun u => (u.dry.trains[j]).state = .offSpec ∧ (u.dry.trains[j]).excursion = none)
    (offSpec_beside (Q := fun y => y.excursion = none) fun _ _ h => h) (.inr hset) fun v hv hd => (hown v hv hd).1,
    report_of_row (P := fun u => toldBetween s u [⟨gasTime s, .offSpec, some j.val, some w.dew⟩]) (toldBeside s _) (.inr hset)
      fun v hv hd => (hown v hv hd).2⟩

/-- A report leaves the train ONLINE while the part withdraws. -/
theorem report_online (hon : w.state = .online) (hin : ¬w.leaves) (hdir : s.flow.dir = .withdrawing) :
    (inAnyOrder (reportActs b) s).flow.dir = .withdrawing → ((inAnyOrder (reportActs b) s).dry.trains[j]).state = .online
      ∧ ((inAnyOrder (reportActs b) s).dry.trains[j]).excursion
        = if w.cfg.spec < w.dew then some (w.excursion.getD w.cfg.excursionDelay) else none := by
  have hwhile : whileDir .withdrawing j (fun y => y.state = .online
      ∧ y.excursion = if w.cfg.spec < w.dew then some (w.excursion.getD w.cfg.excursionDelay) else none) (inAnyOrder (reportActs b) s) := by
    refine takeReport_while (fun _ _ h => h) (fun y hy => ⟨fun _ => by rw [hy.1]; nofun, fun h => absurd rfl h⟩) b
      (x := s.dry.trains[j]) rfl hdir fun v hv hvx hd _ => ?_
    have hrow := own_reported hw hvx hd
    have hsame := SameDew.of_unshared hrow
    obtain ⟨hkeeps, hstate, hexc⟩ := own_online (u := v) (t := j) (hsteady.alike (.of_body (unshared_body hrow))) (hsame.mask.trans hmask)
      (hsame.state.trans hon) (fun h => hin (hsame.leaves.mp h))
    rw [hsame.dew, hsame.cfg, hsame.excursion] at hexc
    rw [reportOwn_eq]
    exact .inl ⟨hkeeps.trans hv, hstate, hexc⟩
  exact fun hend => (hwhile.resolve_right fun h => h.1 hend).2

/-- A report leaves the train OFF_SPEC. -/
theorem report_waits (hoff : w.state = .offSpec) (hrest : (s.dry.trains[j]).inService = false) (hin : ¬w.returns) :
    ((inAnyOrder (reportActs b) s).dry.trains[j]).state = .offSpec
    ∧ ((inAnyOrder (reportActs b) s).dry.trains[j]).recovery = if w.dew < w.cfg.warn then some (w.recovery.getD w.cfg.recoveryDelay) else none := by
  refine report_of_row (P := fun u => (u.dry.trains[j]).state = .offSpec
      ∧ (u.dry.trains[j]).recovery = if w.dew < w.cfg.warn then some (w.recovery.getD w.cfg.recoveryDelay) else none)
    (offSpec_beside (Q := fun y => y.recovery = if w.dew < w.cfg.warn then some (w.recovery.getD w.cfg.recoveryDelay) else none)
    fun _ _ h => h) (.inl hrest) fun v hv hd => ?_
  have hrow := own_reported hw hv hd
  have hsame := SameDew.of_unshared hrow
  have hwait := own_waits (u := v) (t := j) (hsteady.alike (.of_body (unshared_body hrow))) (hsame.mask.trans hmask)
    (hsame.state.trans hoff) (fun h => hin (hsame.returns.mp h))
  rw [hsame.dew, hsame.cfg, hsame.recovery] at hwait
  rw [reportOwn_eq]
  exact hwait

/-- A report brings the train back while the direction stands. -/
theorem report_returns (hoff : w.state = .offSpec) (hrest : (s.dry.trains[j]).inService = false) (hback : w.returns)
    (hwarn : w.cfg.warn ≤ w.cfg.spec) (hcur : wdrCurrent s) (hfig : w.figure = (s.dry.trains[j]).figure) :
    ((inAnyOrder (reportActs b) s).flow.dir = s.flow.dir →
      ((inAnyOrder (reportActs b) s).dry.trains[j]).state = backState s.flow.dir
      ∧ ((inAnyOrder (reportActs b) s).dry.trains[j]).mask = w.cfg.maskChoice
      ∧ ((inAnyOrder (reportActs b) s).dry.trains[j]).recovery = none)
    ∧ toldBetween s (inAnyOrder (reportActs b) s) [⟨gasTime s, .onSpec, some j.val, some w.dew⟩] := by
  have hwhile : whileDir s.flow.dir j (fun y => y.state = backState s.flow.dir ∧ y.mask = w.cfg.maskChoice ∧ y.recovery = none)
      (inAnyOrder (reportActs b) s) := by
    refine takeReport_while (fun _ _ h => h) (fun y hy => ?_) b (x := s.dry.trains[j]) rfl rfl fun v hv hvx hd hc => ?_
    · rw [hy.1, backState]
      exact ⟨fun hd => by rw [if_pos hd]; nofun, fun hd => by rw [if_neg hd]; nofun⟩
    · have hrow := own_reported hw hvx hd
      have hsame := SameDew.of_unshared hrow
      have hfigure : ((v.dry.trains[j]).reported v b j).figure = (v.dry.trains[j]).figure := by
        rw [Machine.of_unshared hrow, Machine.of_unshared hvx]
        exact hfig
      obtain ⟨hkeeps, hstate, hmaskset, hrec⟩ := own_returns (u := v) (t := j) (hsteady.alike (.of_body (unshared_body hrow))) (hsame.mask.trans hmask)
        (hsame.state.trans hoff) (hsame.returns.mpr hback) (by rw [hsame.cfg]; exact hwarn) (wdrCurrent_putTrain hfigure (hc hcur))
      rw [hv] at hstate
      rw [hsame.cfg] at hmaskset
      rw [reportOwn_eq]
      exact .inl ⟨hkeeps.trans hv, hstate, hmaskset, hrec⟩
  refine ⟨fun hend => (hwhile.resolve_right fun h => h.1 hend).2, ?_⟩
  refine report_of_row (P := fun u => toldBetween s u [⟨gasTime s, .onSpec, some j.val, some w.dew⟩]) (toldBeside s _) (.inl hrest) fun v hv hd => ?_
  have hrow := own_reported hw hv hd
  have hsame := SameDew.of_unshared hrow
  have htold := own_returns_told (u := v) (t := j) (hsteady.alike (.of_body (unshared_body hrow))) (hsame.mask.trans hmask)
    (hsame.state.trans hoff) (hsame.returns.mpr hback)
  rw [hsame.dew, hd.gasTime (by decide)] at htold
  rw [reportOwn_eq]
  exact htold.before hd

end

end Sys2Proof.Machine
end

section
/-! SUPPORT. The train part of a report (R145): O50. -/

namespace Sys2Proof.Machine

section
variable {x w : Train} {cap : Nat}

theorem adsorbing_state {k : Side} (h : x.adsorbing = some k) : (x.bed k).state = .adsorbing := by
  unfold Train.adsorbing at h
  split_ifs at h with hlo hhi
  · rw [← Option.some.inj h]
    exact hlo
  · rw [← Option.some.inj h]
    exact hhi

/-- The figures of the bed test, in terms of the bed capacity formed. -/
theorem reached_formed (hcap : w.bedCap = cap) (hcfg : w.cfg = x.cfg) (hbed : ∀ k, w.bed k = x.bed k) (k : Side) :
    reachedSwap w (w.bed k) = decide (cap * 3600000000 * x.cfg.swapPoint ≤ (x.bed k).load * 1000) := by
  rw [reachedSwap, Train.capUnits, hcap, hcfg, hbed]

theorem saturated_formed (hcap : w.bedCap = cap) (hbed : ∀ k, w.bed k = x.bed k) (k : Side) :
    w.saturated k = decide (cap * 3600000000 ≤ (x.bed k).load) := by rw [Train.saturated, Train.capUnits, hcap, hbed]

theorem bedPermille_formed (hcap : w.bedCap = cap) (hbed : ∀ k, w.bed k = x.bed k) (k : Side) : (bedPermille w (w.bed k) : Int) =
    if cap * 3600000000 = 0 then (1000 : Int) else (((x.bed k).load * 1000 / (cap * 3600000000) : Nat) : Int) := by
  rw [bedPermille, Train.capUnits, hcap, hbed, Nat.cast_ite]
  rfl

end

section
variable {s : State} {b : Block} {j : Fin 2} {w : Train}

theorem takeReport_train (b : Block) (s : State) (j : Fin 2) :
    (takeReport b s).dry.trains[j] = (inAnyOrder (reportActs b) s.gatheringEvents).dry.trains[j] := by
  rw [takeReport_eq]
  exact gathered_train (f := inAnyOrder (reportActs b)) j

theorem takeReport_flow (b : Block) (s : State) : (takeReport b s).flow = (inAnyOrder (reportActs b) s.gatheringEvents).flow := by
  rw [takeReport_eq]
  exact gathered_flow (inAnyOrder (reportActs b)) s

theorem takeReport_tells {k : EventKind} {a : Option Nat} {v : Option Int}
    (h : toldBetween s.gatheringEvents (inAnyOrder (reportActs b) s.gatheringEvents) [⟨gasTime s, k, a, v⟩]) :
    ∃ l m : List Raised, (takeReport b s).evq = s.evq.pushAll (l ++ ⟨gasTime s, k, a, v⟩ :: m) := by
  rw [takeReport_eq]
  exact gathered_tells (f := inAnyOrder (reportActs b)) h

/-- No bed test changes the bed capacity. -/
theorem BedsReported.bedCap {t : State} (h : BedsReported j w s t) : (t.dry.trains[j]).bedCap = w.bedCap := by
  cases hads : w.adsorbing with
  | none => exact (Alike.of_body (h.rests hads)).bedCap
  | some k =>
    by_cases hswap : reachedSwap w (w.bed k) = true ∧ (w.bed k.partner).state = .ready
    · exact (Alike.of_body (h.swaps k hads hswap.1 hswap.2).1.1).bedCap.trans (by cases k <;> rfl)
    · exact (Alike.of_body (h.stays k hads hswap).1).bedCap.trans (stayed_fields w k).1.2.2

end

theorem setpoint_withdrawing {f : Flow} (h : setpointSafe f = true) (hdir : f.dir = .withdrawing) : f.setpoint ≤ 0 := by
  simp only [setpointSafe, Bool.and_eq_true, Bool.or_eq_true, decide_eq_true_eq, beq_iff_eq, hdir] at h
  obtain ⟨⟨_, hneg⟩, _⟩ := h
  exact hneg.resolve_right nofun

/-- Settles O50: of a report only the train's own part takes up its record, and what follows keeps what that part made. -/
theorem reportsTestBedsAndDewPoint : Obligations.ReportsTestBedsAndDewPoint := by
  intro s b j hr hu hlen x temp dew bedCap units reached saturated
  obtain ⟨w, hw⟩ : ∃ w, (s.dry.trains[j]).reported s b j = w := ⟨_, rfl⟩
  have hcap : w.bedCap = bedCap := by
    rw [← hw]
    show (match x.cfg.curve with
      | none => 0
      | some c => if x.configured then evalCurve s.curves[c] temp else 0) = bedCap
    dsimp only [bedCap]
    cases hcurve : x.cfg.curve <;> cases hconf : x.configured <;> rfl
  have hkeeps : w.cfg = x.cfg ∧ w.dew = dew ∧ w.state = x.state ∧ w.mask = x.mask ∧ w.armed = x.armed ∧ w.degraded = x.degraded
      ∧ w.deferred = x.deferred ∧ w.excursion = x.excursion ∧ w.recovery = x.recovery ∧ w.lo = x.lo ∧ w.hi = x.hi := by
    rw [← hw]
    exact ⟨rfl, rfl, rfl, rfl, rfl, rfl, rfl, rfl, rfl, rfl, rfl⟩
  obtain ⟨hcfg, hdew, hstate, hmask, harmed, hdeg, hdef, hexc, hrec, hlo, hhi⟩ := hkeeps
  have hbed (k : Side) : w.bed k = x.bed k := by
    cases k
    · exact hlo
    · exact hhi
  have hreach (k : Side) : reachedSwap w (w.bed k) = true ↔ reached (x.bed k) := by
    rw [reached_formed hcap hcfg hbed, decide_eq_true_iff]
  have hsat (k : Side) : w.saturated k = saturated (x.bed k) := saturated_formed hcap hbed k
  have hads (k : Side) (h : (x.bed k).state = .adsorbing) (hp : (x.bed k.partner).state ≠ .adsorbing) : w.adsorbing = some k :=
    adsorbing_some (by rw [hbed]; exact h) (by rw [hbed]; exact hp)
  have hw' : (s.gatheringEvents.dry.trains[j]).reported s.gatheringEvents b j = w := hw
  have hbeds : BedsReported j w s.gatheringEvents (inAnyOrder (reportActs b) s.gatheringEvents) := by
    rw [← hw']
    exact report_beds b j s.gatheringEvents
  refine ⟨takeReport b s, _, exec_stationReport hr hu hlen, takeReport_follows b s, ?_⟩
  rw [takeReport_train, takeReport_flow]
  dsimp only
  have hnone (h : x.lo.state ≠ .adsorbing) (h' : x.hi.state ≠ .adsorbing) : w.adsorbing = none :=
    adsorbing_none (j := .lo) (by rw [hbed]; exact h) (by rw [hbed]; exact h')
  have hoffSpec (h : x.state = .offSpec) : (s.gatheringEvents.dry.trains[j]).inService = false := by
    show x.inService = false
    rw [Train.inService, h]
    rfl
  refine ⟨hbeds.bedCap.trans hcap, fun h1 h2 => ?_, fun i h1 h2 => ⟨fun h3 h4 => ?_, fun h3 => ?_⟩, fun hquiet hclear hm hsafe => ?_⟩
  · have halike := Alike.of_body (hbeds.rests (hnone h1 h2))
    exact ⟨halike.lo.trans hlo, halike.hi.trans hhi, halike.degraded.trans hdeg, halike.deferred.trans hdef⟩
  · obtain ⟨⟨hbody, hmasked⟩, htold⟩ := hbeds.swaps i (hads i h1 h2) ((hreach i).mpr h3) (by rw [hbed]; exact h4)
    have halike := Alike.of_body hbody
    obtain ⟨hheats, hadsorbs⟩ := swapped_beds w i
    rw [hbed, hcfg] at hheats
    rw [swapped_cfg, hcfg] at hmasked
    exact ⟨(halike.bed i).trans hheats, (halike.bed _).trans hadsorbs, halike.degraded.trans (by cases i <;> rfl),
      halike.deferred.trans (by cases i <;> rfl), hmasked, takeReport_tells htold⟩
  · have hstay : ¬(reachedSwap w (w.bed i) = true ∧ (w.bed i.partner).state = .ready) := by
      rw [hreach, hbed]
      exact h3
    obtain ⟨hbody, hdefers, hdegrades⟩ := hbeds.stays i (hads i h1 h2) hstay
    have halike := Alike.of_body hbody
    obtain ⟨_, hlo', hhi', _⟩ := stayed_fields w i
    rw [hreach, hdef, bedPermille_formed hcap hbed] at hdefers
    rw [hsat, hdeg, Train.degradedContribution, hcfg] at hdegrades
    refine ⟨halike.lo.trans (hlo'.trans hlo), halike.hi.trans (hhi'.trans hhi), halike.degraded.trans ((stayed_degraded w i).trans (hsat i)),
      halike.deferred.trans ((stayed_deferred w i).trans (Bool.eq_iff_iff.mpr ?_)), fun h5 h6 => takeReport_tells (hdefers h5 h6),
      fun h5 h6 => takeReport_tells (hdegrades h5 h6), fun h5 hm hsafe hst => ?_⟩
    · rw [hreach, decide_eq_true_iff]
    · have hsteady : w.steady := .inr ⟨i, hads i h1 h2, hstay, by rw [hsat, hdeg]; exact h5⟩
      have hcase : (s.gatheringEvents.dry.trains[j]).inService = false ∨ s.gatheringEvents.flow.setpoint ≤ 0 :=
        hst.elim (fun h => .inr (setpoint_withdrawing hsafe h.2)) fun h => .inl (hoffSpec h)
      obtain ⟨harm, htold⟩ := report_warned hw' hsteady (hmask.trans hm) (hst.imp (fun h => hstate.trans h.1) fun h => hstate.trans h) hcase
      rw [hdew, hcfg] at harm
      rw [harmed, hcfg, hdew] at htold
      exact ⟨harm, fun h6 h7 => takeReport_tells (htold h6 h7)⟩
  · have hsteady : w.steady := by
      cases hcase : w.adsorbing with
      | none => exact .inl hcase
      | some k =>
        have hk : (x.bed k).state = .adsorbing := by rw [← hbed]; exact adsorbing_state hcase
        obtain ⟨hnot, hunsat, _⟩ := hquiet k hk
        exact .inr ⟨k, hcase, fun h => hnot ((hreach k).mp h.1), by rw [hsat, hdeg]; exact hunsat.trans hclear.symm⟩
    have hmask0 := hmask.trans hm
    have hleaves : w.leaves ↔ x.cfg.spec < dew ∧ x.excursion = none ∧ x.cfg.excursionDelay = 0 := by
      rw [Train.leaves, hcfg, hdew, hexc]
    have hreturns : w.returns ↔ dew < x.cfg.warn ∧ x.recovery = none ∧ x.cfg.recoveryDelay = 0 := by
      rw [Train.returns, hcfg, hdew, hrec]
    refine ⟨fun hon hdir => ⟨fun h1 h2 h3 => ?_, fun h1 h2 => ?_⟩, fun hoff => ⟨fun h1 => ?_, fun h1 h2 h3 h4 h5 h6 => ?_⟩⟩
    · obtain ⟨⟨hst, hex⟩, htold⟩ := report_leaves hw' hsteady hmask0 (hstate.trans hon) (hleaves.mpr ⟨h1, h2, h3⟩) (setpoint_withdrawing hsafe hdir)
      rw [hdew] at htold
      refine ⟨hst, hex, ?_, takeReport_tells htold⟩
      rw [divert, takeReport_train, hst]
      rfl
    · obtain ⟨hst, hex⟩ := report_online hw' hsteady hmask0 (hstate.trans hon) (fun h => h2 (hleaves.mp h)) hdir h1
      rw [hcfg, hdew, hexc] at hex
      exact ⟨hst, hex⟩
    · obtain ⟨hst, hre⟩ := report_waits hw' hsteady hmask0 (hstate.trans hoff) (hoffSpec hoff) fun h => h1 (hreturns.mp h)
      rw [hcfg, hdew, hrec] at hre
      exact ⟨hst, hre⟩
    · have hfig : w.figure = (s.gatheringEvents.dry.trains[j]).figure := by
        show w.figure = x.figure
        rw [Train.figure, Train.figure, Train.inService, Train.inService, hstate, hoff]
        rfl
      obtain ⟨hback, htold⟩ := report_returns hw' hsteady hmask0 (hstate.trans hoff) (hoffSpec hoff) (hreturns.mpr ⟨h1, h2, h3⟩)
        (by rw [hcfg]; exact h5) ((capacitiesCurrent_iff s).mp h6).2 hfig
      obtain ⟨hst, hm', hre⟩ := hback h4
      rw [hcfg] at hm'
      rw [hdew] at htold
      refine ⟨hst, hm', hre, ?_, takeReport_tells htold⟩
      rw [divert, takeReport_train, hst]
      exact backState_ne_offSpec _

end Sys2Proof.Machine
end

section
/-! SUPPORT. A station report taken by the meter, the units and the trains, and its reply (R10 to R12, R164): O44. -/

namespace Sys2Proof.Machine

/-! ### The reply (section 8.5) -/

theorem stationReportReply_fields (s : State) : reportFields s (stationReportReply s) := by
  have hflags : permitWord s = out1 (flagsFigure [decide (s.flow.dir = .injecting), decide (s.flow.dir = .withdrawing), runPermit s 0,
      runPermit s 1, runPermit s 2, runPermit s 3, runPermit s 4, runPermit s 5, divert s 0, divert s 1]) := outFlags_eq _
  unfold reportFields stationReportReply outGasTime
  rw [hflags]
  cases hclock : s.clock.state with
  | unset => exact ⟨rfl, rfl, rfl, rfl, rfl, rfl, nofun, fun _ => rfl⟩
  | running => exact ⟨rfl, rfl, rfl, rfl, rfl, rfl, fun _ => ⟨rfl, rfl⟩, nofun⟩

/-! ### The meter (R10 to R12, R14) -/

section
variable (b : Block) (s : State)

/-- The forward and the reverse gas since the last reading accepted. -/
def gasForward : Nat := (((field3 b 0 % 10000000000 : Nat) - s.meter.base.forward : Int) % 10000000000).toNat

def gasReverse : Nat := (((field3 b 3 % 10000000000 : Nat) - s.meter.base.reverse : Int) % 10000000000).toNat

/-- The net gas of the reading. -/
def gasNet : Int := (gasForward b s : Int) - gasReverse b s

/-- A reading is plausible (R11). -/
abbrev plausibleReading : Prop := gasForward b s ≤ plausibility s ∧ gasReverse b s ≤ plausibility s
  ∧ (s.meter.bucket + gasNet b s).natAbs ≤ 1000000000000000

/-- The event of the reading. -/
def meterTold : List Raised :=
  if s.meter.base.valid = false then [⟨gasTime s, .baselineSeated, none, none⟩]
  else if plausibleReading b s then []
  else if s.meter.refusals + 1 < 3 then [⟨gasTime s, .meterImplausible, none, some (gasNet b s)⟩]
  else [⟨gasTime s, .meterRebased, none, some (gasNet b s)⟩]

/-- The meter whose baselines move to the reading. -/
def meterSeated : Meter :=
  ⟨⟨field3 b 0 % 10000000000, field3 b 3 % 10000000000, true⟩, s.meter.kept, some s.elapsed, s.meter.bucket, 0, s.elapsed, false⟩

/-- The meter after the reading. -/
def meterAfter : Meter :=
  if s.meter.base.valid = false then meterSeated b s
  else if plausibleReading b s then { meterSeated b s with bucket := s.meter.bucket + gasNet b s }
  else if s.meter.refusals + 1 < 3 then { s.meter with refusals := s.meter.refusals + 1, lastReport := s.elapsed, gap := false }
  else meterSeated b s

/-- The watch on reports restarted. -/
def watchRestarted : State := s.setMeter { s.meter with lastReport := s.elapsed, gap := false }

variable {s}

theorem reportMeter_first (h : s.meter.base.valid = false) :
    reportMeter b s = raise .baselineSeated none none ((watchRestarted s).setMeter (meterSeated b s)) := if_neg (Bool.eq_false_iff.mp h)

theorem reportMeter_valid (h : ¬s.meter.base.valid = false) : reportMeter b s =
    if plausibleReading b s then (watchRestarted s).setMeter { meterSeated b s with bucket := s.meter.bucket + gasNet b s }
    else if s.meter.refusals + 1 < 3 then raise .meterImplausible none (some (gasNet b s)) ((watchRestarted s).setMeter
      { s.meter with refusals := s.meter.refusals + 1, lastReport := s.elapsed, gap := false })
    else raise .meterRebased none (some (gasNet b s)) ((watchRestarted s).setMeter (meterSeated b s)) :=
  if_pos ((Bool.not_eq_false _).mp h)

variable (s)

theorem reportMeter_spec : Acts [.meter, .evq] s (meterTold b s) (reportMeter b s) ∧ (reportMeter b s).meter = meterAfter b s := by
  have hset (x : Meter) : Acts [.meter, .evq] s [] ((watchRestarted s).setMeter x) :=
    (acts_setMeter s _ (by decide)).trans (acts_setMeter _ x (by decide))
  have htold (x : Meter) (k : EventKind) (v : Option Int) :
      Acts [.meter, .evq] s [⟨gasTime s, k, none, v⟩] (raise k none v ((watchRestarted s).setMeter x)) :=
    (hset x).trans (acts_raise _ k none v (by decide))
  unfold meterTold meterAfter
  by_cases hvalid : s.meter.base.valid = false
  · rw [if_pos hvalid, if_pos hvalid, reportMeter_first b hvalid]
    exact ⟨htold _ _ _, rfl⟩
  rw [if_neg hvalid, if_neg hvalid, reportMeter_valid b hvalid]
  by_cases hplausible : plausibleReading b s
  · rw [if_pos hplausible, if_pos hplausible, if_pos hplausible]
    exact ⟨hset _, rfl⟩
  rw [if_neg hplausible, if_neg hplausible, if_neg hplausible]
  by_cases hrefused : s.meter.refusals + 1 < 3
  · rw [if_pos hrefused, if_pos hrefused, if_pos hrefused]
    exact ⟨htold _ _ _, rfl⟩
  · rw [if_neg hrefused, if_neg hrefused, if_neg hrefused]
    exact ⟨htold _ _ _, rfl⟩

variable {s}

/-- The meter's part depends on the meter, the elapsed time, the rights and the clock alone. -/
theorem meter_congr {u : State} (hd : Does [.world, .duty, .dry, .flow, .sched, .evq] s u) :
    meterTold b u = meterTold b s ∧ meterAfter b u = meterAfter b s := by
  have hmeter : u.meter = s.meter := hd.meter_eq (by decide)
  have helapsed : u.elapsed = s.elapsed := hd.elapsed_eq (by decide)
  have hlimit : plausibility u = plausibility s := by rw [plausibility, plausibility, hmeter, helapsed, hd.site_eq (by decide)]
  have hforward : gasForward b u = gasForward b s := by rw [gasForward, gasForward, hmeter]
  have hreverse : gasReverse b u = gasReverse b s := by rw [gasReverse, gasReverse, hmeter]
  have hnet : gasNet b u = gasNet b s := by rw [gasNet, gasNet, hforward, hreverse]
  have hseat : meterSeated b u = meterSeated b s := by rw [meterSeated, meterSeated, hmeter, helapsed]
  constructor
  · simp only [meterTold, plausibleReading, hforward, hreverse, hlimit, hnet, hmeter, hd.gasTime (ps := [.world, .duty, .dry, .flow, .sched, .evq]) (by decide)]
  · simp only [meterAfter, plausibleReading, hforward, hreverse, hlimit, hnet, hmeter, hseat, helapsed]

theorem meterTold_source : ∀ e ∈ meterTold b s, e.kind.source = .meterIntake := by
  intro e he
  unfold meterTold at he
  split_ifs at he
  · rw [List.mem_singleton.mp he]
    rfl
  · exact absurd he List.not_mem_nil
  · rw [List.mem_singleton.mp he]
    rfl
  · rw [List.mem_singleton.mp he]
    rfl

/-- The report taken, as the meter sees it. -/
theorem takeReport_meter : (takeReport b s).meter = meterAfter b s ∧ toldBetween s (takeReport b s) (meterTold b s) := by
  have hkeep (u v : State) (hd : Does [.world, .duty, .dry, .flow, .sched, .evq] u v)
      (h : u.meter = meterAfter b s ∧ toldBetween s.gatheringEvents u (meterTold b s)) :
      v.meter = meterAfter b s ∧ toldBetween s.gatheringEvents v (meterTold b s) := ⟨(hd.meter_eq (by decide)).trans h.1, h.2.after hd⟩
  have hunits (u : State) : Does [.world, .duty, .dry, .flow, .sched, .evq] u (reportUnits b u) :=
    ((dutyKept_of_subset (List.Subset.refl dutyParts) u).reportUnits b (.refl _ u)).mono (by decide)
  have htrains (u : State) : Does [.world, .duty, .dry, .flow, .sched, .evq] u (reportTrains b u) := (does_reportTrains b u).mono (by decide)
  have hall : (inAnyOrder (reportActs b) s.gatheringEvents).meter = meterAfter b s
      ∧ toldBetween s.gatheringEvents (inAnyOrder (reportActs b) s.gatheringEvents) (meterTold b s) := by
    refine inAnyOrder_once (P := fun u => u.meter = meterAfter b s ∧ toldBetween s.gatheringEvents u (meterTold b s))
      (K := Does [.world, .duty, .dry, .flow, .sched, .evq] s.gatheringEvents) (f := reportMeter b) (l := [reportUnits b, reportTrains b])
      (List.Perm.refl _) (fun u n hu => hu.trans (acts_setWorld u n (by decide)).does) (fun g hg u hu => ?_) (fun u hu => ?_) (fun g hg u hu => ?_)
      (.refl _ _)
    · rcases List.mem_pair.mp hg with rfl | rfl
      · exact hu.trans (hunits u)
      · exact hu.trans (htrains u)
    · obtain ⟨hacts, hmeter⟩ := reportMeter_spec b u
      obtain ⟨htold, hafter⟩ := meter_congr b hu
      rw [htold] at hacts
      exact ⟨hmeter.trans hafter, hacts.toldBetween.before hu⟩
    · rcases List.mem_pair.mp hg with rfl | rfl
      · exact hkeep u _ (hunits u) hu
      · exact hkeep u _ (htrains u) hu
  rw [takeReport_eq, gathered_meter]
  exact ⟨hall.1, toldBetween_gathered (f := inAnyOrder (reportActs b)) hall.2 (meterTold_source b)⟩

end

/-! ### The units and the trains (R123, R145) -/

section
variable (b : Block) (s : State)

/-- A unit's held values. -/
theorem takeReport_values (i : Fin 6) : ((takeReport b s).duty.units[i]).feedback = feedbackOf (fieldW b (6 + 3 * i.val))
    ∧ ((takeReport b s).duty.units[i]).load = min (fieldI2 b (7 + 3 * i.val)).toNat (2 * (s.duty.units[i]).cfg.capacity) := by
  have hsame (u v : State) (hd : v.duty.units[i] = u.duty.units[i]) (h : (u.duty.units[i]).feedback = feedbackOf (fieldW b (6 + 3 * i.val))
      ∧ (u.duty.units[i]).load = min (fieldI2 b (7 + 3 * i.val)).toNat (2 * (s.duty.units[i]).cfg.capacity)) :
      (v.duty.units[i]).feedback = feedbackOf (fieldW b (6 + 3 * i.val))
      ∧ (v.duty.units[i]).load = min (fieldI2 b (7 + 3 * i.val)).toNat (2 * (s.duty.units[i]).cfg.capacity) := by
    rw [hd]
    exact h
  have hall := takeReport_unit (s := s) (P := fun u => (u.duty.units[i]).feedback = feedbackOf (fieldW b (6 + 3 * i.val))
      ∧ (u.duty.units[i]).load = min (fieldI2 b (7 + 3 * i.val)).toNat (2 * (s.duty.units[i]).cfg.capacity)) b i (fun u hu => ?_)
    (fun u hu => ?_) (fun u hu => ?_) (fun j hj u hu => hsame _ _ (leavesUnit_report hj _ _ u).unit hu)
  · rw [takeReport_eq, gathered_duty, reportActs]
    exact hall
  · have hunit : u.duty.units[i] = s.duty.units[i] := hu.unit
    obtain ⟨hnone, hsome⟩ := reportUnit_spec i (fieldW b (6 + 3 * i.val)) (fieldI2 b (7 + 3 * i.val)) u
    rw [hunit] at hnone hsome
    cases hcause : tripCauseOf u.site.overloadLimit ((s.duty.units[i]).takeReport (fieldW b (6 + 3 * i.val)) (fieldI2 b (7 + 3 * i.val))) with
    | none =>
      rw [hnone hcause]
      unfold CUnit.tested
      split <;> exact ⟨rfl, rfl⟩
    | some c =>
      rw [(hsome c hcause).1]
      exact ⟨rfl, rfl⟩
  · exact hsame _ _ (by rw [(does_reportMeter u b).duty_eq (by decide)]) hu
  · exact hsame _ _ (by rw [(does_reportTrains b u).duty_eq (by decide)]) hu

/-- No bed test changes the held values. -/
theorem BedsReported.values {j : Fin 2} {w : Train} {t : State} (h : BedsReported j w s t) :
    (t.dry.trains[j]).water = w.water ∧ (t.dry.trains[j]).temp = w.temp ∧ (t.dry.trains[j]).dew = w.dew := by
  have hbody {x : Train} (hx : hasBody j x t) (hw : x.water = w.water ∧ x.temp = w.temp ∧ x.dew = w.dew) :
      (t.dry.trains[j]).water = w.water ∧ (t.dry.trains[j]).temp = w.temp ∧ (t.dry.trains[j]).dew = w.dew :=
    ⟨hx.alike.water.trans hw.1, hx.alike.temp.trans hw.2.1, hx.alike.dew.trans hw.2.2⟩
  cases hads : w.adsorbing with
  | none => exact hbody (h.rests hads) ⟨rfl, rfl, rfl⟩
  | some k =>
    by_cases hswap : reachedSwap w (w.bed k) = true ∧ (w.bed k.partner).state = .ready
    · exact hbody (h.swaps k hads hswap.1 hswap.2).1.1 (by cases k <;> exact ⟨rfl, rfl, rfl⟩)
    · obtain ⟨p, q, hpq⟩ := stayed_flags w k
      exact hbody (h.stays k hads hswap).1 (by rw [hpq]; exact ⟨rfl, rfl, rfl⟩)

end

/-- At most one event told, and what stands around it. -/
theorem toldBetween_run {s t : State} {es : List Raised} (h : toldBetween s t es) (hone : es.length ≤ 1) :
    ∃ l m : List Raised, t.evq = s.evq.pushAll (l ++ es ++ m) := by
  match es, hone with
  | [], _ =>
    obtain ⟨l, hl, _⟩ := h
    exact ⟨l, [], by rw [hl]; simp⟩
  | [e], _ =>
    obtain ⟨l, m, hlm⟩ := toldBetween_singleton h
    exact ⟨l, m, by rw [hlm]; simp⟩

/-- Settles O44: each owner takes its part of the report, whatever the others do. -/
theorem stationReportIsTakenByItsOwners : Obligations.StationReportIsTakenByItsOwners := by
  refine ⟨fun s b => keepsItsChecks_all _ s, fun s b hr hu hlen => ?_⟩
  obtain ⟨hmeter, htold⟩ := takeReport_meter (s := s) b
  have hone : (meterTold b s).length ≤ 1 := by
    unfold meterTold
    split_ifs <;> simp
  obtain ⟨l, m, hlm⟩ := toldBetween_run htold hone
  refine ⟨takeReport b s, _, l, m, exec_stationReport hr hu hlen, stationReportReply_fields _, hlm, hmeter, takeReport_values b s, fun j => ?_,
    takeReport_follows b s, (does_takeReport s b).parts⟩
  rw [takeReport_train]
  exact (report_beds b j s.gatheringEvents).values

end Sys2Proof.Machine
end

section
/-! SUPPORT. The changes of the link mode (R93, R94, R171, R174): O56. -/

namespace Sys2Proof.Machine

/-- A response that writes the supervision alone. -/
theorem gathered_setSup {f : State → State} {s : State} {x : Supervision} (h : f s.gatheringEvents = s.gatheringEvents.setSup x) :
    gathered f s = s.setSup x := by
  rw [gathered_congr (g := fun u => u.setSup x) h]
  rfl

/-- A response that does nothing. -/
theorem gathered_idle {f : State → State} {s : State} (h : f s.gatheringEvents = s.gatheringEvents) : gathered f s = s := by
  rw [gathered_congr (g := fun u => u) h]
  rfl

/-! ### A change of the link mode -/

/-- The supervision replaced and told, and T_raw recomputed. -/
def changeover (k : EventKind) (v : Option Int) (x : Supervision) (u : State) : State := recomputeTarget (raise k none v (u.setSup x))

section
variable (k : EventKind) (v : Option Int) (x : Supervision) (s : State)

theorem acts_supervised (u : State) : Acts [.sup, .evq] u [⟨gasTime u, k, none, v⟩] (raise k none v (u.setSup x)) :=
  (acts_setSup u x (by decide)).trans (acts_raise _ k none v (by decide))

/-- What a change of the link mode leaves. -/
structure ChangedOver (t : State) : Prop where
  sup : t.sup = x
  tRaw : t.flow.tRaw = rawTarget (s.setSup x)
  redirected : redirected s t
  told : ∃ l m : List Raised, t.evq = s.evq.pushAll (l ++ ⟨gasTime s, k, none, v⟩ :: m)
  recut : recutFollows s t
  parts : s.changesOnly [.world, .sup, .flow, .dry, .sched, .evq] t

theorem changeover_gathered : ChangedOver k v x s (gathered (changeover k v x) s) := by
  have hsup := acts_supervised k v x s.gatheringEvents
  have hflow := does_recomputeTarget (List.Subset.refl flowParts) (raise k none v (s.gatheringEvents.setSup x))
  have htold : toldBetween s.gatheringEvents (changeover k v x s.gatheringEvents) [⟨gasTime s, k, none, v⟩] := hsup.toldBetween.after hflow
  obtain ⟨hdir, hraw, _⟩ := recomputeTarget_spec (s := raise k none v (s.gatheringEvents.setSup x))
  have hall : Does [.world, .sup, .flow, .dry, .sched, .evq] s.gatheringEvents (changeover k v x s.gatheringEvents) :=
    (hsup.does.mono (by decide)).trans (hflow.mono (by decide))
  refine ⟨?_, ?_, redirected_gathered (redirected_before hsup.does ⟨rfl, rfl, rfl⟩ hdir), gathered_tells (f := changeover k v x) htold,
    gathered_recutFlow fun u => (recutFlow u).recomputeTarget
      (recutsSince_of_acts (acts_supervised k v x u) (by decide) (by decide) rfl rfl), ?_⟩
  · rw [gathered_sup]
    exact hflow.sup_eq (by decide)
  · rw [gathered_flow]
    exact hraw
  · exact (Does.gathered (f := changeover k v x) (by decide) (by decide) hall).parts

end

/-! ### O56 -/

section
variable {s : State}

theorem enterFallback_eq : enterFallback s =
    changeover .fallbackEntered (some (s.sup.loaded : Int)) { s.sup with linkMode := .fallback, timer := none } s := rfl

theorem gathered_enterFallback : gathered enterFallback s = gathered (changeover .fallbackEntered (some (s.sup.loaded : Int))
    { s.sup with linkMode := .fallback, timer := none }) s := gathered_congr (g := changeover _ _ _) enterFallback_eq

theorem gathered_resumeEffect : gathered resumeEffect s = gathered (changeover .fallbackExited none
    { s.sup with linkMode := .normal }.reloaded) s := rfl

theorem rawTarget_forced (h : targetForced s = true) : rawTarget s = 0 := by
  rw [rawTarget, if_pos h]
  omega

theorem reloaded_fields (x : Supervision) : x.reloaded.linkMode = x.linkMode ∧ x.reloaded.mode = x.mode ∧ x.reloaded.timeout = x.timeout
    ∧ x.reloaded.timer = (if x.mode = 0 then none else some x.timeout) ∧ (x.mode ≠ 0 → x.reloaded.loaded = x.timeout) := by
  unfold Supervision.reloaded
  by_cases h : x.mode = 0
  · rw [if_pos h, if_pos h]
    exact ⟨rfl, rfl, rfl, rfl, fun hne => absurd h hne⟩
  · rw [if_neg h, if_neg h]
    exact ⟨rfl, rfl, rfl, rfl, fun _ => rfl⟩

theorem exec_supervisionTimerSecond (s : State) : exec .supervisionTimerSecond s = .next (gathered supervisionSecond s) := rfl

theorem exec_fallbackEntered (s : State) : exec .fallbackEntered s = .next (if s.sup.lastSecond then gathered enterFallback s else s) := rfl

theorem lastSecond_none (h : s.sup.timer = none) : s.sup.lastSecond = false := by rw [Supervision.lastSecond, h]

theorem lastSecond_some {n : Nat} (h : s.sup.timer = some n) : s.sup.lastSecond = decide (n ≤ 1) := by rw [Supervision.lastSecond, h]

theorem supervisionSecond_none (h : s.sup.timer = none) : supervisionSecond s = s := by rw [supervisionSecond, h]

theorem supervisionSecond_some {n : Nat} (h : s.sup.timer = some n) :
    supervisionSecond s = if n ≤ 1 then enterFallback s else s.setSup { s.sup with timer := some (n - 1) } := by rw [supervisionSecond, h]

/-- A RESUME taken in FALLBACK. -/
theorem exec_resume (hr : restoring s = false) (hu : isUnrestored s = false) (hf : inFallback s = true) :
    exec (.resume []) s = .next (answeredWith 0x05 .ok [] s (gathered resumeEffect s)) :=
  exec_taken rfl hr (checked_ok _ _ (by simp [hu, hf]))

end

/-- Settles O56: both changes of mode replace the supervision and recompute T_raw, whose direction follows. -/
theorem resumeAndSupervisionTimer : Obligations.ResumeAndSupervisionTimer := by
  refine ⟨fun s b => keepsItsChecks_all _ s, fun s => ⟨fun hr hu hf => ?_, fun hr hu hf => ?_, fun hnone => ⟨?_, ?_⟩, fun n hn hlt => ⟨?_, ?_⟩,
    fun n hn hle => ?_⟩⟩
  · refine refused_by (c := .resume []) (l := [ofLength 0 [], (!isUnrestored s, .unrestored)]) (rest := []) rfl hr ?_ ?_
    · rw [requestChecks, hf]
      rfl
    · simp [ofLength, hu]
  · obtain ⟨hmode, hsmode, hout, htimer, hloaded⟩ := reloaded_fields { s.sup with linkMode := .normal }
    obtain ⟨hsup, hraw, hdir, ⟨l, m, htold⟩, hrecut, hparts⟩ := changeover_gathered .fallbackExited none { s.sup with linkMode := .normal }.reloaded s
    rw [← gathered_resumeEffect] at hsup hraw hdir htold hrecut hparts
    refine ⟨gathered resumeEffect s, l, m, exec_resume hr hu hf, ?_, ?_, ?_, ?_, ?_, hdir, hraw.trans ?_, htold, hrecut, hparts⟩
    · rw [hsup]
      exact hmode
    · rw [hsup]
      exact hsmode
    · rw [hsup]
      exact hout
    · rw [hsup]
      exact htimer
    · rw [hsup]
      exact hloaded
    · have hforced : targetForced (s.setSup { s.sup with linkMode := .normal }.reloaded) = clockIsUnset s := by
        have hsup : inFallback (s.setSup { s.sup with linkMode := .normal }.reloaded) = false := by
          rw [inFallback, State.setSup_sup, hmode]
          rfl
        have hstored : isUnrestored (s.setSup { s.sup with linkMode := .normal }.reloaded) = false := hu
        have hclock : clockIsUnset (s.setSup { s.sup with linkMode := .normal }.reloaded) = clockIsUnset s := rfl
        rw [targetForced, hsup, hstored, hclock, Bool.or_false, Bool.or_false]
      rw [rawTarget, hforced]
      rfl
  · rw [exec_supervisionTimerSecond, gathered_idle (supervisionSecond_none (s := s.gatheringEvents) hnone)]
  · rw [exec_fallbackEntered, lastSecond_none hnone]
    rfl
  · rw [exec_supervisionTimerSecond, gathered_setSup ((supervisionSecond_some (s := s.gatheringEvents) hn).trans (if_neg (by omega)))]
    rfl
  · rw [exec_fallbackEntered, lastSecond_some hn, if_neg (by simpa using hlt)]
  · obtain ⟨hsup, hraw, hdir, ⟨l, m, htold⟩, hrecut, hparts⟩ := changeover_gathered .fallbackEntered (some (s.sup.loaded : Int))
      { s.sup with linkMode := .fallback, timer := none } s
    rw [← gathered_enterFallback] at hsup hraw hdir htold hrecut hparts
    refine ⟨gathered enterFallback s, l, m, ?_, ?_, hsup, hraw.trans (rawTarget_forced ?_), hdir, htold, hrecut, hparts⟩
    · rw [exec_supervisionTimerSecond,
        gathered_congr (g := enterFallback) ((supervisionSecond_some (s := s.gatheringEvents) hn).trans (if_pos hle))]
    · rw [exec_fallbackEntered, lastSecond_some hn, if_pos (decide_eq_true hle)]
    · simp [targetForced, inFallback]

end Sys2Proof.Machine
end

section
/-! SUPPORT. The roster as the re-sort orders it (R133): O42. -/

namespace Sys2Proof.Machine

section
variable (s : State)

/-- Unit `i` runs before unit `j`: by run seconds, then by index. -/
def runsBefore (i j : Fin 6) : Prop := (s.duty.units[i]).runSeconds < (s.duty.units[j]).runSeconds
  ∨ ((s.duty.units[i]).runSeconds = (s.duty.units[j]).runSeconds ∧ i < j)

theorem insertByRun_pairwise (i : Fin 6) {l : List (Fin 6)} (h : l.Pairwise (runsBefore s)) (hl : ∀ j ∈ l, j < i) :
    (insertByRun s i l).Pairwise (runsBefore s) := by
  induction l with
  | nil => exact List.pairwise_singleton _ i
  | cons j js ih =>
    obtain ⟨hj, hjs⟩ := List.pairwise_cons.mp h
    dsimp only [insertByRun]
    split
    · next hlt =>
      refine List.pairwise_cons.mpr ⟨fun k hk => .inl ?_, h⟩
      rcases List.mem_cons.mp hk with rfl | hk
      · exact hlt
      · have := hj k hk
        unfold runsBefore at this
        omega
    · next hge =>
      refine List.pairwise_cons.mpr ⟨fun k hk => ?_, ih hjs fun k hk => hl k (List.mem_cons_of_mem j hk)⟩
      rcases List.mem_cons.mp ((insertByRun_perm s i js).mem_iff.mp hk) with rfl | hk
      · have := hl j List.mem_cons_self
        unfold runsBefore
        omega
      · exact hj k hk

theorem foldl_insertByRun_pairwise {l : List (Fin 6)} (hl : l.Pairwise (· < ·)) (acc : List (Fin 6)) (hacc : acc.Pairwise (runsBefore s))
    (hle : ∀ j ∈ acc, ∀ i ∈ l, j < i) : (l.foldl (fun a i => insertByRun s i a) acc).Pairwise (runsBefore s) := by
  induction l generalizing acc with
  | nil => exact hacc
  | cons i l ih =>
    obtain ⟨hi, hl⟩ := List.pairwise_cons.mp hl
    refine ih hl _ (insertByRun_pairwise s i hacc fun j hj => hle j hj i List.mem_cons_self) fun j hj k hk => ?_
    rcases List.mem_cons.mp ((insertByRun_perm s i acc).mem_iff.mp hj) with rfl | hj
    · exact hi k hk
    · exact hle j hj k (List.mem_cons_of_mem i hk)

/-- Unit `i` stands before unit `j` after a re-sort. -/
def ranksBefore (i j : Fin 6) : Prop :=
  ((s.duty.units[i]).rotates = true ∧ (s.duty.units[j]).rotates = false)
  ∨ ((s.duty.units[i]).rotates = false ∧ (s.duty.units[j]).rotates = false ∧ i < j)
  ∨ ((s.duty.units[i]).rotates = true ∧ (s.duty.units[j]).rotates = true ∧ runsBefore s i j)

theorem rotated_pairwise : (rotated s).Pairwise (ranksBefore s) := by
  have hasc (p : Fin 6 → Bool) : ((List.finRange 6).filter p).Pairwise (· < ·) := (List.pairwise_lt_finRange 6).filter p
  have hsort := foldl_insertByRun_pairwise s (hasc fun i => (s.duty.units[i]).rotates) [] List.Pairwise.nil nofun
  have hperm := foldl_insertByRun_perm s ((List.finRange 6).filter (fun i => (s.duty.units[i]).rotates)) []
  rw [List.append_nil] at hperm
  have hin (i : Fin 6) (hi : i ∈ ((List.finRange 6).filter (fun i => (s.duty.units[i]).rotates)).foldl (fun l i => insertByRun s i l) []) :
      (s.duty.units[i]).rotates = true := by
    have hmem := hperm.mem_iff.mp hi
    simpa using hmem
  have hout (i : Fin 6) (hi : i ∈ (List.finRange 6).filter (fun i => !(s.duty.units[i]).rotates)) : (s.duty.units[i]).rotates = false := by
    simpa using hi
  refine List.pairwise_append.mpr ⟨hsort.imp_of_mem fun hi hj h => .inr (.inr ⟨hin _ hi, hin _ hj, h⟩),
    (hasc _).imp_of_mem fun hi hj h => .inr (.inl ⟨hout _ hi, hout _ hj, h⟩), fun i hi j hj => .inl ⟨hin i hi, hout j hj⟩⟩

theorem rotates_iff (u : CUnit) : u.rotates = false ↔ u.state = .disabled ∨ u.state = .lockedOut := by
  rw [CUnit.rotates, Bool.not_eq_false', Bool.or_eq_true, beq_iff_eq, beq_iff_eq]

end

end Sys2Proof.Machine
end

section
/-! SUPPORT. The hour boundary (R4, R73, R74, R93, R133): O42. -/

namespace Sys2Proof.Machine

/-! ### What an hour's end finds -/

/-- The part as an hour's end finds it: a second has passed, and the report-gap watch may have acted. -/
structure AtHourEnd (s u : State) : Prop where
  does : Does [.elapsed, .world, .meter, .evq] s u
  bucket : u.meter.bucket = s.meter.bucket
  base : u.meter.base = s.meter.base
  told : ∃ l : List Raised, u.evq = s.evq.pushAll l ∧ ∀ e ∈ l, e.kind ≠ .dayRolled

theorem atHourEnd_watched {s u : State} (h : AtHourEnd s u) : AtHourEnd s (gapWatch u) := by
  by_cases hgap : gapDue u
  · obtain ⟨l, hl, hkind⟩ := h.told
    refine ⟨h.does.trans ((does_gapWatch u).mono (by decide)), ?_, ?_, l ++ [⟨gasTime u, .reportGap, none, none⟩], ?_, ?_⟩
    · rw [gapWatch_due hgap]
      exact h.bucket
    · rw [gapWatch_due hgap]
      exact h.base
    · rw [gapWatch_due hgap, pushAll_append, ← hl]
      rfl
    · intro e he
      rcases List.mem_append.mp he with he | he
      · exact hkind e he
      · rw [List.mem_singleton.mp he]
        exact nofun
  · rw [gapWatch_notDue hgap]
    exact h

theorem settleFirst_idle {s : State} (h : s.settle.inFlight = none) : settleFirst s = s := by
  have hdone : completeSettlement s = s := by
    unfold completeSettlement
    rw [h]
  rw [settleFirst, hdone, ite_self]

theorem advanceClock_atEnd {u : State} (hrun : u.clock.state = .running) (hdue : boundaryDue u = true) : advanceClock u = endHour u := by
  unfold advanceClock
  rw [hrun]
  exact if_pos hdue

theorem boundaryDue_iff {s : State} (hrun : s.clock.state = .running) (hend : s.clock.hourEnd ≤ s.clock.sec + 1) : boundaryDue s = true := by
  simp [boundaryDue, clockIsUnset, hrun, hend]

/-- What both rows come to: the hour's end, among whose acts the report-gap watch can stand. -/
theorem exec_hourEnd {s : State} {c : Instr} (hc : c = .gasClockSecond ∨ c = .hourBoundary) (hrun : s.clock.state = .running)
    (hend : s.clock.hourEnd ≤ s.clock.sec + 1) (hidle : s.settle.inFlight = none) :
    ∃ (u : State) (pre : List (State → State)), AtHourEnd s u ∧ (∀ f ∈ pre, f = gapWatch)
      ∧ exec c s = .next (gathered (inAnyOrder (pre ++ boundaryActs s.clock.hour)) (endHour u)) := by
  have hstart (n : Nat) : AtHourEnd s ((s.setElapsed (s.elapsed + 1)).setWorld n) :=
    ⟨((acts_setElapsed s _ (by decide)).trans (acts_setWorld _ n (by decide))).does, rfl, rfl, [], rfl, nofun⟩
  have hsecond {u : State} (hu : AtHourEnd s u) :
      clockSecond u = gathered (inAnyOrder ([gapWatch] ++ boundaryActs s.clock.hour)) (endHour u) := by
    have hclock : u.clock = s.clock := hu.does.clock_eq (by decide)
    have hdue : boundaryDue u = true := boundaryDue_iff (by rw [hclock]; exact hrun) (by rw [hclock]; exact hend)
    rw [clockSecond, advanceClock_atEnd (by rw [hclock]; exact hrun) hdue, hdue, hclock]
    rfl
  rcases hc with rfl | rfl
  · obtain ⟨g, hg, n, hone⟩ := oneOf_cases clockSecond [fun t => clockSecond (gapWatch t)] (s.setElapsed (s.elapsed + 1))
    have hexec : exec .gasClockSecond s = .next (g ((s.setElapsed (s.elapsed + 1)).setWorld n)) := by
      rw [← hone]
      show Host.Outcome.next (oneOf _ _ (settleFirst _)) = _
      rw [settleFirst_idle (s := s.setElapsed (s.elapsed + 1)) hidle]
    rcases List.mem_pair.mp hg with rfl | rfl
    · exact ⟨_, [gapWatch], hstart n, fun f hf => List.mem_singleton.mp hf, hexec.trans (congrArg _ (hsecond (hstart n)))⟩
    · have hwatched := atHourEnd_watched (hstart n)
      exact ⟨_, [gapWatch], hwatched, fun f hf => List.mem_singleton.mp hf, hexec.trans (congrArg _ (hsecond hwatched))⟩
  · refine ⟨s, [], ⟨.refl _ s, rfl, rfl, [], rfl, nofun⟩, nofun, ?_⟩
    show Host.Outcome.next (if boundaryDue s then _ else _) = _
    rw [if_pos (boundaryDue_iff hrun hend), settleFirst_idle hidle]
    rfl

/-! ### What the hour's end takes over (R4, R73, R74, R175) -/

theorem endHour_evq (u : State) : (endHour u).evq = u.evq := rfl

theorem endHour_residues (u : State) : (endHour u).duty.fuel = u.duty.fuel % 3600 ∧ (endHour u).dry.gas = u.dry.gas % 3600 := by
  have hfuel : (endHour u).duty.fuel = u.duty.fuel - u.duty.fuel / 3600 * 3600 := rfl
  have hgas : (endHour u).dry.gas = u.dry.gas - u.dry.gas / 3600 * 3600 := rfl
  omega

theorem endHour_clock_eq (u : State) (hrun : u.clock.state = .running) : (endHour u).clock =
    if u.clock.hour = lastHour then ⟨.unset, 0, 0, 3600, 0, u.clock.lastSettled⟩
    else ⟨.running, u.clock.hour + 1, 0, 3600, 0, u.clock.lastSettled⟩ := by
  have hclock : (endHour u).clock = u.clock.nextHour := rfl
  rw [hclock, Clock.nextHour]
  split
  · rfl
  · rw [hrun]

theorem endHour_rawTarget {u : State} (hrun : u.clock.state = .running) : rawTarget (endHour u) =
    max (-(u.site.wdrRight : Int)) (min (u.site.injRight : Int)
      (if u.clock.hour = lastHour ∨ isUnrestored u = true ∨ inFallback u = true then 0 else netConfirmed u.sched (u.clock.hour + 1))) := by
  have hclock := endHour_clock_eq u hrun
  have hforced : targetForced (endHour u) = decide (u.clock.hour = lastHour ∨ isUnrestored u = true ∨ inFallback u = true) := by
    have hunset : clockIsUnset (endHour u) = decide (u.clock.hour = lastHour) := by
      rw [clockIsUnset, hclock]
      by_cases hlast : u.clock.hour = lastHour
      · rw [if_pos hlast, decide_eq_true hlast]
        rfl
      · rw [if_neg hlast, decide_eq_false hlast]
        rfl
    have hmodes : targetForced (endHour u) = (clockIsUnset (endHour u) || isUnrestored u || inFallback u) := rfl
    rw [hmodes, hunset]
    simp [Bool.or_assoc]
  rw [rawTarget, hforced]
  by_cases hlast : u.clock.hour = lastHour ∨ isUnrestored u = true ∨ inFallback u = true
  · rw [if_pos hlast, if_pos (decide_eq_true hlast)]
    rfl
  · rw [if_neg hlast, if_neg (by simpa using hlast)]
    rw [hclock, if_neg (fun h => hlast (.inl h))]
    rfl

/-! ### What the blocks do at it -/

/-- What the acts at an hour's end leave of meter, units and accumulators. -/
structure HourHeld (w v : State) : Prop where
  bucket : v.meter.bucket = w.meter.bucket
  base : v.meter.base = w.meter.base
  kept : v.meter.kept = w.meter.kept
  fuel : v.duty.fuel = w.duty.fuel
  units : v.duty.units = w.duty.units
  gas : v.dry.gas = w.dry.gas

/-- From `w` to `v` the events appended that `p` picks are `es`. -/
def toldOf (p : Raised → Bool) (w : State) (es : List Raised) (v : State) : Prop :=
  ∃ l : List Raised, v.evq = w.evq.pushAll l ∧ l.filter p = es

section
variable {p : Raised → Bool} {w v : State} {es : List Raised}

theorem toldOf_refl (p : Raised → Bool) (w : State) : toldOf p w [] w := ⟨[], rfl, rfl⟩

theorem toldOf_evq {u : State} (hu : u.evq = v.evq) (h : toldOf p w es v) : toldOf p w es u := by
  rw [toldOf, hu]
  exact h

theorem toldOf_trans {u : State} {fs : List Raised} (h : toldOf p w es v) (h' : toldOf p v fs u) : toldOf p w (es ++ fs) u := by
  obtain ⟨l, hl, he⟩ := h
  obtain ⟨m, hm, hf⟩ := h'
  exact ⟨l ++ m, by rw [pushAll_append, ← hl, hm], by rw [List.filter_append, he, hf]⟩

theorem toldOf_raise (k : EventKind) (a : Option Nat) (b : Option Int) : toldOf p v ([⟨gasTime v, k, a, b⟩].filter p) (raise k a b v) :=
  ⟨_, rfl, rfl⟩

theorem toldOf_raised {k : EventKind} {a : Option Nat} {b : Option Int} (hp : p ⟨gasTime v, k, a, b⟩ = true) :
    toldOf p v [⟨gasTime v, k, a, b⟩] (raise k a b v) := by
  have h := toldOf_raise (p := p) (v := v) k a b
  rwa [List.filter_cons_of_pos hp] at h

theorem toldOf_unpicked {k : EventKind} {a : Option Nat} {b : Option Int} (hp : p ⟨gasTime v, k, a, b⟩ = false) (h : toldOf p w es v) :
    toldOf p w es (raise k a b v) := by
  have hraise := toldOf_raise (p := p) (v := v) k a b
  rw [List.filter_cons_of_neg (by simp [hp])] at hraise
  have htrans := toldOf_trans h hraise
  rwa [List.filter_nil, List.append_nil] at htrans

/-- The flow machinery raises none of the events picked, where those are of no kind that it raises. -/
theorem toldFree (hp : ∀ e : Raised, e.kind.ofFlow = true → p e = false) (w : State) (es : List Raised) : FlowFree (toldOf p w es) where
  raise _ _ _ _ hk h := toldOf_unpicked (hp _ hk) h
  setFlow _ _ h := toldOf_evq rfl h
  putTrain _ _ _ _ h := toldOf_evq rfl h
  recut u h := by
    have hacts := (recut_recutOf u).acts
    have hrecut : toldOf p u [] (recut u) := by
      refine ⟨_, hacts.told, List.filter_eq_nil_iff.mpr fun e hmem => ?_⟩
      obtain ⟨k, _, rfl⟩ := List.mem_map.mp hmem
      rw [hp _ rfl]
      exact Bool.false_ne_true
    have htrans := toldOf_trans h hrecut
    rwa [List.append_nil] at htrans
  setWorld _ _ h := toldOf_evq rfl h
  capacity _ _ h := toldOf_evq rfl h

/-- Events of one block stand in their order in a gathered response. -/
theorem toldOf_gathered {b : EventSource} (hp : ∀ e : Raised, p e = true → e.kind.source = b) {f : State → State}
    (h : toldOf p w.gatheringEvents es (f w.gatheringEvents)) : toldOf p w es (gathered f w) := by
  obtain ⟨l, hl, he⟩ := h
  obtain ⟨m, hm, _, hfilter⟩ := gathered_pushAll f w l hl
  have hsource (k : List Raised) : k.filter p = (k.filter (fun r => r.kind.source == b)).filter p := by
    rw [List.filter_filter]
    refine List.filter_congr fun e _ => ?_
    cases hk : p e
    · rfl
    · rw [hp e hk, beq_self_eq_true]
      rfl
  exact ⟨m, hm, by rw [hsource, hfilter, ← hsource, he]⟩

end

/-- Whether an event is DAY_ROLLED. -/
def isDayRoll (e : Raised) : Bool := e.kind == .dayRolled

theorem isDayRoll_apart (e : Raised) (h : e.kind.ofFlow = true) : isDayRoll e = false := by
  rw [isDayRoll, beq_eq_false_iff_ne]
  intro hk
  rw [hk] at h
  exact absurd h (by decide)

theorem isDayRoll_source (e : Raised) (h : isDayRoll e = true) : e.kind.source = .dutyScheduler := by
  rw [beq_iff_eq.mp h]
  rfl

/-- From `w` to `v` the DAY_ROLLED events appended are `es`. -/
def rollsTold (w : State) (es : List Raised) (v : State) : Prop := toldOf isDayRoll w es v

theorem rollsTold_gapWatch {w v : State} {es : List Raised} (h : rollsTold w es v) : rollsTold w es (gapWatch v) := by
  by_cases hgap : gapDue v
  · rw [gapWatch_due hgap]
    exact toldOf_unpicked (v := v.setMeter _) rfl h
  · rw [gapWatch_notDue hgap]
    exact h

/-! ### The acts' order -/

/-- The acts at the end of hour `h`: T_raw's, and the others. -/
def otherActs (pre : List (State → State)) (h : Nat) : List (State → State) :=
  pre ++ (if h ≠ lastHour ∧ (h + 1) % 24 = 0 then [dayBoundary] else [])

section
variable {pre : List (State → State)} (hpre : ∀ f ∈ pre, f = gapWatch) {h : Nat}

theorem hourActs_perm (pre : List (State → State)) (h : Nat) :
    (pre ++ boundaryActs h).Perm (recomputeTarget :: otherActs pre h) := List.perm_middle

include hpre in
theorem mem_otherActs {f : State → State} (hf : f ∈ otherActs pre h) : f = gapWatch ∨ f = dayBoundary := by
  rcases List.mem_append.mp hf with hf | hf
  · exact .inl (hpre f hf)
  · split at hf
    · exact .inr (List.mem_singleton.mp hf)
    · exact absurd hf List.not_mem_nil

include hpre in
/-- What no act at an hour's end can break. -/
theorem hourActs_preserve {P : State → Prop} (hworld : ∀ v n, P v → P (v.setWorld n)) (htarget : ∀ v, P v → P (recomputeTarget v))
    (hwatch : ∀ v, P v → P (gapWatch v)) (hday : ∀ v, P v → P (dayBoundary v)) {v : State} (hv : P v) :
    P (inAnyOrder (pre ++ boundaryActs h) v) := by
  refine inAnyOrder_preserves P _ (fun f hf u hu => ?_) hworld _ hv
  rcases List.mem_cons.mp ((hourActs_perm pre h).mem_iff.mp hf) with rfl | hf
  · exact htarget u hu
  · rcases mem_otherActs hpre hf with rfl | rfl
    · exact hwatch u hu
    · exact hday u hu

theorem dayBoundary_held (v : State) : (dayBoundary v).duty.fuel = v.duty.fuel ∧ (dayBoundary v).duty.units = v.duty.units
    ∧ (dayBoundary v).duty.declared = v.duty.declared := by
  dsimp only [dayBoundary]
  split <;> exact ⟨rfl, rfl, rfl⟩

theorem gapWatch_held (v : State) : (gapWatch v).meter.bucket = v.meter.bucket ∧ (gapWatch v).meter.base = v.meter.base
    ∧ (gapWatch v).meter.kept = v.meter.kept := by
  dsimp only [gapWatch]
  split <;> exact ⟨rfl, rfl, rfl⟩

include hpre in
theorem hourActs_held (w : State) : HourHeld w (inAnyOrder (pre ++ boundaryActs h) w) := by
  refine hourActs_preserve hpre (P := HourHeld w) (fun _ _ hv => ⟨hv.1, hv.2, hv.3, hv.4, hv.5, hv.6⟩) (fun v hv => ?_) (fun v hv => ?_)
    (fun v hv => ?_) ⟨rfl, rfl, rfl, rfl, rfl, rfl⟩
  · have hd := does_recomputeTarget (ps := flowParts) (by decide) v
    have hmeter := hd.meter_eq (by decide)
    have hduty := hd.duty_eq (by decide)
    exact ⟨by rw [hmeter, hv.bucket], by rw [hmeter, hv.base], by rw [hmeter, hv.kept], by rw [hduty, hv.fuel], by rw [hduty, hv.units],
      (gasFree w.dry.gas).flow.recomputeTarget hv.gas⟩
  · have hd := does_gapWatch v
    have hduty := hd.duty_eq (by decide)
    have hdry := hd.dry_eq (by decide)
    obtain ⟨hbucket, hbase, hkept⟩ := gapWatch_held v
    exact ⟨hbucket.trans hv.bucket, hbase.trans hv.base, hkept.trans hv.kept, by rw [hduty, hv.fuel], by rw [hduty, hv.units],
      by rw [hdry, hv.gas]⟩
  · have hd := does_dayBoundary v
    have hmeter := hd.meter_eq (by decide)
    have hdry := hd.dry_eq (by decide)
    obtain ⟨hfuel, hunits, _⟩ := dayBoundary_held v
    exact ⟨by rw [hmeter, hv.bucket], by rw [hmeter, hv.base], by rw [hmeter, hv.kept], hfuel.trans hv.fuel, hunits.trans hv.units,
      by rw [hdry, hv.gas]⟩

include hpre in
/-- The schedule is recut on a fall alone. -/
theorem hourActs_recuts (w : State) : recutsSince w (inAnyOrder (pre ++ boundaryActs h) w) := by
  refine hourActs_preserve hpre (fun _ n hv => recutsSince_setWorld n hv) (fun v hv => (recutFlow w).recomputeTarget hv) (fun v hv => ?_)
    (fun v hv => ?_) (recutsSince_refl w)
  · have hd := does_gapWatch v
    exact recutsSince_aside hv hd (by decide) (by decide) (by rw [hd.duty_eq (by decide)]) (by rw [hd.dry_eq (by decide)])
  · have hd := does_dayBoundary v
    exact recutsSince_aside hv hd (by decide) (by decide) (dayBoundary_held v).2.2 (by rw [hd.dry_eq (by decide)])

/-- The parts that the acts beside T_raw's may change. -/
def besideTarget : List Part := [.world, .meter, .duty, .evq]

include hpre in
/-- T_raw is formed and the direction follows, whatever stands before and after. -/
theorem hourActs_redirected (w : State) : redirected w (inAnyOrder (pre ++ boundaryActs h) w)
    ∧ (inAnyOrder (pre ++ boundaryActs h) w).flow.tRaw = rawTarget w := by
  have hother {f : State → State} (hf : f ∈ otherActs pre h) (u : State) : Does besideTarget u (f u) := by
    rcases mem_otherActs hpre hf with rfl | rfl
    · exact (does_gapWatch u).mono (by decide)
    · exact (does_dayBoundary u).mono (by decide)
  refine inAnyOrder_once (K := Does besideTarget w) (P := fun v => redirected w v ∧ v.flow.tRaw = rawTarget w) (hourActs_perm pre h)
    (fun u n hu => hu.trans (acts_setWorld u n (by decide)).does) (fun f hf u hu => hu.trans (hother hf u)) (fun u hu => ?_)
    (fun f hf u hu => ?_) (.refl _ w)
  · have hraw : rawTarget u = rawTarget w := by
      unfold rawTarget targetForced clockIsUnset isUnrestored inFallback
      rw [hu.site_eq (by decide), hu.sched_eq (by decide), hu.clock_eq (by decide), hu.store_eq (by decide), hu.sup_eq (by decide)]
    obtain ⟨hdir, htarget⟩ := recomputeTarget_spec (s := u)
    refine ⟨redirected_before hu ?_ hdir, htarget.1.trans hraw⟩
    rw [hu.flow_eq (by decide)]
    exact .refl _
  · have hd := hother hf u
    have hflow := hd.flow_eq (by decide)
    refine ⟨redirected_after hd ⟨?_, by rw [hflow], by rw [hflow], ?_, ?_⟩ hu.1, by rw [hflow]; exact hu.2⟩
    · rw [hflow]
      exact .refl _
    · exact hd.site_eq (by decide)
    · exact hd.clock_eq (by decide)

/-! ### The day's end (R133) -/

/-- The parts that the acts beside the day boundary may change. -/
def besideDay : List Part := [.world, .meter, .flow, .dry, .sched, .evq]

include hpre in
theorem does_besideDay {f : State → State} (hf : f = recomputeTarget ∨ f ∈ pre) (u : State) : Does besideDay u (f u) := by
  rcases hf with rfl | hf
  · exact does_recomputeTarget (by decide) u
  · rw [hpre f hf]
    exact (does_gapWatch u).mono (by decide)

include hpre in
theorem rollsTold_besideDay {w u : State} {es : List Raised} {f : State → State} (hf : f = recomputeTarget ∨ f ∈ pre)
    (hu : rollsTold w es u) : rollsTold w es (f u) := by
  rcases hf with rfl | hf
  · exact (toldFree isDayRoll_apart w es).flow.recomputeTarget hu
  · rw [hpre f hf]
    exact rollsTold_gapWatch hu

/-- Whether the roster is re-sorted at the end of hour `h`. -/
def rollsAt (h : Nat) (s : State) : Prop := h ≠ lastHour ∧ (h + 1) % 24 = 0 ∧ s.site.rotation = true

/-- What a re-sort comes to from `w` to `v`. -/
structure Rolled (w v : State) : Prop where
  perm : v.duty.roster.toList.Perm (List.finRange 6)
  order : v.duty.roster.toList.Pairwise (ranksBefore w)
  told : rollsTold w [⟨gasTime w, .dayRolled, none, some (rosterDigits v.duty.roster.toList : Int)⟩] v

theorem rolled_dayBoundary {w u : State} (hu : Does besideDay w u) (htold : rollsTold w [] u) (hrot : w.site.rotation = true) :
    Rolled w (dayBoundary u) := by
  have hunits : u.duty = w.duty := hu.duty_eq (by decide)
  have hsite : u.site = w.site := hu.site_eq (by decide)
  have hclock : u.clock = w.clock := hu.clock_eq (by decide)
  have hlen : (rotated u).length = 6 := (rotated_perm u).length_eq
  have hday : dayBoundary u = raise .dayRolled none (some (rosterDigits (rotated u) : Int))
      (u.setDuty { u.duty with roster := rosterOf (rotated u) u.duty.roster }) := by
    rw [dayBoundary, hsite, if_pos hrot]
  have hroster : (dayBoundary u).duty.roster.toList = rotated u := by
    rw [hday]
    exact rosterOf_toList hlen _
  refine ⟨by rw [hroster]; exact rotated_perm u, ?_, ?_⟩
  · rw [hroster]
    refine (rotated_pairwise u).imp fun {i j} hij => ?_
    unfold ranksBefore runsBefore at hij ⊢
    rw [hunits] at hij
    exact hij
  · obtain ⟨l, hl, he⟩ := htold
    refine ⟨l ++ [⟨gasTime w, .dayRolled, none, some (rosterDigits (rotated u) : Int)⟩], ?_, ?_⟩
    · rw [pushAll_append, ← hl, hday, gasTime, ← hclock]
      rfl
    · rw [hroster, List.filter_append, he]
      rfl

include hpre in
theorem hourActs_roll {w : State} (h1 : h ≠ lastHour ∧ (h + 1) % 24 = 0) (hrot : w.site.rotation = true) :
    Rolled w (inAnyOrder (pre ++ boundaryActs h) w) := by
  have hperm : (pre ++ boundaryActs h).Perm (dayBoundary :: (recomputeTarget :: pre)) := by
    rw [boundaryActs, if_pos h1]
    exact (List.perm_append_comm (l₁ := pre)).trans (List.Perm.swap dayBoundary recomputeTarget pre)
  refine inAnyOrder_once (K := fun v => Does besideDay w v ∧ rollsTold w [] v) hperm
    (fun u n hu => ⟨hu.1.trans (acts_setWorld u n (by decide)).does, toldOf_evq rfl hu.2⟩)
    (fun f hf u hu => ⟨hu.1.trans (does_besideDay hpre (List.mem_cons.mp hf) u), rollsTold_besideDay hpre (List.mem_cons.mp hf) hu.2⟩)
    (fun u hu => rolled_dayBoundary hu.1 hu.2 hrot) (fun f hf u hu => ?_) ⟨.refl _ w, [], rfl, rfl⟩
  have hf := List.mem_cons.mp hf
  have hduty := (does_besideDay hpre hf u).duty_eq (by decide)
  exact ⟨by rw [hduty]; exact hu.perm, by rw [hduty]; exact hu.order, rollsTold_besideDay hpre hf (by rw [hduty]; exact hu.told)⟩

include hpre in
theorem hourActs_keepRoster {w : State} (hno : ¬rollsAt h w) : (inAnyOrder (pre ++ boundaryActs h) w).duty.roster = w.duty.roster
    ∧ rollsTold w [] (inAnyOrder (pre ++ boundaryActs h) w) := by
  have hkept : ∀ f ∈ pre ++ boundaryActs h, ∀ u : State, (Does besideDay w u ∧ rollsTold w [] u) →
      Does besideDay w (f u) ∧ rollsTold w [] (f u) := by
    intro f hf u hu
    have hbeside (hf : f = recomputeTarget ∨ f ∈ pre) : Does besideDay w (f u) ∧ rollsTold w [] (f u) :=
      ⟨hu.1.trans (does_besideDay hpre hf u), rollsTold_besideDay hpre hf hu.2⟩
    rcases List.mem_append.mp hf with hf | hf
    · exact hbeside (.inr hf)
    rcases List.mem_cons.mp hf with rfl | hf
    · exact hbeside (.inl rfl)
    split at hf
    · next hend =>
      have hrot : ¬u.site.rotation = true := by
        rw [hu.1.site_eq (by decide)]
        exact fun hrot => hno ⟨hend.1, hend.2, hrot⟩
      rw [List.mem_singleton.mp hf, dayBoundary, if_neg hrot]
      exact hu
    · exact absurd hf List.not_mem_nil
  obtain ⟨hdoes, htold⟩ := inAnyOrder_preserves (fun v => Does besideDay w v ∧ rollsTold w [] v) _ hkept
    (fun u n hu => ⟨hu.1.trans (acts_setWorld u n (by decide)).does, toldOf_evq rfl hu.2⟩) w ⟨.refl _ w, [], rfl, rfl⟩
  exact ⟨by rw [hdoes.duty_eq (by decide)], htold⟩

theorem does_hourActs {v : State} (hpre : ∀ f ∈ pre, f = gapWatch) :
    Does [.world, .meter, .duty, .flow, .dry, .sched, .evq] v (inAnyOrder (pre ++ boundaryActs h) v) :=
  hourActs_preserve hpre (P := Does _ v) (fun u n hu => hu.trans (acts_setWorld u n (by decide)).does)
    (fun u hu => hu.trans (does_recomputeTarget (by decide) u)) (fun u hu => hu.trans ((does_gapWatch u).mono (by decide)))
    (fun u hu => hu.trans ((does_dayBoundary u).mono (by decide))) (.refl _ v)

end

/-! ### The obligation -/

theorem ranksBefore_iff {s : State} {i j : Fin 6} (hij : ranksBefore s i j) :
    (¬((s.duty.units[i]).state = .disabled ∨ (s.duty.units[i]).state = .lockedOut) ∧ ((s.duty.units[j]).state = .disabled ∨ (s.duty.units[j]).state = .lockedOut))
    ∨ (((s.duty.units[i]).state = .disabled ∨ (s.duty.units[i]).state = .lockedOut) ∧ ((s.duty.units[j]).state = .disabled ∨ (s.duty.units[j]).state = .lockedOut) ∧ i < j)
    ∨ (¬((s.duty.units[i]).state = .disabled ∨ (s.duty.units[i]).state = .lockedOut) ∧ ¬((s.duty.units[j]).state = .disabled ∨ (s.duty.units[j]).state = .lockedOut)
        ∧ ((s.duty.units[i]).runSeconds < (s.duty.units[j]).runSeconds ∨ ((s.duty.units[i]).runSeconds = (s.duty.units[j]).runSeconds ∧ i < j))) := by
  simp only [← rotates_iff, Bool.not_eq_false]
  exact hij

/-- Settles O42: the hour's end takes the settlement's intake and moves the clock; T_raw, the roster and the watch follow in any order. -/
theorem hourBoundaryBeginsTheSettlement : Obligations.HourBoundaryBeginsTheSettlement := by
  intro s c hc hrun hend hidle h
  obtain ⟨u, pre, hu, hpre, hexec⟩ := exec_hourEnd hc hrun hend hidle
  have hclock : u.clock = s.clock := hu.does.clock_eq (by decide)
  have hrunu : u.clock.state = .running := by rw [hclock]; exact hrun
  have hduty : u.duty = s.duty := hu.does.duty_eq (by decide)
  have hdry : u.dry = s.dry := hu.does.dry_eq (by decide)
  have hsched : u.sched = s.sched := hu.does.sched_eq (by decide)
  have hsite : u.site = s.site := hu.does.site_eq (by decide)
  have hflow : u.flow = s.flow := hu.does.flow_eq (by decide)
  have hsettle : u.settle = s.settle := hu.does.settle_eq (by decide)
  have hd : Does [.world, .meter, .duty, .flow, .dry, .sched, .evq] (endHour u) (gathered (inAnyOrder (pre ++ boundaryActs h)) (endHour u)) :=
    (does_hourActs hpre).gathered (by decide) (by decide)
  have hheld := hourActs_held (h := h) hpre (endHour u).gatheringEvents
  obtain ⟨hfuel, hgas⟩ := endHour_residues u
  obtain ⟨hdir, hraw⟩ := hourActs_redirected (h := h) hpre (endHour u).gatheringEvents
  have hdoes : Does [.elapsed, .world, .clock, .meter, .settle, .duty, .dry, .flow, .sched, .evq] s
      (gathered (inAnyOrder (pre ++ boundaryActs h)) (endHour u)) :=
    (hu.does.mono (by decide)).trans (((does_endHour u).mono (by decide)).trans (hd.mono (by decide)))
  obtain ⟨l0, hl0, hkind0⟩ := hu.told
  have hfilter0 : l0.filter isDayRoll = [] :=
    List.filter_eq_nil_iff.mpr fun e he => by simpa [isDayRoll] using hkind0 e he
  have hrolls {es : List Raised} (htold : rollsTold (endHour u).gatheringEvents es (inAnyOrder (pre ++ boundaryActs h) (endHour u).gatheringEvents)) :
      rollsTold s es (gathered (inAnyOrder (pre ++ boundaryActs h)) (endHour u)) := by
    obtain ⟨m, hm, he⟩ := toldOf_gathered isDayRoll_source htold
    exact ⟨l0 ++ m, by rw [hm, endHour_evq, hl0, pushAll_append], by rw [List.filter_append, hfilter0, he, List.nil_append]⟩
  refine ⟨_, hexec, ?_, ?_, ?_, ?_, ?_, ?_, ?_, ?_, ?_, ?_, ?_, ?_, hdoes.parts⟩
  · rw [hd.settle_eq (by decide)]
    show { u.settle with inFlight := some (intakeOf u) } = _
    rw [intakeOf, hsettle, hclock, hu.bucket, hduty, hdry, hsched]
  · rw [hd.clock_eq (by decide), endHour_clock_eq u hrunu, hclock]
  · exact hheld.bucket
  · exact hheld.base.trans hu.base
  · exact hheld.kept.trans hu.base
  · exact hheld.fuel.trans (by rw [← hduty]; exact hfuel)
  · exact hheld.gas.trans (by rw [← hdry]; exact hgas)
  · refine hraw.trans ((endHour_rawTarget hrunu).trans ?_)
    rw [isUnrestored, inFallback, hsite, hclock, hsched, hu.does.store_eq (by decide), hu.does.sup_eq (by decide)]
    rfl
  · refine redirected_before ((hu.does.mono (qs := [.elapsed, .world, .clock, .meter, .settle, .duty, .dry, .flow, .sched, .evq]) (by decide)).trans
      ((does_endHour u).mono (by decide))) ?_ (redirected_gathered hdir)
    exact ⟨by rw [← hflow]; rfl, by rw [← hflow]; rfl, by rw [← hflow]; rfl⟩
  · dsimp only
    by_cases hroll : rollsAt h s
    · obtain ⟨hlast, hmod, hrot⟩ := hroll
      obtain ⟨hperm, horder, htold⟩ := hourActs_roll (w := (endHour u).gatheringEvents) hpre ⟨hlast, hmod⟩ (by rw [← hsite] at hrot; exact hrot)
      obtain ⟨l, hl, he⟩ := hrolls htold
      refine ⟨l, hl, fun hno => absurd ⟨hlast, hmod, hrot⟩ hno, fun _ => ⟨fun i => hperm.mem_iff.mpr (List.mem_finRange i), ?_, ?_⟩⟩
      · refine horder.imp fun {i j} hij => ?_
        have hrank := ranksBefore_iff hij
        rw [← hduty]
        exact hrank
      · have hclk : (gathered (inAnyOrder (pre ++ boundaryActs h)) (endHour u)).clock = (endHour u).clock := hd.clock_eq (by decide)
        have htime : gasTime (gathered (inAnyOrder (pre ++ boundaryActs h)) (endHour u)) = gasTime (endHour u) := by
          rw [gasTime, gasTime, hclk]
        exact he.trans (by rw [htime]; rfl)
    · obtain ⟨hroster, htold⟩ := hourActs_keepRoster (w := (endHour u).gatheringEvents) hpre (h := h) (by rw [rollsAt, ← hsite] at hroll; exact hroll)
      obtain ⟨l, hl, he⟩ := hrolls htold
      refine ⟨l, hl, fun _ => ⟨hroster.trans (by rw [← hduty]; rfl), fun e hmem hk => ?_⟩, fun hyes => absurd hyes hroll⟩
      exact absurd (List.filter_eq_nil_iff.mp he e hmem) (by simp [isDayRoll, hk])
  · exact hheld.units.trans (by rw [← hduty]; rfl)
  · refine recutFollows_of_trail (hourActs_recuts (h := h) hpre (endHour u).gatheringEvents) ⟨rfl, rfl, rfl, rfl⟩ (fun l hl => ?_)
      ⟨hsched, by rw [← hduty]; rfl, by rw [← hdry]; rfl⟩
    obtain ⟨m, hm, hperm, _⟩ := gathered_pushAll _ (endHour u) l hl
    exact ⟨l0 ++ m, by rw [hm, endHour_evq, hl0, pushAll_append], fun e he => List.mem_append_right l0 (hperm.mem_iff.mpr he)⟩

end Sys2Proof.Machine
end

section
/-! SUPPORT. The scheduler's second up to its evaluation (R117 to R122, R128, R134): O48. -/

namespace Sys2Proof.Machine

/-! ### What no move of a unit changes of the scheduler -/

/-- What starts, stops and ends of phases leave: the roster, fuel and figures kept, T_raw, the settings and the clock. -/
structure SameDuty (s v : State) : Prop where
  roster : v.duty.roster = s.duty.roster
  fuel : v.duty.fuel = s.duty.fuel
  figures : v.duty.dInj = s.duty.dInj ∧ v.duty.k = s.duty.k
  tRaw : v.flow.tRaw = s.flow.tRaw
  site : v.site = s.site
  clock : v.clock = s.clock

theorem receiveInj_tRaw (c : Nat) (s : State) : (receiveInj c s).flow.tRaw = s.flow.tRaw := by
  by_cases h : c < s.flow.cInj ∧ (c : Int) < s.flow.setpoint
  · rw [receiveInj_cut h]
    exact (stepCut_spec _ _).tRaw
  · rw [receiveInj_rest h]
    rfl

theorem handInjection_tRaw (s : State) : (handInjection s).flow.tRaw = s.flow.tRaw := by
  refine handInjection_reaches (K := fun u => u.flow.tRaw = s.flow.tRaw) (P := fun u => u.flow.tRaw = s.flow.tRaw) (fun _ _ h => h)
    (fun _ _ h => h) (fun u h => ?_) (fun u h => ?_) (fun u h => (receiveInj_tRaw _ u).trans h) (fun _ => rfl) rfl
  all_goals rw [(recut_plant u).2.2]; exact h

theorem sameDuty_handInjection {s v : State} (h : SameDuty s v) : SameDuty s (handInjection v) := by
  have hd : Does dutyParts v (handInjection v) := does_handInjection (by decide) v (by decide)
  have hduty := handInjection_duty v
  refine ⟨?_, ?_, ⟨?_, ?_⟩, (handInjection_tRaw v).trans h.tRaw, (hd.site_eq (by decide)).trans h.site,
    (hd.clock_eq (by decide)).trans h.clock⟩ <;> rw [hduty]
  exacts [h.roster, h.fuel, h.figures.1, h.figures.2]

theorem sameDuty_unit (s : State) (i : Fin 6) : UnitKept i (SameDuty s) (SameDuty s) :=
  .whole (fun _ _ _ _ _ h => ⟨h.1, h.2, h.3, h.4, h.5, h.6⟩) (fun _ _ _ h => ⟨h.1, h.2, h.3, h.4, h.5, h.6⟩) fun _ h => sameDuty_handInjection h

theorem sameDuty_refl (s : State) : SameDuty s s := ⟨rfl, rfl, ⟨rfl, rfl⟩, rfl, rfl, rfl⟩

/-! ### The scheduler's events -/

/-- Whether an event is the duty scheduler's. -/
def isDuty (e : Raised) : Bool := e.kind.source == .dutyScheduler

theorem isDuty_apart (e : Raised) (h : e.kind.ofFlow = true) : isDuty e = false := by
  rw [isDuty, beq_eq_false_iff_ne]
  intro hk
  rw [EventKind.ofFlow, hk] at h
  exact absurd h (by decide)

/-- From `w` to `v` the scheduler's events appended are `es`. -/
def dutyTold (w : State) (es : List Raised) (v : State) : Prop := toldOf isDuty w es v

theorem dutyTold_hand {w v : State} {es : List Raised} (h : dutyTold w es v) : dutyTold w es (handInjection v) :=
  (toldFree isDuty_apart w es).handInjection h

/-- A unit's record put, its event told and the capacities handed on. -/
theorem dutyTold_put {s : State} {i : Fin 6} {v : CUnit} {k : EventKind} {a : Option Nat} {b : Option Int} (hk : k.source = .dutyScheduler) :
    dutyTold s [⟨gasTime s, k, a, b⟩] (handInjection (raise k a b (putUnit i v s))) :=
  dutyTold_hand (toldOf_raised (v := putUnit i v s) (by rw [isDuty, hk]; rfl))

/-! ### The end of a phase (R120, R122, R128) -/

section
variable (g : Site) (u : CUnit)

/-- A unit whose phase ends. -/
def CUnit.ended : CUnit :=
  match u.state with
  | .starting => { u.uncounted with state := .loaded, phaseTimer := 0 }
  | .hot => if u.cfg.keepAux then { u with state := .warm, phaseTimer := g.warmHold } else { u with state := .cold, phaseTimer := 0 }
  | .warm => { u with state := .cold, phaseTimer := 0 }
  | .tripped => { u with state := .cold, phaseTimer := 0, attempts := satSucc 255 u.attempts }
  | _ => u

/-- The event of unit `i`'s phase that ends. -/
def CUnit.endEvent (time : Option GasTime) (i : Fin 6) : Option Raised :=
  match u.state with
  | .starting => some ⟨time, .unitReady, some i.val, some (u.cfg.capacity : Int)⟩
  | .tripped => some ⟨time, .unitRecovery, some i.val, some (satSucc 255 u.attempts : Int)⟩
  | _ => none

/-- Whether the second ends the unit's phase. -/
def CUnit.phaseEnds : Bool := u.state.timed && u.phaseTimer == 1

/-- A unit with a second less of its phase. -/
def CUnit.lessOne : CUnit := { u with phaseTimer := u.phaseTimer - 1 }

/-- A unit with no attempts used. -/
def CUnit.unattempted : CUnit := { u with attempts := 0 }

/-- A unit after step 4 of the second (R117). -/
def CUnit.ticked : CUnit :=
  if u.phaseEnds then ((u.lessOne.renote g.startLimit).ended g).renote g.startLimit
  else if u.state.timed && decide (0 < u.phaseTimer) then u.lessOne.renote g.startLimit
  else if u.state == .loaded && decide (3600 ≤ u.loadedSeconds) then u.unattempted.renote g.startLimit
  else u
end

section
variable {s : State} {i : Fin 6}

theorem handInjection_putUnit (v : CUnit) (j : Fin 6) : (handInjection (putUnit i v s)).duty.units[j] =
    if i = j then v.renote s.site.startLimit else s.duty.units[j] := by
  rw [handInjection_units, putUnit_getElem]

theorem handInjection_raise_putUnit (v : CUnit) (k : EventKind) (a : Option Nat) (b : Option Int) (j : Fin 6) :
    (handInjection (raise k a b (putUnit i v s))).duty.units[j] = if i = j then v.renote s.site.startLimit else s.duty.units[j] := by
  rw [handInjection_units]
  exact putUnit_getElem j

/-- What the end of unit `i`'s phase leaves. -/
theorem phaseExpiry_spec (h : (s.duty.units[i]).state.timed = true) :
    (∀ j : Fin 6, (phaseExpiry i s).duty.units[j] = if i = j then ((s.duty.units[i]).ended s.site).renote s.site.startLimit else s.duty.units[j])
    ∧ dutyTold s ((s.duty.units[i]).endEvent (gasTime s) i).toList (phaseExpiry i s) := by
  unfold phaseExpiry CUnit.ended CUnit.endEvent
  cases hst : (s.duty.units[i]).state <;> rw [hst] at h
  case starting => exact ⟨handInjection_raise_putUnit _ _ _ _, dutyTold_put rfl⟩
  case tripped => exact ⟨handInjection_raise_putUnit _ _ _ _, dutyTold_put rfl⟩
  case warm => exact ⟨handInjection_putUnit _, dutyTold_hand (toldOf_refl _ _)⟩
  case hot => exact ⟨handInjection_putUnit _, dutyTold_hand (toldOf_refl _ _)⟩
  all_goals exact absurd h Bool.false_ne_true

/-- The event that step 4 raises for unit `i`. -/
def timerTold (s : State) (i : Fin 6) : Option Raised :=
  if (s.duty.units[i]).phaseEnds then (s.duty.units[i]).endEvent (gasTime s) i else none

theorem unitTimer_ends (h : (s.duty.units[i]).phaseEnds = true) : unitTimer i s = phaseExpiry i (putUnit i (s.duty.units[i]).lessOne s) := by
  obtain ⟨hst, hone⟩ := (Bool.and_eq_true _ _).mp h
  have hone := beq_iff_eq.mp hone
  dsimp only [unitTimer]
  rw [if_pos (by rw [Bool.and_eq_true, decide_eq_true_eq]; exact ⟨hst, by omega⟩), if_pos hone]
  rfl

theorem unitTimer_stays (h : (s.duty.units[i]).phaseEnds = false) : unitTimer i s =
    if (s.duty.units[i]).state.timed && decide (0 < (s.duty.units[i]).phaseTimer) then putUnit i (s.duty.units[i]).lessOne s
    else if (s.duty.units[i]).state == .loaded && decide (3600 ≤ (s.duty.units[i]).loadedSeconds) then
      putUnit i (s.duty.units[i]).unattempted s
    else s := by
  rw [CUnit.phaseEnds, Bool.and_eq_false_iff, beq_eq_false_iff_ne] at h
  dsimp only [unitTimer]
  split
  · next htimed =>
    rw [if_neg (h.resolve_left (by rw [((Bool.and_eq_true _ _).mp htimed).1]; exact Bool.noConfusion))]
    rfl
  · rfl

/-- What step 4 leaves for unit `i`. -/
theorem unitTimer_spec (i : Fin 6) (s : State) :
    (∀ j : Fin 6, (unitTimer i s).duty.units[j] = if i = j then (s.duty.units[i]).ticked s.site else s.duty.units[j])
    ∧ dutyTold s (timerTold s i).toList (unitTimer i s) := by
  cases hends : (s.duty.units[i]).phaseEnds
  · rw [unitTimer_stays hends, timerTold, hends, if_neg Bool.false_ne_true, CUnit.ticked, hends, if_neg Bool.false_ne_true]
    split
    · exact ⟨putUnit_getElem, toldOf_evq rfl (toldOf_refl _ _)⟩
    split
    · exact ⟨putUnit_getElem, toldOf_evq rfl (toldOf_refl _ _)⟩
    refine ⟨fun j => ?_, toldOf_refl _ _⟩
    by_cases hij : i = j
    · subst hij
      exact (if_pos rfl).symm
    · exact (if_neg hij).symm
  · have hown := putUnit_own (s := s) (i := i) (s.duty.units[i]).lessOne
    have htimed : (s.duty.units[i]).state.timed = true := ((Bool.and_eq_true _ _).mp hends).1
    obtain ⟨hunits, htold⟩ := phaseExpiry_spec (s := putUnit i (s.duty.units[i]).lessOne s) (i := i) (by rw [hown]; exact htimed)
    rw [hown] at hunits htold
    rw [unitTimer_ends hends, timerTold, hends, if_pos rfl, CUnit.ticked, hends, if_pos rfl]
    refine ⟨fun j => (hunits j).trans ?_, htold⟩
    split
    · rfl
    · next hij => rw [putUnit_getElem, if_neg hij]

/-- What step 4 leaves for all units, of a state whose units in `l` are those of `s`. -/
theorem unitTimers_fold {l : List (Fin 6)} (hnd : l.Nodup) {w v : State} {es : List Raised} (hv : SameDuty s v)
    (hunits : ∀ i ∈ l, v.duty.units[i] = s.duty.units[i]) (htold : dutyTold w es v) :
    dutyTold w (es ++ l.filterMap (timerTold s)) (l.foldl (fun t i => unitTimer i t) v) := by
  induction l generalizing v es with
  | nil =>
    rw [List.filterMap_nil, List.append_nil]
    exact htold
  | cons i l ih =>
    obtain ⟨hnot, hnd⟩ := List.nodup_cons.mp hnd
    obtain ⟨hnext, hevent⟩ := unitTimer_spec i v
    have hsame : timerTold v i = timerTold s i := by
      rw [timerTold, timerTold, hunits i List.mem_cons_self, gasTime, gasTime, hv.clock]
    have hstep := ih hnd ((sameDuty_unit s i).unitTimer hv) (fun j hj => ?_) (toldOf_trans htold hevent)
    · have hlist : es ++ (i :: l).filterMap (timerTold s) = es ++ (timerTold v i).toList ++ l.filterMap (timerTold s) := by
        rw [hsame, List.append_assoc]
        cases h : timerTold s i with
        | none => rw [List.filterMap_cons_none h]; rfl
        | some e => rw [List.filterMap_cons_some h]; rfl
      rw [hlist]
      exact hstep
    · rw [hnext j, if_neg fun hij : i = j => hnot (hij ▸ hj)]
      exact hunits j (List.mem_cons_of_mem i hj)

theorem unitTimers_told (s : State) : dutyTold s ((List.finRange 6).filterMap (timerTold s)) (unitTimers s) :=
  unitTimers_fold (List.nodup_finRange 6) (sameDuty_refl s) (fun _ _ => rfl) (toldOf_refl _ s)

theorem unitTimers_same (s : State) : SameDuty s (unitTimers s) :=
  foldl_preserves (SameDuty s) unitTimer _ (fun i _ _ hu => (sameDuty_unit s i).unitTimer hu) s (sameDuty_refl s)

theorem unitTimers_unit (s : State) (j : Fin 6) : (unitTimers s).duty.units[j] = (s.duty.units[j]).ticked s.site := by
  have hbefore (i : Fin 6) (hi : i ≠ j) (v : State) (hv : SameDuty s v ∧ v.duty.units[j] = s.duty.units[j]) :
      SameDuty s (unitTimer i v) ∧ (unitTimer i v).duty.units[j] = s.duty.units[j] := by
    refine ⟨(sameDuty_unit s i).unitTimer hv.1, ?_⟩
    rw [(unitTimer_spec i v).1 j, if_neg hi]
    exact hv.2
  have hown (v : State) (hv : SameDuty s v ∧ v.duty.units[j] = s.duty.units[j]) :
      (unitTimer j v).duty.units[j] = (s.duty.units[j]).ticked s.site := by
    rw [(unitTimer_spec j v).1 j, if_pos rfl, hv.2, hv.1.site]
  have hafter (i : Fin 6) (hi : i ≠ j) (v : State) (hv : v.duty.units[j] = (s.duty.units[j]).ticked s.site) :
      (unitTimer i v).duty.units[j] = (s.duty.units[j]).ticked s.site := by
    rw [(unitTimer_spec i v).1 j, if_neg hi]
    exact hv
  have hall := foldl_once (f := unitTimer) (K := fun v => SameDuty s v ∧ v.duty.units[j] = s.duty.units[j])
    (P := fun v => v.duty.units[j] = (s.duty.units[j]).ticked s.site) (List.mem_finRange j) (List.nodup_finRange 6) hbefore hown hafter
    ⟨sameDuty_refl s, rfl⟩
  rw [unitTimers]
  exact hall

theorem unitTimer_quiet (h : (s.duty.units[i]).phaseEnds = false) :
    (unitTimer i s).flow = s.flow ∧ (unitTimer i s).duty.ready = s.duty.ready := by
  rw [unitTimer_stays h]
  split_ifs <;> exact ⟨rfl, rfl⟩

theorem unitTimers_fold_quiet (h : ∀ i : Fin 6, (s.duty.units[i]).phaseEnds = false) {l : List (Fin 6)} (hnd : l.Nodup) (v : State)
    (hunits : ∀ i ∈ l, v.duty.units[i] = s.duty.units[i]) : (l.foldl (fun t i => unitTimer i t) v).flow = v.flow
      ∧ (l.foldl (fun t i => unitTimer i t) v).duty.ready = v.duty.ready := by
  induction l generalizing v with
  | nil => exact ⟨rfl, rfl⟩
  | cons i l ih =>
    obtain ⟨hnot, hnd⟩ := List.nodup_cons.mp hnd
    have hends := h i
    rw [← hunits i List.mem_cons_self] at hends
    obtain ⟨hflow, hready⟩ := unitTimer_quiet hends
    rw [List.foldl_cons, ← hflow, ← hready]
    refine ih hnd (unitTimer i v) fun j hj => ?_
    rw [(unitTimer_spec i v).1 j, if_neg fun hij : i = j => hnot (hij ▸ hj)]
    exact hunits j (List.mem_cons_of_mem i hj)

/-- Where no phase ends, neither the flow nor C_inj_ready changes. -/
theorem unitTimers_quiet (h : ∀ i : Fin 6, (s.duty.units[i]).phaseEnds = false) :
    (unitTimers s).flow = s.flow ∧ (unitTimers s).duty.ready = s.duty.ready := by
  rw [unitTimers]
  exact unitTimers_fold_quiet h (List.nodup_finRange 6) s fun _ _ => rfl

end

end Sys2Proof.Machine
end

section
/-! SUPPORT. The scheduler's second: what steps 1 to 4 leave of a unit, and the evaluation (R117 to R122): O48. -/

namespace Sys2Proof.Machine

/-! ### A unit after steps 2 to 4 -/

section
variable (g : Site) (u : CUnit)

theorem ended_kept : (u.ended g).cfg = u.cfg ∧ (u.ended g).runSeconds = u.runSeconds ∧ (u.ended g).startAges = u.startAges
    ∧ (u.ended g).limitNoted = u.limitNoted := by
  unfold CUnit.ended
  cases u.state
  case hot => dsimp only; split <;> exact ⟨rfl, rfl, rfl, rfl⟩
  all_goals exact ⟨rfl, rfl, rfl, rfl⟩

/-- The state that a timed phase ends in. -/
def CUnit.endState : UnitState :=
  if u.state = .starting then .loaded else if u.state = .hot then (if u.cfg.keepAux = true then .warm else .cold) else .cold

theorem ended_state (h : u.state.timed = true) : (u.ended g).state = u.endState ∧
    (u.ended g).attempts = if u.state = .tripped then min (u.attempts + 1) 255 else u.attempts := by
  unfold CUnit.ended CUnit.endState
  cases hst : u.state <;> rw [hst] at h
  case hot => cases hk : u.cfg.keepAux <;> exact ⟨rfl, rfl⟩
  case starting | warm | tripped => exact ⟨rfl, rfl⟩
  all_goals exact absurd h Bool.false_ne_true

theorem ticked_kept : (u.ticked g).cfg = u.cfg ∧ (u.ticked g).runSeconds = u.runSeconds ∧ (u.ticked g).startAges = u.startAges := by
  obtain ⟨hcfg, hrun, hages, _⟩ := ended_kept g (u.lessOne.renote g.startLimit)
  unfold CUnit.ticked
  split_ifs
  · exact ⟨hcfg, hrun, hages⟩
  all_goals exact ⟨rfl, rfl, rfl⟩

theorem ticked_state : (u.ticked g).state = if u.phaseEnds then u.endState else u.state := by
  unfold CUnit.ticked
  cases hends : u.phaseEnds
  · simp only [Bool.false_eq_true, if_false]
    split_ifs <;> rfl
  · exact (ended_state g (u.lessOne.renote g.startLimit) ((Bool.and_eq_true _ _).mp hends).1).1

theorem ticked_attempts : (u.ticked g).attempts = if u.phaseEnds = true ∧ u.state = .tripped then min (u.attempts + 1) 255
    else if u.state = .loaded ∧ 3600 ≤ u.loadedSeconds then 0 else u.attempts := by
  unfold CUnit.ticked
  cases hends : u.phaseEnds
  · simp only [Bool.false_eq_true, if_false, false_and]
    by_cases htimed : u.state.timed = true
    · have hnot : ¬(u.state = .loaded ∧ 3600 ≤ u.loadedSeconds) := fun h => by rw [h.1] at htimed; exact Bool.false_ne_true htimed
      have hnot' : ¬(u.state == .loaded && decide (3600 ≤ u.loadedSeconds)) = true := by simpa using hnot
      rw [if_neg hnot, if_neg hnot']
      split <;> rfl
    · rw [if_neg (by simp [htimed])]
      by_cases hloaded : u.state = .loaded ∧ 3600 ≤ u.loadedSeconds
      · rw [if_pos hloaded, if_pos (by simpa using hloaded)]
        rfl
      · rw [if_neg hloaded, if_neg (by simpa using hloaded)]
  · have htimed := ((Bool.and_eq_true _ _).mp hends).1
    have hended := (ended_state g (u.lessOne.renote g.startLimit) htimed).2
    have hnot : ¬(u.state = .loaded ∧ 3600 ≤ u.loadedSeconds) := fun h => by rw [h.1] at htimed; exact Bool.false_ne_true htimed
    rw [if_neg hnot]
    simp only [true_and, if_true]
    exact hended

/-- The noted flag of a unit whose flag stands as its list and state give it. -/
theorem ticked_noted (h : u.limitNoted = (u.limitNoted && u.blocked g.startLimit)) :
    (u.ticked g).limitNoted = (u.limitNoted && (u.ticked g).blocked g.startLimit) := by
  unfold CUnit.ticked
  split_ifs
  · have hflag : ((u.lessOne.renote g.startLimit).ended g).limitNoted = u.limitNoted := (ended_kept g _).2.2.2.trans h.symm
    exact congrArg (· && (((u.lessOne.renote g.startLimit).ended g).renote g.startLimit).blocked g.startLimit) hflag
  · rfl
  · rfl
  · exact h

theorem ticked_runs (h : u.phaseEnds = false) : (u.ticked g).phaseTimer = u.phaseTimer - (if u.state.timed = true then 1 else 0)
    ∧ (u.ticked g).loadedSeconds = u.loadedSeconds := by
  unfold CUnit.ticked
  rw [h, if_neg Bool.false_ne_true]
  by_cases htimed : u.state.timed = true
  · by_cases hpos : 0 < u.phaseTimer
    · rw [if_pos (by simp [htimed, hpos]), if_pos htimed]
      exact ⟨rfl, rfl⟩
    · rw [if_neg (by simp [hpos]), if_pos htimed]
      split
      · exact ⟨by show u.phaseTimer = _; omega, rfl⟩
      · exact ⟨by omega, rfl⟩
  · rw [if_neg (by simp [htimed]), if_neg htimed]
    split <;> exact ⟨rfl, rfl⟩

/-- A unit after steps 2 and 3. -/
def CUnit.passed : CUnit := (u.counted.aged).renote g.startLimit

theorem passed_runs : (u.passed g).phaseEnds = u.phaseEnds ∧ (u.passed g).endState = u.endState ∧ (u.passed g).attempts = u.attempts
    ∧ (u.passed g).state = u.state ∧ (u.passed g).cfg = u.cfg ∧ (u.passed g).phaseTimer = u.phaseTimer := ⟨rfl, rfl, rfl, rfl, rfl, rfl⟩

theorem passed_seconds : (u.passed g).runSeconds = (if u.state.runs = true then min (u.runSeconds + 1) 4294967295 else u.runSeconds)
    ∧ (u.passed g).startAges = (u.startAges.map (· + 1)).filter (fun a => decide (a < 3600))
    ∧ (u.passed g).loadedSeconds = if u.state = .loaded then min (u.loadedSeconds + 1) 4294967295 else u.loadedSeconds := by
  refine ⟨rfl, rfl, ?_⟩
  show (if u.state == .loaded then _ else _) = _
  by_cases h : u.state = .loaded
  · rw [if_pos h, if_pos (beq_iff_eq.mpr h)]
    rfl
  · rw [if_neg h, if_neg (by simpa using h)]

theorem passed_noted : (u.passed g).limitNoted = (u.limitNoted && u.state.waits && decide (g.startLimit ≤ (u.passed g).startAges.length)) :=
  (Bool.and_assoc _ _ _).symm
end

/-! ### The figures of the evaluation (R116, R118, R121) -/

theorem waits_eq (u : CUnit) : (u.state == .cold || u.state == .warm || u.state == .hot) = u.state.waits := by cases u.state <;> rfl

theorem committed_eq (s : State) : committed s =
    (s.duty.units.toList.map (fun u => if u.state = .starting ∨ u.state = .loaded then u.cfg.capacity else 0)).sum := by
  rw [committed, capacitySum]
  refine congrArg List.sum (List.map_congr_left fun u _ => ?_)
  cases h : u.state <;> rfl

/-- The part as an evaluation finds it, its figures kept. -/
def figured (s : State) : State := s.setDuty { s.duty with dInj := demand s, k := committed s }

section
variable {s : State} {i : Fin 6}

theorem evaluateDuty_stops (hlast : stopCandidate s = some i) (hdue : stopHolds s s.duty.units[i] = true) :
    evaluateDuty s = stopUnit i (figured s) := by
  unfold evaluateDuty
  dsimp only
  split
  · next j hj =>
    obtain rfl : i = j := Option.some.inj (hlast.symm.trans hj)
    exact if_pos hdue
  · next hnone => exact absurd (hlast.symm.trans hnone) nofun

theorem evaluateDuty_goesOn (h : ∀ i, stopCandidate s = some i → stopHolds s s.duty.units[i] = false) : evaluateDuty s = startRule (figured s) := by
  unfold evaluateDuty
  dsimp only
  split
  · next j hj =>
    have hdue : stopHolds (figured s) (figured s).duty.units[j] = false := h j hj
    exact if_neg (fun hd => Bool.false_ne_true (hdue.symm.trans hd))
  · rfl

theorem sameDuty_evaluate (s : State) : SameDuty (figured s) (evaluateDuty s) := by
  have hfree := sameDuty_unit (figured s)
  have hnoted := foldl_preserves (SameDuty (figured s)) noteLimit (blockedAhead (figured s) (figured s).duty.roster.toList)
    (fun i _ _ hu => (hfree i).noteLimit hu) (figured s) (sameDuty_refl _)
  by_cases h : ∃ i, stopCandidate s = some i ∧ stopHolds s s.duty.units[i] = true
  · obtain ⟨i, hlast, hdue⟩ := h
    rw [evaluateDuty_stops hlast hdue]
    exact (hfree i).stopUnit (sameDuty_refl _)
  · rw [evaluateDuty_goesOn fun i hi => by rw [← Bool.not_eq_true]; exact fun hd => h ⟨i, hi, hd⟩]
    dsimp only [startRule]
    split
    · next hstart =>
      split
      · refine (hfree _).startUnit (fun j => ?_) hnoted
        rw [noteLimits_state]
        exact (noneStarting_iff _).mp ((Bool.and_eq_true _ _).mp hstart).2 j
      · exact hnoted
    · exact sameDuty_refl _

/-! ### The stop rule (R121) -/

/-- The event of a stop. -/
def stopTold (s : State) (i : Fin 6) : Raised :=
  ⟨gasTime s, .unitStopped, some i.val, some ((standbyEntry s.site (s.duty.units[i]).cfg).1.code : Int)⟩

/-- A unit stopped. -/
def CUnit.stopped (g : Site) (u : CUnit) : CUnit :=
  { u.uncounted with state := (standbyEntry g u.cfg).1, phaseTimer := (standbyEntry g u.cfg).2 }

theorem stopUnit_spec (i : Fin 6) (s : State) :
    (stopUnit i s).duty.units = setVec s.duty.units i (((s.duty.units[i]).stopped s.site).renote s.site.startLimit)
    ∧ dutyTold s [stopTold s i] (stopUnit i s) := by
  refine ⟨?_, dutyTold_put rfl⟩
  unfold stopUnit
  dsimp only
  rw [handInjection_units]
  rfl

/-! ### The start rule (R118, R119) -/

theorem blocked_eq (n : Nat) (u : CUnit) : u.blocked n = (u.state.waits && !u.startable n) := by
  rw [CUnit.blocked, CUnit.startable]
  cases u.state.waits
  · rfl
  · simp only [Bool.true_and, ← decide_not, Nat.not_lt]

/-- The units that START_LIMIT is raised for: blocked, ahead of the first startable one, their flag clear. -/
def limitedAhead (s : State) (l : List (Fin 6)) : List (Fin 6) :=
  (l.takeWhile (fun i => !(s.duty.units[i]).startable s.site.startLimit)).filter (fun i =>
    (s.duty.units[i]).blocked s.site.startLimit && !(s.duty.units[i]).limitNoted)

theorem blockedAhead_cons (s : State) (i : Fin 6) (l : List (Fin 6)) : blockedAhead s (i :: l) =
    if (s.duty.units[i]).startable s.site.startLimit then []
    else if (s.duty.units[i]).blocked s.site.startLimit then i :: blockedAhead s l else blockedAhead s l := rfl

theorem limitedAhead_eq (s : State) (l : List (Fin 6)) :
    limitedAhead s l = (blockedAhead s l).filter (fun i => !(s.duty.units[i]).limitNoted) := by
  induction l with
  | nil => rfl
  | cons i l ih =>
    rw [blockedAhead_cons]
    unfold limitedAhead at ih ⊢
    cases hs : (s.duty.units[i]).startable s.site.startLimit
    · rw [List.takeWhile_cons_of_pos (by rw [hs]; rfl), List.filter_cons, ih, if_neg Bool.false_ne_true]
      cases hb : (s.duty.units[i]).blocked s.site.startLimit
      · rfl
      · rw [if_pos rfl, List.filter_cons, Bool.true_and]
    · rw [List.takeWhile_cons_of_neg (by rw [hs]; exact Bool.false_ne_true), if_pos rfl]
      rfl

theorem blockedAhead_mem {s : State} {l : List (Fin 6)} (h : i ∈ blockedAhead s l) : i ∈ l ∧ (s.duty.units[i]).blocked s.site.startLimit = true := by
  induction l with
  | nil => exact absurd h List.not_mem_nil
  | cons j l ih =>
    rw [blockedAhead_cons] at h
    split at h
    · exact absurd h List.not_mem_nil
    split at h
    · next hb =>
      rcases List.mem_cons.mp h with rfl | h
      · exact ⟨List.mem_cons_self, hb⟩
      · exact ⟨List.mem_cons_of_mem j (ih h).1, (ih h).2⟩
    · exact ⟨List.mem_cons_of_mem j (ih h).1, (ih h).2⟩

theorem blockedAhead_nodup {s : State} {l : List (Fin 6)} (h : l.Nodup) : (blockedAhead s l).Nodup := by
  induction l with
  | nil => exact List.nodup_nil
  | cons j l ih =>
    obtain ⟨hnot, hl⟩ := List.nodup_cons.mp h
    rw [blockedAhead_cons]
    split
    · exact List.nodup_nil
    split
    · exact List.nodup_cons.mpr ⟨fun hmem => hnot (blockedAhead_mem hmem).1, ih hl⟩
    · exact ih hl

/-- The event of a unit that the start limit holds back. -/
def limitTold (s : State) (i : Fin 6) : Raised :=
  ⟨gasTime s, .startLimit, some i.val, some (3600 - ((s.duty.units[i]).startAges.headD 0 : Int))⟩

/-- A unit with its flag set. -/
def CUnit.noted (u : CUnit) : CUnit := { u with limitNoted := true }

theorem noteLimit_again (h : (s.duty.units[i]).limitNoted = true) : noteLimit i s = s := if_pos h

theorem noteLimit_first (h : (s.duty.units[i]).limitNoted = false) (hb : (s.duty.units[i]).blocked s.site.startLimit = true) :
    (∀ j : Fin 6, (noteLimit i s).duty.units[j] = if i = j then (s.duty.units[i]).noted else s.duty.units[j])
    ∧ dutyTold s [limitTold s i] (noteLimit i s) := by
  have hnoted : (s.duty.units[i]).noted.renote s.site.startLimit = (s.duty.units[i]).noted := by
    have hb' : (s.duty.units[i]).noted.blocked s.site.startLimit = true := hb
    rw [CUnit.renote, hb']
    rfl
  have hfirst : noteLimit i s = raise .startLimit (some i.val) (some (3600 - ((s.duty.units[i]).startAges.headD 0 : Int)))
      (putUnit i (s.duty.units[i]).noted s) := if_neg (by rw [h]; exact Bool.false_ne_true)
  rw [hfirst]
  refine ⟨fun j => (putUnit_getElem j).trans (by rw [hnoted]), toldOf_raised (v := putUnit i (s.duty.units[i]).noted s) rfl⟩

/-- The blocked units noted, of a state whose units in `l` are those of `s`. -/
theorem noteLimits_fold {l : List (Fin 6)} (hnd : l.Nodup) {w v : State} {es : List Raised} (hv : SameDuty s v)
    (hunits : ∀ i ∈ l, v.duty.units[i] = s.duty.units[i]) (hb : ∀ i ∈ l, (s.duty.units[i]).blocked s.site.startLimit = true)
    (htold : dutyTold w es v) :
    (∀ j : Fin 6, (l.foldl (fun t i => noteLimit i t) v).duty.units[j] =
      if j ∈ l.filter (fun i => !(s.duty.units[i]).limitNoted) then (s.duty.units[j]).noted else v.duty.units[j])
    ∧ dutyTold w (es ++ (l.filter (fun i => !(s.duty.units[i]).limitNoted)).map (limitTold s)) (l.foldl (fun t i => noteLimit i t) v) := by
  induction l generalizing v es with
  | nil =>
    refine ⟨fun j => (if_neg List.not_mem_nil).symm, ?_⟩
    rw [List.filter_nil, List.map_nil, List.append_nil]
    exact htold
  | cons i l ih =>
    obtain ⟨hnot, hnd⟩ := List.nodup_cons.mp hnd
    have hown := hunits i List.mem_cons_self
    have hrest (u : State) (hu : ∀ j : Fin 6, j ≠ i → u.duty.units[j] = v.duty.units[j]) :
        ∀ j ∈ l, u.duty.units[j] = s.duty.units[j] := fun j hj =>
      (hu j fun hij => hnot (hij ▸ hj)).trans (hunits j (List.mem_cons_of_mem i hj))
    rw [List.foldl_cons]
    cases hflag : (s.duty.units[i]).limitNoted
    · have hbv : (v.duty.units[i]).blocked v.site.startLimit = true := by rw [hown, hv.site]; exact hb i List.mem_cons_self
      obtain ⟨hnext, hevent⟩ := noteLimit_first (s := v) (by rw [hown]; exact hflag) hbv
      have hsame : limitTold v i = limitTold s i := by rw [limitTold, limitTold, hown, gasTime, gasTime, hv.clock]
      obtain ⟨hall, htold⟩ := ih hnd ((sameDuty_unit s i).noteLimit hv)
        (hrest _ fun j hj => by rw [hnext j, if_neg hj.symm]) (fun j hj => hb j (List.mem_cons_of_mem i hj)) (toldOf_trans htold hevent)
      rw [List.filter_cons_of_pos (by rw [hflag]; rfl)]
      refine ⟨fun j => (hall j).trans ?_, ?_⟩
      · rw [hnext j, hown]
        by_cases hj : j = i
        · subst hj
          rw [if_pos List.mem_cons_self, if_pos rfl, ite_self]
        · rw [if_neg (Ne.symm hj)]
          exact if_congr (by simp [hj]) rfl rfl
      · rw [List.map_cons, ← hsame, List.append_cons]
        exact htold
    · rw [noteLimit_again (by rw [hown]; exact hflag), List.filter_cons_of_neg (by rw [hflag]; exact Bool.false_ne_true)]
      exact ih hnd hv (fun j hj => hunits j (List.mem_cons_of_mem i hj)) (fun j hj => hb j (List.mem_cons_of_mem i hj)) htold

/-- The blocked units ahead of the first startable one, noted. -/
def limitsNoted (s : State) : State := (blockedAhead s s.duty.roster.toList).foldl (fun t i => noteLimit i t) s

theorem limitsNoted_spec (hnd : s.duty.roster.toList.Nodup) :
    (∀ j : Fin 6, (limitsNoted s).duty.units[j] =
      if j ∈ limitedAhead s s.duty.roster.toList then (s.duty.units[j]).noted else s.duty.units[j])
    ∧ dutyTold s ((limitedAhead s s.duty.roster.toList).map (limitTold s)) (limitsNoted s) := by
  rw [limitedAhead_eq]
  exact noteLimits_fold (es := []) (blockedAhead_nodup hnd) (sameDuty_refl s) (fun _ _ => rfl) (fun i hi => (blockedAhead_mem hi).2)
    (toldOf_refl _ s)

theorem limitsNoted_same (s : State) : SameDuty s (limitsNoted s) :=
  foldl_preserves (SameDuty s) noteLimit _ (fun i _ _ hu => (sameDuty_unit s i).noteLimit hu) s (sameDuty_refl s)

/-- A unit started. -/
def CUnit.started (g : Site) (u : CUnit) : CUnit :=
  { u with
    startAges := u.startAges ++ [0], startTotal := satSucc 65535 u.startTotal, phaseTimer := warmUp g u.state, state := .starting
    limitNoted := false }

/-- The event of a start. -/
def startTold (s : State) (i : Fin 6) : Raised :=
  ⟨gasTime s, .unitStarted, some i.val, some (originCode (s.duty.units[i]).state : Int)⟩

theorem startUnit_spec (i : Fin 6) (s : State) :
    (∀ j : Fin 6, (startUnit i s).duty.units[j] =
      if i = j then (s.duty.units[i]).started s.site else s.duty.units[j])
    ∧ dutyTold s [startTold s i] (startUnit i s) := by
  refine ⟨fun j => ?_, dutyTold_put rfl⟩
  unfold startUnit
  dsimp only
  rw [handInjection_raise_putUnit, renote_of_not_waits rfl]
  rfl

/-- The first startable unit, started once the blocked ones ahead are noted. -/
theorem startRule_starts (hnd : s.duty.roster.toList.Nodup) (hstart : (startDemand s && noneStarting s) = true)
    (hfirst : s.duty.roster.toList.find? (fun i => (s.duty.units[i]).startable s.site.startLimit) = some i) :
    (∀ j : Fin 6, (startRule s).duty.units[j] = if j = i then (s.duty.units[i]).started s.site
      else if j ∈ limitedAhead s s.duty.roster.toList then (s.duty.units[j]).noted else s.duty.units[j])
    ∧ dutyTold s ((limitedAhead s s.duty.roster.toList).map (limitTold s) ++ [startTold s i]) (startRule s) := by
  have hrule : startRule s = startUnit i (limitsNoted s) := by
    unfold startRule
    rw [if_pos hstart]
    dsimp only
    rw [hfirst]
    rfl
  obtain ⟨hnoted, htold⟩ := limitsNoted_spec hnd
  obtain ⟨hstarted, hevent⟩ := startUnit_spec i (limitsNoted s)
  have hsame := limitsNoted_same s
  have hable : (s.duty.units[i]).startable s.site.startLimit = true :=
    List.find?_some (p := fun i : Fin 6 => (s.duty.units[i]).startable s.site.startLimit) hfirst
  have hown : (limitsNoted s).duty.units[i] = s.duty.units[i] := by
    refine (hnoted i).trans (if_neg fun hmem => ?_)
    rw [limitedAhead_eq] at hmem
    have hb := (blockedAhead_mem (List.mem_of_mem_filter hmem)).2
    rw [blocked_eq, hable, Bool.not_true, Bool.and_false] at hb
    exact Bool.false_ne_true hb
  rw [hrule]
  refine ⟨fun j => (hstarted j).trans ?_, ?_⟩
  · rw [hown, hsame.site]
    by_cases hj : j = i
    · rw [if_pos hj, if_pos hj.symm]
    · rw [if_neg hj, if_neg (Ne.symm hj)]
      exact hnoted j
  · have hevent' : startTold (limitsNoted s) i = startTold s i := by rw [startTold, startTold, hown, gasTime, gasTime, hsame.clock]
    rw [← hevent']
    exact toldOf_trans htold hevent

theorem startRule_notes (hnd : s.duty.roster.toList.Nodup) (hstart : (startDemand s && noneStarting s) = true)
    (hnone : s.duty.roster.toList.find? (fun i => (s.duty.units[i]).startable s.site.startLimit) = none) :
    (∀ j : Fin 6, (startRule s).duty.units[j] =
      if j ∈ limitedAhead s s.duty.roster.toList then (s.duty.units[j]).noted else s.duty.units[j])
    ∧ dutyTold s ((limitedAhead s s.duty.roster.toList).map (limitTold s)) (startRule s) := by
  have hrule : startRule s = limitsNoted s := by
    unfold startRule
    rw [if_pos hstart]
    dsimp only
    rw [hnone]
    rfl
  rw [hrule]
  exact limitsNoted_spec hnd

theorem startRule_rests (h : (startDemand s && noneStarting s) = false) : startRule s = s :=
  if_neg (by rw [h]; exact Bool.false_ne_true)

end

end Sys2Proof.Machine
end

section
/-! SUPPORT. The scheduler's second as a whole: O48. -/

namespace Sys2Proof.Machine

/-! ### A unit's second -/

section
variable {s : State}

/-- The part after steps 1 to 3. -/
def agedUnits (s : State) : State := countAndAge (accrueFuel s)

theorem agedUnits_unit (s : State) (i : Fin 6) : (agedUnits s).duty.units[i] = (s.duty.units[i]).passed s.site :=
  countAndAge_unit (accrueFuel s) i

/-- The part after steps 1 to 4. -/
theorem timedUnits_unit (s : State) (i : Fin 6) :
    (unitTimers (agedUnits s)).duty.units[i] = ((s.duty.units[i]).passed s.site).ticked s.site := by
  rw [unitTimers_unit, agedUnits_unit]
  rfl

theorem timerTold_aged (s : State) (i : Fin 6) : timerTold (agedUnits s) i = timerTold s i := by
  rw [timerTold, timerTold, agedUnits_unit, (passed_runs _ _).1]
  rfl

/-- The event of a phase's end, by state and timer. -/
theorem timerTold_eq (s : State) (i : Fin 6) : timerTold s i =
    if (s.duty.units[i]).phaseTimer = 1 then (s.duty.units[i]).endEvent (gasTime s) i else none := by
  rw [timerTold, CUnit.phaseEnds]
  by_cases hone : (s.duty.units[i]).phaseTimer = 1
  · rw [hone, if_pos rfl]
    unfold CUnit.endEvent
    cases (s.duty.units[i]).state <;> rfl
  · rw [if_neg hone, if_neg (by rw [Bool.and_eq_true, beq_iff_eq]; exact fun h => hone h.2)]

theorem fuelRate_eq (s : State) {u : CUnit} {k : Fin 16} (hconf : u.configured = true) (hk : u.cfg.curve = some k) : fuelRate s u =
    match u.state with
      | .hot | .starting => evalCurve s.curves[k] 0
      | .loaded => evalCurve s.curves[k] u.loadPermille
      | _ => 0 := by
  unfold fuelRate
  rw [hk, hconf]
  rfl

/-! ### The events, in a gathered response -/

/-- The events of a gathered response that a predicate picks are determined. -/
theorem toldOf_unique {p : Raised → Bool} {v : State} {l es : List Raised} (hl : v.evq = s.gatheringEvents.evq.pushAll l)
    (h : toldOf p s.gatheringEvents es v) : l.filter p = es := by
  obtain ⟨l', hl', hes⟩ := h
  have hsame : l = l' := by
    have heq := congrArg (fun q : EventQueue => q.entries.map Event.raised) (hl.symm.trans hl')
    rw [(pushAll_gathered _ l rfl).1, (pushAll_gathered _ l' rfl).1] at heq
    exact heq
  rw [hsame]
  exact hes

theorem stopHolds_eq (s : State) (u : CUnit) : stopHolds s u = (decide (s.site.minimumRun ≤ u.loadedSeconds)
    && decide (demand s = 0 ∨ (demand s : Int) * 1000 < ((committed s : Int) - u.cfg.capacity) * s.site.stopFraction)
    && decide (s.flow.setpoint ≤ (s.duty.ready : Int) - u.cfg.capacity)) := by
  rw [stopHolds, Bool.decide_or]

theorem dutyTold_figured {w r v : State} {es fs : List Raised} (h : dutyTold w es r) (h' : dutyTold (figured r) fs v) : dutyTold w (es ++ fs) v :=
  toldOf_trans (v := figured r) (toldOf_evq rfl h) h'

/-- The fields of a unit after steps 1 to 4. -/
structure UnitSecond (g : Site) (u v : CUnit) : Prop where
  runSeconds : v.runSeconds = (if u.state.runs = true then min (u.runSeconds + 1) 4294967295 else u.runSeconds)
  startAges : v.startAges = (u.startAges.map (· + 1)).filter (fun a => decide (a < 3600))
  state : v.state = if u.phaseEnds then u.endState else u.state
  attempts : v.attempts = if u.phaseEnds = true ∧ u.state = .tripped then min (u.attempts + 1) 255
    else if u.state = .loaded ∧ 3600 ≤ u.loadedSeconds + 1 then 0 else u.attempts
  noted : v.limitNoted = (u.limitNoted && u.state.waits && v.state.waits && decide (g.startLimit ≤ v.startAges.length))
  runs : u.phaseEnds = false → v.phaseTimer = u.phaseTimer - (if u.state.timed = true then 1 else 0)
    ∧ v.loadedSeconds = if u.state = .loaded then min (u.loadedSeconds + 1) 4294967295 else u.loadedSeconds
  cfg : v.cfg = u.cfg

theorem unitSecond (g : Site) (u : CUnit) : UnitSecond g u ((u.passed g).ticked g) := by
  obtain ⟨hcfg, hrun, hages⟩ := ticked_kept g (u.passed g)
  obtain ⟨hseconds, hpassed, hloaded⟩ := passed_seconds g u
  refine ⟨hrun.trans hseconds, hages.trans hpassed, ticked_state g (u.passed g), ?_, ?_, fun hends => ?_, hcfg⟩
  · refine (ticked_attempts g (u.passed g)).trans (if_congr Iff.rfl rfl (if_congr ?_ rfl rfl))
    rw [hloaded]
    refine and_congr_right fun hst => ?_
    rw [if_pos (show u.state = .loaded from hst)]
    omega
  · have hflag : (u.passed g).limitNoted = ((u.passed g).limitNoted && (u.passed g).blocked g.startLimit) := by
      show (_ && _) = ((_ && _) && _)
      rw [Bool.and_assoc]
      exact congrArg (_ && ·) (Bool.and_self _).symm
    rw [ticked_noted g (u.passed g) hflag, passed_noted, CUnit.blocked, hages]
    cases u.limitNoted <;> cases u.state.waits <;> cases ((u.passed g).ticked g).state.waits <;> simp
  · obtain ⟨htimer, hsecs⟩ := ticked_runs g (u.passed g) hends
    exact ⟨htimer, hsecs.trans hloaded⟩

/-- What steps 1 to 4 of a second from `s` leave, while its events are gathered. -/
structure TimedUnits (s r : State) : Prop where
  unit : ∀ i : Fin 6, UnitSecond s.site s.duty.units[i] r.duty.units[i]
  roster : r.duty.roster = s.duty.roster
  fuel : r.duty.fuel = s.duty.fuel + (s.duty.units.toList.map (fuelRate s)).sum
  tRaw : r.flow.tRaw = s.flow.tRaw
  site : r.site = s.site
  time : gasTime r = gasTime s
  quiet : (∀ i : Fin 6, (s.duty.units[i]).phaseEnds = false) → r.flow = s.flow ∧ r.duty.ready = s.duty.ready
  told : dutyTold s.gatheringEvents ((List.finRange 6).filterMap (timerTold s)) r
  next : schedulerSecond s.gatheringEvents = evaluateDuty r

theorem timedUnits (s : State) : TimedUnits s (unitTimers (agedUnits s.gatheringEvents)) := by
  have hsame := unitTimers_same (agedUnits s.gatheringEvents)
  refine ⟨fun i => ?_, hsame.roster, hsame.fuel, hsame.tRaw, hsame.site, ?_, fun h => ?_, ?_, rfl⟩
  · rw [timedUnits_unit]
    exact unitSecond s.site s.duty.units[i]
  · rw [gasTime, gasTime, hsame.clock]
    rfl
  · exact unitTimers_quiet (s := agedUnits s.gatheringEvents) fun i => by rw [agedUnits_unit]; exact h i
  · have h := unitTimers_told (agedUnits s.gatheringEvents)
    rw [List.filterMap_congr fun i _ => timerTold_aged s.gatheringEvents i] at h
    exact h

section
variable {r : State} (hr : TimedUnits s r)
include hr

/-- What an evaluation tells stands in a gathered response after what the phases that ended told. -/
theorem TimedUnits.gathered_told {l m es : List Raised} (hl : (evaluateDuty r).evq = s.gatheringEvents.evq.pushAll l)
    (hfilter : m.filter isDuty = l.filter isDuty) (h : dutyTold (figured r) es (evaluateDuty r)) :
    m.filter isDuty = (List.finRange 6).filterMap (timerTold s) ++ es :=
  hfilter.trans (toldOf_unique hl (dutyTold_figured hr.told h))

end

theorem committed_cast (s : State) : ((committed s : Nat) : Int) =
    (s.duty.units.toList.map (fun u => if u.state = .starting ∨ u.state = .loaded then (u.cfg.capacity : Int) else 0)).sum := by
  rw [committed_eq, Nat.cast_list_sum, List.map_map]
  refine congrArg List.sum (List.map_congr_left fun u _ => ?_)
  rw [Function.comp_apply, apply_ite (Nat.cast (R := Int)), Nat.cast_zero]

/-- The stop of an evaluation. -/
theorem evaluation_stops {r : State} {i : Fin 6} (hlast : stopCandidate r = some i) (hdue : stopHolds r r.duty.units[i] = true) :
    (evaluateDuty r).duty.units = setVec r.duty.units i (((r.duty.units[i]).stopped r.site).renote r.site.startLimit)
    ∧ dutyTold (figured r) [stopTold r i] (evaluateDuty r) := by
  rw [evaluateDuty_stops hlast hdue]
  exact stopUnit_spec i (figured r)

/-- Settles O48: steps 1 to 4 write the units one by one; the evaluation reads what they leave. -/
theorem schedulerSecondAccruesAndEvaluates : Obligations.SchedulerSecondAccruesAndEvaluates := by
  refine ⟨fun s u k hconf hk => ⟨fun hst => ?_, fun hst => ?_, fun hst => ?_⟩, fun s => ?_⟩
  · rw [fuelRate_eq s hconf hk]
    rcases hst with hst | hst <;> rw [hst]
  · rw [fuelRate_eq s hconf hk, hst]
    rfl
  · rw [fuelRate_eq s hconf hk]
    cases h : u.state <;> rw [h] at hst
    case hot | starting | loaded => exact absurd hst.symm Bool.false_ne_true
  intro r waits
  have hr : TimedUnits s r := timedUnits s
  clear_value r
  have hsame := sameDuty_evaluate r
  have hd : Does dutyParts s.gatheringEvents (schedulerSecond s.gatheringEvents) :=
    (dutyKept_of_subset (List.Subset.refl _) _).schedulerSecond (.refl _ _)
  obtain ⟨l, hl⟩ := hd.appends
  obtain ⟨m, hm, _, hfilter⟩ := gathered_pushAll schedulerSecond s l hl
  rw [hr.next] at hl
  have hduty : (gathered schedulerSecond s).duty = (evaluateDuty r).duty := by
    rw [gathered_duty, hr.next]
  refine ⟨gathered schedulerSecond s, m, rfl, ?_, fun i => ?_, hr.roster, hr.tRaw, hr.site, ?_, fun hno => hr.quiet fun i => ?_, hm, ?_, ?_,
    (hd.gathered (by decide) (by decide)).parts⟩
  · rw [hduty]
    exact hsame.fuel.trans hr.fuel
  · obtain ⟨h1, h2, h3, h4, h5, h6, h7⟩ := hr.unit i
    refine ⟨h1, h2, h3.trans (if_congr Iff.rfl ?_ rfl), h4, ?_, h6, h7⟩
    · unfold CUnit.endState
      cases (s.duty.units[i]).state <;> rfl
    · rw [h5, ← waits_eq, ← waits_eq]
  · rw [hduty]
    exact hsame.roster.trans hr.roster
  · rw [CUnit.phaseEnds, Bool.and_eq_false_iff, beq_eq_false_iff_ne]
    have hnot := hno i
    rw [not_and_or, Bool.not_eq_true] at hnot
    exact hnot
  · intro units demand committed startable last due starts ahead noted marked ended tells
    have hcommitted : committed = ((Machine.committed r : Nat) : Int) := (committed_cast r).symm
    have hended : ended = (List.finRange 6).filterMap (timerTold s) := by
      refine List.filterMap_congr fun i _ => ?_
      rw [timerTold_eq]
      refine if_congr Iff.rfl ?_ rfl
      unfold CUnit.endEvent
      cases (s.duty.units[i]).state <;> rfl
    have htells {es : List Raised} (h : dutyTold (figured r) es (evaluateDuty r)) : tells es := by
      show m.filter isDuty = ended ++ es
      rw [hended]
      exact hr.gathered_told hl (hfilter .dutyScheduler) h
    have hstartable (i : Fin 6) : startable i = (r.duty.units[i]).startable r.site.startLimit := by
      rw [CUnit.startable, ← waits_eq, hr.site]
    have hlast : last = stopCandidate r := by
      rw [stopCandidate, hr.roster]
    have hdue (i : Fin 6) : due i = stopHolds r r.duty.units[i] := by
      rw [stopHolds_eq, ← hcommitted, hr.site]
      rfl
    have hstarts : starts = (startDemand r && noneStarting r) := by
      refine congrArg (· && noneStarting r) (decide_eq_decide.mpr ?_)
      rw [hcommitted, ← hr.site]
      exact_mod_cast Iff.rfl
    have hahead : ahead = limitedAhead (figured r) (figured r).duty.roster.toList := by
      have hable : (fun i => !startable i) = fun i => !(r.duty.units[i]).startable r.site.startLimit :=
        funext fun i => congrArg (!·) (hstartable i)
      show (s.duty.roster.toList.takeWhile (fun i => !startable i)).filter _
        = (r.duty.roster.toList.takeWhile (fun i => !(r.duty.units[i]).startable r.site.startLimit)).filter _
      rw [← hr.roster, hable]
      refine List.filter_congr fun i _ => ?_
      rw [hstartable i]
      show (_ && _) = ((r.duty.units[i]).blocked r.site.startLimit && _)
      rw [blocked_eq, ← waits_eq]
      rfl
    have hnoted : noted = (limitedAhead (figured r) (figured r).duty.roster.toList).map (limitTold (figured r)) := by
      rw [← hahead]
      refine List.map_congr_left fun i _ => ?_
      rw [limitTold, ← hr.time]
      rfl
    have hmarked (j : Fin 6) : marked j =
        if j ∈ limitedAhead (figured r) (figured r).duty.roster.toList then (r.duty.units[j]).noted else r.duty.units[j] := by
      rw [← hahead]
      rfl
    clear_value committed startable last due starts tells noted marked
    subst hlast
    refine ⟨?_, ?_, fun i hi hi' => ?_, fun hnd hno hgo => ⟨fun i hi => ?_, fun hnone => ?_⟩, fun hno hgo => ?_⟩
    · rw [hduty]
      exact hsame.figures.1
    · rw [hduty, hcommitted]
      exact congrArg _ hsame.figures.2
    · obtain ⟨hunits, htold⟩ := evaluation_stops hi ((hdue i).symm.trans hi')
      rw [stopTold, hr.time, hr.site] at htold
      rw [hr.site] at hunits
      exact ⟨(congrArg Duty.units hduty).trans hunits, htells htold⟩
    all_goals have hrule : evaluateDuty r = startRule (figured r) := evaluateDuty_goesOn fun i hi => (hdue i).symm.trans (hno i hi)
    · intro u origin
      have horigin : origin = (originCode u.state, warmUp s.site u.state) := by
        dsimp only [origin]
        cases u.state <;> rfl
      have hfirst : (figured r).duty.roster.toList.find? (fun i => ((figured r).duty.units[i]).startable (figured r).site.startLimit) = some i := by
        rw [← hi, ← hr.roster]
        exact congrArg (fun p => List.find? p r.duty.roster.toList) (funext fun j => (hstartable j).symm)
      obtain ⟨hall, htold⟩ := startRule_starts (s := figured r) (by rw [← hr.roster] at hnd; exact hnd) (hstarts.symm.trans hgo) hfirst
      rw [← hrule] at hall htold
      rw [← hnoted] at htold
      refine ⟨?_, fun j => ?_⟩
      · rw [horigin, ← hr.time]
        exact htells htold
      · rw [hduty, hall j, hmarked j, horigin, ← hr.site]
        rfl
    · have hfirst : (figured r).duty.roster.toList.find? (fun i => ((figured r).duty.units[i]).startable (figured r).site.startLimit) = none := by
        rw [← hnone, ← hr.roster]
        exact congrArg (fun p => List.find? p r.duty.roster.toList) (funext fun j => (hstartable j).symm)
      obtain ⟨hall, htold⟩ := startRule_notes (s := figured r) (by rw [← hr.roster] at hnd; exact hnd) (hstarts.symm.trans hgo) hfirst
      rw [← hrule] at hall htold
      rw [← hnoted] at htold
      refine ⟨htells htold, fun j => ?_⟩
      rw [hduty, hall j, hmarked j]
      rfl
    · have hrest : evaluateDuty r = figured r := hrule.trans (startRule_rests (hstarts.symm.trans hgo))
      refine ⟨?_, htells ?_⟩
      · rw [hduty, hrest]
        rfl
      · rw [hrest]
        exact toldOf_refl _ _
  · exact recutFollows_gathered ((recutDuty s.gatheringEvents).schedulerSecond (recutsSince_refl _)) ⟨rfl, rfl, rfl⟩ rfl

end

end Sys2Proof.Machine
end

section
/-! SUPPORT. The confirmation of several hours, one after the other (R53): what it reads, and what it leaves (O28, O39, O43). -/

namespace Sys2Proof.Machine

/-! ### What a confirmation reads -/

/-- The figures, the accounts and the clock that a confirmation reads are the same. -/
structure SameBasis (s v : State) : Prop where
  slots : v.acct.slots = s.acct.slots
  curves : v.curves = s.curves
  clock : v.clock = s.clock
  declared : v.duty.declared = s.duty.declared
  capacity : v.dry.capacity = s.dry.capacity

section
variable {s v : State} {h : Nat}

theorem SameBasis.refl (s : State) : SameBasis s s := ⟨rfl, rfl, rfl, rfl, rfl⟩

theorem SameBasis.moved {t u : State} (hb : SameBasis s v) (hs : Does [.sched, .book, .evq] s t) (hv : Does [.sched, .book, .evq] v u) :
    SameBasis t u :=
  ⟨by rw [hv.acct_eq (by decide), hs.acct_eq (by decide), hb.slots], by rw [hv.curves_eq (by decide), hs.curves_eq (by decide), hb.curves],
    by rw [hv.clock_eq (by decide), hs.clock_eq (by decide), hb.clock], by rw [hv.duty_eq (by decide), hs.duty_eq (by decide), hb.declared],
    by rw [hv.dry_eq (by decide), hs.dry_eq (by decide), hb.capacity]⟩

theorem boundOf_congr (hb : SameBasis s v) (hsched : v.sched = s.sched) (i : Fin 24) (d : Direction) : boundOf v h i d = boundOf s h i d := by
  have hproj (a : Account) : projected v i a h = projected s i a h := by
    rw [projected, projected, hsched, hb.clock]
  have hratchet (c : Option (Fin 16)) (n : Nat) : ratchet v c n = ratchet s c n := by
    unfold ratchet
    rw [hb.curves]
  have hlimit : hourlyLimit v i h d = hourlyLimit s i h d := by
    unfold hourlyLimit
    rw [hb.slots]
    simp only [hproj, hratchet]
  unfold boundOf
  rw [hlimit, hb.slots]

theorem holderOf_congr (hentries : v.book.entries = s.book.entries) (i : Fin 24) (d : Direction) (c : Class) :
    holderOf v h i d c = holderOf s h i d c := by
  rw [holderOf, holderOf, hentries]

/-- The records of an hour are the same. -/
theorem confirmedRecords_congr (hb : SameBasis s v) (hentries : v.book.entries = s.book.entries) (hsched : v.sched = s.sched) :
    confirmedRecords v h = confirmedRecords s h := by
  have hkey (i : Fin 24) (d : Direction) (c : Class) : keyRecord v h i d c = keyRecord s h i d c := by
    have hmost : mostOf v h i d c = mostOf s h i d c := by
      cases c <;> simp only [mostOf, boundOf_congr hb hsched, holderOf_congr hentries]
    rw [keyRecord, keyRecord, hmost, boundOf_congr hb hsched, holderOf_congr hentries]
  have hstaged : stagedRecords v h = stagedRecords s h := by
    unfold stagedRecords
    simp only [shipperStage_eq, funext (hkey _ _)]
  rw [confirmedRecords_eq, confirmedRecords_eq, stagedShares, stagedShares, hstaged, hb.declared, hb.capacity]

/-! ### What is asked of the records, whatever the limits -/

theorem asked_append (rs qs : List SchedRec) : asked (rs ++ qs) = asked rs ++ asked qs := List.map_append

/-- What the record of a key asks for. -/
def keyAsked (s : State) (h : Nat) (i : Fin 24) (d : Direction) (c : Class) : Option (Nat × Nat) :=
  (holderOf s h i d c).map (fun e => ((((h * 24 + e.slot.val) * 2 + e.dir.code) * 2 + e.cls.code), e.quantity))

theorem asked_shipperStage (s : State) (h : Nat) (i : Fin 24) (d : Direction) :
    asked (shipperStage s h i d) = [Class.firm, Class.interruptible].filterMap (keyAsked s h i d) := by
  rw [shipperStage_eq, asked, List.map_filterMap]
  refine List.filterMap_congr fun c _ => ?_
  rw [keyRecord, keyAsked, Option.map_map]
  rfl

theorem asked_zipWith (rs : List SchedRec) (xs : List Nat) (hlen : xs.length = rs.length) : asked (List.zipWith SchedRec.cutBy rs xs) = asked rs := by
  induction rs generalizing xs with
  | nil => rfl
  | cons r rs ih =>
    match xs, hlen with
    | x :: xs, hlen =>
      obtain ⟨_, _, _, _, hreq, _⟩ := cutBy_fields r x
      rw [List.zipWith_cons_cons, asked, List.map_cons, cutBy_rank, hreq]
      exact congrArg (_ :: ·) (ih xs (Nat.succ.inj hlen))

theorem asked_confirmed (s : State) (h : Nat) : asked (confirmedRecords s h) = (List.finRange 24).flatMap (fun i =>
    [Class.firm, Class.interruptible].filterMap (keyAsked s h i .inject)
      ++ [Class.firm, Class.interruptible].filterMap (keyAsked s h i .withdraw)) := by
  rw [confirmedRecords_eq, stagedShares, asked_zipWith _ _ (siteShares_length _ _ _), stagedRecords, asked, List.map_flatMap]
  refine List.flatMap_congr fun i _ => ?_
  rw [List.map_append]
  exact congrArg₂ (· ++ ·) (asked_shipperStage s h i .inject) (asked_shipperStage s h i .withdraw)

theorem asked_confirmed_congr (hentries : v.book.entries = s.book.entries) : asked (confirmedRecords v h) = asked (confirmedRecords s h) := by
  have hkey (i : Fin 24) (d : Direction) : keyAsked v h i d = keyAsked s h i d := funext fun c => by
    rw [keyAsked, keyAsked, holderOf_congr hentries]
  simp only [asked_confirmed, hkey]

/-! ### What is counted -/

theorem countRecord_basis (r : SchedRec) (s : State) : (countRecord r s).acct = s.acct
    ∧ (countRecord r s).book.stats.filter = s.book.stats.filter ∧ (countRecord r s).book.nextArrival = s.book.nextArrival := by
  rw [countRecord_eq]
  exact ⟨rfl, rfl, rfl⟩

theorem recordPasses_congr (hslots : v.acct.slots = s.acct.slots) (hfilter : v.book.stats.filter = s.book.stats.filter) (r : SchedRec) :
    recordPasses v r = recordPasses s r := by
  rw [recordPasses, recordPasses, hslots, hfilter]

/-- The counts and the filter are the same, as a confirmation counts. -/
theorem foldl_countRecord_counts (rs : List SchedRec) {s v : State} (hslots : v.acct.slots = s.acct.slots)
    (hcounts : v.book.stats.counts = s.book.stats.counts ∧ v.book.stats.filter = s.book.stats.filter) :
    (rs.foldl (fun t r => countRecord r t) v).book.stats.counts = (rs.foldl (fun t r => countRecord r t) s).book.stats.counts
    ∧ (rs.foldl (fun t r => countRecord r t) v).book.stats.filter = (rs.foldl (fun t r => countRecord r t) s).book.stats.filter := by
  induction rs generalizing s v with
  | nil => exact hcounts
  | cons r rs ih =>
    obtain ⟨hsame, hfilter⟩ := hcounts
    obtain ⟨hacctv, hfilterv, _⟩ := countRecord_basis r v
    obtain ⟨haccts, hfilters, _⟩ := countRecord_basis r s
    rw [List.foldl_cons, List.foldl_cons]
    refine ih (by rw [hacctv, haccts, hslots]) ⟨?_, by rw [hfilterv, hfilters, hfilter]⟩
    rw [countRecord_eq, countRecord_eq, recordPasses_congr hslots hfilter]
    show setVec v.book.stats.counts _ _ = setVec s.book.stats.counts _ _
    rw [hsame]

theorem foldl_countRecord_book (rs : List SchedRec) {s v : State} (hslots : v.acct.slots = s.acct.slots) (hbook : v.book = s.book) :
    (rs.foldl (fun t r => countRecord r t) v).book = (rs.foldl (fun t r => countRecord r t) s).book := by
  induction rs generalizing s v with
  | nil => exact hbook
  | cons r rs ih =>
    rw [List.foldl_cons, List.foldl_cons]
    refine ih (by rw [(countRecord_basis r v).1, (countRecord_basis r s).1, hslots]) ?_
    rw [countRecord_eq, countRecord_eq, recordPasses_congr hslots (by rw [hbook])]
    unfold tally
    dsimp only [State.setBook_book]
    rw [hbook]

theorem foldl_countRecord_arrival (rs : List SchedRec) (s : State) :
    (rs.foldl (fun t r => countRecord r t) s).book.nextArrival = s.book.nextArrival :=
  foldl_preserves (fun t => t.book.nextArrival = s.book.nextArrival) countRecord rs (fun r _ t ht => (countRecord_basis r t).2.2.trans ht) s rfl

/-! ### One hour -/

theorem confirmHour_arrival (s : State) (h : Nat) : (confirmHour h s).book.nextArrival = s.book.nextArrival := by
  rw [confirmHour_eq, foldl_countRecord_arrival]
  rfl

theorem confirmHour_asked (s : State) (h : Nat) : asked (confirmHour h s).sched = asked s.sched ++ asked (confirmedRecords s h) := by
  rw [(confirmHour_stands s h).2.2.2, asked_append]

/-- What two states share where the book differs at most in the statistics' marks. -/
structure SameBooks (s v : State) : Prop where
  entries : v.book.entries = s.book.entries
  through : v.book.confirmedThrough = s.book.confirmedThrough
  arrival : v.book.nextArrival = s.book.nextArrival
  asked : asked v.sched = asked s.sched
  clock : v.clock = s.clock

theorem SameBooks.refl (s : State) : SameBooks s s := ⟨rfl, rfl, rfl, rfl, rfl⟩

theorem SameBooks.confirmHour (hs : SameBooks s v) : SameBooks (confirmHour h s) (confirmHour h v) := by
  obtain ⟨hentriesv, hthroughv, _, _⟩ := confirmHour_stands v h
  obtain ⟨hentriess, hthroughs, _, _⟩ := confirmHour_stands s h
  refine ⟨by rw [hentriesv, hentriess, hs.entries], by rw [hthroughv, hthroughs], ?_, ?_, ?_⟩
  · rw [confirmHour_arrival, confirmHour_arrival, hs.arrival]
  · rw [confirmHour_asked, confirmHour_asked, hs.asked, asked_confirmed_congr hs.entries]
  · rw [(does_confirmHour v h).clock_eq (by decide), (does_confirmHour s h).clock_eq (by decide), hs.clock]

theorem completedTold_congr (hs : SameBooks s v) : completedTold v h = completedTold s h := by
  rw [completedTold, completedTold, hs.entries, gasTime, gasTime, hs.clock]

/-- And what they share besides where the limits read are the same. -/
structure SameRecords (s v : State) : Prop where
  basis : SameBasis s v
  sched : v.sched = s.sched
  counts : v.book.stats.counts = s.book.stats.counts ∧ v.book.stats.filter = s.book.stats.filter

theorem SameRecords.confirmHour (hs : SameBooks s v) (hr : SameRecords s v) : SameRecords (confirmHour h s) (confirmHour h v) := by
  have hrecords : confirmedRecords v h = confirmedRecords s h := confirmedRecords_congr hr.basis hs.entries hr.sched
  refine ⟨hr.basis.moved (does_confirmHour s h) (does_confirmHour v h), ?_, ?_⟩
  · rw [(confirmHour_stands v h).2.2.2, (confirmHour_stands s h).2.2.2, hr.sched, hrecords]
  · rw [confirmHour_eq, confirmHour_eq, hrecords]
    exact foldl_countRecord_counts _ hr.basis.slots hr.counts

/-- Two states of the same book and schedule. -/
structure SameWhole (s v : State) : Prop where
  basis : SameBasis s v
  sched : v.sched = s.sched
  book : v.book = s.book

theorem SameWhole.books (hs : SameWhole s v) : SameBooks s v :=
  ⟨by rw [hs.book], by rw [hs.book], by rw [hs.book], by rw [hs.sched], hs.basis.clock⟩

theorem SameWhole.confirmHour (hs : SameWhole s v) : SameWhole (confirmHour h s) (confirmHour h v) := by
  have hrecords : confirmedRecords v h = confirmedRecords s h := confirmedRecords_congr hs.basis (by rw [hs.book]) hs.sched
  refine ⟨hs.basis.moved (does_confirmHour s h) (does_confirmHour v h), ?_, ?_⟩
  · rw [(confirmHour_stands v h).2.2.2, (confirmHour_stands s h).2.2.2, hs.sched, hrecords]
  · rw [confirmHour_eq, confirmHour_eq, hrecords]
    refine foldl_countRecord_book _ hs.basis.slots ?_
    have hset (u : State) : (confirmed u h).book = { (setEntries (u.book.entries.filterMap (Entry.past h)) u).book with confirmedThrough := h } := rfl
    have hentries (es : List Entry) : (setEntries es v).book = (setEntries es s).book := by
      have hcount (u : State) : (setEntries es u).book = { u.book with
          entries := es, stats := (noteCount (filteredCount u) (u.setBook { u.book with entries := es })).book.stats } := rfl
      have hfiltered : filteredCount v = filteredCount s := by
        unfold filteredCount passes
        rw [hs.book]
      have hnoted : (noteCount (filteredCount v) (v.setBook { v.book with entries := es })).book.stats
          = (noteCount (filteredCount s) (s.setBook { s.book with entries := es })).book.stats := by
        unfold noteCount filteredCount passes
        dsimp only [State.setBook_book]
        rw [hs.book]
      rw [hcount, hcount, hnoted, hs.book]
    rw [hset, hset, hs.book, hentries]

/-! ### Several hours -/

/-- The events that the next `n` hours confirmed complete with. -/
def hoursTold : Nat → State → List Raised
  | 0, _ => []
  | n + 1, s => completedTold s (firstUnconfirmed s) ++ hoursTold n (confirmHour (firstUnconfirmed s) s)

theorem confirmHours_told (n : Nat) (s : State) : (confirmHours n s).evq = s.evq.pushAll (hoursTold n s) := by
  induction n generalizing s with
  | zero => rfl
  | succ n ih =>
    rw [confirmHours, ih, hoursTold, (confirmHour_stands s _).2.2.1, pushAll_append]

theorem hoursTold_congr (n : Nat) (hs : SameBooks s v) : hoursTold n v = hoursTold n s := by
  induction n generalizing s v with
  | zero => rfl
  | succ n ih =>
    have hfirst : firstUnconfirmed v = firstUnconfirmed s := by rw [firstUnconfirmed, firstUnconfirmed, hs.through]
    rw [hoursTold, hoursTold, hfirst, completedTold_congr hs, ih hs.confirmHour]

theorem confirmHours_books (n : Nat) (hs : SameBooks s v) : SameBooks (confirmHours n s) (confirmHours n v) := by
  induction n generalizing s v with
  | zero => exact hs
  | succ n ih =>
    have hfirst : firstUnconfirmed v = firstUnconfirmed s := by rw [firstUnconfirmed, firstUnconfirmed, hs.through]
    rw [confirmHours, confirmHours, hfirst]
    exact ih hs.confirmHour

theorem confirmHours_records (n : Nat) (hs : SameBooks s v) (hr : SameRecords s v) : SameRecords (confirmHours n s) (confirmHours n v) := by
  induction n generalizing s v with
  | zero => exact hr
  | succ n ih =>
    have hfirst : firstUnconfirmed v = firstUnconfirmed s := by rw [firstUnconfirmed, firstUnconfirmed, hs.through]
    rw [confirmHours, confirmHours, hfirst]
    exact ih hs.confirmHour (hr.confirmHour hs)

theorem confirmHours_whole (n : Nat) (hs : SameWhole s v) : SameWhole (confirmHours n s) (confirmHours n v) := by
  induction n generalizing s v with
  | zero => exact hs
  | succ n ih =>
    have hfirst : firstUnconfirmed v = firstUnconfirmed s := by rw [firstUnconfirmed, firstUnconfirmed, hs.book]
    rw [confirmHours, confirmHours, hfirst]
    exact ih hs.confirmHour

theorem confirmHours_through (n : Nat) (s : State) : (confirmHours n s).book.confirmedThrough = s.book.confirmedThrough + n := by
  induction n generalizing s with
  | zero => rfl
  | succ n ih =>
    rw [confirmHours, ih, (confirmHour_stands s _).2.1, firstUnconfirmed]
    omega

theorem confirmHours_arrival (n : Nat) (s : State) : (confirmHours n s).book.nextArrival = s.book.nextArrival := by
  induction n generalizing s with
  | zero => rfl
  | succ n ih => rw [confirmHours, ih, confirmHour_arrival]

/-- The hours through `z` confirmed, as the statements write them. -/
theorem confirmedTo_eq (z : Nat) (s : State) : confirmedTo z s = confirmHours (z - s.book.confirmedThrough) s := by
  unfold confirmedTo
  generalize z - s.book.confirmedThrough = n
  induction n generalizing s with
  | zero => rfl
  | succ n ih =>
    rw [List.range'_succ, List.foldl_cons, confirmHours, ← ih (confirmHour (firstUnconfirmed s) s), (confirmHour_stands s _).2.1]
    rfl

theorem confirmation_running (h : s.clock.state = .running) : confirmation s = confirmedTo (min (s.clock.hour + s.site.lead) lastHour) s := by
  unfold confirmation
  rw [h, confirmedTo_eq]

theorem confirmation_unset (h : s.clock.state = .unset) : confirmation s = s := by
  unfold confirmation
  rw [h]

/-! ### The records and the entries left -/

theorem confirmHours_hours (n : Nat) {k : Nat} (hk : k ≤ firstUnconfirmed s) (hs : ∀ r ∈ s.sched, k ≤ r.hour) :
    ∀ r ∈ (confirmHours n s).sched, k ≤ r.hour := by
  induction n generalizing s with
  | zero => exact hs
  | succ n ih =>
    refine ih (s := Machine.confirmHour (firstUnconfirmed s) s) ?_ fun r hr => ?_
    · rw [firstUnconfirmed, (confirmHour_stands s _).2.1]
      omega
    · rw [(confirmHour_stands s _).2.2.2] at hr
      rcases List.mem_append.mp hr with hr | hr
      · exact hs r hr
      · rw [(confirmed_sound s _ hr).1]
        exact hk

/-- Each entry holds hours after the horizon alone. -/
def entriesAhead (s : State) : Prop := ∀ e ∈ s.book.entries, s.book.confirmedThrough < e.next ∧ e.next ≤ e.last

theorem entriesAhead_confirmHours (n : Nat) (hs : entriesAhead s) : entriesAhead (confirmHours n s) := by
  induction n generalizing s with
  | zero => exact hs
  | succ n ih =>
    refine ih (s := Machine.confirmHour (firstUnconfirmed s) s) fun e he => ?_
    obtain ⟨hentries, hthrough, _⟩ := confirmHour_stands s (firstUnconfirmed s)
    rw [hentries, List.mem_filterMap] at he
    obtain ⟨f, hf, hpast⟩ := he
    obtain ⟨hnext, hlast⟩ := hs f hf
    rw [hthrough, firstUnconfirmed]
    unfold Entry.past at hpast
    split at hpast
    · next hholds =>
      split at hpast
      · exact absurd hpast nofun
      · next hne =>
        obtain rfl := Option.some.inj hpast
        rw [holds_iff, firstUnconfirmed] at hholds
        rw [firstUnconfirmed] at hne
        dsimp only [firstUnconfirmed]
        omega
    · next hholds =>
      obtain rfl := Option.some.inj hpast
      rw [holds_iff, firstUnconfirmed] at hholds
      omega

/-- A key holds an hour. -/
def keyHolds (i : Fin 24) (d : Direction) (c : Class) (x : Nat) (es : List Entry) : Prop :=
  ∃ e ∈ es, e.hasKey i d c = true ∧ e.holds x = true

theorem keyHolds_filterMap {i : Fin 24} {d : Direction} {c : Class} {x : Nat} {f : Entry → Option Entry}
    (hf : ∀ e, (∃ e', f e = some e' ∧ e'.hasKey i d c = true ∧ e'.holds x = true) ↔ e.hasKey i d c = true ∧ e.holds x = true)
    (es : List Entry) : keyHolds i d c x (es.filterMap f) ↔ keyHolds i d c x es := by
  constructor
  · rintro ⟨e', he', hkey⟩
    obtain ⟨e, he, hfe⟩ := List.mem_filterMap.mp he'
    exact ⟨e, he, (hf e).mp ⟨e', hfe, hkey⟩⟩
  · rintro ⟨e, he, hkey⟩
    obtain ⟨e', hfe, hkey'⟩ := (hf e).mpr hkey
    exact ⟨e', List.mem_filterMap.mpr ⟨e, he, hfe⟩, hkey'⟩

theorem past_holds {i : Fin 24} {d : Direction} {c : Class} {x : Nat} (hx : h < x) (e : Entry) :
    (∃ e', Entry.past h e = some e' ∧ e'.hasKey i d c = true ∧ e'.holds x = true) ↔ e.hasKey i d c = true ∧ e.holds x = true := by
  unfold Entry.past
  by_cases hh : e.holds h = true
  · rw [if_pos hh]
    have hin := hh
    rw [holds_iff] at hin
    split
    · next hlast =>
      refine ⟨fun ⟨_, h, _⟩ => absurd h nofun, fun ⟨_, hholds⟩ => ?_⟩
      rw [holds_iff] at hholds
      omega
    · have hholds : ({ e with next := h + 1 } : Entry).holds x = true ↔ e.holds x = true := by
        rw [holds_iff, holds_iff]
        dsimp only
        omega
      constructor
      · rintro ⟨e', he', hkey, hx'⟩
        obtain rfl := Option.some.inj he'
        exact ⟨hkey, hholds.mp hx'⟩
      · rintro ⟨hkey, hx'⟩
        exact ⟨_, rfl, hkey, hholds.mpr hx'⟩
  · rw [if_neg hh]
    exact ⟨fun ⟨e', he', hk⟩ => Option.some.inj he' ▸ hk, fun hk => ⟨e, rfl, hk⟩⟩

theorem keyHolds_confirmHours (n : Nat) {i : Fin 24} {d : Direction} {c : Class} {x : Nat} (hx : s.book.confirmedThrough + n < x) :
    keyHolds i d c x (confirmHours n s).book.entries ↔ keyHolds i d c x s.book.entries := by
  induction n generalizing s with
  | zero => exact Iff.rfl
  | succ n ih =>
    obtain ⟨hentries, hthrough, _⟩ := confirmHour_stands s (firstUnconfirmed s)
    rw [confirmHours, ih (by rw [hthrough, firstUnconfirmed]; omega), hentries]
    exact keyHolds_filterMap (past_holds (by rw [firstUnconfirmed]; omega)) _

end

end Sys2Proof.Machine
end

section
/-! SUPPORT. The withdrawal capacity while trains follow the direction can but fall (R141, R142, R153): O28, O39. -/

namespace Sys2Proof.Machine

/-- A predicate that no event, no write to the flow, no working field of a train and no train that leaves the capacity can break. -/
structure ShrinkFree (P : State → Prop) : Prop where
  raise : ∀ s k a b, k.ofFlow = true → P s → P (raise k a b s)
  setFlow : ∀ s x, P s → P (s.setFlow x)
  same : ∀ s t x, x.figure = (s.dry.trains[t]).figure → P s → P (putTrain t x s)
  fall : ∀ s t x, x.figure ≤ (s.dry.trains[t]).figure → P s → P (handWithdrawalAtZero (reshare (putTrain t x s)))

namespace ShrinkFree

variable {P : State → Prop} (hP : ShrinkFree P) {t : Fin 2} {s : State}
include hP

theorem reshare (h : P s) : P (reshare s) := by
  rw [reshare_eq]
  refine hP.same _ 1 _ ?_ (hP.same s 0 _ rfl h)
  rw [putTrain_trains, if_neg (by decide)]
  rfl

theorem sendStandby (t : Fin 2) (h : P s) : P (sendStandby t s) := by
  dsimp only [Machine.sendStandby]
  split
  · next honline =>
    refine hP.same s t _ ?_ h
    rw [Train.figure, Train.figure, Train.inService, Train.inService, beq_iff_eq.mp honline]
    rfl
  · exact h

theorem dewWarning (h : P s) : P (dewWarning t s) := by
  dsimp only [Machine.dewWarning]
  split_ifs
  · exact hP.same s t _ rfl h
  · exact hP.raise _ _ _ _ rfl (hP.same s t _ rfl h)
  · exact h

theorem takeExcursion (h : P s) : P (takeExcursion handWithdrawalAtZero t s) :=
  hP.raise _ _ _ _ rfl (hP.fall s t _ (Nat.zero_le _) h)

theorem assessSpec (h : P s) : P (assessSpec handWithdrawalAtZero t s) := by
  dsimp only [Machine.assessSpec]
  split_ifs
  · split
    · exact h
    · exact hP.takeExcursion h
  · split
    · exact h
    · exact hP.same s t _ rfl h
  · exact hP.same s t _ rfl h

theorem assessOnline (h : P s) : P (assessOnline handWithdrawalAtZero t s) := by
  dsimp only [Machine.assessOnline]
  split
  · exact hP.dewWarning (hP.assessSpec h)
  · exact h

/-- A train brought ONLINE is assessed as it then is, and can but leave the capacity. -/
theorem loadMask_online (honline : (s.dry.trains[t]).state = .online) (h : P s) : P (loadMask handWithdrawalAtZero t s) := by
  have hmask : P (putTrain t (s.dry.trains[t]).masked s) := hP.same s t _ (masked_figure _) h
  dsimp only [Machine.loadMask]
  split
  · have hstate : ((putTrain t (s.dry.trains[t]).masked s).dry.trains[t]).state = .online := by
      rw [putTrain_trains, if_pos rfl, (Train.masked_keeps _).1, honline]
    unfold Machine.assess
    rw [hstate]
    exact hP.assessOnline hmask
  · exact hmask

theorem bringOnline (t : Fin 2) (h : P s) : P (bringOnline handWithdrawalAtZero t s) := by
  dsimp only [Machine.bringOnline]
  split
  · next hstandby =>
    have hst := beq_iff_eq.mp ((Bool.and_eq_true _ _).mp hstandby).1
    refine hP.loadMask_online ?_ (hP.reshare (hP.same s t _ ?_ h))
    · rw [reshare_trains, putTrain_trains, if_pos rfl]
    · rw [Train.figure, Train.figure, Train.inService, Train.inService, hst]
      rfl
  · exact h

theorem follow (h : P s) : P (followDirection handWithdrawalAtZero s) := by
  dsimp only [followDirection]
  split
  · exact hP.reshare (hP.bringOnline 1 (hP.bringOnline 0 h))
  · exact hP.reshare (hP.sendStandby 1 (hP.sendStandby 0 h))

/-- The direction machine keeps what no train that leaves the capacity can break. -/
theorem flow : FlowKept P P where
  weaken _ h := h
  raise s k a b hk _ h := hP.raise s k a b hk h
  setFlow s x _ _ h := hP.setFlow s x h
  quiet s x _ _ _ _ h := hP.setFlow s x h
  follow _ h := hP.follow h
  reshare _ h := hP.reshare h

end ShrinkFree

/-! ### The schedule where no capacity has fallen -/

section
variable {c0 : Nat} {l0 : List SchedRec} {s : State}

theorem withdrawalCapacity_putTrain {t : Fin 2} {x : Train} (hx : x.figure ≤ (s.dry.trains[t]).figure) :
    withdrawalCapacity (putTrain t x s) ≤ withdrawalCapacity s := by
  rw [withdrawalCapacity_eq, withdrawalCapacity_eq, putTrain_trains, putTrain_trains]
  show min _ s.site.wdrRight ≤ min _ s.site.wdrRight
  obtain rfl | rfl : t = 0 ∨ t = 1 := by omega
  · rw [if_pos rfl, if_neg (by decide)]
    omega
  · rw [if_neg (by decide), if_pos rfl]
    omega

theorem withdrawalCapacity_same {t : Fin 2} {x : Train} (hx : x.figure = (s.dry.trains[t]).figure) :
    withdrawalCapacity (putTrain t x s) = withdrawalCapacity s := by
  rw [withdrawalCapacity_eq, withdrawalCapacity_eq, putTrain_figure hx, putTrain_figure hx]
  rfl

/-- What the hand-over at S 0 leaves: the capacity its owner forms, and the schedule but for a recut on a fall. -/
theorem handAtZero_capacity (s : State) : (handWithdrawalAtZero s).dry.capacity = withdrawalCapacity s
    ∧ withdrawalCapacity (handWithdrawalAtZero s) = withdrawalCapacity s
    ∧ (¬withdrawalCapacity s < s.dry.capacity → (handWithdrawalAtZero s).sched = s.sched) := by
  have hcur := (wdrCurrent_handAtZero s).1
  have hcap : (handWithdrawalAtZero s).dry.capacity = withdrawalCapacity s := by
    dsimp only [handWithdrawalAtZero]
    split
    · rw [State.setFlow_dry, recut_dry]
      rfl
    · rfl
  refine ⟨hcap, hcur.symm.trans hcap, fun hno => ?_⟩
  dsimp only [handWithdrawalAtZero]
  rw [if_neg hno]
  rfl

/-- The capacity is the one its owner forms: below `c0`, or still `c0` and then the schedule is `l0`. -/
def unlessFallen (c0 : Nat) (l0 : List SchedRec) (s : State) : Prop :=
  s.dry.capacity = withdrawalCapacity s ∧ (s.dry.capacity < c0 ∨ s.dry.capacity = c0 ∧ s.sched = l0)

theorem unlessFallen_free (c0 : Nat) (l0 : List SchedRec) : ShrinkFree (unlessFallen c0 l0) where
  raise _ _ _ _ _ h := h
  setFlow _ _ h := h
  same s t x hx h := ⟨h.1.trans (withdrawalCapacity_same hx).symm, h.2⟩
  fall s t x hx h := by
    obtain ⟨hcur, hsched⟩ := h
    obtain ⟨hcap, hformed, hstands⟩ := handAtZero_capacity (reshare (putTrain t x s))
    have hle : withdrawalCapacity (reshare (putTrain t x s)) ≤ s.dry.capacity := by
      rw [withdrawalCapacity_reshare, hcur]
      exact withdrawalCapacity_putTrain hx
    refine ⟨hcap.trans hformed.symm, ?_⟩
    rw [hcap]
    rcases hsched with hlt | ⟨heq, hsame⟩
    · exact .inl (by omega)
    · by_cases hfall : withdrawalCapacity (reshare (putTrain t x s)) < c0
      · exact .inl hfall
      · exact .inr ⟨by omega, (hstands (show ¬_ < s.dry.capacity by omega)).trans hsame⟩

end

end Sys2Proof.Machine
end

section
/-! SUPPORT. CLOCK SET (R2, R3): O28. -/

namespace Sys2Proof.Machine

/-! ### Its steps (R3, R43, R44) -/

section
variable (h sec : Nat) (s : State)

/-- The clock that CLOCK SET starts. -/
def setTo : Clock := ⟨.running, h, sec, 3600, 0, s.clock.lastSettled⟩

/-- What CLOCK SET tells of the hours skipped. -/
def gapTold : List Raised :=
  if 0 < h - (s.clock.lastSettled + 1) then [⟨some ⟨h, sec⟩, .clockGap, none, some ((h - (s.clock.lastSettled + 1) : Nat) : Int)⟩] else []

/-- The number of records of hours earlier than `h`. -/
def earlier : Nat := (s.sched.filter (fun r => decide (r.hour < h))).length

/-- What it tells of the records discarded. -/
def discardTold : List Raised := if 0 < earlier h s then [⟨some ⟨h, sec⟩, .scheduleDiscarded, none, some (earlier h s : Int)⟩] else []

theorem startClock_eq : startClock h sec s = (s.setClock (setTo h sec s)).setEvq (s.evq.pushAll (gapTold h sec s)) := by
  unfold startClock gapTold
  dsimp only
  split <;> rfl

theorem discardBefore_eq : discardBefore h (startClock h sec s) = ((s.setClock (setTo h sec s)).setSched
    (s.sched.filter (fun r => decide (h ≤ r.hour)))).setEvq (s.evq.pushAll (gapTold h sec s ++ discardTold h sec s)) := by
  rw [startClock_eq, pushAll_append]
  unfold discardBefore discardTold earlier
  show (if 0 < (s.sched.filter (fun r => decide (r.hour < h))).length then _ else _) = _
  by_cases hn : 0 < (s.sched.filter (fun r => decide (r.hour < h))).length
  · rw [if_pos hn, if_pos hn]
    rfl
  · rw [if_neg hn, if_neg hn]
    rfl

/-- An entry trimmed to the hours from `u` on (R44). -/
def Entry.from (u : Nat) (e : Entry) : Option Entry :=
  if u ≤ e.next then some e else if e.last < u then none else some { e with first := u, next := u }

theorem trimBefore_eq {u : Nat} (hu : 0 < u) (es : List Entry) : trimBefore u es = es.filterMap (Entry.from u) := by
  unfold trimBefore
  rw [List.filterMap_eq_flatMap_toList]
  refine List.flatMap_congr fun e _ => ?_
  rw [if_neg (Nat.ne_of_gt hu), cutEntry_eq, Entry.from]
  by_cases hnext : u ≤ e.next
  · rw [if_pos (.inl (by omega)), if_pos hnext]
    rfl
  · rw [if_neg (by omega), if_neg hnext]
    by_cases hlast : e.last < u
    · rw [if_pos ⟨Nat.zero_le _, by omega⟩, if_pos hlast]
      rfl
    · rw [if_neg (by omega), if_pos (Nat.zero_le _), if_neg hlast, Nat.sub_add_cancel hu]
      rfl

/-- The part that CLOCK SET confirms, as it left it. -/
def trimmed : State := trimBook h (discardBefore h (startClock h sec s))

/-- The part that the statement confirms. -/
def clockSetBase : State := { s with
  clock := setTo h sec s
  sched := s.sched.filter (fun r => decide (h ≤ r.hour))
  book := { s.book with
    confirmedThrough := max s.book.confirmedThrough (h - 1)
    entries := s.book.entries.filterMap (Entry.from (max s.book.confirmedThrough (h - 1) + 1)) }
  evq := s.evq.pushAll (gapTold h sec s ++ discardTold h sec s) }

theorem trimmed_same : SameBooks (clockSetBase h sec s) (trimmed h sec s) ∧ SameRecords (clockSetBase h sec s) (trimmed h sec s)
    ∧ (trimmed h sec s).evq = (clockSetBase h sec s).evq ∧ (trimmed h sec s).site = s.site := by
  have hentries : (trimmed h sec s).book.entries = (clockSetBase h sec s).book.entries := by
    unfold trimmed trimBook
    rw [discardBefore_eq]
    exact trimBefore_eq (Nat.succ_pos _) s.book.entries
  unfold trimmed trimBook at hentries ⊢
  rw [discardBefore_eq] at hentries ⊢
  exact ⟨⟨hentries, rfl, rfl, rfl, rfl⟩, ⟨⟨rfl, rfl, rfl, rfl, rfl⟩, rfl, rfl, rfl⟩, rfl, rfl⟩

theorem does_trimmed : Does [.clock, .sched, .book, .evq] s (trimmed h sec s) :=
  (((does_startClock s h sec).mono (by decide)).trans ((does_discardBefore _ h).mono (by decide))).trans ((does_trimBook _ h).mono (by decide))

theorem clockSetEffect_eq : clockSetEffect h sec s = taken (out2 (h - (s.clock.lastSettled + 1)) ++ out1 (earlier h s))
    (gathered recomputeTarget (confirmation (trimmed h sec s))) := rfl

end

/-! ### What is left of the book -/

section
variable {h sec : Nat} {s : State}

theorem from_ahead {u : Nat} {e e' : Entry} (he : Entry.from u e = some e') (hlast : e.next ≤ e.last) : u ≤ e'.next ∧ e'.next ≤ e'.last := by
  unfold Entry.from at he
  split at he
  · obtain rfl := Option.some.inj he
    omega
  split at he
  · exact absurd he nofun
  · obtain rfl := Option.some.inj he
    dsimp only
    omega

theorem from_holds {u x : Nat} (hx : u ≤ x) {i : Fin 24} {d : Direction} {c : Class} (e : Entry) :
    (∃ e', Entry.from u e = some e' ∧ e'.hasKey i d c = true ∧ e'.holds x = true) ↔ e.hasKey i d c = true ∧ e.holds x = true := by
  unfold Entry.from
  split_ifs with hnext hlast
  · exact ⟨fun ⟨e', he', hk⟩ => Option.some.inj he' ▸ hk, fun hk => ⟨e, rfl, hk⟩⟩
  · refine ⟨fun ⟨_, hne, _⟩ => absurd hne nofun, fun ⟨_, hholds⟩ => ?_⟩
    rw [holds_iff] at hholds
    omega
  · have hholds : ({ e with first := u, next := u } : Entry).holds x = true ↔ e.holds x = true := by
      rw [holds_iff, holds_iff]
      dsimp only
      omega
    constructor
    · rintro ⟨e', he', hkey, hx'⟩
      obtain rfl := Option.some.inj he'
      exact ⟨hkey, hholds.mp hx'⟩
    · rintro ⟨hkey, hx'⟩
      exact ⟨_, rfl, hkey, hholds.mpr hx'⟩

theorem entriesAhead_base (hs : ∀ e ∈ s.book.entries, e.next ≤ e.last) : entriesAhead (clockSetBase h sec s) := by
  intro e he
  obtain ⟨f, hf, hfrom⟩ := List.mem_filterMap.mp he
  obtain ⟨hnext, hlast⟩ := from_ahead hfrom (hs f hf)
  exact ⟨hnext, hlast⟩

end

/-! ### Recut records -/

theorem asked_of_follows {s t : State} (h : recutFollows s t) : asked t.sched = asked s.sched := by
  obtain ⟨hlen, hrec, _⟩ := h
  refine List.ext_getElem (by rw [asked, asked, List.length_map, List.length_map, hlen]) fun i hi hi' => ?_
  rw [asked, List.length_map] at hi hi'
  simp only [asked, List.getElem_map]
  by_cases hne : t.sched[i] = s.sched[i]
  · rw [hne]
  · obtain ⟨_, _, _, hq, _⟩ := hrec i _ _ (List.getElem?_eq_getElem hi') (List.getElem?_eq_getElem hi) hne
    rw [SchedRec.rank, SchedRec.rank, hq]

/-- Recuts leave the hours of the records. -/
theorem hours_of_follows {s t : State} (h : recutFollows s t) {k : Nat} (hs : ∀ r ∈ s.sched, k ≤ r.hour) : ∀ r ∈ t.sched, k ≤ r.hour := by
  obtain ⟨hlen, hrec, _⟩ := h
  intro q hq
  obtain ⟨i, hi, rfl⟩ := List.mem_iff_getElem.mp hq
  have hi' : i < s.sched.length := hlen ▸ hi
  by_cases hne : t.sched[i] = s.sched[i]
  · rw [hne]
    exact hs _ (List.getElem_mem hi')
  · obtain ⟨_, _, _, hq, _⟩ := hrec i _ _ (List.getElem?_eq_getElem hi') (List.getElem?_eq_getElem hi) hne
    have hhour : t.sched[i].hour = s.sched[i].hour := by rw [hq]
    rw [hhour]
    exact hs _ (List.getElem_mem hi')

/-- Recuts leave the records of an hour that is no later one. -/
theorem net_of_follows {s t : State} (h : recutFollows s t) {k : Nat} (hk : ¬isLaterHour t k) : netConfirmed t.sched k = netConfirmed s.sched k := by
  obtain ⟨hlen, hrec, _⟩ := h
  have hsame (i : Nat) (hi : i < t.sched.length) (hi' : i < s.sched.length) :
      (if t.sched[i].hour == k then t.sched[i].dir.sign t.sched[i].confirmed else 0)
        = if s.sched[i].hour == k then s.sched[i].dir.sign s.sched[i].confirmed else 0 := by
    by_cases hne : t.sched[i] = s.sched[i]
    · rw [hne]
    · obtain ⟨hlater, _, _, hq, _⟩ := hrec i _ _ (List.getElem?_eq_getElem hi') (List.getElem?_eq_getElem hi) hne
      have hhour : t.sched[i].hour = s.sched[i].hour := by rw [hq]
      have hnot : ¬(s.sched[i].hour == k) = true := fun he => hk (by rw [beq_iff_eq] at he; rw [← he]; exact hlater)
      rw [hhour, if_neg hnot, if_neg hnot]
  have hsum (rs : List SchedRec) : netConfirmed rs k = (rs.map (fun r => if r.hour == k then r.dir.sign r.confirmed else 0)).sum := by
    rw [netConfirmed, netOf]
    induction rs with
    | nil => rfl
    | cons r rs ih =>
      rw [List.map_cons, List.sum_cons, List.filter_cons, ← ih]
      split
      · rw [List.map_cons, List.sum_cons]
      · rw [zero_add]
  rw [hsum, hsum]
  refine congrArg List.sum (List.ext_getElem (by rw [List.length_map, List.length_map, hlen]) fun i hi hi' => ?_)
  rw [List.length_map] at hi hi'
  rw [List.getElem_map, List.getElem_map]
  exact hsame i hi hi'

/-! ### The obligation -/

section
variable {s : State} {b : Block}

theorem reqClockSet_taken (hs : s.settled) (hunset : clockIsUnset s = true) (hlen : b.length = 3) (hhour : fieldW b 1 ≤ 23)
    (hsec : fieldW b 2 ≤ 3599) (hafter : s.clock.lastSettled < fieldHour b 0) :
    reqClockSet b s = clockSetEffect (fieldHour b 0) (fieldW b 2) s := by
  dsimp only [reqClockSet]
  rw [checked_passed]
  intro p hp
  rcases List.mem_append.mp hp with hp | hp
  · exact settledChecks_hold hs (by simp [hlen]) p hp
  · simp only [List.mem_cons, List.not_mem_nil, or_false] at hp
    rcases hp with rfl | rfl | rfl
    · exact hunset
    · simp [hhour, hsec]
    · simp [hafter]

/-- Settles O28: the clock starts, the book is trimmed and confirmed as the statement's own is, and T_raw is formed of it. -/
theorem clockSetStartsTheClock : Obligations.ClockSetStartsTheClock := by
  refine ⟨fun s b => keepsItsChecks_all _ s, fun s b hs hunset hlen hhour hsec hafter => ?_⟩
  have hexec := exec_taken (c := .clockSet b) (r := reqClockSet b) rfl hs.1.1 ((reqClockSet_taken hs hunset hlen hhour hsec hafter).trans (clockSetEffect_eq _ _ s))
  generalize fieldHour b 0 = h at hexec hafter ⊢
  generalize fieldW b 2 = sec at hexec ⊢
  intro h' k n now told u w
  have hw : w = confirmedTo (min (h + s.site.lead) lastHour) (clockSetBase h sec s) := rfl
  clear_value w
  obtain ⟨hbooks, hrecords, hevq, hsite⟩ := trimmed_same h sec s
  have hclock : (trimmed h sec s).clock = setTo h sec s := hbooks.clock
  have hconfirm : confirmation (trimmed h sec s)
      = confirmHours (min (h + s.site.lead) lastHour - max s.book.confirmedThrough (h - 1)) (trimmed h sec s) := by
    rw [confirmation_running (by rw [hclock]; rfl), confirmedTo_eq, hclock, hsite, hbooks.through]
    rfl
  have hwhours : w = confirmHours (min (h + s.site.lead) lastHour - max s.book.confirmedThrough (h - 1)) (clockSetBase h sec s) := by
    rw [hw, confirmedTo_eq]
    rfl
  generalize hhours : min (h + s.site.lead) lastHour - max s.book.confirmedThrough (h - 1) = hours at hconfirm hwhours
  have hwbooks := confirmHours_books hours hbooks
  have hwrecords := confirmHours_records hours hbooks hrecords
  rw [← hconfirm, ← hwhours] at hwbooks hwrecords
  have hvevq : (confirmation (trimmed h sec s)).evq = w.evq := by
    rw [hconfirm, hwhours, confirmHours_told, confirmHours_told, hoursTold_congr hours hbooks, hevq]
  have hdv : Does [.clock, .sched, .book, .evq] s (confirmation (trimmed h sec s)) :=
    (does_trimmed h sec s).trans ((does_confirmation _).mono (by decide))
  have hd : Does flowParts (confirmation (trimmed h sec s)) (gathered recomputeTarget (confirmation (trimmed h sec s))) :=
    does_gathered_of (by decide) (by decide) (fun v => does_recomputeTarget (List.Subset.refl _) v) _
  obtain ⟨l, hl⟩ := hd.appends
  have hbook := hd.book_eq (by decide)
  have hfollows : recutFollows w (gathered recomputeTarget (confirmation (trimmed h sec s))) :=
    recutFollows_gathered ((recutFlow _).recomputeTarget (recutsSince_refl _))
      ⟨hwrecords.sched, hwrecords.basis.declared, hwrecords.basis.capacity⟩ hvevq
  have hthrough : (confirmation (trimmed h sec s)).book.confirmedThrough = max s.book.confirmedThrough (h - 1) + hours := by
    rw [hconfirm, confirmHours_through, hbooks.through]
    rfl
  have hvclock : (confirmation (trimmed h sec s)).clock = setTo h sec s := ((does_confirmation _).clock_eq (by decide)).trans hclock
  have hwahead (hes : ∀ e ∈ s.book.entries, e.next ≤ e.last) : entriesAhead w := by
    rw [hwhours]
    exact entriesAhead_confirmHours hours (entriesAhead_base hes)
  refine ⟨_, l, hexec, (hd.clock_eq (by decide)).trans hvclock, hours_of_follows hfollows ?_, ?_, by rw [hl, hvevq],
    (congrArg Book.entries hbook).trans hwbooks.entries, (congrArg Book.confirmedThrough hbook).trans hwbooks.through, ?_,
    (congrArg (fun x : Book => x.stats.counts) hbook).trans hwrecords.counts.1, asked_of_follows hfollows, hfollows, fun hcap heq => ?_,
    fun hes => ?_, fun i d c x hx => ?_, ?_, ?_, ?_⟩
  · rw [hwhours]
    refine confirmHours_hours hours ?_ fun r hr => ?_
    · rw [firstUnconfirmed]
      show h ≤ max s.book.confirmedThrough (h - 1) + 1
      omega
    · exact of_decide_eq_true (List.mem_filter.mp hr).2
  · rw [hbook, hthrough]
    omega
  · rw [hbook, hconfirm, confirmHours_arrival, hbooks.arrival]
    rfl
  · have hcurrent := ((capacitiesCurrent_iff s).mp hcap).2
    have hstart : unlessFallen s.dry.capacity w.sched (confirmation (trimmed h sec s)).gatheringEvents := by
      have hdry : (confirmation (trimmed h sec s)).dry = s.dry := hdv.dry_eq (by decide)
      have hsites : (confirmation (trimmed h sec s)).site = s.site := hdv.site_eq (by decide)
      refine ⟨?_, .inr ⟨congrArg Drying.capacity hdry, hwrecords.sched⟩⟩
      show (confirmation _).dry.capacity = min _ (confirmation _).site.wdrRight
      rw [hsites]
      show _ = min ((confirmation _).dry.trains.toList.map _).sum _
      rw [hdry]
      exact hcurrent.1
    have hend : unlessFallen s.dry.capacity w.sched (recomputeTarget (confirmation (trimmed h sec s)).gatheringEvents) :=
      (unlessFallen_free _ _).flow.recomputeTarget hstart
    exact (hend.2.resolve_left fun hlt => absurd heq (Nat.ne_of_lt hlt)).2
  · rw [hbook]
    intro e he
    rw [hwbooks.entries] at he
    rw [hwbooks.through]
    exact hwahead hes e he
  · rw [hbook, hthrough] at hx
    rw [hbook, hwbooks.entries, hwhours]
    refine (keyHolds_confirmHours hours hx).trans (keyHolds_filterMap (fun e => from_holds ?_ e) _)
    omega
  · have hraw : (gathered recomputeTarget (confirmation (trimmed h sec s))).flow.tRaw = rawTarget (confirmation (trimmed h sec s)).gatheringEvents :=
      (recomputeTarget_spec (s := (confirmation (trimmed h sec s)).gatheringEvents)).2.1
    have hforced : targetForced (confirmation (trimmed h sec s)).gatheringEvents = false := by
      show (clockIsUnset (confirmation _) || isUnrestored (confirmation _) || inFallback (confirmation _)) = false
      rw [clockIsUnset, isUnrestored, inFallback, hvclock, hdv.store_eq (by decide), hdv.sup_eq (by decide)]
      obtain ⟨⟨_, hunrestored, hfallback⟩, _⟩ := hs
      rw [isUnrestored] at hunrestored
      rw [inFallback] at hfallback
      rw [hunrestored, hfallback]
      rfl
    have hnet : netConfirmed (gathered recomputeTarget (confirmation (trimmed h sec s))).sched h = netConfirmed w.sched h := by
      refine net_of_follows hfollows ?_
      rw [isLaterHour, hd.clock_eq (by decide), hvclock]
      exact fun hlater => hlater.elim (fun hne => nomatch hne) (fun hlt => absurd hlt (Nat.lt_irrefl h))
    rw [hraw, hnet, rawTarget, hforced, ← hwrecords.sched]
    show max (-((confirmation _).site.wdrRight : Int)) (min ((confirmation _).site.injRight : Int)
      (netConfirmed (confirmation _).sched (confirmation _).clock.hour)) = _
    rw [hvclock, hdv.site_eq (by decide)]
    rfl
  · refine redirected_before hdv ?_ (redirected_gathered recomputeTarget_spec.1)
    rw [hdv.flow_eq (by decide)]
    exact .refl _
  · exact ((hdv.mono (qs := [.world, .clock, .sched, .book, .flow, .dry, .evq]) (by decide)).trans (hd.mono (by decide))).parts

end

end Sys2Proof.Machine
end

section
/-! SUPPORT. The accounts through the completion of a settlement: the posting, the transfers and the releases (O43). -/

namespace Sys2Proof.Machine

/-! ### A run of entries of the SBA (R37, R38) -/

theorem sbaTrail_append (time : Option GasTime) (limit : Nat) (sba : Int) (xs ys : List (List Raised × Int)) :
    sbaTrail time limit sba (xs ++ ys)
      = sbaTrail time limit sba xs ++ sbaTrail time limit (sba + (xs.map (fun x => x.2)).sum) ys := by
  induction xs generalizing sba with
  | nil => simp [sbaTrail]
  | cons x xs ih =>
    obtain ⟨es, d⟩ := x
    rw [List.cons_append, sbaTrail, sbaTrail, ih, List.map_cons, List.sum_cons, ← Int.add_assoc, ← List.append_assoc]

/-- The SBA takes a run of entries, each told after the events that stand before it, and the alert follows. -/
structure SbaRun (xs : List (List Raised × Int)) (u v : State) : Prop where
  sba : v.acct.sba = u.acct.sba + (xs.map (fun x => x.2)).sum
  told : alertSafe u = true → v.evq = u.evq.pushAll (sbaTrail (gasTime u) u.site.alertLimit u.acct.sba xs)
  safe : alertSafe u = true → alertSafe v = true
  clock : v.clock = u.clock
  site : v.site = u.site

namespace SbaRun

theorem refl (u : State) : SbaRun [] u u := ⟨by simp, fun _ => rfl, id, rfl, rfl⟩

theorem trans {xs ys : List (List Raised × Int)} {u v w : State} (hx : SbaRun xs u v) (hy : SbaRun ys v w) : SbaRun (xs ++ ys) u w := by
  have htime : gasTime v = gasTime u := by rw [gasTime, gasTime, hx.clock]
  refine ⟨?_, fun hu => ?_, fun hu => hy.safe (hx.safe hu), hy.clock.trans hx.clock, hy.site.trans hx.site⟩
  · rw [hy.sba, hx.sba, List.map_append, List.sum_append, Int.add_assoc]
  · rw [hy.told (hx.safe hu), hx.told hu, htime, hx.site, hx.sba, sbaTrail_append, pushAll_append]

/-- One entry, made after some events. -/
theorem entry {s u : State} {es : List Raised} {d : Int} (hsba : u.acct.sba = s.acct.sba) (halert : u.acct.alert = s.acct.alert)
    (hevq : u.evq = s.evq.pushAll es) (hclock : u.clock = s.clock) (hsite : u.site = s.site) : SbaRun [(es, d)] s (addToSba d u) := by
  have htime : gasTime u = gasTime s := by rw [gasTime, gasTime, hclock]
  refine ⟨?_, fun hs => ?_, fun _ => addToSba_alertSafe d u, ((does_addToSba u d).clock_eq (by decide)).trans hclock,
    ((does_addToSba u d).site_eq (by decide)).trans hsite⟩
  · rw [addToSba_acct, List.map_singleton, List.sum_singleton, hsba]
  · have harmed : s.acct.alert = .armed ↔ s.acct.sba.natAbs ≤ s.site.alertLimit := by
      rw [of_decide_eq_true hs, alertOf]
      split <;> simp <;> omega
    rw [addToSba_evq, hsba, hsite, halert, htime, hevq]
    by_cases hcross : s.acct.sba.natAbs ≤ s.site.alertLimit ∧ s.site.alertLimit < (s.acct.sba + d).natAbs
    · rw [if_pos ⟨hcross.2, harmed.mpr hcross.1⟩, sbaTrail, if_pos hcross, sbaTrail, List.append_nil, pushAll_append]
    · rw [if_neg fun hc => hcross ⟨harmed.mp hc.2, hc.1⟩, sbaTrail, if_neg hcross, sbaTrail, List.append_nil, List.append_nil]

/-- What leaves SBA, alert, events, clock and settings alone is an entry of 0. -/
theorem still {s u : State} (hsba : u.acct.sba = s.acct.sba) (halert : u.acct.alert = s.acct.alert) (hevq : u.evq = s.evq)
    (hclock : u.clock = s.clock) (hsite : u.site = s.site) : SbaRun [([], 0)] s u := by
  refine ⟨?_, fun _ => ?_, fun hs => (alertSafe_congr hsba halert hsite).trans hs, hclock, hsite⟩
  · rw [hsba, List.map_singleton, List.sum_singleton, Int.add_zero]
  · rw [sbaTrail, Int.add_zero, if_neg (fun h => absurd h.1 (by omega)), sbaTrail, hevq]
    rfl

end SbaRun

theorem postSba_run (d : Int) (s : State) : SbaRun [([], d)] s (postSba d s) := by
  rw [postSba]
  split
  · next h => exact h ▸ .still rfl rfl rfl rfl rfl
  · exact .entry rfl rfl rfl rfl rfl

theorem postSba_slots (d : Int) (s : State) : (postSba d s).acct.slots = s.acct.slots := by
  rw [postSba]
  split
  · rfl
  · rw [addToSba_acct]

/-! ### Slot after slot -/

theorem putSlot_slots (i j : Fin 24) (o : Option Account) (s : State) :
    (putSlot i o s).acct.slots[j] = if j = i then o else s.acct.slots[j] := by
  show (setVec s.acct.slots i o)[j] = _
  rw [Fin.getElem_fin, setVec_getElem]
  exact if_congr (by rw [eq_comm, Fin.ext_iff]) rfl rfl

/-- Of acts in a row, each with what it alone changes. -/
theorem foldl_own {α : Type} (read : State → Fin 24 → α) {f : Fin 24 → State → State} {g : Fin 24 → α → α}
    (hown : ∀ i u j, read (f i u) j = if j = i then g i (read u i) else read u j) (is : List (Fin 24)) (hnd : is.Nodup) (s : State)
    (j : Fin 24) : read (is.foldl (fun t i => f i t) s) j = if j ∈ is then g j (read s j) else read s j := by
  induction is generalizing s with
  | nil => simp
  | cons i is ih =>
    obtain ⟨hnot, hnd⟩ := List.nodup_cons.mp hnd
    rw [List.foldl_cons, ih hnd, hown]
    by_cases hj : j = i
    · subst hj
      simp [hnot]
    · simp [hj]

/-- Of acts in a row, each a run of entries of the SBA that its own slot gives. -/
theorem foldl_run {α : Type} (read : State → Fin 24 → α) {f : Fin 24 → State → State} {g : Fin 24 → α → α}
    (hown : ∀ i u j, read (f i u) j = if j = i then g i (read u i) else read u j)
    (x : Option GasTime → Fin 24 → α → List (List Raised × Int)) (hrun : ∀ i u, SbaRun (x (gasTime u) i (read u i)) u (f i u))
    (is : List (Fin 24)) (hnd : is.Nodup) (s : State) :
    SbaRun (is.flatMap (fun i => x (gasTime s) i (read s i))) s (is.foldl (fun t i => f i t) s) := by
  induction is generalizing s with
  | nil => exact .refl s
  | cons i is ih =>
    obtain ⟨hnot, hnd⟩ := List.nodup_cons.mp hnd
    have htime : gasTime (f i s) = gasTime s := by rw [gasTime, gasTime, (hrun i s).clock]
    have hrest : is.flatMap (fun j => x (gasTime (f i s)) j (read (f i s) j)) = is.flatMap (fun j => x (gasTime s) j (read s j)) :=
      List.flatMap_congr fun j hj => by
        rw [htime, hown, if_neg fun (hji : j = i) => hnot (hji ▸ hj)]
    rw [List.foldl_cons, List.flatMap_cons]
    exact (hrun i s).trans (hrest ▸ ih hnd (f i s))

/-! ### The posting of a slot (R82, R83) -/

/-- A record posted with its change: the inventory clamped, the flag of the clamp set. -/
def Account.postedBy (d : Int) (a : Account) : Account := { a with
  inventory := max 0 (min (a.spaceRight : Int) (a.inventory + d))
  emptyClamp := a.emptyClamp || decide (a.inventory + d < 0)
  fullClamp := a.fullClamp || decide ((a.spaceRight : Int) < a.inventory + d) }

/-- The clamp amount of a slot, 0 of an EMPTY one. -/
def clampedBy (d : Int) (o : Option Account) : Int := o.elim 0 (fun a => a.clampBy d)

/-- The event of a clamp. -/
def clampTold (now : Option GasTime) (i : Fin 24) (k : Int) : List Raised :=
  if k < 0 then [⟨now, .clampEmpty, some i.val, some k⟩] else if 0 < k then [⟨now, .clampFull, some i.val, some k⟩] else []

theorem postedBy_low {a : Account} {d : Int} (h : a.clampBy d < 0) : a.postedBy d = { a with inventory := 0, emptyClamp := true } := by
  have hv : a.inventory + d < 0 := by
    unfold Account.clampBy at h
    dsimp only at h
    split_ifs at h <;> omega
  have hlow : max 0 (min (a.spaceRight : Int) (a.inventory + d)) = 0 := by omega
  have hnot : ¬(a.spaceRight : Int) < a.inventory + d := by omega
  simp only [Account.postedBy, hlow, hv, hnot, decide_true, Bool.or_true, decide_false, Bool.or_false]

theorem postedBy_high {a : Account} {d : Int} (h : 0 < a.clampBy d) :
    a.postedBy d = { a with inventory := a.spaceRight, fullClamp := true } := by
  have hv : (a.spaceRight : Int) < a.inventory + d := by
    unfold Account.clampBy at h
    dsimp only at h
    split_ifs at h <;> omega
  have hhigh : max 0 (min (a.spaceRight : Int) (a.inventory + d)) = a.spaceRight := by omega
  have hnot : ¬a.inventory + d < 0 := by omega
  simp only [Account.postedBy, hhigh, hv, hnot, decide_true, Bool.or_true, decide_false, Bool.or_false]

theorem postedBy_within {a : Account} {d : Int} (hlow : 0 ≤ a.inventory + d) (hhigh : a.inventory + d ≤ a.spaceRight) :
    a.postedBy d = { a with inventory := a.inventory + d } := by
  have hsame : max 0 (min (a.spaceRight : Int) (a.inventory + d)) = a.inventory + d := by omega
  simp only [Account.postedBy, hsame, not_lt.mpr hlow, not_lt.mpr hhigh, decide_false, Bool.or_false]

theorem postSlot_slots (i : Fin 24) (d : Int) (s : State) (j : Fin 24) :
    (postSlot i d s).acct.slots[j] = if j = i then (s.acct.slots[i]).map (Account.postedBy d) else s.acct.slots[j] := by
  cases h : s.acct.slots[i] with
  | none =>
    rw [postSlot, h, Option.map_none]
    dsimp only
    split
    · next hj => exact hj ▸ h
    · rfl
  | some a =>
    rw [postSlot, h, Option.map_some]
    dsimp only
    obtain ⟨hneg, _⟩ | ⟨hpos, _⟩ | ⟨hzero, hlow, hhigh⟩ := clampBy_cases a d
    · rw [if_pos hneg, addToSba_acct, postedBy_low hneg]
      exact putSlot_slots i j _ s
    · rw [if_neg (by omega), if_pos hpos, addToSba_acct, postedBy_high hpos]
      exact putSlot_slots i j _ s
    · rw [if_neg (by omega), if_neg (by omega), postedBy_within hlow hhigh]
      exact putSlot_slots i j _ s

theorem postSlot_run (i : Fin 24) (d : Int) (s : State) :
    SbaRun [(clampTold (gasTime s) i (clampedBy d s.acct.slots[i]), clampedBy d s.acct.slots[i])] s (postSlot i d s) := by
  cases h : s.acct.slots[i] with
  | none =>
    rw [postSlot, h]
    exact .still rfl rfl rfl rfl rfl
  | some a =>
    have hk : clampedBy d (some a) = a.clampBy d := rfl
    rw [postSlot, h, hk, clampTold]
    dsimp only
    obtain ⟨hneg, _⟩ | ⟨hpos, _⟩ | ⟨hzero, _, _⟩ := clampBy_cases a d
    · rw [if_pos hneg, if_pos hneg]
      exact .entry rfl rfl rfl rfl rfl
    · rw [if_neg (by omega), if_pos hpos, if_neg (by omega), if_pos hpos]
      exact .entry rfl rfl rfl rfl rfl
    · rw [if_neg (by omega), if_neg (by omega), if_neg (by omega), if_neg (by omega), hzero]
      exact .still rfl rfl rfl rfl rfl

/-! ### The figures that neither posting nor transfers touch -/

/-- The totals, the list of transfers and its arrival number. -/
def figuresOf (s : State) : Int × Int × Int × List Transfer × BitVec 32 :=
  (s.acct.opening, s.acct.booked, s.acct.charged, s.acct.transfers, s.acct.nextTransfer)

theorem figures_addToSba (d : Int) (s : State) : figuresOf (addToSba d s) = figuresOf s := by
  rw [figuresOf, addToSba_acct]
  rfl

theorem figures_postSba (d : Int) (s : State) : figuresOf (postSba d s) = figuresOf s := by
  rw [postSba]
  split
  · rfl
  · exact figures_addToSba d s

theorem figures_postSlot (i : Fin 24) (d : Int) (s : State) : figuresOf (postSlot i d s) = figuresOf s := by
  dsimp only [postSlot]
  split
  · rfl
  · split_ifs
    · rw [figures_addToSba]
      rfl
    · rw [figures_addToSba]
      rfl
    · rfl

theorem figures_addInventory (i : Fin 24) (d : Int) (s : State) : figuresOf (addInventory i d s) = figuresOf s := by
  dsimp only [addInventory]
  split <;> rfl

theorem figures_executeTransfer (t : Transfer) (s : State) : figuresOf (executeTransfer t s) = figuresOf s := by
  have hmove (i j : Fin 24) (d e : Int) (a : Option Nat) (b : Option Int) :
      figuresOf (raise .transferDone a b (addInventory j d (addInventory i e s))) = figuresOf s :=
    (figures_addInventory j d _).trans (figures_addInventory i e s)
  dsimp only [executeTransfer]
  split
  · split_ifs
    · rfl
    · rfl
    · rfl
    · exact hmove _ _ _ _ _ _
  · rfl

theorem figures_releaseSlot (i : Fin 24) (s : State) : figuresOf (releaseSlot i s) = figuresOf s := by
  dsimp only [releaseSlot]
  split
  · rfl
  · split
    · rw [figures_addToSba]
      rfl
    · rfl

/-! ### The transfers (R34) -/

/-- Two states in which a transfer runs alike. -/
structure TradesAlike (q : Prop) (u v : State) : Prop where
  slots : u.acct.slots = v.acct.slots
  time : gasTime u = gasTime v
  told : q → u.evq = v.evq

theorem findSlot_congr {u v : State} (h : u.acct.slots = v.acct.slots) (id : Nat) : findSlot id u = findSlot id v := by
  unfold findSlot
  rw [h]

theorem findShipper_congr {u v : State} (h : u.acct.slots = v.acct.slots) (id : Nat) : findShipper id u = findShipper id v := by
  unfold findShipper
  rw [findSlot_congr h, h]

namespace TradesAlike

variable {q : Prop} {u v : State}

theorem raise (h : TradesAlike q u v) (k : EventKind) (a : Option Nat) (b : Option Int) :
    TradesAlike q (raise k a b u) (raise k a b v) := by
  refine ⟨h.slots, h.time, fun hq => ?_⟩
  show u.evq.pushAll [⟨gasTime u, k, a, b⟩] = v.evq.pushAll [⟨gasTime v, k, a, b⟩]
  rw [h.told hq, h.time]

theorem addInventory (h : TradesAlike q u v) (i : Fin 24) (d : Int) : TradesAlike q (addInventory i d u) (addInventory i d v) := by
  unfold Machine.addInventory
  rw [h.slots]
  split
  · exact h
  · refine ⟨?_, h.time, h.told⟩
    show setVec u.acct.slots i _ = setVec v.acct.slots i _
    rw [h.slots]

theorem executeTransfer (h : TradesAlike q u v) (x : Transfer) : TradesAlike q (executeTransfer x u) (executeTransfer x v) := by
  have hfail (n : Nat) : TradesAlike q (failTransfer x n u) (failTransfer x n v) := by
    rw [failTransfer, failTransfer, findSlot_congr h.slots]
    exact h.raise _ _ _
  unfold Machine.executeTransfer
  rw [findShipper_congr h.slots, findShipper_congr h.slots]
  split
  · split_ifs
    · exact hfail 2
    · exact hfail 3
    · exact hfail 4
    · exact ((h.addInventory _ _).addInventory _ _).raise _ _ _
  · exact hfail 1

theorem executeTransfers (h : TradesAlike q u v) (xs : List Transfer) :
    TradesAlike q (xs.foldl (fun t x => Machine.executeTransfer x t) u) (xs.foldl (fun t x => Machine.executeTransfer x t) v) := by
  induction xs generalizing u v with
  | nil => exact h
  | cons x xs ih => exact ih (h.executeTransfer x)

end TradesAlike

/-- The SBA and its alert. -/
def sbaAndAlert (s : State) : Int × Alert := (s.acct.sba, s.acct.alert)

theorem sbaAndAlert_addInventory (i : Fin 24) (d : Int) (s : State) : sbaAndAlert (addInventory i d s) = sbaAndAlert s := by
  dsimp only [addInventory]
  split <;> rfl

theorem sbaAndAlert_executeTransfer (t : Transfer) (s : State) : sbaAndAlert (executeTransfer t s) = sbaAndAlert s := by
  have hmove (i j : Fin 24) (d e : Int) (a : Option Nat) (b : Option Int) :
      sbaAndAlert (raise .transferDone a b (addInventory j d (addInventory i e s))) = sbaAndAlert s :=
    (sbaAndAlert_addInventory j d _).trans (sbaAndAlert_addInventory i e s)
  dsimp only [executeTransfer]
  split
  · split_ifs
    · rfl
    · rfl
    · rfl
    · exact hmove _ _ _ _ _ _
  · rfl

/-- A slot's occupation and state. -/
def stateIn (s : State) (i : Fin 24) : Option AccountState := (s.acct.slots[i]).map (fun a => a.state)

theorem stateIn_addInventory (i : Fin 24) (d : Int) (s : State) (j : Fin 24) : stateIn (addInventory i d s) j = stateIn s j := by
  cases h : s.acct.slots[i] with
  | none => rw [addInventory, h]
  | some a =>
    rw [addInventory, h, stateIn, putSlot_slots, stateIn]
    split
    · next hj => rw [hj, h]; rfl
    · rfl

theorem stateIn_executeTransfer (t : Transfer) (s : State) (j : Fin 24) : stateIn (executeTransfer t s) j = stateIn s j := by
  have hmove (i k : Fin 24) (d e : Int) (a : Option Nat) (b : Option Int) :
      stateIn (raise .transferDone a b (addInventory k d (addInventory i e s))) j = stateIn s j :=
    (stateIn_addInventory k d _ j).trans (stateIn_addInventory i e s j)
  dsimp only [executeTransfer]
  split
  · split_ifs
    · rfl
    · rfl
    · rfl
    · exact hmove _ _ _ _ _ _
  · rfl

/-! ### The release of a slot (R35) -/

/-- A slot's record and its last allocation. -/
def slotAndAllocation (s : State) (i : Fin 24) : Option Account × Option AllocRec := (s.acct.slots[i], s.settle.alloc[i])

/-- Whether a slot's record is CLOSING. -/
def isLeaving (o : Option Account) : Bool := o.any (fun a => a.state == .closing)

/-- A slot and its last allocation after a release. -/
def releasedFrom (_ : Fin 24) (x : Option Account × Option AllocRec) : Option Account × Option AllocRec :=
  if isLeaving x.1 then (none, none) else x

/-- The entry of a released slot, after its event. -/
def releaseEntry (now : Option GasTime) (i : Fin 24) (x : Option Account × Option AllocRec) : List (List Raised × Int) :=
  if isLeaving x.1 then [([⟨now, .slotReleased, some i.val, some (heldBy x.1)⟩], heldBy x.1)] else []

theorem isLeaving_some (a : Account) : isLeaving (some a) = decide (a.state = .closing) := by
  cases h : a.state <;> simp [isLeaving, h]

theorem releaseSlot_stays {i : Fin 24} {s : State} (h : isLeaving s.acct.slots[i] = false) : releaseSlot i s = s := by
  cases hi : s.acct.slots[i] with
  | none => rw [releaseSlot, hi]
  | some a =>
    rw [hi, isLeaving_some, decide_eq_false_iff_not] at h
    rw [releaseSlot, hi]
    exact if_neg h

/-- The part with a slot emptied and told. -/
def vacated (i : Fin 24) (s : State) : State :=
  raise .slotReleased (some i.val) (some (heldBy s.acct.slots[i]))
    ((putSlot i none s).setSettle { s.settle with alloc := setVec s.settle.alloc i none })

theorem releaseSlot_leaves {i : Fin 24} {s : State} (h : isLeaving s.acct.slots[i] = true) :
    releaseSlot i s = addToSba (heldBy s.acct.slots[i]) (vacated i s) := by
  cases hi : s.acct.slots[i] with
  | none => rw [hi] at h; exact absurd h nofun
  | some a =>
    rw [hi, isLeaving_some, decide_eq_true_iff] at h
    rw [releaseSlot, hi, vacated, hi]
    exact if_pos h

theorem releaseSlot_own (i : Fin 24) (s : State) (j : Fin 24) :
    slotAndAllocation (releaseSlot i s) j = if j = i then releasedFrom i (slotAndAllocation s i) else slotAndAllocation s j := by
  cases h : isLeaving s.acct.slots[i]
  · have hnot : ¬isLeaving (slotAndAllocation s i).1 = true := by
      rw [show (slotAndAllocation s i).1 = s.acct.slots[i] from rfl, h]
      exact nofun
    rw [releaseSlot_stays h, releasedFrom, if_neg hnot]
    split
    · next hj => rw [hj]
    · rfl
  · have hslot : (releaseSlot i s).acct.slots[j] = if j = i then none else s.acct.slots[j] := by
      rw [releaseSlot_leaves h, addToSba_acct]
      exact putSlot_slots i j none s
    have halloc : (releaseSlot i s).settle.alloc[j] = if j = i then none else s.settle.alloc[j] := by
      rw [releaseSlot_leaves h, (does_addToSba _ _).settle_eq (by decide)]
      show (setVec s.settle.alloc i none)[j] = _
      rw [Fin.getElem_fin, setVec_getElem]
      exact if_congr (by rw [eq_comm, Fin.ext_iff]) rfl rfl
    rw [slotAndAllocation, hslot, halloc, releasedFrom, if_pos (show isLeaving (slotAndAllocation s i).1 = true from h)]
    split <;> rfl

theorem releaseSlot_run (i : Fin 24) (s : State) :
    SbaRun (releaseEntry (gasTime s) i (slotAndAllocation s i)) s (releaseSlot i s) := by
  cases h : isLeaving s.acct.slots[i]
  · have hnot : ¬isLeaving (slotAndAllocation s i).1 = true := by
      rw [show (slotAndAllocation s i).1 = s.acct.slots[i] from rfl, h]
      exact nofun
    rw [releaseSlot_stays h, releaseEntry, if_neg hnot]
    exact .refl s
  · rw [releaseSlot_leaves h, releaseEntry, if_pos (show isLeaving (slotAndAllocation s i).1 = true from h)]
    exact .entry rfl rfl rfl rfl rfl

/-! ### The account table's step (R34 to R36) -/

section
variable (s : State)

/-- The part with its pending transfers executed. -/
def traded : State := s.acct.transfers.foldl (fun u x => executeTransfer x u) s

theorem traded_preserves {α : Type} (f : State → α) (hf : ∀ x u, f (executeTransfer x u) = f u) : f (traded s) = f s :=
  foldl_preserves (fun u => f u = f s) executeTransfer _ (fun x _ u hu => (hf x u).trans hu) s rfl

theorem does_traded : Does [.acct, .evq] s (traded s) := does_foldl executeTransfer _ (fun t _ u => does_executeTransfer u t) s

/-- The part with no transfer pending. -/
def untraded : State := s.setAcct { s.acct with transfers := [] }

theorem accountStep_eq : accountStep s = (List.finRange 24).foldl (fun t i => releaseSlot i t) (untraded (traded s)) := rfl

/-- What every slot gives to the SBA. -/
def releasing : List (List Raised × Int) := (List.finRange 24).flatMap (fun i => releaseEntry (gasTime s) i (slotAndAllocation s i))

theorem untraded_run {xs : List (List Raised × Int)} {v : State} (h : SbaRun xs (untraded s) v) : SbaRun xs s v :=
  ⟨h.sba, h.told, h.safe, h.clock, h.site⟩

theorem untraded_releasing : (List.finRange 24).flatMap (fun i => releaseEntry (gasTime (untraded s)) i (slotAndAllocation (untraded s) i))
    = releasing s := rfl

theorem accountStep_slot (i : Fin 24) :
    slotAndAllocation (accountStep s) i = releasedFrom i ((traded s).acct.slots[i], s.settle.alloc[i]) := by
  have hsettle : (traded s).settle = s.settle := (does_traded s).settle_eq (by decide)
  have hread (u : State) : slotAndAllocation (untraded u) i = (u.acct.slots[i], u.settle.alloc[i]) := rfl
  rw [accountStep_eq, foldl_own slotAndAllocation releaseSlot_own _ (List.nodup_finRange 24), if_pos (List.mem_finRange i), hread, hsettle]

theorem accountStep_run : SbaRun (releasing (traded s)) (traded s) (accountStep s) := by
  rw [accountStep_eq, ← untraded_releasing]
  exact untraded_run _ (foldl_run slotAndAllocation releaseSlot_own releaseEntry releaseSlot_run _ (List.nodup_finRange 24) _)

theorem accountStep_figures : figuresOf (accountStep s)
    = (s.acct.opening, s.acct.booked, s.acct.charged, [], s.acct.nextTransfer) := by
  have htraded : figuresOf (traded s) = figuresOf s := traded_preserves s figuresOf figures_executeTransfer
  have hreleased (u : State) : figuresOf ((List.finRange 24).foldl (fun t i => releaseSlot i t) u) = figuresOf u :=
    foldl_preserves (fun v => figuresOf v = figuresOf u) releaseSlot _ (fun i _ v hv => (figures_releaseSlot i v).trans hv) u rfl
  have hreleased := hreleased (untraded (traded s))
  rw [← accountStep_eq] at hreleased
  simp only [figuresOf, Prod.mk.injEq] at htraded hreleased ⊢
  obtain ⟨hopening, hbooked, hcharged, _, hnext⟩ := htraded
  obtain ⟨hopening', hbooked', hcharged', htransfers', hnext'⟩ := hreleased
  exact ⟨hopening'.trans hopening, hbooked'.trans hbooked, hcharged'.trans hcharged, htransfers', hnext'.trans hnext⟩

theorem traded_safe (h : alertSafe s = true) : alertSafe (traded s) = true := by
  have hboth : sbaAndAlert (traded s) = sbaAndAlert s := traded_preserves s sbaAndAlert sbaAndAlert_executeTransfer
  obtain ⟨hsba, halert⟩ := Prod.mk.inj hboth
  exact (alertSafe_congr hsba halert ((does_traded s).site_eq (by decide))).trans h

theorem traded_sba : (traded s).acct.sba = s.acct.sba :=
  (Prod.mk.inj (traded_preserves s sbaAndAlert sbaAndAlert_executeTransfer)).1
end

end Sys2Proof.Machine
end

section
/-! SUPPORT. The stages of a settlement up to HOUR_SETTLED, and the completion of it (O43). -/

namespace Sys2Proof.Machine

/-! ### The slots posted in turn (R82) -/

/-- A slot posted with its own change. -/
def postAt (changes : List Int) (i : Fin 24) (u : State) : State := postSlot i (changes.getD i.val 0) u

/-- The slots posted. -/
def slotsPosting (changes : List Int) (u : State) : State := (List.finRange 24).foldl (fun t i => postAt changes i t) u

/-- The record of a slot. -/
def slotOf (u : State) (i : Fin 24) : Option Account := u.acct.slots[i]

/-- What a slot is posted with, after its event. -/
def slotEntry (now : Option GasTime) (d : Int) (i : Fin 24) (o : Option Account) : List Raised × Int :=
  (clampTold now i (clampedBy d o), clampedBy d o)

section
variable (changes : List Int) (u : State)

theorem postAt_own (i : Fin 24) (v : State) (j : Fin 24) : slotOf (postAt changes i v) j
    = if j = i then (slotOf v i).map (Account.postedBy (changes.getD i.val 0)) else slotOf v j := postSlot_slots i _ v j

theorem postAt_run (i : Fin 24) (v : State) :
    SbaRun [slotEntry (gasTime v) (changes.getD i.val 0) i (slotOf v i)] v (postAt changes i v) := postSlot_run i _ v

theorem slotsPosting_slots (i : Fin 24) :
    slotOf (slotsPosting changes u) i = (slotOf u i).map (Account.postedBy (changes.getD i.val 0)) := by
  rw [slotsPosting, foldl_own slotOf (g := fun i o => o.map (Account.postedBy (changes.getD i.val 0))) (postAt_own changes) _
    (List.nodup_finRange 24), if_pos (List.mem_finRange i)]

theorem slotsPosting_run : SbaRun ((List.finRange 24).map (fun i => slotEntry (gasTime u) (changes.getD i.val 0) i (slotOf u i))) u
    (slotsPosting changes u) := by
  rw [slotsPosting, List.map_eq_flatMap]
  exact foldl_run slotOf (g := fun i o => o.map (Account.postedBy (changes.getD i.val 0))) (postAt_own changes)
    (fun now i o => [slotEntry now (changes.getD i.val 0) i o]) (postAt_run changes) _ (List.nodup_finRange 24) u

theorem slotsPosting_figures : figuresOf (slotsPosting changes u) = figuresOf u := by
  have hone (i : Fin 24) (v : State) : figuresOf (postAt changes i v) = figuresOf v := figures_postSlot i _ v
  rw [slotsPosting]
  exact foldl_preserves (fun v => figuresOf v = figuresOf u) (postAt changes) _ (fun i _ v hv => (hone i v).trans hv) u rfl

theorem does_slotsPosting : Does [.acct, .evq] u (slotsPosting changes u) := by
  have hone (i : Fin 24) (v : State) : Does [.acct, .evq] v (postAt changes i v) := does_postSlot v i _
  rw [slotsPosting]
  exact does_foldl (postAt changes) _ (fun i _ v => hone i v) u
end

/-! ### The posting of the hour (R82 to R84) -/

section
variable (k : Intake) (s : State)

/-- What the hour adds to a slot. -/
def changeAt (i : Fin 24) : Int := (changesOf k s).getD i.val 0

/-- The clamp amount of a slot. -/
def clampAt (i : Fin 24) : Int := clampedBy (changeAt k s i) s.acct.slots[i]

/-- The entries of the SBA that the posting makes, each after its events. -/
def postingOf : List (List Raised × Int) :=
  [([], (deviationOf k s).tolerance), ([], (deviationOf k s).uncovered), ([], -((consumptionOf k s).fuelLeft : Int)),
    ([], -((consumptionOf k s).dryingLeft : Int))] ++ (List.finRange 24).map (fun i => slotEntry (gasTime s) (changeAt k s i) i s.acct.slots[i])

/-- The settlement's own entries posted. -/
def ownPosting (dv : Deviation) (c : Consumption) (s : State) : State :=
  postSba (-(c.dryingLeft : Int)) (postSba (-(c.fuelLeft : Int)) (postSba dv.uncovered (postSba dv.tolerance s)))

theorem ownPosting_figures (dv : Deviation) (c : Consumption) : figuresOf (ownPosting dv c s) = figuresOf s := by
  rw [ownPosting, figures_postSba, figures_postSba, figures_postSba, figures_postSba]

theorem does_ownPosting (dv : Deviation) (c : Consumption) : Does [.acct, .evq] s (ownPosting dv c s) :=
  (((does_postSba s _).trans (does_postSba _ _)).trans (does_postSba _ _)).trans (does_postSba _ _)

/-- The settlement's own entries of the hour posted. -/
def ownPosted : State := ownPosting (deviationOf k s) (consumptionOf k s) s

/-- The slots posted, the totals not yet. -/
def slotsPosted : State := slotsPosting (changesOf k s) (ownPosted k s)

/-- The totals of the balance with the hour. -/
def totalled (u : State) : State := u.setAcct { u.acct with
  booked := u.acct.booked + k.qb, charged := u.acct.charged + (k.fc : Int) + k.fd }

theorem postHour_eq (dv : Deviation) (c : Consumption) (changes : List Int) : postHour k dv c changes s
    = totalled k (slotsPosting changes (ownPosting dv c s)) := by
  simp only [postHour, totalled, slotsPosting, postAt, ownPosting]

theorem posted_eq : posted k s = totalled k (slotsPosted k s) := postHour_eq k s _ _ _

theorem ownPosted_slots : (ownPosted k s).acct.slots = s.acct.slots := by
  rw [ownPosted, ownPosting, postSba_slots, postSba_slots, postSba_slots, postSba_slots]

theorem ownPosted_run : SbaRun [([], (deviationOf k s).tolerance), ([], (deviationOf k s).uncovered),
    ([], -((consumptionOf k s).fuelLeft : Int)), ([], -((consumptionOf k s).dryingLeft : Int))] s (ownPosted k s) :=
  (((postSba_run _ s).trans (postSba_run _ _)).trans (postSba_run _ _)).trans (postSba_run _ _)

theorem slotsPosted_slots (i : Fin 24) : (slotsPosted k s).acct.slots[i] = (s.acct.slots[i]).map (Account.postedBy (changeAt k s i)) := by
  have hall := slotsPosting_slots (changesOf k s) (ownPosted k s) i
  rw [slotOf, slotOf, ownPosted_slots] at hall
  rw [slotsPosted, changeAt]
  exact hall

theorem slotsPosted_run : SbaRun (postingOf k s) s (slotsPosted k s) := by
  have hown := ownPosted_run k s
  have htime : gasTime (ownPosted k s) = gasTime s := by rw [gasTime, gasTime, hown.clock]
  have hall := slotsPosting_run (changesOf k s) (ownPosted k s)
  simp only [slotOf, ownPosted_slots, htime] at hall
  rw [slotsPosted]
  exact hown.trans hall

theorem slotsPosted_figures : figuresOf (slotsPosted k s) = figuresOf s := by
  have hslots : figuresOf (slotsPosted k s) = figuresOf (ownPosted k s) := slotsPosting_figures (changesOf k s) (ownPosted k s)
  have hown : figuresOf (ownPosted k s) = figuresOf s := ownPosting_figures s (deviationOf k s) (consumptionOf k s)
  exact hslots.trans hown

theorem does_slotsPosted : Does [.acct, .evq] s (slotsPosted k s) := by
  have hown : Does [.acct, .evq] s (ownPosted k s) := does_ownPosting s (deviationOf k s) (consumptionOf k s)
  have hslots : Does [.acct, .evq] (ownPosted k s) (slotsPosted k s) := does_slotsPosting (changesOf k s) (ownPosted k s)
  exact hown.trans hslots

/-! ### The record and the allocations (R85 to R88) -/

/-- The site-hour record. -/
def siteHourOf : SiteHour where
  hour := k.hour
  qb := k.qb
  fc := k.fc
  fd := k.fd
  net := (netNominations s k.records).sum
  deviation := k.qb - (netNominations s k.records).sum
  tolerancePart := (deviationOf k s).tolerance
  uncoveredPart := (deviationOf k s).uncovered
  unassigned := -(((consumptionOf k s).fuelLeft : Int) + (consumptionOf k s).dryingLeft)
  clampTotal := ((List.finRange 24).map (clampOf s (changesOf k s))).sum
  sbaAfter := (posted k s).acct.sba

/-- The last-allocation record that a slot takes. -/
def allocationOf (i : Fin 24) : AllocRec :=
  ⟨k.hour, (netNominations s k.records).getD i.val 0, (deviationOf k s).allocations.getD i.val 0,
    (consumptionOf k s).charges.getD i.val 0, ((List.finRange 24).map (clampOf s (changesOf k s))).getD i.val 0⟩

/-- The records of the hour written. -/
def wroteRecords (row : SiteHour) (has : Fin 24 → Bool) (record : Fin 24 → AllocRec) (u : State) : State :=
  u.setSettle { u.settle with
    history := pushHistory row u.settle.history
    alloc := mapVec (fun i : Fin 24 => if has i then some (record i) else u.settle.alloc[i]) ⟨(List.finRange 24).toArray, rfl⟩ }

/-- The schedule records of the hour removed. -/
def hourRemoved (u : State) : State := u.setSched (u.sched.filter (fun r => !(r.hour == k.hour)))

/-- The settlement told. -/
def hourTold (u : State) : State :=
  raise .hourSettled none (some (k.hour : Int)) (u.setClock { u.clock with lastSettled := k.hour })

theorem settleHour_eq : settleHour k s
    = hourTold k (hourRemoved k (wroteRecords (siteHourOf k s) (scheduled s k) (allocationOf k s) (posted k s))) := by
  simp only [settleHour, hourTold, hourRemoved, wroteRecords, siteHourOf, allocationOf, posted, changesOf, deviationOf, consumptionOf]

theorem clampOf_eq (i : Fin 24) : clampOf s (changesOf k s) i = clampAt k s i := by
  unfold clampOf clampAt clampedBy changeAt
  cases s.acct.slots[i] <;> rfl

theorem clamps_eq : (List.finRange 24).map (clampOf s (changesOf k s)) = (List.finRange 24).map (clampAt k s) :=
  List.map_congr_left fun i _ => clampOf_eq k s i

theorem allocationOf_eq (i : Fin 24) : allocationOf k s i = ⟨k.hour, (netNominations s k.records).getD i.val 0,
    (deviationOf k s).allocations.getD i.val 0, (consumptionOf k s).charges.getD i.val 0, clampAt k s i⟩ := by
  have hclamp : ((List.finRange 24).map (clampOf s (changesOf k s))).getD i.val 0 = clampAt k s i := by
    rw [clamps_eq]
    simp
  rw [allocationOf, hclamp]

/-! ### The hour settled -/

section
variable (u : State) (row : SiteHour) (has : Fin 24 → Bool) (record : Fin 24 → AllocRec)

theorem hourWritten_parts : (hourTold k (hourRemoved k (wroteRecords row has record u))).acct = u.acct
    ∧ (hourTold k (hourRemoved k (wroteRecords row has record u))).site = u.site
    ∧ (hourTold k (hourRemoved k (wroteRecords row has record u))).clock = { u.clock with lastSettled := k.hour }
    ∧ (hourTold k (hourRemoved k (wroteRecords row has record u))).sched = u.sched.filter (fun r => !(r.hour == k.hour))
    ∧ (hourTold k (hourRemoved k (wroteRecords row has record u))).evq
        = u.evq.pushAll [⟨gasTime u, .hourSettled, none, some (k.hour : Int)⟩]
    ∧ (hourTold k (hourRemoved k (wroteRecords row has record u))).settle.history = pushHistory row u.settle.history :=
  ⟨rfl, rfl, rfl, rfl, rfl, rfl⟩

theorem hourWritten_alloc (i : Fin 24) : (hourTold k (hourRemoved k (wroteRecords row has record u))).settle.alloc[i]
    = if has i then some (record i) else u.settle.alloc[i] := by
  show (mapVec (fun i : Fin 24 => if has i then some (record i) else u.settle.alloc[i]) ⟨(List.finRange 24).toArray, rfl⟩)[i] = _
  simp
end

theorem totalled_parts (u : State) : (totalled k u).acct.slots = u.acct.slots ∧ (totalled k u).acct.sba = u.acct.sba
    ∧ (totalled k u).evq = u.evq ∧ (totalled k u).site = u.site ∧ (totalled k u).clock = u.clock
    ∧ (totalled k u).sched = u.sched ∧ (totalled k u).settle = u.settle ∧ alertSafe (totalled k u) = alertSafe u
    ∧ figuresOf (totalled k u) = (u.acct.opening, u.acct.booked + k.qb, u.acct.charged + (k.fc : Int) + k.fd, u.acct.transfers,
        u.acct.nextTransfer) := ⟨rfl, rfl, rfl, rfl, rfl, rfl, rfl, rfl, rfl⟩

/-- The part as the hour's settlement leaves it to the account table. -/
structure HourSettled (t : State) : Prop where
  slots : ∀ i : Fin 24, t.acct.slots[i] = (s.acct.slots[i]).map (Account.postedBy (changeAt k s i))
  sba : t.acct.sba = s.acct.sba + ((postingOf k s).map (fun x => x.2)).sum
  told : alertSafe s = true → t.evq = s.evq.pushAll (sbaTrail (gasTime s) s.site.alertLimit s.acct.sba (postingOf k s)
    ++ [⟨gasTime s, .hourSettled, none, some (k.hour : Int)⟩])
  safe : alertSafe s = true → alertSafe t = true
  clock : t.clock = { s.clock with lastSettled := k.hour }
  sched : t.sched = s.sched.filter (fun r => !(r.hour == k.hour))
  history : t.settle.history = pushHistory (siteHourOf k s) s.settle.history
  alloc : ∀ i : Fin 24, t.settle.alloc[i] = if scheduled s k i then some (allocationOf k s i) else s.settle.alloc[i]
  figures : figuresOf t = (s.acct.opening, s.acct.booked + k.qb, s.acct.charged + (k.fc : Int) + k.fd, s.acct.transfers,
    s.acct.nextTransfer)
  site : t.site = s.site

theorem posted_sba : (posted k s).acct.sba = s.acct.sba + ((postingOf k s).map (fun x => x.2)).sum := by
  rw [posted_eq, (totalled_parts k _).2.1, (slotsPosted_run k s).sba]

theorem siteHourOf_sba : (siteHourOf k s).sbaAfter = s.acct.sba + ((postingOf k s).map (fun x => x.2)).sum := by
  rw [siteHourOf, posted_sba]

theorem settleHour_settled : HourSettled k s (settleHour k s) := by
  have hrun := slotsPosted_run k s
  have hdoes := does_slotsPosted k s
  have hfigures := slotsPosted_figures k s
  have hslots := slotsPosted_slots k s
  rw [settleHour_eq, posted_eq]
  generalize hrow : siteHourOf k s = row, hhas : scheduled s k = has, hrecord : allocationOf k s = record
  generalize slotsPosted k s = u at *
  obtain ⟨hacct, hsite, hclock, hsched, hevq, hhistory⟩ := hourWritten_parts k (totalled k u) row has record
  obtain ⟨hslot, hsba, hq, hsite', hclock', hsched', hsettle, hsafe, hfig⟩ := totalled_parts k u
  have htime : gasTime u = gasTime s := by rw [gasTime, gasTime, hrun.clock]
  have htime' : gasTime (totalled k u) = gasTime u := rfl
  simp only [figuresOf, Prod.mk.injEq] at hfigures hfig
  obtain ⟨hopening, hbooked, hcharged, htransfers, hnext⟩ := hfigures
  refine ⟨fun i => ?_, ?_, fun hs => ?_, fun hs => ?_, ?_, ?_, ?_, fun i => ?_, ?_, ?_⟩
  · rw [hacct, hslot]
    exact hslots i
  · rw [hacct, hsba, hrun.sba]
  · rw [hevq, hq, hrun.told hs, htime', htime, pushAll_append]
  · exact (alertSafe_congr (by rw [hacct]) (by rw [hacct]) hsite).trans (hsafe.trans (hrun.safe hs))
  · rw [hclock, hclock', hrun.clock]
  · rw [hsched, hsched', hdoes.sched_eq (by decide)]
  · rw [hhistory, hsettle, hdoes.settle_eq (by decide), hrow]
  · rw [hourWritten_alloc, hsettle, hdoes.settle_eq (by decide), hhas, hrecord]
  · rw [figuresOf, hacct]
    simp only [Prod.mk.injEq]
    exact ⟨hopening, congrArg (· + k.qb) hbooked, congrArg (· + (k.fc : Int) + k.fd) hcharged, htransfers, hnext⟩
  · rw [hsite, hsite', hrun.site]
end
end Sys2Proof.Machine
end

section
/-! SUPPORT. A settlement brought to its end (R34 to R36, R70, R75, R82 to R88, R176). -/

namespace Sys2Proof.Machine

/-! ### The step's parts -/

section
variable (u : State)

/-- The engine IDLE. -/
def idled : State := u.setSettle { u.settle with inFlight := none }

theorem completionStep_eq : completionStep u = beginCommit (idled (confirmation (accountStep u))) := rfl

theorem beginCommit_store : (beginCommit u).store
    = if isUnrestored u = true then u.store else { u.store with phase := .committing (u.store.held + 1) (snapshot u) } := by
  rw [beginCommit]
  split <;> rfl

theorem snapshot_beginCommit : snapshot (beginCommit u) = snapshot u := by
  rw [beginCommit]
  split
  · rfl
  · exact snapshot_setStore u _

/-- What the completion leaves the account table, the book, the schedule and the settlement as. -/
theorem completionStep_parts : (completionStep u).acct = (accountStep u).acct
    ∧ (completionStep u).book = (confirmation (accountStep u)).book ∧ (completionStep u).sched = (confirmation (accountStep u)).sched
    ∧ (completionStep u).evq = (confirmation (accountStep u)).evq
    ∧ (completionStep u).settle = { (accountStep u).settle with inFlight := none }
    ∧ (completionStep u).clock = u.clock := by
  have hconf := does_confirmation (accountStep u)
  have hidled (v : State) : (idled v).acct = v.acct ∧ (idled v).book = v.book ∧ (idled v).sched = v.sched ∧ (idled v).evq = v.evq
    ∧ (idled v).settle = { v.settle with inFlight := none } := ⟨rfl, rfl, rfl, rfl, rfl⟩
  obtain ⟨hacct, hbook, hsched, hevq, hsettle⟩ := hidled (confirmation (accountStep u))
  have hcommit := does_beginCommit (idled (confirmation (accountStep u)))
  rw [completionStep_clock]
  rw [completionStep_eq]
  refine ⟨?_, ?_, ?_, ?_, ?_, rfl⟩
  · rw [hcommit.acct_eq (by decide), hacct, hconf.acct_eq (by decide)]
  · rw [hcommit.book_eq (by decide), hbook]
  · rw [hcommit.sched_eq (by decide), hsched]
  · rw [hcommit.evq_eq (by decide), hevq]
  · rw [hcommit.settle_eq (by decide), hsettle, hconf.settle_eq (by decide)]

theorem completionStep_store {s : State} (hstore : u.store = s.store) : (completionStep u).store = (if isUnrestored s = true then s.store
    else { s.store with phase := .committing (s.store.held + 1) (snapshot (completionStep u)) }) := by
  have hidled (v : State) : (idled v).store = v.store := rfl
  have hkept : (idled (confirmation (accountStep u))).store = s.store := by
    rw [hidled, (does_confirmation (accountStep u)).store_eq (by decide), (does_accountStep u).store_eq (by decide), hstore]
  have hflag : isUnrestored (idled (confirmation (accountStep u))) = isUnrestored s := isUnrestored_of_store hkept
  rw [completionStep_eq, beginCommit_store, snapshot_beginCommit, hflag, hkept]
end

/-! ### Slots, as the completion leaves them -/

theorem isLeaving_state (o : Option Account) : isLeaving o = (o.map (fun a => a.state) == some .closing) := by
  cases o <;> rfl

/-- A slot that was not CLOSING is not released. -/
theorem leaving_settled {k : Intake} {s u : State} (h : HourSettled k s u) (i : Fin 24) :
    isLeaving (traded u).acct.slots[i] = isLeaving s.acct.slots[i] := by
  have hstate : stateIn (traded u) i = stateIn u i := traded_preserves u (fun v => stateIn v i) fun x v => stateIn_executeTransfer x v i
  have hposted : stateIn u i = stateIn s i := by
    rw [stateIn, h.slots, Option.map_map]
    rfl
  have hread (v : State) : isLeaving v.acct.slots[i] = (stateIn v i == some .closing) := isLeaving_state _
  rw [hread, hread, hstate, hposted]

theorem flatMap_if {α β : Type} (l : List α) (p : α → Bool) (f : α → β) :
    l.flatMap (fun i => if p i then [f i] else []) = (l.filter p).map f := by
  induction l with
  | nil => rfl
  | cons a l ih =>
    rw [List.flatMap_cons, ih, List.filter_cons]
    split <;> rfl

/-- What the CLOSING slots give to the SBA. -/
theorem releasing_eq (v : State) : releasing v = ((List.finRange 24).filter (fun i => isLeaving v.acct.slots[i])).map (fun i =>
    ([⟨gasTime v, .slotReleased, some i.val, some (heldBy v.acct.slots[i])⟩], heldBy v.acct.slots[i])) := by
  rw [← flatMap_if]
  rfl

theorem completed_figures {k : Intake} {s u : State} (h : HourSettled k s u) : figuresOf (accountStep u)
    = (s.acct.opening, s.acct.booked + k.qb, s.acct.charged + (k.fc : Int) + k.fd, [], s.acct.nextTransfer) := by
  have hfigures := h.figures
  simp only [figuresOf, Prod.mk.injEq] at hfigures
  obtain ⟨hopening, hbooked, hcharged, _, hnext⟩ := hfigures
  rw [accountStep_figures, hopening, hbooked, hcharged, hnext]

theorem releaseSlot_history (i : Fin 24) (u : State) : (releaseSlot i u).settle.history = u.settle.history := by
  cases h : isLeaving u.acct.slots[i]
  · rw [releaseSlot_stays h]
  · rw [releaseSlot_leaves h, (does_addToSba _ _).settle_eq (by decide)]
    rfl

theorem accountStep_history (u : State) : (accountStep u).settle.history = u.settle.history := by
  have hfold (v : State) : ((List.finRange 24).foldl (fun t i => releaseSlot i t) v).settle.history = v.settle.history :=
    foldl_preserves (fun t => t.settle.history = v.settle.history) releaseSlot _ (fun i _ t ht => (releaseSlot_history i t).trans ht) v rfl
  have huntraded (v : State) : (untraded v).settle = v.settle := rfl
  rw [accountStep_eq, hfold, huntraded, (does_traded u).settle_eq (by decide)]

/-! ### The confirmation that follows -/

/-- The confirmation that a completion brings, as the statement writes it. -/
theorem confirmation_whole {r s v : State} (hv : SameWhole r v) (hclock : r.clock.state = s.clock.state) (hhour : r.clock.hour = s.clock.hour)
    (hsite : r.site = s.site) :
    (confirmation r).book = (if clockIsUnset s = true then v else confirmedTo (min (s.clock.hour + s.site.lead) lastHour) v).book
    ∧ (confirmation r).sched = (if clockIsUnset s = true then v else confirmedTo (min (s.clock.hour + s.site.lead) lastHour) v).sched
    ∧ (r.evq = v.evq → (confirmation r).evq
        = (if clockIsUnset s = true then v else confirmedTo (min (s.clock.hour + s.site.lead) lastHour) v).evq) := by
  cases hstate : s.clock.state with
  | unset =>
    have hunset : clockIsUnset s = true := by rw [clockIsUnset, hstate]; rfl
    rw [if_pos hunset, confirmation_unset (hclock.trans hstate)]
    exact ⟨hv.book.symm, hv.sched.symm, id⟩
  | running =>
    have hrunning : ¬clockIsUnset s = true := by rw [clockIsUnset, hstate]; exact nofun
    rw [if_neg hrunning, confirmation_running (hclock.trans hstate), hhour, hsite, confirmedTo_eq, confirmedTo_eq, hv.book]
    generalize min (s.clock.hour + s.site.lead) lastHour - r.book.confirmedThrough = n
    have hwhole := confirmHours_whole n hv
    refine ⟨hwhole.book.symm, hwhole.sched.symm, fun hevq => ?_⟩
    rw [confirmHours_told, confirmHours_told, hoursTold_congr n hv.books, hevq]

/-! ### The statement's figures -/

theorem clampBy_eq (o : Option Account) (a c : Int) : clampedBy (a - c) o = o.elim 0 (fun x : Account =>
    if x.inventory + a - c < 0 then x.inventory + a - c
    else if (x.spaceRight : Int) < x.inventory + a - c then x.inventory + a - c - x.spaceRight else 0) := by
  cases o with
  | none => rfl
  | some x =>
    show x.clampBy (a - c) = _
    rw [Account.clampBy, ← Int.add_sub_assoc]
    rfl

theorem postedBy_eq (o : Option Account) (a c : Int) : o.map (Account.postedBy (a - c)) = o.map (fun x : Account => { x with
    inventory := max 0 (min (x.spaceRight : Int) (x.inventory + a - c))
    emptyClamp := x.emptyClamp || decide (x.inventory + a - c < 0)
    fullClamp := x.fullClamp || decide ((x.spaceRight : Int) < x.inventory + a - c) }) := by
  cases o with
  | none => rfl
  | some x =>
    rw [Option.map_some, Option.map_some, Account.postedBy, ← Int.add_sub_assoc]

/-- The change of a slot is its allocation less its charge. -/
theorem changeAt_eq (k : Intake) (s : State) (i : Fin 24) :
    changeAt k s i = (deviationOf k s).allocations.getD i.val 0 - ((consumptionOf k s).charges.getD i.val 0 : Nat) := by
  have halloc : i.val < (deviationOf k s).allocations.length := by
    rw [deviationOf, deviate_length, netNominations_length]
    exact i.isLt
  have hcharge : i.val < (consumptionOf k s).charges.length := by
    rw [consumptionOf, consume_length, netNominations_length]
    exact i.isLt
  rw [changeAt, changesOf, List.getD_eq_getElem?_getD, List.getElem?_zipWith, List.getD_eq_getElem?_getD, List.getD_eq_getElem?_getD,
    List.getElem?_eq_getElem halloc, List.getElem?_eq_getElem hcharge]
  rfl

theorem netNomination_eq (s : State) (rs : List SchedRec) (i : Fin 24) : netNomination s rs i = if s.acct.slots[i] = none then 0
    else ((rs.filter (fun r => decide (r.slot = i))).map (fun r =>
      if r.dir = .inject then (r.confirmed : Int) else -(r.confirmed : Int))).sum := by
  unfold netNomination netOf
  cases s.acct.slots[i] with
  | none => rfl
  | some a =>
    rw [if_neg nofun]
    refine congrArg List.sum (List.map_congr_left fun r _ => ?_)
    cases r.dir <;> rfl

end Sys2Proof.Machine
end

section
/-! SUPPORT. O43, from the parts of a completion. -/

namespace Sys2Proof.Machine

theorem gasTime_ofClock {s t : State} (h : t.clock = s.clock) : gasTime t = gasTime s := by rw [gasTime, gasTime, h]

theorem accountsTold_parts (s : State) (a : Accounts) (q : EventQueue) : ((s.setAcct a).setEvq q).acct = a
    ∧ ((s.setAcct a).setEvq q).evq = q ∧ ((s.setAcct a).setEvq q).clock = s.clock := ⟨rfl, rfl, rfl⟩

theorem refilled_parts (s : State) (a : Accounts) (c : Clock) (r : List SchedRec) (q : EventQueue) :
    ({ s with acct := a, clock := c, sched := r, evq := q } : State).acct = a
    ∧ ({ s with acct := a, clock := c, sched := r, evq := q } : State).clock = c
    ∧ ({ s with acct := a, clock := c, sched := r, evq := q } : State).sched = r
    ∧ ({ s with acct := a, clock := c, sched := r, evq := q } : State).evq = q
    ∧ ({ s with acct := a, clock := c, sched := r, evq := q } : State).book = s.book
    ∧ ({ s with acct := a, clock := c, sched := r, evq := q } : State).curves = s.curves
    ∧ ({ s with acct := a, clock := c, sched := r, evq := q } : State).duty = s.duty
    ∧ ({ s with acct := a, clock := c, sched := r, evq := q } : State).dry = s.dry := ⟨rfl, rfl, rfl, rfl, rfl, rfl, rfl, rfl⟩

/-- Settles O43: the posting, the transfers and the releases slot by slot, and the confirmation from the accounts they leave. -/
theorem settlementCompletionPostsTheHour : Obligations.SettlementCompletionPostsTheHour := by
  intro s
  refine ⟨fun hidle => ?_, ?_⟩
  · have hdone : completeSettlement s = s := by rw [completeSettlement, hidle]
    exact congrArg _ hdone
  intro k hk ns dv c allocated charged after beyond clamp clamps sba held now clampTold posting posted moved leaves left released
  have hexec : exec .settlementCompletion s = .next (completionStep (settleHour k s)) := by
    have hdone : completeSettlement s = completionStep (settleHour k s) := by rw [completeSettlement, hk]
    rw [← hdone]
    rfl
  have hns : netNominations s k.records = ns := by
    rw [netNominations]
    exact List.map_congr_left fun i _ => netNomination_eq s k.records i
  have hdv : deviationOf k s = dv := by rw [deviationOf, hns]
  have hc : consumptionOf k s = c := by rw [consumptionOf, hns]
  have hchange (i : Fin 24) : changeAt k s i = allocated i - charged i := by rw [changeAt_eq, hdv, hc]
  have hclamp (i : Fin 24) : clampAt k s i = clamp i := by
    rw [clampAt, hchange]
    exact clampBy_eq s.acct.slots[i] (allocated i) (charged i)
  obtain ⟨hacct, hqueue, hclock⟩ : posted.acct = _ ∧ posted.evq = _ ∧ posted.clock = _ := accountsTold_parts s _ _
  have hslots (i : Fin 24) : posted.acct.slots[i] = (s.acct.slots[i]).map (Account.postedBy (changeAt k s i)) := by
    rw [hchange, postedBy_eq]
    rw [hacct]
    show (Vector.ofFn _)[i.val] = _
    rw [Vector.getElem_ofFn]
  have htime : gasTime posted = gasTime s := gasTime_ofClock hclock
  have hevq : posted.evq = s.evq.pushAll (sbaTrail now s.site.alertLimit s.acct.sba posting
    ++ [⟨now, .hourSettled, none, some (k.hour : Int)⟩]) := hqueue
  clear_value posted
  have hposting : postingOf k s = posting := by
    have hentry (i : Fin 24) : slotEntry (gasTime s) (changeAt k s i) i s.acct.slots[i] = (clampTold i, clamp i) := by
      rw [← hclamp]
      show (Machine.clampTold (gasTime s) i (clampAt k s i), clampAt k s i) = _
      rw [hclamp]
      rfl
    rw [postingOf, hdv, hc, List.map_congr_left fun i _ => hentry i]
  have hsba : s.acct.sba + (posting.map (fun x => x.2)).sum = sba := by
    have hsum : (posting.map (fun x => x.2)).sum = dv.tolerance + (dv.uncovered + (-(c.fuelLeft : Int) + (-(c.dryingLeft : Int) + clamps))) := by
      show ((([([], dv.tolerance), ([], dv.uncovered), ([], -(c.fuelLeft : Int)), ([], -(c.dryingLeft : Int))] : List (List Raised × Int))
        ++ (List.finRange 24).map (fun i => (clampTold i, clamp i))).map (fun x => x.2)).sum = _
      rw [List.map_append, List.sum_append, List.map_map]
      simp only [List.map_cons, List.map_nil, List.sum_cons, List.sum_nil]
      show _ + clamps = _
      omega
    show _ = s.acct.sba + dv.tolerance + dv.uncovered - c.fuelLeft - c.dryingLeft + clamps
    omega
  have hsettled := settleHour_settled k s
  have hfirst : TradesAlike (alertSafe s = true) posted (settleHour k s) := by
    refine ⟨Vector.ext fun i hi => ?_, ?_, fun hs => ?_⟩
    · exact (hslots ⟨i, hi⟩).trans (hsettled.slots ⟨i, hi⟩).symm
    · rw [htime, gasTime, gasTime, hsettled.clock]
    · rw [hevq, hsettled.told hs, hposting]
  have hmoved : TradesAlike (alertSafe s = true) moved (traded (settleHour k s)) := by
    have hfigures := hsettled.figures
    simp only [figuresOf, Prod.mk.injEq] at hfigures
    obtain ⟨_, _, _, htransfers, _⟩ := hfigures
    rw [traded, htransfers]
    exact hfirst.executeTransfers s.acct.transfers
  have hdoes := does_settleHour s k
  have hstore : (settleHour k s).store = s.store := settleHour_store s k
  have hprior : (posting.map (fun x => x.2)).sum = ((postingOf k s).map (fun x => x.2)).sum := by rw [hposting]
  have hrow : (siteHourOf k s).sbaAfter = sba := by rw [siteHourOf_sba, ← hprior, hsba]
  clear_value moved posting
  generalize settleHour k s = u at *
  have hentry (i : Fin 24) : slotAndAllocation (accountStep u) i = releasedFrom i (moved.acct.slots[i], u.settle.alloc[i]) := by
    rw [accountStep_slot, hmoved.slots]
  have hleaves (i : Fin 24) : leaves i = isLeaving s.acct.slots[i] := by
    rw [← leaving_settled hsettled i, ← hmoved.slots]
    rfl
  have hnow : gasTime (traded u) = now := by
    rw [gasTime_ofClock ((does_traded u).clock_eq (by decide)), gasTime, hsettled.clock]
    rfl
  have hreleased : releasing (traded u) = released := by
    have hleft (i : Fin 24) : heldBy moved.acct.slots[i] = left i := by
      show heldBy (moved.acct.slots[i]) = (moved.acct.slots[i]).elim 0 (fun a => a.inventory)
      cases moved.acct.slots[i] <;> rfl
    rw [releasing_eq, hnow, ← hmoved.slots, List.map_congr_left fun i _ => by rw [hleft i]]
    rfl
  clear_value released
  obtain ⟨hacct, hbook, hsched, hevq, hsettle, hclock⟩ := completionStep_parts u
  have hstep := does_accountStep u
  have hclockr : (accountStep u).clock = { s.clock with lastSettled := k.hour } := (hstep.clock_eq (by decide)).trans hsettled.clock
  have hsiter : (accountStep u).site = s.site := (hstep.site_eq (by decide)).trans (hdoes.site_eq (by decide))
  have hmovedsba : (traded u).acct.sba = sba := by rw [traded_sba, hsettled.sba, ← hprior, hsba]
  have hrun := accountStep_run u
  rw [hreleased] at hrun
  have hfigures := completed_figures hsettled
  simp only [figuresOf, Prod.mk.injEq] at hfigures
  obtain ⟨hopening, hbooked, hcharged, htransfers, hnext⟩ := hfigures
  obtain ⟨hslot, halloc⟩ : (∀ i : Fin 24, (accountStep u).acct.slots[i] = if leaves i = true then none else moved.acct.slots[i])
      ∧ ∀ i : Fin 24, (accountStep u).settle.alloc[i] = if leaves i = true then none
        else if scheduled s k i then some (allocationOf k s i) else s.settle.alloc[i] := by
    have hboth (i : Fin 24) : slotAndAllocation (accountStep u) i = if leaves i = true then (none, none)
        else (moved.acct.slots[i], if scheduled s k i then some (allocationOf k s i) else s.settle.alloc[i]) := by
      rw [hentry, releasedFrom, hsettled.alloc]
      rfl
    exact ⟨fun i => (congrArg Prod.fst (hboth i)).trans (apply_ite Prod.fst _ _ _),
      fun i => (congrArg Prod.snd (hboth i)).trans (apply_ite Prod.snd _ _ _)⟩
  have hclamps : (siteHourOf k s).clampTotal = clamps := by
    rw [siteHourOf, clamps_eq, List.map_congr_left fun i _ => hclamp i]
  have hstages : (siteHourOf k s).net = ns.sum ∧ (siteHourOf k s).deviation = k.qb - ns.sum ∧ (siteHourOf k s).tolerancePart = dv.tolerance
      ∧ (siteHourOf k s).uncoveredPart = dv.uncovered ∧ (siteHourOf k s).unassigned = -((c.fuelLeft : Int) + c.dryingLeft) := by
    rw [← hns, ← hdv, ← hc]
    exact ⟨rfl, rfl, rfl, rfl, rfl⟩
  obtain ⟨hnet, hdeviation, htolerance, huncovered, hunassigned⟩ := hstages
  have hhistory : (completionStep u).settle.history = (accountStep u).settle.history := by rw [hsettle]
  have hallocs : (completionStep u).settle.alloc = (accountStep u).settle.alloc := by rw [hsettle]
  have hstays {i : Fin 24} (h : ¬leaves i = true) : (completionStep u).settle.alloc[i]
      = if scheduled s k i then some (allocationOf k s i) else s.settle.alloc[i] := by
    rw [hallocs, halloc, if_neg h]
  have hopen {i : Fin 24} {a : Account} (ha : s.acct.slots[i] = some a) (hstate : a.state ≠ .closing) : ¬leaves i = true := by
    rw [hleaves, ha, isLeaving_some]
    simpa using hstate
  have hscheduled {i : Fin 24} {a : Account} (ha : s.acct.slots[i] = some a) : scheduled s k i = true ↔ held i := by
    rw [scheduled, ha, Option.isSome_some, Bool.true_and, List.any_eq_true]
    simp only [decide_eq_true_eq]
    rfl
  have hcompleted : s.changesOnly settlementParts (completionStep u) :=
    ((hdoes.mono (by decide : _ ⊆ settlementParts)).trans (does_completionStep u)).parts
  refine ⟨completionStep u, siteHourOf k s, hexec, ?_, ?_, ?_, rfl, rfl, rfl, rfl, hnet, hdeviation, htolerance, huncovered, hunassigned,
    hclamps, hrow, fun i => ⟨fun hleave => ?_, fun hempty => ?_, fun a ha hstate => ⟨fun hheld => ?_, fun hheld => ?_⟩⟩, ?_, ?_, ?_, ?_,
    ?_, ?_, ?_, ?_, ?_, hcompleted⟩
  · rw [hsettle]
  · rw [hclock, hsettled.clock]
  · rw [hhistory, accountStep_history, hsettled.history]
  · rw [hallocs, halloc, if_pos hleave]
  · rw [hstays (by rw [hleaves, hempty]; exact nofun), scheduled, hempty]
    rfl
  · rw [hstays (hopen ha hstate), if_pos ((hscheduled ha).mpr hheld), allocationOf_eq, hns, hdv, hc, hclamp]
  · rw [hstays (hopen ha hstate), if_neg fun h => hheld ((hscheduled ha).mp h)]
  · rw [hacct, hbooked]
  · rw [hacct, hcharged]
  · rw [hacct, hopening]
  · rw [hacct, htransfers]
  · rw [hacct, hnext]
  · intro i
    rw [hacct, hslot]
  · rw [hacct, hrun.sba, hmovedsba]
  · intro v w
    obtain ⟨hvacct, hvclock, hvsched, hvevq, hvbook, hvcurves, hvduty, hvdry⟩ : v.acct = _ ∧ v.clock = _ ∧ v.sched = _ ∧ v.evq = _
      ∧ v.book = s.book ∧ v.curves = s.curves ∧ v.duty = s.duty ∧ v.dry = s.dry := refilled_parts s _ _ _ _
    have hv : SameWhole (accountStep u) v := by
      refine ⟨⟨?_, ?_, ?_, ?_, ?_⟩, ?_, ?_⟩
      · rw [hvacct, hacct]
      · rw [hvcurves, hstep.curves_eq (by decide), hdoes.curves_eq (by decide)]
      · rw [hvclock, hclock, hstep.clock_eq (by decide)]
      · rw [hvduty, hstep.duty_eq (by decide), hdoes.duty_eq (by decide)]
      · rw [hvdry, hstep.dry_eq (by decide), hdoes.dry_eq (by decide)]
      · rw [hvsched, hstep.sched_eq (by decide), hsettled.sched]
        exact List.filter_congr fun r _ => by by_cases h : r.hour = k.hour <;> simp [h]
      · rw [hvbook, hstep.book_eq (by decide), hdoes.book_eq (by decide)]
    have hstate : (accountStep u).clock.state = s.clock.state := by rw [hclockr]
    have hhour : (accountStep u).clock.hour = s.clock.hour := by rw [hclockr]
    obtain ⟨hbookw, hschedw, hevqw⟩ := confirmation_whole hv hstate hhour hsiter
    refine ⟨hbook.trans hbookw, hsched.trans hschedw, fun hs => hevq.trans (hevqw ?_)⟩
    rw [hrun.told (traded_safe u (hsettled.safe hs)), ← hmoved.told hs, hnow, hmovedsba, (does_traded u).site_eq (by decide), hsettled.site,
      hvevq]
  · exact completionStep_store u hstore

end Sys2Proof.Machine
end

section
/-! SUPPORT. The direction through a response of several acts (R101 to R105): O39. -/

namespace Sys2Proof.Machine

/-! ### A direction that suits T_raw -/

/-- The direction is one that T_raw asks for, or none. -/
def Flow.suits (f : Flow) : Prop := (f.dir = .injecting → 0 < f.tRaw) ∧ (f.dir = .withdrawing → f.tRaw < 0)

/-- From `s` the direction has left, and what it is now suits T_raw; one that ends leaves S at 0. -/
structure DirLeft (s u : State) : Prop where
  moved : u.flow.dir ≠ s.flow.dir
  suits : u.flow.suits
  ended : s.flow.dir ≠ .hold → u.flow.setpoint = 0

section
variable {s t : State}

theorem endAtZero_suits (h : s.flow.suits) : endAtZero s = s := by
  obtain ⟨hinj, hwdr⟩ := h
  dsimp only [endAtZero]
  split
  · next hdir => exact if_neg fun hend => absurd hend.2 (not_le.mpr (hinj hdir))
  · next hdir => exact if_neg fun hend => absurd hend.2 (not_le.mpr (hwdr hdir))
  · rfl
  · rfl

theorem Turns.suits (h : Turns s t) (hz : t.flow.tRaw ≠ 0) :
    t.flow.dir = .turnaround ∨ (0 < t.flow.tRaw ∧ t.flow.dir = .injecting) ∨ (t.flow.tRaw < 0 ∧ t.flow.dir = .withdrawing) := by
  obtain ⟨hheld, hexpired⟩ := h
  by_cases hhold : t.site.turnHold = 0
  · obtain ⟨_, hdir, _⟩ := hexpired hhold
    rw [hdir, chosenDir]
    rcases lt_trichotomy 0 t.flow.tRaw with hpos | hzero | hneg
    · rw [if_pos hpos]
      exact .inr (.inl ⟨hpos, rfl⟩)
    · exact absurd hzero.symm hz
    · rw [if_neg (by omega), if_pos hneg]
      exact .inr (.inr ⟨hneg, rfl⟩)
  · exact .inl (hheld hhold).1

theorem Turns.suited (h : Turns s t) (hz : t.flow.tRaw ≠ 0) : t.flow.suits := by
  rcases h.suits hz with hdir | ⟨hraw, hdir⟩ | ⟨hraw, hdir⟩
  · exact ⟨by rw [hdir]; exact nofun, by rw [hdir]; exact nofun⟩
  · exact ⟨fun _ => hraw, by rw [hdir]; exact nofun⟩
  · exact ⟨by rw [hdir]; exact nofun, fun _ => hraw⟩

theorem Ends.suited (hend : Ends s t) : t.flow.suits := by
  by_cases hz : t.flow.tRaw = 0
  · rw [Ends, if_pos hz] at hend
    obtain ⟨hdir, _⟩ := hend
    simp [Flow.suits, hdir]
  · rw [Ends, if_neg hz] at hend
    exact hend.suited hz

/-- The direction stands, or has left for one that suits. -/
theorem redirected_cases (h : redirected s t) : DirStays s t ∨ DirLeft s t := by
  have hleft {d : FlowDir} (hs : s.flow.dir = d) (hne : t.flow.dir ≠ d) (hsuits : t.flow.suits)
      (hended : d ≠ .hold → t.flow.setpoint = 0) : DirStays s t ∨ DirLeft s t := .inr ⟨by rw [hs]; exact hne, hsuits, by rw [hs]; exact hended⟩
  cases hdir : s.flow.dir with
  | hold =>
    rw [redirected_hold hdir] at h
    split_ifs at h with hz hinj hwdr
    · exact .inl h
    · obtain ⟨hd, _⟩ := h
      exact hleft hdir (by rw [hd]; exact nofun) ⟨fun _ => hinj.1, by rw [hd]; exact nofun⟩ fun hne => absurd rfl hne
    · obtain ⟨hd, _⟩ := h
      exact hleft hdir (by rw [hd]; exact nofun) ⟨by rw [hd]; exact nofun, fun _ => hwdr.1⟩ fun hne => absurd rfl hne
    · refine hleft hdir ?_ (h.suited hz) fun hne => absurd rfl hne
      rcases h.suits hz with hd | ⟨_, hd⟩ | ⟨_, hd⟩ <;> rw [hd] <;> exact nofun
  | injecting =>
    rw [redirected_injecting hdir] at h
    split_ifs at h with hend
    · exact hleft hdir (fun hd => absurd (h.suited.1 hd) (not_lt.mpr hend.2)) h.suited fun _ => hend.1
    · exact .inl h
  | withdrawing =>
    rw [redirected_withdrawing hdir] at h
    split_ifs at h with hend
    · exact hleft hdir (fun hd => absurd (h.suited.2 hd) (not_lt.mpr hend.2)) h.suited fun _ => hend.1
    · exact .inl h
  | turnaround => exact .inl ((redirected_turnaround hdir).mp h)

/-- R102 leaves the part as it is, or the direction leaves. -/
theorem endAtZero_cases (s : State) : endAtZero s = s ∨ (endAtZero s).flow.dir ≠ s.flow.dir := by
  have hends := ends_leave (s := s)
  have hkept := courseKept_leave (s := s)
  dsimp only [endAtZero]
  split
  · next hdir =>
    by_cases hend : s.flow.setpoint = 0 ∧ s.flow.tRaw ≤ 0
    · rw [if_pos hend, hdir]
      exact .inr fun hd => absurd (hends.suited.1 hd) (by rw [hkept.tRaw]; exact not_lt.mpr hend.2)
    · exact .inl (if_neg hend)
  · next hdir =>
    by_cases hend : s.flow.setpoint = 0 ∧ 0 ≤ s.flow.tRaw
    · rw [if_pos hend, hdir]
      exact .inr fun hd => absurd (hends.suited.2 hd) (by rw [hkept.tRaw]; exact not_lt.mpr hend.2)
    · exact .inl (if_neg hend)
  · exact .inl rfl
  · exact .inl rfl

/-- A T_raw recomputed leaves the part as it is, or the direction leaves. -/
theorem actOnTarget_cases (s : State) : actOnTarget s = s ∨ (actOnTarget s).flow.dir ≠ s.flow.dir := by
  have henter (d : FlowDir) : (enterDir d s).flow.dir = d := (enterDir_fields (s := s) d).1.1
  dsimp only [actOnTarget]
  split
  · next hdir =>
    rw [hdir]
    dsimp only [assessHold]
    by_cases hz : s.flow.tRaw = 0
    · exact .inl (if_pos hz)
    rw [if_neg hz]
    refine .inr ?_
    split_ifs
    · rw [henter]
      exact nofun
    · rw [henter]
      exact nofun
    · rcases (turns_enterTurnaround (s := s)).suits (by rw [courseKept_enterTurnaround.tRaw]; exact hz) with hd | ⟨_, hd⟩ | ⟨_, hd⟩ <;>
        rw [hd] <;> exact nofun
  · exact endAtZero_cases s
  · exact endAtZero_cases s
  · exact .inl rfl

/-- From HOLD it does not matter where S stands. -/
theorem redirected_anyS {u : State} (hd : Does siteParts t u) (hdir : SameDir t.flow u.flow) (hraw : u.flow.tRaw = t.flow.tRaw)
    (hsite : u.site = t.site) (hclock : u.clock = t.clock) (hs : s.flow.dir = .hold) (h : redirected s t) : redirected s u := by
  have hback : redirected s (u.setFlow { u.flow with setpoint := t.flow.setpoint }) :=
    redirected_after (hd.trans (acts_setFlow u _ (by decide)).does) ⟨hdir, hraw, rfl, hsite, hclock⟩ h
  rw [redirected_hold hs] at hback ⊢
  exact hback

/-- A step cut lets the direction end, once. -/
theorem redirected_stepCut {x : Int} (hd : Does siteParts s t) (hset : t.flow.setpoint ≠ 0) (h : redirected s t) :
    redirected s (stepCut x t) := by
  have hcut := (acts_atCut x t).does.mono (by decide : _ ⊆ siteParts)
  rw [stepCut_eq]
  have hhold (hs : s.flow.dir = .hold) (hend : endAtZero (atCut x t) = atCut x t) : redirected s (endAtZero (atCut x t)) := by
    rw [hend]
    exact redirected_anyS hcut ⟨rfl, rfl, rfl⟩ rfl rfl rfl hs h
  rcases redirected_cases h with hstays | hleft
  · by_cases hs : s.flow.dir = .hold
    · refine hhold hs ?_
      have hdir : (atCut x t).flow.dir = .hold := hstays.1.trans hs
      dsimp only [endAtZero]
      rw [hdir]
    · have hdir : (atCut x t).flow.dir ≠ .hold := fun he => hs (hstays.1.symm.trans he)
      obtain ⟨h1, h2, h3⟩ := hstays
      exact redirected_before (hd.trans hcut) ⟨h1.symm, h2.symm, h3.symm⟩ (redirected_endAtZero hdir)
  · by_cases hs : s.flow.dir = .hold
    · exact hhold hs (endAtZero_suits (s := atCut x t) hleft.suits)
    · exact absurd (hleft.ended hs) hset

/-! ### What several acts leave of the direction -/

/-- From `s` the direction has gone as stated with T_raw `r`, and T stands in its limits. -/
structure Steered (r : Int) (s t : State) : Prop where
  does : Does siteParts s t
  dir : redirected s t
  tRaw : t.flow.tRaw = r
  limited : t.flow.limited

namespace Steered

variable {r : Int} {u : State}

/-- What leaves the direction, T_raw, S and T alone. -/
theorem after (h : Steered r s t) (hd : Does siteParts t u) (hflow : u.flow = t.flow) (hsite : u.site = t.site) (hclock : u.clock = t.clock) :
    Steered r s u :=
  ⟨h.does.trans hd, redirected_after hd ⟨by rw [hflow]; exact .refl _, by rw [hflow], by rw [hflow], hsite, hclock⟩ h.dir,
    by rw [hflow]; exact h.tRaw, by rw [hflow]; exact h.limited⟩

theorem recut (h : Steered r s t) : Steered r s (recut t) := by
  obtain ⟨_, hsite, hflow⟩ := recut_plant t
  have hd : Does siteParts t (Machine.recut t) := does_recut (by decide) (by decide) t
  exact h.after hd hflow hsite (hd.clock_eq (by decide))

theorem reshare (h : Steered r s t) : Steered r s (reshare t) :=
  h.after ((acts_reshare t).does.mono (by decide)) rfl rfl rfl

theorem setWorld (n : Nat) (h : Steered r s t) : Steered r s (t.setWorld n) :=
  h.after (acts_setWorld t n (by decide)).does rfl rfl rfl

theorem retaken {x : Flow} (hdir : SameDir t.flow x) (hraw : x.tRaw = t.flow.tRaw) (hset : x.setpoint = t.flow.setpoint) (hlim : x.limited)
    (h : Steered r s t) : Steered r s (t.setFlow x) :=
  have hd : Does siteParts t (t.setFlow x) := (acts_setFlow t x (by decide)).does
  ⟨h.does.trans hd, redirected_after hd ⟨hdir, hraw, hset, rfl, rfl⟩ h.dir, hraw.trans h.tRaw, hlim⟩

theorem stepCut {x : Int} (hset : t.flow.setpoint ≠ 0) (h : Steered r s t) : Steered r s (stepCut x t) := by
  have hspec := stepCut_spec x t
  exact ⟨h.does.trans ((does_stepCut t x).mono (by decide)), redirected_stepCut h.does hset h.dir, hspec.tRaw.trans h.tRaw, hspec.limited h.limited⟩

theorem receiveInj {c : Nat} (h : Steered r s t) : Steered r s (receiveInj c t) := by
  have htaken : Steered r s (t.setFlow (limitT { t.flow with cInj := c })) := h.retaken ⟨rfl, rfl, rfl⟩ rfl rfl rfl
  by_cases hcut : c < t.flow.cInj ∧ (c : Int) < t.flow.setpoint
  · rw [receiveInj_cut hcut]
    refine htaken.stepCut ?_
    show t.flow.setpoint ≠ 0
    omega
  · rw [receiveInj_rest hcut]
    exact htaken

theorem receiveWdr {c : Nat} (h : Steered r s t) : Steered r s (receiveWdr c t) := by
  have htaken : Steered r s (t.setFlow (limitT { t.flow with cWdr := c })) := h.retaken ⟨rfl, rfl, rfl⟩ rfl rfl rfl
  by_cases hcut : c < t.flow.cWdr ∧ t.flow.setpoint < -(c : Int)
  · rw [receiveWdr_cut hcut]
    refine htaken.stepCut ?_
    show t.flow.setpoint ≠ 0
    omega
  · rw [receiveWdr_rest hcut]
    exact htaken

theorem handInjection (h : Steered r s t) : Steered r s (handInjection t) :=
  handInjection_preserves (Steered r s) t (fun _ hu => hu.recut) (fun _ _ hu => hu.receiveInj) (fun _ n hu => hu.setWorld n)
    (h.after (acts_setDuty t _ (by decide)).does rfl rfl rfl)

theorem handWithdrawal (h : Steered r s t) : Steered r s (handWithdrawal t) :=
  handWithdrawal_preserves (Steered r s) t (fun _ hu => hu.recut) (fun _ _ hu => hu.receiveWdr) (fun _ hu => hu.reshare)
    (fun _ n hu => hu.setWorld n) (h.after (acts_setDry t _ (by decide)).does rfl rfl rfl)

theorem recomputed (s : State) : Steered (rawTarget s) s (recomputeTarget s) := by
  obtain ⟨hdir, hraw, _, _, hlim⟩ := recomputeTarget_spec (s := s)
  exact ⟨does_recomputeTarget (by decide) s, hdir, hraw, hlim⟩

end Steered

end

end Sys2Proof.Machine
end

section
/-! SUPPORT. The schedule where a response of several acts lowers no declared capacity in the end (R59 to R61): O39. -/

namespace Sys2Proof.Machine

/-! ### What the owners form -/

theorem declaredInjection_congr {u v : State} (hunits : v.duty.units = u.duty.units) (hsite : v.site = u.site) :
    declaredInjection v = declaredInjection u := by
  rw [declaredInjection, declaredInjection, capacitySum, capacitySum, hunits, hsite]

theorem withdrawalCapacity_congr {u v : State} (htrains : v.dry.trains = u.dry.trains) (hsite : v.site = u.site) :
    withdrawalCapacity v = withdrawalCapacity u := by
  rw [withdrawalCapacity, withdrawalCapacity, htrains, hsite]

theorem recut_formed (u : State) : declaredInjection (recut u) = declaredInjection u ∧ withdrawalCapacity (recut u) = withdrawalCapacity u := by
  obtain ⟨hduty, hsite, _⟩ := recut_plant u
  exact ⟨declaredInjection_congr (by rw [hduty]) hsite, withdrawalCapacity_congr (by rw [recut_dry]) hsite⟩

theorem handAtZero_formed (u : State) : declaredInjection (handWithdrawalAtZero u) = declaredInjection u
    ∧ (handWithdrawalAtZero u).duty.declared = u.duty.declared := by
  have hd : Does flowParts u (handWithdrawalAtZero u) := (flowFree_of_subset (ps := flowParts) (fun _ h => h) u).handAtZero (.refl _ u)
  have hduty : (handWithdrawalAtZero u).duty = u.duty := hd.duty_eq (by decide)
  exact ⟨declaredInjection_congr (by rw [hduty]) (hd.site_eq (by decide)), by rw [hduty]⟩

/-! ### The hand-overs -/

namespace ShrinkFree

variable {P : State → Prop} (hP : ShrinkFree P) (hworld : ∀ u n, P u → P (u.setWorld n)) {s : State}
include hP hworld

/-- The injection capacities handed on, where the recut that a fall brings keeps the predicate. -/
theorem handInjection (hrecut : declaredInjection s < s.duty.declared → ∀ u, P u → P (recut u))
    (h : P (s.setDuty { s.duty with declared := declaredInjection s, ready := readyInjection s })) : P (handInjection s) := by
  dsimp only [Machine.handInjection]
  refine inAnyOrder_preserves P _ (fun f hf => ?_) hworld _ h
  rcases List.mem_append.mp hf with hf | hf
  · split at hf
    · next hfall =>
      obtain rfl := List.mem_singleton.mp hf
      exact hrecut hfall
    · exact absurd hf List.not_mem_nil
  · split at hf
    · exact absurd hf List.not_mem_nil
    · obtain rfl := List.mem_singleton.mp hf
      exact fun u hu => hP.flow.receiveInj _ (hP.setFlow _ _ hu)

/-- The withdrawal capacity handed on, likewise. -/
theorem handWithdrawal (hrecut : withdrawalCapacity s < s.dry.capacity → ∀ u, P u → P (recut u))
    (h : P (s.setDry { s.dry with capacity := withdrawalCapacity s })) : P (handWithdrawal s) := by
  dsimp only [Machine.handWithdrawal]
  refine hP.reshare (inAnyOrder_preserves P _ (fun f hf => ?_) hworld _ h)
  rcases List.mem_append.mp hf with hf | hf
  · split at hf
    · next hfall =>
      obtain rfl := List.mem_singleton.mp hf
      exact hrecut hfall
    · exact absurd hf List.not_mem_nil
  · split at hf
    · exact absurd hf List.not_mem_nil
    · obtain rfl := List.mem_singleton.mp hf
      exact fun u hu => hP.flow.receiveWdr _ (hP.setFlow _ _ hu)

end ShrinkFree

/-! ### A capacity that its owner forms below a figure -/

/-- An owner forms a capacity below `c`, or below `d`. -/
def fallen (c d : Nat) (u : State) : Prop := withdrawalCapacity u < c ∨ declaredInjection u < d

section
variable {c d : Nat} {s u v : State}

theorem fallen_congr (hd : declaredInjection v = declaredInjection u) (hw : withdrawalCapacity v ≤ withdrawalCapacity u) (h : fallen c d u) :
    fallen c d v := h.imp (fun hlt => Nat.lt_of_le_of_lt hw hlt) (fun hlt => by rw [hd]; exact hlt)

theorem shrunk_capacity {t : Fin 2} {x : Train} (hx : x.figure ≤ (u.dry.trains[t]).figure) :
    withdrawalCapacity (reshare (putTrain t x u)) ≤ withdrawalCapacity u := by
  rw [withdrawalCapacity_reshare]
  exact withdrawalCapacity_putTrain hx

theorem fallenFree (c d : Nat) : ShrinkFree (fallen c d) where
  raise _ _ _ _ _ h := h
  setFlow _ _ h := h
  same s t x hx h := fallen_congr (u := s) rfl (Nat.le_of_eq (withdrawalCapacity_same hx)) h
  fall s t x hx h := by
    refine fallen_congr (u := s) (handAtZero_formed (reshare (putTrain t x s))).1 ?_ h
    rw [(handAtZero_capacity _).2.1]
    exact shrunk_capacity hx

theorem fallen_recut (h : fallen c d u) : fallen c d (recut u) := fallen_congr (recut_formed u).1 (Nat.le_of_eq (recut_formed u).2) h

theorem fallen_handInjection (h : fallen c d u) : fallen c d (handInjection u) :=
  (fallenFree c d).handInjection (fun _ _ hu => hu) (fun _ _ hu => fallen_recut hu) h

theorem fallen_handWithdrawal (h : fallen c d u) : fallen c d (handWithdrawal u) :=
  (fallenFree c d).handWithdrawal (fun _ _ hu => hu) (fun _ _ hu => fallen_recut hu) h

/-! ### The schedule that fits (R60, R61) -/

/-- A recut of a schedule that fits takes nothing. -/
theorem recut_fits (h : laterHoursFit u) : (recut u).sched = u.sched := by
  refine List.ext_getElem? fun i => ?_
  have hlen : (recut u).sched.length = u.sched.length := (recut_recutOf u).hours.length_eq.symm
  by_cases hi : i < u.sched.length
  · have hr := List.getElem?_eq_getElem hi
    have hq := List.getElem?_eq_getElem (hlen.symm ▸ hi : i < (recut u).sched.length)
    rw [hq, hr]
    rcases recut_record u hr hq with ⟨j, x, hlater, _, hx, hcut⟩ | ⟨_, hsame⟩
    · obtain ⟨hhigh, hlow⟩ := h _ hlater
      rw [sharesOfHour_within u hlow hhigh, List.getElem?_map] at hx
      obtain ⟨_, _, rfl⟩ := Option.map_eq_some_iff.mp hx
      rw [hcut, recutBy_zero]
    · rw [hsame]
  · rw [List.getElem?_eq_none (by omega), List.getElem?_eq_none (by omega)]

/-- No declared capacity stands below what it was, and the schedule is the one it was. -/
structure HoldsUp (s u : State) : Prop where
  clock : u.clock = s.clock
  declared : s.duty.declared ≤ u.duty.declared
  capacity : s.dry.capacity ≤ u.dry.capacity
  sched : u.sched = s.sched

theorem HoldsUp.fits (h : HoldsUp s u) (hs : laterHoursFit s) : laterHoursFit u := laterHoursFit_mono h.clock h.sched h.declared h.capacity hs

theorem HoldsUp.recut (h : HoldsUp s u) (hs : laterHoursFit s) : HoldsUp s (recut u) := by
  obtain ⟨hduty, _, _⟩ := recut_plant u
  have hd : Does [.sched, .evq] u (Machine.recut u) := does_recut (by decide) (by decide) u
  exact ⟨(hd.clock_eq (by decide)).trans h.clock, by rw [hduty]; exact h.declared, by rw [recut_dry]; exact h.capacity,
    (recut_fits (h.fits hs)).trans h.sched⟩

/-- Either a capacity is formed below what it was, or all stands up. -/
def upUnlessFallen (s u : State) : Prop := fallen s.dry.capacity s.duty.declared u ∨ HoldsUp s u

theorem upUnlessFallen_recut (hs : laterHoursFit s) (h : upUnlessFallen s u) : upUnlessFallen s (recut u) :=
  h.imp fallen_recut fun hu => hu.recut hs

/-- A capacity handed on at S 0 stands up, where it is not formed below what it was. -/
theorem HoldsUp.handAtZero (hs : laterHoursFit s) (h : HoldsUp s u) (hup : s.dry.capacity ≤ withdrawalCapacity u) :
    HoldsUp s (handWithdrawalAtZero u) := by
  have hset : HoldsUp s (u.setDry { u.dry with capacity := withdrawalCapacity u }) := ⟨h.clock, h.declared, hup, h.sched⟩
  have hcut := hset.recut hs
  dsimp only [handWithdrawalAtZero]
  split
  · exact ⟨hcut.clock, hcut.declared, hcut.capacity, hcut.sched⟩
  · exact ⟨hset.clock, hset.declared, hset.capacity, hset.sched⟩

theorem upFree (hs : laterHoursFit s) : ShrinkFree (upUnlessFallen s) where
  raise _ _ _ _ _ h := h.imp id fun hu => ⟨hu.clock, hu.declared, hu.capacity, hu.sched⟩
  setFlow _ _ h := h.imp id fun hu => ⟨hu.clock, hu.declared, hu.capacity, hu.sched⟩
  same u t x hx h := h.imp ((fallenFree _ _).same u t x hx) fun hu => ⟨hu.clock, hu.declared, hu.capacity, hu.sched⟩
  fall u t x hx h := by
    rcases h with hu | hu
    · exact .inl ((fallenFree _ _).fall u t x hx hu)
    · by_cases hup : s.dry.capacity ≤ withdrawalCapacity (reshare (putTrain t x u))
      · exact .inr (HoldsUp.handAtZero hs ⟨hu.clock, hu.declared, hu.capacity, hu.sched⟩ hup)
      · refine .inl (.inl ?_)
        rw [(handAtZero_capacity _).2.1]
        exact Nat.lt_of_not_le hup

theorem up_handInjection (hs : laterHoursFit s) (h : upUnlessFallen s u) : upUnlessFallen s (handInjection u) := by
  refine (upFree hs).handInjection (fun _ _ hu => hu.imp id fun hu => ⟨hu.clock, hu.declared, hu.capacity, hu.sched⟩)
    (fun _ _ hu => upUnlessFallen_recut hs hu) ?_
  rcases h with hu | hu
  · exact .inl hu
  · by_cases hup : s.duty.declared ≤ declaredInjection u
    · exact .inr ⟨hu.clock, hup, hu.capacity, hu.sched⟩
    · exact .inl (.inr (Nat.lt_of_not_le hup))

theorem up_handWithdrawal (hs : laterHoursFit s) (h : upUnlessFallen s u) : upUnlessFallen s (handWithdrawal u) := by
  refine (upFree hs).handWithdrawal (fun _ _ hu => hu.imp id fun hu => ⟨hu.clock, hu.declared, hu.capacity, hu.sched⟩)
    (fun _ _ hu => upUnlessFallen_recut hs hu) ?_
  rcases h with hu | hu
  · exact .inl hu
  · by_cases hup : s.dry.capacity ≤ withdrawalCapacity u
    · exact .inr ⟨hu.clock, hu.declared, hup, hu.sched⟩
    · exact .inl (.inl (Nat.lt_of_not_le hup))

/-! ### Capacities that stay what they are -/

/-- The capacities are `c` and `d`, as their owners form them, and the schedule is `l`. -/
structure StaysAt (c d : Nat) (l : List SchedRec) (u : State) : Prop where
  capacity : u.dry.capacity = c
  formed : withdrawalCapacity u = c
  declared : u.duty.declared = d
  formedInj : declaredInjection u = d
  sched : u.sched = l

/-- Either a capacity is formed below, or all stays. -/
def staysUnlessFallen (c d : Nat) (l : List SchedRec) (u : State) : Prop := fallen c d u ∨ StaysAt c d l u

theorem staysFree (c d : Nat) (l : List SchedRec) : ShrinkFree (staysUnlessFallen c d l) where
  raise _ _ _ _ _ h := h.imp id fun hu => ⟨hu.capacity, hu.formed, hu.declared, hu.formedInj, hu.sched⟩
  setFlow _ _ h := h.imp id fun hu => ⟨hu.capacity, hu.formed, hu.declared, hu.formedInj, hu.sched⟩
  same u t x hx h := h.imp ((fallenFree _ _).same u t x hx) fun hu =>
    ⟨hu.capacity, (withdrawalCapacity_same hx).trans hu.formed, hu.declared, hu.formedInj, hu.sched⟩
  fall u t x hx h := by
    rcases h with hu | hu
    · exact .inl ((fallenFree _ _).fall u t x hx hu)
    · obtain ⟨hcap, hformed, hstands⟩ := handAtZero_capacity (reshare (putTrain t x u))
      obtain ⟨hinj, hdeclared⟩ := handAtZero_formed (reshare (putTrain t x u))
      have hle := shrunk_capacity hx
      rw [hu.formed] at hle
      by_cases hlt : withdrawalCapacity (reshare (putTrain t x u)) < c
      · exact .inl (.inl (hformed.symm ▸ hlt))
      · have hkeeps : ¬withdrawalCapacity (reshare (putTrain t x u)) < (reshare (putTrain t x u)).dry.capacity := by
          show ¬_ < u.dry.capacity
          rw [hu.capacity]
          exact hlt
        exact .inr ⟨hcap.trans (by omega), hformed.trans (by omega), hdeclared.trans hu.declared, hinj.trans hu.formedInj,
          (hstands hkeeps).trans hu.sched⟩

section
variable {l : List SchedRec}

theorem stays_handInjection (h : staysUnlessFallen c d l u) : staysUnlessFallen c d l (handInjection u) := by
  rcases h with hu | hu
  · exact .inl (fallen_handInjection hu)
  · refine (staysFree c d l).handInjection (fun _ _ hv => hv.imp id fun hv => ⟨hv.capacity, hv.formed, hv.declared, hv.formedInj, hv.sched⟩)
      (fun hlt => ?_) (.inr ⟨hu.capacity, hu.formed, hu.formedInj, hu.formedInj, hu.sched⟩)
    rw [hu.formedInj, hu.declared] at hlt
    exact absurd hlt (Nat.lt_irrefl d)

theorem stays_handWithdrawal (h : staysUnlessFallen c d l u) : staysUnlessFallen c d l (handWithdrawal u) := by
  rcases h with hu | hu
  · exact .inl (fallen_handWithdrawal hu)
  · refine (staysFree c d l).handWithdrawal (fun _ _ hv => hv.imp id fun hv => ⟨hv.capacity, hv.formed, hv.declared, hv.formedInj, hv.sched⟩)
      (fun hlt => ?_) (.inr ⟨hu.formed, hu.formed, hu.declared, hu.formedInj, hu.sched⟩)
    rw [hu.formed, hu.capacity] at hlt
    exact absurd hlt (Nat.lt_irrefl c)
end

end

end Sys2Proof.Machine
end

section
/-! SUPPORT. The schedule where the direction stands (R59 to R61, R101 to R105): O39. -/

namespace Sys2Proof.Machine

section
variable {r : Int} {s t u : State}

/-- The direction stands, no figure stands above what its owner forms, and the schedule is the one it was. -/
structure RestsAt (s u : State) : Prop where
  dir : u.flow.dir = s.flow.dir
  declared : u.duty.declared ≤ declaredInjection u
  capacity : u.dry.capacity ≤ withdrawalCapacity u
  sched : u.sched = s.sched

/-- The direction, going as stated from `b`, leaves, or a capacity is formed below what it was, or, where `q` holds, all rests. -/
structure Resting (q : Prop) (r : Int) (s b u : State) : Prop where
  steered : Steered r b u
  rests : u.flow.dir ≠ s.flow.dir ∨ fallen s.dry.capacity s.duty.declared u ∨ q ∧ RestsAt s u

namespace Resting

variable {q : Prop} {b : State} (hb : b.flow.dir = s.flow.dir)
include hb

theorem stepCut {x : Int} (hset : u.flow.setpoint ≠ 0) (h : Resting q r s b u) : Resting q r s b (stepCut x u) := by
  refine ⟨h.steered.stepCut hset, ?_⟩
  rcases h.rests with hmoved | hfallen | ⟨hq, hrests⟩
  · rcases redirected_cases h.steered.dir with hstays | hleft
    · exact absurd (hstays.1.trans hb) hmoved
    · rw [stepCut_eq, endAtZero_suits (s := atCut x u) hleft.suits]
      exact .inl hmoved
  · exact .inr (.inl ((fallenFree _ _).flow.stepCut x hfallen))
  · have hcut : RestsAt s (atCut x u) := ⟨hrests.dir, hrests.declared, 
      hrests.capacity.trans (Nat.le_of_eq (withdrawalCapacity_reshare _).symm : _ ≤ withdrawalCapacity (atCut x u)), hrests.sched⟩
    rw [stepCut_eq]
    rcases endAtZero_cases (atCut x u) with hsame | hne
    · rw [hsame]
      exact .inr (.inr ⟨hq, hcut⟩)
    · exact .inl (hcut.dir ▸ hne)
omit hb in
theorem retaken {x : Flow} (hdir : SameDir u.flow x) (hraw : x.tRaw = u.flow.tRaw) (hset : x.setpoint = u.flow.setpoint) (hlim : x.limited)
    (h : Resting q r s b u) : Resting q r s b (u.setFlow x) := by
  refine ⟨h.steered.retaken hdir hraw hset hlim, ?_⟩
  rcases h.rests with hmoved | hfallen | ⟨hq, hrests⟩
  · exact .inl (hdir.1 ▸ hmoved)
  · exact .inr (.inl hfallen)
  · exact .inr (.inr ⟨hq, hdir.1.trans hrests.dir, hrests.declared, hrests.capacity, hrests.sched⟩)

theorem receiveInj {c : Nat} (h : Resting q r s b u) : Resting q r s b (receiveInj c u) := by
  have htaken : Resting q r s b (u.setFlow (limitT { u.flow with cInj := c })) := h.retaken ⟨rfl, rfl, rfl⟩ rfl rfl rfl
  by_cases hcut : c < u.flow.cInj ∧ (c : Int) < u.flow.setpoint
  · rw [receiveInj_cut hcut]
    refine htaken.stepCut hb ?_
    show u.flow.setpoint ≠ 0
    omega
  · rw [receiveInj_rest hcut]
    exact htaken

theorem receiveWdr {c : Nat} (h : Resting q r s b u) : Resting q r s b (receiveWdr c u) := by
  have htaken : Resting q r s b (u.setFlow (limitT { u.flow with cWdr := c })) := h.retaken ⟨rfl, rfl, rfl⟩ rfl rfl rfl
  by_cases hcut : c < u.flow.cWdr ∧ u.flow.setpoint < -(c : Int)
  · rw [receiveWdr_cut hcut]
    refine htaken.stepCut hb ?_
    show u.flow.setpoint ≠ 0
    omega
  · rw [receiveWdr_rest hcut]
    exact htaken

omit hb in
/-- What leaves flow, site, clock, figures and schedule alone. -/
theorem after {v : State} {ps : List Part} (h : Resting q r s b u) (hd : Does ps u v) (hsub : ps ⊆ siteParts)
    (hps : Part.flow ∉ ps ∧ Part.site ∉ ps ∧ Part.clock ∉ ps ∧ Part.duty ∉ ps ∧ Part.dry ∉ ps ∧ Part.sched ∉ ps) :
    Resting q r s b v := by
  obtain ⟨hflow, hsite, hclock, hduty, hdry, hsched⟩ := hps
  have hf := hd.flow_eq hflow
  have hg := hd.site_eq hsite
  have hu := hd.duty_eq hduty
  have hy := hd.dry_eq hdry
  have hformed : declaredInjection v = declaredInjection u ∧ withdrawalCapacity v = withdrawalCapacity u :=
    ⟨declaredInjection_congr (by rw [hu]) hg, withdrawalCapacity_congr (by rw [hy]) hg⟩
  refine ⟨h.steered.after (hd.mono hsub) hf hg (hd.clock_eq hclock), ?_⟩
  rcases h.rests with hmoved | hfallen | ⟨hq, hrests⟩
  · exact .inl (hf ▸ hmoved)
  · exact .inr (.inl (fallen_congr hformed.1 (Nat.le_of_eq hformed.2) hfallen))
  · exact .inr (.inr ⟨hq, by rw [hf]; exact hrests.dir, by rw [hu, hformed.1]; exact hrests.declared,
      by rw [hy, hformed.2]; exact hrests.capacity, (hd.sched_eq hsched).trans hrests.sched⟩)

omit hb in
theorem setWorld (n : Nat) (h : Resting q r s b u) : Resting q r s b (u.setWorld n) := ⟨h.steered.setWorld n, h.rests.imp id (Or.imp id
  (And.imp_right fun hu => ⟨hu.dir, hu.declared, hu.capacity, hu.sched⟩))⟩

omit hb in
theorem reshare (h : Resting q r s b u) : Resting q r s b (reshare u) := by
  refine ⟨h.steered.reshare, h.rests.imp id (Or.imp (fallenFree _ _).reshare (And.imp_right fun hu => ⟨hu.dir, hu.declared, ?_, hu.sched⟩))⟩
  rw [withdrawalCapacity_reshare]
  exact hu.capacity

omit hb in
theorem recut (hq : ¬q) (h : Resting q r s b u) : Resting q r s b (recut u) := by
  refine ⟨h.steered.recut, ?_⟩
  rcases h.rests with hmoved | hfallen | ⟨hholds, _⟩
  · exact .inl (by rw [(recut_plant u).2.2]; exact hmoved)
  · exact .inr (.inl (fallen_recut hfallen))
  · exact absurd hholds hq

omit hb in
theorem weaken (h : Resting q r s b u) : Resting True r s b u :=
  ⟨h.steered, h.rests.imp id (Or.imp id (And.imp_left fun _ => trivial))⟩

omit hb in
/-- What has left or fallen, or is at rest. -/
theorem split (h : Resting True r s b u) : Resting False r s b u ∨ RestsAt s u := by
  rcases h.rests with hmoved | hfallen | ⟨_, hrests⟩
  · exact .inl ⟨h.steered, .inl hmoved⟩
  · exact .inl ⟨h.steered, .inr (.inl hfallen)⟩
  · exact .inr hrests

theorem handInjection_of (hq : q → ¬declaredInjection u < u.duty.declared) (h : Resting q r s b u) :
    Resting q r s b (Machine.handInjection u) := by
  dsimp only [Machine.handInjection]
  refine inAnyOrder_preserves (Resting q r s b) _ (fun f hf => ?_) (fun _ n hu => hu.setWorld n) _
    ⟨h.steered.after (acts_setDuty u _ (by decide)).does rfl rfl rfl, h.rests.imp id (Or.imp id (And.imp_right fun hu =>
      ⟨hu.dir, Nat.le_refl _, hu.capacity, hu.sched⟩))⟩
  rcases List.mem_append.mp hf with hf | hf
  · split at hf
    · next hfall =>
      obtain rfl := List.mem_singleton.mp hf
      exact fun _ hu => hu.recut fun hholds => hq hholds hfall
    · exact absurd hf List.not_mem_nil
  · split at hf
    · exact absurd hf List.not_mem_nil
    · obtain rfl := List.mem_singleton.mp hf
      exact fun _ hu => hu.receiveInj hb

theorem handWithdrawal_of (hq : q → ¬withdrawalCapacity u < u.dry.capacity) (h : Resting q r s b u) :
    Resting q r s b (Machine.handWithdrawal u) := by
  dsimp only [Machine.handWithdrawal]
  refine reshare (inAnyOrder_preserves (Resting q r s b) _ (fun f hf => ?_) (fun _ n hu => hu.setWorld n) _
    ⟨h.steered.after (acts_setDry u _ (by decide)).does rfl rfl rfl, h.rests.imp id (Or.imp id (And.imp_right fun hu =>
      ⟨hu.dir, hu.declared, Nat.le_refl _, hu.sched⟩))⟩)
  rcases List.mem_append.mp hf with hf | hf
  · split at hf
    · next hfall =>
      obtain rfl := List.mem_singleton.mp hf
      exact fun _ hu => hu.recut fun hholds => hq hholds hfall
    · exact absurd hf List.not_mem_nil
  · split at hf
    · exact absurd hf List.not_mem_nil
    · obtain rfl := List.mem_singleton.mp hf
      exact fun _ hu => hu.receiveWdr hb

/-- The injection capacities handed on: at rest without a recut. -/
theorem handInjection (h : Resting True r s b u) : Resting True r s b (handInjection u) := by
  rcases h.split with hgone | hrests
  · exact (handInjection_of hb nofun hgone).weaken
  · exact handInjection_of hb (fun _ => not_lt.mpr hrests.declared) h

/-- The withdrawal capacity handed on, likewise. -/
theorem handWithdrawal (h : Resting True r s b u) : Resting True r s b (handWithdrawal u) := by
  rcases h.split with hgone | hrests
  · exact (handWithdrawal_of hb nofun hgone).weaken
  · exact handWithdrawal_of hb (fun _ => not_lt.mpr hrests.capacity) h

/-- T_raw recomputed, in a part that has the schedule and the capacities of `s`. -/
theorem recomputed (hsame : b.sched = s.sched ∧ b.duty.declared = s.duty.declared ∧ b.dry.capacity = s.dry.capacity) :
    Resting True (rawTarget b) s b (recomputeTarget b) := by
  obtain ⟨hsched, hdeclared, hcapacity⟩ := hsame
  refine ⟨.recomputed b, ?_⟩
  by_cases hfallen : fallen s.dry.capacity s.duty.declared b
  · exact .inr (.inl ((fallenFree _ _).flow.recomputeTarget hfallen))
  · have hup : s.dry.capacity ≤ withdrawalCapacity b ∧ s.duty.declared ≤ declaredInjection b := by
      rw [fallen, not_or, not_lt, not_lt] at hfallen
      exact hfallen
    rcases actOnTarget_cases (b.setFlow (limitT { b.flow with tRaw := rawTarget b })) with hstays | hmoved
    · rw [recomputeTarget, hstays]
      exact .inr (.inr ⟨trivial, hb, hdeclared ▸ hup.2, hcapacity ▸ hup.1, hsched⟩)
    · exact .inl (hb ▸ hmoved)

end Resting

end

end Sys2Proof.Machine
end

section
/-! SUPPORT. The acts of new site settings: which parts each changes, and what a confirmation among them leaves (O39). -/

namespace Sys2Proof.Machine

/-! ### The acts (R110) -/

/-- The parts that the acts of new settings change. -/
def actParts : List Part := [.world, .acct, .book, .sched, .flow, .duty, .dry, .evq]

section
variable {g : Site} {s u : State}

/-- What each of the acts keeps, all keep, in whatever order. -/
theorem siteActs_all {P : State → Prop} (hinj : ∀ u, P u → P (handInjection u)) (hwdr : ∀ u, P u → P (handWithdrawal u))
    (halert : ∀ u, P u → P (evaluateAlert u)) (hconf : s.site.lead < g.lead → ∀ u, P u → P (confirmation u))
    (hworld : ∀ u n, P u → P (u.setWorld n)) (h : P u) : P (inAnyOrder (siteActs g s) u) := by
  refine inAnyOrder_preserves P _ (fun f hf => ?_) hworld _ h
  simp only [siteActs, List.mem_append, List.mem_cons, List.not_mem_nil, or_false] at hf
  rcases hf with ((rfl | rfl) | hf) | rfl
  · exact hinj
  · exact hwdr
  · split at hf
    · next hlead =>
      obtain rfl := List.mem_singleton.mp hf
      exact hconf hlead
    · exact absurd hf List.not_mem_nil
  · exact halert

/-- The evaluation of the alert, once among them. -/
theorem siteActs_alert {K P : State → Prop} (hinj : ∀ u, K u → K (handInjection u)) (hwdr : ∀ u, K u → K (handWithdrawal u))
    (hconf : ∀ u, K u → K (confirmation u)) (hworld : ∀ u n, K u → K (u.setWorld n)) (hmake : ∀ u, K u → P (evaluateAlert u))
    (hinj' : ∀ u, P u → P (handInjection u)) (hwdr' : ∀ u, P u → P (handWithdrawal u)) (hconf' : ∀ u, P u → P (confirmation u))
    (h : K u) : P (inAnyOrder (siteActs g s) u) := by
  have hcases {Q : State → Prop} (h1 : ∀ u, Q u → Q (handInjection u)) (h2 : ∀ u, Q u → Q (handWithdrawal u))
      (h3 : ∀ u, Q u → Q (confirmation u)) (f : State → State)
      (hf : f ∈ [handInjection, handWithdrawal] ++ (if s.site.lead < g.lead then [confirmation] else [])) : ∀ u, Q u → Q (f u) := by
    simp only [List.mem_append, List.mem_cons, List.not_mem_nil, or_false] at hf
    rcases hf with (rfl | rfl) | hf
    · exact h1
    · exact h2
    · split at hf
      · obtain rfl := List.mem_singleton.mp hf
        exact h3
      · exact absurd hf List.not_mem_nil
  exact inAnyOrder_once (List.perm_append_singleton evaluateAlert _) hworld (fun f hf => hcases hinj hwdr hconf f hf) hmake
    (fun f hf => hcases hinj' hwdr' hconf' f hf) h

/-- The confirmation that a risen lead brings, once among them. -/
theorem siteActs_confirmation {K P : State → Prop} (hlead : s.site.lead < g.lead) (hinj : ∀ u, K u → K (handInjection u))
    (hwdr : ∀ u, K u → K (handWithdrawal u)) (halert : ∀ u, K u → K (evaluateAlert u)) (hworld : ∀ u n, K u → K (u.setWorld n))
    (hmake : ∀ u, K u → P (confirmation u)) (hinj' : ∀ u, P u → P (handInjection u)) (hwdr' : ∀ u, P u → P (handWithdrawal u))
    (halert' : ∀ u, P u → P (evaluateAlert u)) (h : K u) : P (inAnyOrder (siteActs g s) u) := by
  have hcases {Q : State → Prop} (h1 : ∀ u, Q u → Q (handInjection u)) (h2 : ∀ u, Q u → Q (handWithdrawal u))
      (h3 : ∀ u, Q u → Q (evaluateAlert u)) (f : State → State) (hf : f ∈ [handInjection, handWithdrawal, evaluateAlert]) :
      ∀ u, Q u → Q (f u) := by
    simp only [List.mem_cons, List.not_mem_nil, or_false] at hf
    rcases hf with rfl | rfl | rfl
    · exact h1
    · exact h2
    · exact h3
  have hperm : (siteActs g s).Perm (confirmation :: [handInjection, handWithdrawal, evaluateAlert]) := by
    rw [siteActs, if_pos hlead, List.append_assoc]
    exact List.perm_middle (l₁ := [handInjection, handWithdrawal]) (l₂ := [evaluateAlert])
  exact inAnyOrder_once hperm hworld (fun f hf => hcases hinj hwdr halert f hf) hmake (fun f hf => hcases hinj' hwdr' halert' f hf) h

theorem does_siteActs (u : State) : Does actParts u (inAnyOrder (siteActs g s) u) := by
  have hinj (v : State) : Does actParts v (handInjection v) := does_handInjection (by decide) v (by decide)
  have hwdr (v : State) : Does actParts v (handWithdrawal v) := does_handWithdrawal (by decide) v
  have halert (v : State) : Does actParts v (evaluateAlert v) := (does_evaluateAlert v).mono (by decide)
  have hconf (v : State) : Does actParts v (confirmation v) := (does_confirmation v).mono (by decide)
  exact siteActs_all (P := Does actParts u) (fun v hv => hv.trans (hinj v)) (fun v hv => hv.trans (hwdr v)) (fun v hv => hv.trans (halert v))
    (fun _ v hv => hv.trans (hconf v)) (fun v n hv => hv.trans (acts_setWorld v n (by decide)).does) (.refl _ u)

/-! ### The records' hours -/

theorem hour_of_rank (r : SchedRec) : r.hour = r.rank / 96 := by
  have hslot := r.slot.isLt
  have hdir : r.dir.code < 2 := by cases r.dir <;> decide
  have hcls : r.cls.code < 2 := by cases r.cls <;> decide
  rw [SchedRec.rank]
  omega

/-- Records that ask the same stand in the same hours. -/
theorem hours_of_asked {rs qs : List SchedRec} (h : asked rs = asked qs) {k : Nat} (hs : ∀ r ∈ qs, r.hour ≤ k) : ∀ r ∈ rs, r.hour ≤ k := by
  intro r hr
  have hmem : (r.rank, r.requested) ∈ asked qs := by
    rw [← h]
    exact List.mem_map.mpr ⟨r, hr, rfl⟩
  obtain ⟨q, hq, he⟩ := List.mem_map.mp hmem
  obtain ⟨hrank, _⟩ := Prod.mk.inj he
  rw [hour_of_rank, ← hrank, ← hour_of_rank]
  exact hs q hq

/-! ### The hours confirmed fit (R56) -/

/-- The nets of the hours after `k` stand within the capacities, and no record stands after the horizon. -/
structure FitsFrom (k : Nat) (u : State) : Prop where
  fits : ∀ x : Nat, k < x → netConfirmed u.sched x ≤ u.duty.declared ∧ -(u.dry.capacity : Int) ≤ netConfirmed u.sched x
  horizon : ∀ r ∈ u.sched, r.hour ≤ u.book.confirmedThrough

theorem netConfirmed_none {rs : List SchedRec} {x : Nat} (h : ∀ r ∈ rs, r.hour ≠ x) : netConfirmed rs x = 0 := by
  have hnone : rs.filter (fun r => r.hour == x) = [] := List.filter_eq_nil_iff.mpr fun r hr => by
    rw [beq_iff_eq]
    exact h r hr
  rw [netConfirmed, hnone]
  rfl

theorem netConfirmed_append (rs qs : List SchedRec) (x : Nat) : netConfirmed (rs ++ qs) x = netConfirmed rs x + netConfirmed qs x := by
  rw [netConfirmed, netConfirmed, netConfirmed, netOf, netOf, netOf, List.filter_append, List.map_append, List.sum_append]

theorem FitsFrom.start (h : ∀ r ∈ u.sched, r.hour ≤ u.book.confirmedThrough) : FitsFrom u.book.confirmedThrough u := by
  refine ⟨fun x hx => ?_, h⟩
  rw [netConfirmed_none fun r hr hx' => by have := h r hr; omega]
  omega

theorem FitsFrom.confirmHour {k : Nat} (h : FitsFrom k u) : FitsFrom k (confirmHour (firstUnconfirmed u) u) := by
  obtain ⟨_, hthrough, _, hsched⟩ := confirmHour_stands u (firstUnconfirmed u)
  have hdoes := does_confirmHour u (firstUnconfirmed u)
  have hours (r : SchedRec) (hr : r ∈ confirmedRecords u (firstUnconfirmed u)) : r.hour = firstUnconfirmed u := (confirmed_sound u _ hr).1
  refine ⟨fun x hx => ?_, fun r hr => ?_⟩
  · rw [hsched, hdoes.duty_eq (by decide), hdoes.dry_eq (by decide), netConfirmed_append]
    by_cases hfirst : x = firstUnconfirmed u
    · have hold : netConfirmed u.sched x = 0 := netConfirmed_none fun r hr he => by
        have := h.horizon r hr
        rw [he, hfirst, firstUnconfirmed] at this
        omega
      have hnew : netConfirmed (confirmedRecords u (firstUnconfirmed u)) x = netOf (confirmedRecords u (firstUnconfirmed u)) := by
        rw [netConfirmed, List.filter_eq_self.mpr fun r hr => by rw [hours r hr, hfirst, beq_self_eq_true]]
      rw [hold, hnew, confirmedRecords_net]
      omega
    · rw [netConfirmed_none (rs := confirmedRecords u (firstUnconfirmed u)) fun r hr he => hfirst (he.symm.trans (hours r hr)), Int.add_zero]
      exact h.fits x hx
  · rw [hthrough, firstUnconfirmed]
    rw [hsched] at hr
    rcases List.mem_append.mp hr with hr | hr
    · exact (h.horizon r hr).trans (Nat.le_succ _)
    · exact Nat.le_of_eq (hours r hr)

theorem FitsFrom.confirmHours {k : Nat} (n : Nat) (h : FitsFrom k u) : FitsFrom k (confirmHours n u) := by
  induction n generalizing u with
  | zero => exact h
  | succ n ih => exact ih h.confirmHour

/-- Hours that fit still fit after recuts. -/
theorem FitsFrom.recut_since {k : Nat} {c t : State} (h : FitsFrom k c) (ht : recutsSince c t) {x : Nat} (hx : k < x) (hlater : isLaterHour t x) :
    netConfirmed t.sched x ≤ t.duty.declared ∧ -(t.dry.capacity : Int) ≤ netConfirmed t.sched x := by
  by_cases hfall : t.duty.declared < c.duty.declared ∨ t.dry.capacity < c.dry.capacity ∨ t.sched ≠ c.sched
  · exact ht.2 hfall x hlater
  · simp only [not_or, not_lt, not_not] at hfall
    obtain ⟨hdeclared, hcapacity, hsched⟩ := hfall
    obtain ⟨hhigh, hlow⟩ := h.fits x hx
    rw [hsched]
    omega

theorem hoursTold_completed (n : Nat) (u : State) : ∀ e ∈ hoursTold n u, e.kind = .completed := by
  induction n generalizing u with
  | zero => exact fun _ he => absurd he List.not_mem_nil
  | succ n ih =>
    intro e he
    rcases List.mem_append.mp he with he | he
    · obtain ⟨_, _, rfl⟩ := List.mem_map.mp he
      rfl
    · exact ih _ e he

end

end Sys2Proof.Machine
end

section
/-! SUPPORT. O39, clause by clause. -/

namespace Sys2Proof.Machine

/-- The parts that a gathered response changes in the order of its events alone. -/
theorem gathered_plain (f : State → State) (s : State) : (gathered f s).site = (f s.gatheringEvents).site
    ∧ (gathered f s).acct = (f s.gatheringEvents).acct ∧ (gathered f s).book = (f s.gatheringEvents).book
    ∧ (gathered f s).sched = (f s.gatheringEvents).sched ∧ (gathered f s).flow = (f s.gatheringEvents).flow
    ∧ (gathered f s).duty = (f s.gatheringEvents).duty ∧ (gathered f s).dry = (f s.gatheringEvents).dry
    ∧ (gathered f s).clock = (f s.gatheringEvents).clock := ⟨rfl, rfl, rfl, rfl, rfl, rfl, rfl, rfl⟩

section
variable (g : Site) (s : State)

/-- The part with the new settings, before the blocks act on them. -/
def resited : State := renoteUnits (s.setSite g)

/-- What the blocks make of it, before the events are put in order. -/
def siteEnd : State := inAnyOrder (siteActs g s) (recomputeTarget (resited g s).gatheringEvents)

theorem applySite_gathered : applySite g s = gathered (fun t => inAnyOrder (siteActs g s) (recomputeTarget t)) (resited g s) := rfl

theorem applySite_parts : (applySite g s).site = (siteEnd g s).site ∧ (applySite g s).acct = (siteEnd g s).acct
    ∧ (applySite g s).book = (siteEnd g s).book ∧ (applySite g s).sched = (siteEnd g s).sched ∧ (applySite g s).flow = (siteEnd g s).flow
    ∧ (applySite g s).duty = (siteEnd g s).duty ∧ (applySite g s).dry = (siteEnd g s).dry ∧ (applySite g s).clock = (siteEnd g s).clock := by
  rw [applySite_gathered]
  exact gathered_plain (fun t => inAnyOrder (siteActs g s) (recomputeTarget t)) (resited g s)

theorem does_siteEnd : Does actParts (resited g s).gatheringEvents (siteEnd g s) :=
  (does_recomputeTarget (by decide) _).trans (does_siteActs _)

theorem resited_units (i : Fin 6) : ((resited g s).duty.units[i]) = (s.duty.units[i]).renote g.startLimit := by
  show (mapVec (CUnit.renote g.startLimit) s.duty.units)[i] = _
  rw [Fin.getElem_fin, mapVec_getElem]
  rfl

theorem siteEnd_site : (siteEnd g s).site = g := (does_siteEnd g s).site_eq (by decide)

theorem siteEnd_clock : (siteEnd g s).clock = s.clock := (does_siteEnd g s).clock_eq (by decide)

/-! ### The units, the accounts and the direction -/

theorem siteEnd_units : (siteEnd g s).duty.units = (resited g s).duty.units := by
  have haway {v w : State} {ps : List Part} (hd : Does ps v w) (hduty : Part.duty ∉ ps) (hv : v.duty.units = (resited g s).duty.units) :
      w.duty.units = (resited g s).duty.units := by rw [hd.duty_eq hduty]; exact hv
  have hflow : Does flowParts (resited g s).gatheringEvents (recomputeTarget (resited g s).gatheringEvents) := does_recomputeTarget (fun _ h => h) _
  exact siteActs_all (P := fun u => u.duty.units = (resited g s).duty.units) (fun u hu => (handInjection_units u).trans hu)
    (fun u hu => haway (does_handWithdrawal (ps := flowParts) (fun _ h => h) u) (by decide) hu)
    (fun u hu => haway (does_evaluateAlert u) (by decide) hu) (fun _ u hu => haway (does_confirmation u) (by decide) hu)
    (fun _ _ hu => hu) (haway hflow (by decide) rfl)

theorem evaluateAlert_acct (u : State) : (evaluateAlert u).acct
    = { u.acct with alert := if u.site.alertLimit < u.acct.sba.natAbs then .raised else .armed } := by
  have hzero : evaluateAlert u = addToSba 0 u := by
    rw [addToSba, Int.add_zero]
    rfl
  rw [hzero, addToSba_acct, Int.add_zero]

theorem siteEnd_acct : (siteEnd g s).acct = { s.acct with alert := if g.alertLimit < s.acct.sba.natAbs then .raised else .armed } := by
  have haway {q : Accounts} {v w : State} {ps : List Part} (hd : Does ps v w) (hps : Part.acct ∉ ps ∧ Part.site ∉ ps)
      (hv : v.acct = q ∧ v.site = g) : w.acct = q ∧ w.site = g := ⟨(hd.acct_eq hps.1).trans hv.1, (hd.site_eq hps.2).trans hv.2⟩
  have hinj (q : Accounts) (u : State) : u.acct = q ∧ u.site = g → (handInjection u).acct = q ∧ (handInjection u).site = g :=
    haway (does_handInjection (ps := dutyParts) (by decide) u (by decide)) (by decide)
  have hwdr (q : Accounts) (u : State) : u.acct = q ∧ u.site = g → (handWithdrawal u).acct = q ∧ (handWithdrawal u).site = g :=
    haway (does_handWithdrawal (ps := flowParts) (by decide) u) (by decide)
  have hconf (q : Accounts) (u : State) : u.acct = q ∧ u.site = g → (confirmation u).acct = q ∧ (confirmation u).site = g :=
    haway (does_confirmation u) (by decide)
  have hflow : Does flowParts (resited g s).gatheringEvents (recomputeTarget (resited g s).gatheringEvents) := does_recomputeTarget (fun _ h => h) _
  refine (siteActs_alert (K := fun u => u.acct = s.acct ∧ u.site = g) (P := fun u => u.acct = { s.acct with
    alert := if g.alertLimit < s.acct.sba.natAbs then .raised else .armed } ∧ u.site = g) (hinj _) (hwdr _) (hconf _) (fun _ _ hu => hu)
    (fun u hu => ?_) (hinj _) (hwdr _) (hconf _) (haway hflow (by decide) ⟨rfl, rfl⟩)).1
  rw [evaluateAlert_acct, hu.1, hu.2]
  exact ⟨rfl, ((does_evaluateAlert u).site_eq (by decide)).trans hu.2⟩

theorem siteEnd_steered : Steered (rawTarget (resited g s).gatheringEvents) (resited g s).gatheringEvents (siteEnd g s) := by
  refine siteActs_all (fun _ hu => hu.handInjection) (fun _ hu => hu.handWithdrawal) (fun u hu => ?_) (fun _ u hu => ?_)
    (fun _ n hu => hu.setWorld n) (.recomputed _)
  · have hd := does_evaluateAlert u
    exact hu.after (hd.mono (by decide)) (hd.flow_eq (by decide)) (hd.site_eq (by decide)) (hd.clock_eq (by decide))
  · have hd := does_confirmation u
    exact hu.after (hd.mono (by decide)) (hd.flow_eq (by decide)) (hd.site_eq (by decide)) (hd.clock_eq (by decide))

theorem applySite_redirected : redirected s (applySite g s) := by
  have hset : Does siteParts s (resited g s) := (acts_setSite s g (by decide)).does.trans ((does_renoteUnits _).mono (by decide))
  have hgathered : redirected (resited g s) (applySite g s) := by
    rw [applySite_gathered]
    exact redirected_gathered (siteEnd_steered g s).dir
  exact redirected_before hset ⟨rfl, rfl, rfl⟩ hgathered

/-! ### No hour to confirm -/

/-- No hour is confirmed: the lead does not rise, or the clock is UNSET. -/
theorem confirmation_idle {g : Site} {s u : State} (hidle : g.lead ≤ s.site.lead ∨ clockIsUnset s = true) (hlead : s.site.lead < g.lead)
    (hclock : u.clock = s.clock) : confirmation u = u := by
  refine confirmation_unset ?_
  rw [hclock]
  rcases hidle with hle | hunset
  · omega
  · exact beq_iff_eq.mp hunset

section
variable {g s} (hidle : g.lead ≤ s.site.lead ∨ clockIsUnset s = true)
include hidle

theorem siteEnd_resting : Resting True (rawTarget (resited g s).gatheringEvents) s (resited g s).gatheringEvents (siteEnd g s) := by
  have hdir : (resited g s).gatheringEvents.flow.dir = s.flow.dir := rfl
  refine siteActs_all (fun _ hu => hu.handInjection hdir) (fun _ hu => hu.handWithdrawal hdir)
    (fun u hu => hu.after (does_evaluateAlert u) (by decide) (by decide)) (fun hlead u hu => ?_) (fun _ n hu => hu.setWorld n)
    (.recomputed hdir ⟨rfl, rfl, rfl⟩)
  rw [confirmation_idle hidle hlead (hu.steered.does.clock_eq (by decide))]
  exact hu

theorem siteEnd_book : (siteEnd g s).book = s.book := by
  have haway {u v : State} {ps : List Part} (hd : Does ps u v) (hps : Part.book ∉ ps ∧ Part.clock ∉ ps)
      (h : u.book = s.book ∧ u.clock = s.clock) : v.book = s.book ∧ v.clock = s.clock :=
    ⟨(hd.book_eq hps.1).trans h.1, (hd.clock_eq hps.2).trans h.2⟩
  have hflow : Does flowParts (resited g s).gatheringEvents (recomputeTarget (resited g s).gatheringEvents) := does_recomputeTarget (fun _ h => h) _
  refine (siteActs_all (P := fun u => u.book = s.book ∧ u.clock = s.clock)
    (fun u => haway (does_handInjection (ps := dutyParts) (by decide) u (by decide)) (by decide))
    (fun u => haway (does_handWithdrawal (ps := flowParts) (by decide) u) (by decide)) (fun u => haway (does_evaluateAlert u) (by decide))
    (fun hlead u hu => ?_) (fun _ _ hu => hu) (haway hflow (by decide) ⟨rfl, rfl⟩)).1
  rw [confirmation_idle hidle hlead hu.2]
  exact hu

theorem siteEnd_recuts : recutsSince (resited g s).gatheringEvents (siteEnd g s) := by
  refine siteActs_all (fun _ hu => recutsSince_handInjection hu) (fun _ hu => recutsSince_handWithdrawal hu)
    (fun u hu => ?_) (fun hlead u hu => ?_) (fun _ n hu => recutsSince_setWorld n hu) ((recutFlow _).recomputeTarget (recutsSince_refl _))
  · have hd := does_evaluateAlert u
    exact recutsSince_aside hu hd (by decide) (by decide) (by rw [hd.duty_eq (by decide)]) (by rw [hd.dry_eq (by decide)])
  · obtain ⟨l, htrail⟩ := hu.1
    rw [confirmation_idle hidle hlead htrail.clock]
    exact hu

theorem applySite_recutFollows : recutFollows s (applySite g s) := by
  rw [applySite_gathered]
  exact recutFollows_gathered (siteEnd_recuts hidle) ⟨rfl, rfl, rfl⟩ rfl

theorem siteEnd_up (hfits : laterHoursFit s) : upUnlessFallen s (siteEnd g s) := by
  have hstart : upUnlessFallen s (resited g s).gatheringEvents := .inr ⟨rfl, Nat.le_refl _, Nat.le_refl _, rfl⟩
  refine (siteActs_all (P := fun u => upUnlessFallen s u ∧ u.clock = s.clock) (fun u hu => ⟨up_handInjection hfits hu.1, ?_⟩)
    (fun u hu => ⟨up_handWithdrawal hfits hu.1, ?_⟩) (fun u hu => ?_) (fun hlead u hu => ?_) (fun _ _ hu => ?_)
    ⟨(upFree hfits).flow.recomputeTarget hstart, ?_⟩).1
  · exact ((does_handInjection (ps := dutyParts) (by decide) u (by decide)).clock_eq (by decide)).trans hu.2
  · exact ((does_handWithdrawal (ps := flowParts) (by decide) u).clock_eq (by decide)).trans hu.2
  · have hd := does_evaluateAlert u
    have hu2 := hd.duty_eq (by decide)
    have hy := hd.dry_eq (by decide)
    have hg := hd.site_eq (by decide)
    refine ⟨?_, (hd.clock_eq (by decide)).trans hu.2⟩
    exact hu.1.imp (fallen_congr (declaredInjection_congr (by rw [hu2]) hg) (Nat.le_of_eq (withdrawalCapacity_congr (by rw [hy]) hg)))
      fun h => ⟨(hd.clock_eq (by decide)).trans h.clock, by rw [hu2]; exact h.declared, by rw [hy]; exact h.capacity,
        (hd.sched_eq (by decide)).trans h.sched⟩
  · rw [confirmation_idle hidle hlead hu.2]
    exact hu
  · exact ⟨hu.1.imp id fun h => ⟨h.clock, h.declared, h.capacity, h.sched⟩, hu.2⟩
  · have hflow : Does flowParts (resited g s).gatheringEvents (recomputeTarget (resited g s).gatheringEvents) :=
      does_recomputeTarget (fun _ h => h) _
    exact (hflow.clock_eq (by decide)).trans rfl

end

end

end Sys2Proof.Machine
end

section
/-! SUPPORT. O39: the hours that a risen lead confirms, and the statement. -/

namespace Sys2Proof.Machine

section
variable {g : Site} {s u v : State}

/-! ### What the confirmation starts from -/

/-- The part with the new settings alone. -/
def sited (g : Site) (s : State) : State := { s with site := g }

/-- How many hours the risen lead confirms. -/
def hoursToLead (g : Site) (s : State) : Nat := min (s.clock.hour + g.lead) lastHour - s.book.confirmedThrough

theorem SameBooks.act {x : State} {ps : List Part} (h : SameBooks x u) (hd : Does ps u v) (hps : Part.book ∉ ps ∧ Part.clock ∉ ps)
    (hasked : Machine.asked v.sched = Machine.asked u.sched) : SameBooks x v := by
  have hbook := hd.book_eq hps.1
  exact ⟨by rw [hbook]; exact h.entries, by rw [hbook]; exact h.through, by rw [hbook]; exact h.arrival, hasked.trans h.asked,
    (hd.clock_eq hps.2).trans h.clock⟩

theorem asked_handInjection (u : State) : asked (handInjection u).sched = asked u.sched :=
  asked_of_follows (recutsSince_handInjection (recutsSince_refl u)).follows

theorem asked_handWithdrawal (u : State) : asked (handWithdrawal u).sched = asked u.sched :=
  asked_of_follows (recutsSince_handWithdrawal (recutsSince_refl u)).follows

theorem asked_recomputeTarget (u : State) : asked (recomputeTarget u).sched = asked u.sched :=
  asked_of_follows ((recutFlow u).recomputeTarget (recutsSince_refl u)).follows

/-- The books are those of `x`, under the new settings, and the part has come from its beginning. -/
structure BooksOf (g : Site) (b x u : State) : Prop where
  books : SameBooks x u
  does : Does actParts b u

namespace BooksOf

variable {b x : State}

theorem handInjection (h : BooksOf g b x u) : BooksOf g b x (handInjection u) :=
  ⟨h.books.act (does_handInjection (ps := dutyParts) (by decide) u (by decide)) (by decide) (asked_handInjection u),
    h.does.trans (does_handInjection (by decide) u (by decide))⟩

theorem handWithdrawal (h : BooksOf g b x u) : BooksOf g b x (handWithdrawal u) :=
  ⟨h.books.act (does_handWithdrawal (ps := flowParts) (by decide) u) (by decide) (asked_handWithdrawal u),
    h.does.trans (does_handWithdrawal (by decide) u)⟩

theorem evaluateAlert (h : BooksOf g b x u) : BooksOf g b x (evaluateAlert u) :=
  ⟨h.books.act (does_evaluateAlert u) (by decide) (by rw [(does_evaluateAlert u).sched_eq (by decide)]),
    h.does.trans ((does_evaluateAlert u).mono (by decide))⟩

theorem setWorld (n : Nat) (h : BooksOf g b x u) : BooksOf g b x (u.setWorld n) :=
  ⟨⟨h.books.entries, h.books.through, h.books.arrival, h.books.asked, h.books.clock⟩, h.does.trans (acts_setWorld u n (by decide)).does⟩

end BooksOf

theorem booksOf_start : BooksOf g (resited g s).gatheringEvents (sited g s) (recomputeTarget (resited g s).gatheringEvents) := by
  have hbase : SameBooks (sited g s) (resited g s).gatheringEvents := ⟨rfl, rfl, rfl, rfl, rfl⟩
  exact ⟨hbase.act (does_recomputeTarget (ps := flowParts) (by decide) _) (by decide) (asked_recomputeTarget _),
    does_recomputeTarget (by decide) _⟩

/-- The confirmation, run on such a part. -/
theorem confirmation_books (hrun : clockIsUnset s = false) (h : BooksOf g (resited g s).gatheringEvents (sited g s) u) :
    confirmation u = confirmHours (hoursToLead g s) u := by
  have hclock : u.clock = s.clock := h.books.clock
  have hstate : u.clock.state = .running := by
    rw [hclock]
    cases hs : s.clock.state with
    | running => rfl
    | unset =>
      rw [clockIsUnset, hs] at hrun
      exact absurd hrun nofun
  have hsite : u.site = g := h.does.site_eq (by decide)
  have hthrough : u.book.confirmedThrough = s.book.confirmedThrough := h.books.through
  rw [confirmation_running hstate, confirmedTo_eq, hclock, hsite, hthrough]
  rfl

/-! ### The book and the events -/

section
variable (hlead : s.site.lead < g.lead) (hrun : clockIsUnset s = false)
include hlead hrun

/-- The book as the confirmed hours leave it, and its events told. -/
theorem siteEnd_books : SameBooks (confirmHours (hoursToLead g s) (sited g s)) (siteEnd g s)
    ∧ toldBetween (resited g s).gatheringEvents (siteEnd g s) (hoursTold (hoursToLead g s) (sited g s)) := by
  have hend : BooksOf g (resited g s).gatheringEvents (confirmHours (hoursToLead g s) (sited g s)) (siteEnd g s)
      ∧ toldBetween (resited g s).gatheringEvents (siteEnd g s) (hoursTold (hoursToLead g s) (sited g s)) := by
    refine siteActs_confirmation (K := BooksOf g (resited g s).gatheringEvents (sited g s))
      (P := fun u => BooksOf g (resited g s).gatheringEvents (confirmHours (hoursToLead g s) (sited g s)) u
        ∧ toldBetween (resited g s).gatheringEvents u (hoursTold (hoursToLead g s) (sited g s)))
      hlead (fun _ hu => hu.handInjection) (fun _ hu => hu.handWithdrawal) (fun _ hu => hu.evaluateAlert) (fun _ n hu => hu.setWorld n)
      (fun u hu => ?_) (fun u hu => ⟨hu.1.handInjection, ?_⟩) (fun u hu => ⟨hu.1.handWithdrawal, ?_⟩)
      (fun u hu => ⟨hu.1.evaluateAlert, ?_⟩) booksOf_start
    · rw [confirmation_books hrun hu]
      have hdoes : Does actParts u (confirmHours (hoursToLead g s) u) := (does_confirmHours u _).mono (by decide)
      refine ⟨⟨confirmHours_books _ hu.books, hu.does.trans hdoes⟩, toldBetween.before ?_ hu.does⟩
      rw [← hoursTold_congr _ hu.books]
      exact ⟨_, confirmHours_told _ u, List.Sublist.refl _⟩
    · exact hu.2.after (does_handInjection (ps := dutyParts) (by decide) u (by decide))
    · exact hu.2.after (does_handWithdrawal (ps := flowParts) (by decide) u)
    · exact hu.2.after (does_evaluateAlert u)
  exact ⟨hend.1.books, hend.2⟩

theorem applySite_told : toldBetween s (applySite g s) (hoursTold (hoursToLead g s) (sited g s)) := by
  have hset : Does siteParts s (resited g s) := (acts_setSite s g (by decide)).does.trans ((does_renoteUnits _).mono (by decide))
  refine toldBetween.before ?_ hset
  rw [applySite_gathered]
  refine toldBetween_gathered (b := EventKind.completed.source) (siteEnd_books hlead hrun).2 fun e he => ?_
  rw [hoursTold_completed _ _ e he]

/-! ### The hours fit -/

theorem siteEnd_fits (hold : ∀ r ∈ s.sched, r.hour ≤ s.book.confirmedThrough) {x : Nat} (hx : s.book.confirmedThrough < x)
    (hlater : s.clock.hour < x) : netConfirmed (siteEnd g s).sched x ≤ (siteEnd g s).duty.declared
    ∧ -((siteEnd g s).dry.capacity : Int) ≤ netConfirmed (siteEnd g s).sched x := by
  have hend : ∃ c, FitsFrom s.book.confirmedThrough c ∧ recutsSince c (siteEnd g s) := by
    refine siteActs_confirmation (K := BooksOf g (resited g s).gatheringEvents (sited g s))
      (P := fun u => ∃ c, FitsFrom s.book.confirmedThrough c ∧ recutsSince c u)
      hlead (fun _ hu => hu.handInjection) (fun _ hu => hu.handWithdrawal) (fun _ hu => hu.evaluateAlert) (fun _ n hu => hu.setWorld n)
      (fun u hu => ?_) (fun u hu => ?_) (fun u hu => ?_) (fun u hu => ?_) booksOf_start
    · rw [confirmation_books hrun hu]
      have hthrough : u.book.confirmedThrough = s.book.confirmedThrough := hu.books.through
      have hhours : ∀ r ∈ u.sched, r.hour ≤ u.book.confirmedThrough := by
        rw [hthrough]
        exact hours_of_asked (hu.books.asked : asked u.sched = asked s.sched) hold
      refine ⟨_, ?_, recutsSince_refl _⟩
      rw [← hthrough]
      exact (FitsFrom.start hhours).confirmHours _
    · obtain ⟨c, hc, hrec⟩ := hu
      exact ⟨c, hc, recutsSince_handInjection hrec⟩
    · obtain ⟨c, hc, hrec⟩ := hu
      exact ⟨c, hc, recutsSince_handWithdrawal hrec⟩
    · obtain ⟨c, hc, hrec⟩ := hu
      have hd := does_evaluateAlert u
      exact ⟨c, hc, recutsSince_aside hrec hd (by decide) (by decide) (by rw [hd.duty_eq (by decide)]) (by rw [hd.dry_eq (by decide)])⟩
  obtain ⟨c, hc, hrec⟩ := hend
  refine hc.recut_since hrec hx (.inr ?_)
  rw [siteEnd_clock]
  exact hlater

/-! ### The rights and the capacities as they were -/

/-- The capacities stay, with the schedule `l` and the book `b`, the accounts' slots as they were. -/
structure Untouched (s : State) (l : List SchedRec) (b : Book) (u : State) : Prop where
  stays : StaysAt s.dry.capacity s.duty.declared l u
  book : u.book = b
  slots : u.acct.slots = s.acct.slots

/-- A capacity is formed below what it was, or all stays. -/
def untouchedUnlessFallen (s : State) (l : List SchedRec) (b : Book) (u : State) : Prop :=
  fallen s.dry.capacity s.duty.declared u ∨ Untouched s l b u

section
omit hlead hrun
variable {l : List SchedRec} {b : Book}

theorem untouched_of {ps : List Part} (hd : Does ps u v) (hps : Part.book ∉ ps ∧ Part.acct ∉ ps) (hu : Untouched s l b u)
    (h : staysUnlessFallen s.dry.capacity s.duty.declared l v) : untouchedUnlessFallen s l b v :=
  h.imp id fun hstays => ⟨hstays, (hd.book_eq hps.1).trans hu.book, by rw [hd.acct_eq hps.2]; exact hu.slots⟩

theorem untouched_handInjection (h : untouchedUnlessFallen s l b u) : untouchedUnlessFallen s l b (handInjection u) := by
  rcases h with hfallen | hu
  · exact .inl (fallen_handInjection hfallen)
  · exact untouched_of (does_handInjection (ps := dutyParts) (by decide) u (by decide)) (by decide) hu (stays_handInjection (.inr hu.stays))

theorem untouched_handWithdrawal (h : untouchedUnlessFallen s l b u) : untouchedUnlessFallen s l b (handWithdrawal u) := by
  rcases h with hfallen | hu
  · exact .inl (fallen_handWithdrawal hfallen)
  · exact untouched_of (does_handWithdrawal (ps := flowParts) (by decide) u) (by decide) hu (stays_handWithdrawal (.inr hu.stays))

/-- What leaves the units, the trains, the settings and the schedule. -/
theorem untouched_plant {ps : List Part} (hd : Does ps u v) (hps : Part.duty ∉ ps ∧ Part.dry ∉ ps ∧ Part.site ∉ ps ∧ Part.sched ∉ ps ∧ Part.book ∉ ps)
    (hslots : v.acct.slots = u.acct.slots) (h : untouchedUnlessFallen s l b u) : untouchedUnlessFallen s l b v := by
  obtain ⟨hduty, hdry, hsite, hsched, hbook⟩ := hps
  have hu := hd.duty_eq hduty
  have hy := hd.dry_eq hdry
  have hinj : declaredInjection v = declaredInjection u := declaredInjection_congr (by rw [hu]) (hd.site_eq hsite)
  have hwdr : withdrawalCapacity v = withdrawalCapacity u := withdrawalCapacity_congr (by rw [hy]) (hd.site_eq hsite)
  refine h.imp (fallen_congr hinj (Nat.le_of_eq hwdr)) fun hold => ⟨⟨?_, ?_, ?_, ?_, ?_⟩, ?_, ?_⟩
  · rw [hy]
    exact hold.stays.capacity
  · rw [hwdr]
    exact hold.stays.formed
  · rw [hu]
    exact hold.stays.declared
  · rw [hinj]
    exact hold.stays.formedInj
  · rw [hd.sched_eq hsched]
    exact hold.stays.sched
  · rw [hd.book_eq hbook]
    exact hold.book
  · rw [hslots]
    exact hold.slots

theorem untouched_evaluateAlert (h : untouchedUnlessFallen s l b u) : untouchedUnlessFallen s l b (evaluateAlert u) :=
  untouched_plant (does_evaluateAlert u) (by decide) (by rw [evaluateAlert_acct]) h

theorem untouched_setWorld (n : Nat) (h : untouchedUnlessFallen s l b u) : untouchedUnlessFallen s l b (u.setWorld n) :=
  untouched_plant (acts_setWorld (ps := [.world]) u n (by decide)).does (by decide) rfl h

theorem Untouched.whole (h : Untouched s s.sched s.book u) (hb : BooksOf g (resited g s).gatheringEvents (sited g s) u) :
    SameWhole (sited g s) u :=
  ⟨⟨h.slots, (hb.does.curves_eq (by decide)).trans rfl, hb.books.clock, h.stays.declared, h.stays.capacity⟩, h.stays.sched, h.book⟩

theorem resited_declared (hright : g.injRight = s.site.injRight) : declaredInjection (resited g s).gatheringEvents = declaredInjection s := by
  have hsum : capacitySum UnitState.declares (resited g s).gatheringEvents = capacitySum UnitState.declares s :=
    capacitySum_congr _ fun i => by
      show ((resited g s).duty.units[i]).state = _ ∧ ((resited g s).duty.units[i]).cfg.capacity = _
      rw [resited_units]
      exact ⟨rfl, rfl⟩
  rw [declaredInjection, declaredInjection, hsum, ← hright]
  rfl

theorem untouched_start (hinj : g.injRight = s.site.injRight) (hwdr : g.wdrRight = s.site.wdrRight) (hcurrent : capacitiesCurrent s = true) :
    untouchedUnlessFallen s s.sched s.book (recomputeTarget (resited g s).gatheringEvents) := by
  obtain ⟨⟨⟨hdeclared, _⟩, _⟩, hcapacity, _⟩ := (capacitiesCurrent_iff s).mp hcurrent
  have hformed : withdrawalCapacity (resited g s).gatheringEvents = withdrawalCapacity s := by
    rw [withdrawalCapacity, withdrawalCapacity, ← hwdr]
    rfl
  have hstays : StaysAt s.dry.capacity s.duty.declared s.sched (resited g s).gatheringEvents :=
    ⟨rfl, hformed.trans hcapacity.symm, rfl, (resited_declared hinj).trans hdeclared.symm, rfl⟩
  have hd : Does flowParts (resited g s).gatheringEvents (recomputeTarget (resited g s).gatheringEvents) := does_recomputeTarget (by decide) _
  exact untouched_of hd (by decide) ⟨hstays, rfl, rfl⟩ ((staysFree _ _ _).flow.recomputeTarget (.inr hstays))
end

theorem siteEnd_untouched (hinj : g.injRight = s.site.injRight) (hwdr : g.wdrRight = s.site.wdrRight) (hcurrent : capacitiesCurrent s = true) :
    untouchedUnlessFallen s (confirmHours (hoursToLead g s) (sited g s)).sched (confirmHours (hoursToLead g s) (sited g s)).book
      (siteEnd g s) := by
  refine siteActs_confirmation
    (K := fun u => BooksOf g (resited g s).gatheringEvents (sited g s) u ∧ untouchedUnlessFallen s s.sched s.book u)
    hlead (fun _ hu => ⟨hu.1.handInjection, untouched_handInjection hu.2⟩) (fun _ hu => ⟨hu.1.handWithdrawal, untouched_handWithdrawal hu.2⟩)
    (fun _ hu => ⟨hu.1.evaluateAlert, untouched_evaluateAlert hu.2⟩) (fun _ n hu => ⟨hu.1.setWorld n, untouched_setWorld n hu.2⟩)
    (fun u hu => ?_) (fun _ hu => untouched_handInjection hu) (fun _ hu => untouched_handWithdrawal hu)
    (fun _ hu => untouched_evaluateAlert hu) ⟨booksOf_start, untouched_start hinj hwdr hcurrent⟩
  obtain ⟨hbooks, hkept⟩ := hu
  rw [confirmation_books hrun hbooks]
  have hd := does_confirmHours u (hoursToLead g s)
  have hu2 := hd.duty_eq (by decide)
  have hy := hd.dry_eq (by decide)
  have hdeclared : declaredInjection (confirmHours (hoursToLead g s) u) = declaredInjection u :=
    declaredInjection_congr (by rw [hu2]) (hd.site_eq (by decide))
  have hformed : withdrawalCapacity (confirmHours (hoursToLead g s) u) = withdrawalCapacity u :=
    withdrawalCapacity_congr (by rw [hy]) (hd.site_eq (by decide))
  refine hkept.imp (fallen_congr hdeclared (Nat.le_of_eq hformed)) fun hold => ?_
  have hwhole := confirmHours_whole (hoursToLead g s) (hold.whole hbooks)
  refine ⟨⟨by rw [hy]; exact hold.stays.capacity, hformed.trans hold.stays.formed, by rw [hu2]; exact hold.stays.declared,
    hdeclared.trans hold.stays.formedInj, hwhole.sched⟩, hwhole.book, ?_⟩
  rw [hd.acct_eq (by decide)]
  exact hold.slots
end
end

end Sys2Proof.Machine
end

section
/-! SUPPORT. O39, from its clauses. -/

namespace Sys2Proof.Machine

section
variable {s : State} {b : Block}

theorem reqSiteSet_taken (hs : s.settled) (hlen : b.length = 29) (hrange : siteInRange (siteOf b) = true) (hflag : fieldW b 28 ≤ 1)
    (hfractions : (siteOf b).stopFraction < (siteOf b).startFraction) : reqSiteSet b s = taken [] (applySite (siteOf b) s) := by
  dsimp only [reqSiteSet]
  rw [checked_passed]
  intro p hp
  rcases List.mem_append.mp hp with hp | hp
  · exact settledChecks_hold hs (by simp [hlen]) p hp
  · simp only [List.mem_cons, List.not_mem_nil, or_false] at hp
    rcases hp with rfl | rfl
    · simp [siteBlockInRange, hrange, hflag]
    · exact decide_eq_true hfractions

/-- What the units and the rights give. -/
theorem siteEnd_capacitySum (g : Site) (p : UnitState → Bool) : capacitySum p (siteEnd g s) = capacitySum p s :=
  capacitySum_congr p fun i => by
    rw [siteEnd_units, resited_units]
    exact ⟨rfl, rfl⟩

theorem siteEnd_injection (g : Site) : injCurrent (siteEnd g s) := by
  have haway (u v : State) (huv : u.changesOnly besideParts v) (h : injCurrent u) : injCurrent v := by
    have hflow : v.flow = u.flow := huv .flow (by decide)
    exact injCurrent_congr (huv .duty (by decide)) (huv .site (by decide)) (congrArg Flow.cInj hflow) h
  refine inAnyOrder_establishes injCurrent (f := handInjection) ?_ injCurrent_handInjection (fun f hf v hv => ?_) _
  · exact List.mem_append_left _ (List.mem_append_left _ List.mem_cons_self)
  · exact siteActs_keep haway (fun u _ => injCurrent_handInjection u) (fun _ hu => injCurrent_handWithdrawal hu) hf hv

theorem siteEnd_withdrawal (g : Site) : wdrCurrent (siteEnd g s) := by
  have haway (u v : State) (huv : u.changesOnly besideParts v) (h : wdrCurrent u) : wdrCurrent v :=
    wdrCurrent_plant (huv .dry (by decide)) (huv .site (by decide)) (huv .flow (by decide)) h
  refine inAnyOrder_establishes wdrCurrent (f := handWithdrawal) ?_ wdrCurrent_handWithdrawal (fun f hf v hv => ?_) _
  · exact List.mem_append_left _ (List.mem_append_left _ (List.mem_cons_of_mem _ List.mem_cons_self))
  · exact siteActs_keep haway (fun _ hu => wdrCurrent_handInjection hu) (fun u _ => wdrCurrent_handWithdrawal u) hf hv

theorem rawTarget_resited (g : Site) (hs : isUnrestored s = false) : rawTarget (resited g s).gatheringEvents
    = max (-(g.wdrRight : Int)) (min (g.injRight : Int)
        (if clockIsUnset s = true ∨ inFallback s = true then 0 else netConfirmed s.sched s.clock.hour)) := by
  have hforced : targetForced (resited g s).gatheringEvents = (clockIsUnset s || inFallback s) := by
    show (clockIsUnset s || isUnrestored s || inFallback s) = _
    rw [hs, Bool.or_false]
  rw [rawTarget, hforced]
  simp only [Bool.or_eq_true]
  rfl

/-- In the end no capacity has been formed below what it was, where none stands below. -/
theorem siteEnd_stands {g : Site} (hdeclared : s.duty.declared ≤ (siteEnd g s).duty.declared)
    (hcapacity : s.dry.capacity ≤ (siteEnd g s).dry.capacity) : ¬fallen s.dry.capacity s.duty.declared (siteEnd g s) := by
  rw [fallen, ← (siteEnd_withdrawal g).1, ← (siteEnd_injection g).1.1]
  omega

/-- Settles O39: every clause follows one figure through the acts of the settings, in whatever order they come. -/
theorem siteSetReplacesTheSettings : Obligations.SiteSetReplacesTheSettings := by
  refine ⟨fun s b => keepsItsChecks_all _ s, ?_⟩
  intro s b hs hlen hrange hflag hfractions g
  obtain ⟨hsite, hacct, hbook, hsched, hflow, hduty, hdry, hclock⟩ := applySite_parts g s
  obtain ⟨⟨hdeclared, hready⟩, hcInj⟩ := siteEnd_injection (s := s) g
  obtain ⟨hcapacity, hcWdr⟩ := siteEnd_withdrawal (s := s) g
  have hsteered := siteEnd_steered g s
  refine ⟨applySite g s, exec_taken rfl hs.1.1 (reqSiteSet_taken hs hlen hrange hflag hfractions), ?_, ?_, ?_, ?_, ?_, ?_, ?_, ?_, ?_,
    applySite_redirected g s, fun hidle => ⟨?_, applySite_recutFollows hidle, fun hup hup' hwhy => ?_⟩, fun hlead hrun => ?_,
    (does_applySite s g).parts⟩
  · rw [hsite, siteEnd_site]
  · rw [hacct, siteEnd_acct]
  · rw [hduty, hdeclared, declaredInjection, siteEnd_capacitySum, siteEnd_site]
  · rw [hduty, hready, readyInjection, siteEnd_capacitySum, siteEnd_site]
  · rw [hflow, hduty, hcInj]
  · rw [hflow, hsteered.tRaw, rawTarget_resited g hs.1.2.1]
  · rw [hdry, hcapacity]
    exact (withdrawalCapacity_congr (by rw [hdry]) hsite).symm
  · rw [hflow, hdry, hcWdr]
  · rw [hflow]
    exact hsteered.limited
  · rw [hbook, siteEnd_book hidle]
  · rw [hduty] at hup
    rw [hdry] at hup'
    rw [hsched]
    have hstands := siteEnd_stands hup hup'
    rcases hwhy with hdir | hfits
    · rw [hflow] at hdir
      rcases (siteEnd_resting hidle).rests with hmoved | hfallen | ⟨_, hrests⟩
      · exact absurd hdir hmoved
      · exact absurd hfallen hstands
      · exact hrests.sched
    · rcases siteEnd_up hidle hfits with hfallen | hholds
      · exact absurd hfallen hstands
      · exact hholds.sched
  · intro w
    have hw : w = confirmHours (hoursToLead g s) (sited g s) := confirmedTo_eq _ _
    clear_value w
    subst hw
    obtain ⟨hbooks, _⟩ := siteEnd_books hlead hrun
    rw [hbook, hsched, hdry, hduty]
    refine ⟨?_, hbooks.entries, ?_, hbooks.asked, ⟨_, confirmHours_told _ _, applySite_told hlead hrun⟩, ?_, ?_⟩
    · rw [hbooks.through, confirmHours_through]
      show s.book.confirmedThrough + hoursToLead g s = _
      rw [hoursToLead]
      omega
    · rw [hbooks.arrival, confirmHours_arrival]
      rfl
    · intro hinj hwdr hcurrent hsame
      rcases siteEnd_untouched hlead hrun hinj hwdr hcurrent with hfallen | hkept
      · refine absurd hfallen (siteEnd_stands (Nat.le_of_eq ?_) (Nat.le_of_eq hsame.symm))
        obtain ⟨⟨⟨hd, _⟩, _⟩, _⟩ := (capacitiesCurrent_iff s).mp hcurrent
        rw [hd, hdeclared, declaredInjection, declaredInjection, siteEnd_capacitySum, siteEnd_site, hinj]
      · exact ⟨hkept.book, hkept.stays.sched⟩
    · exact fun hold x hx hlater => siteEnd_fits hlead hrun hold hx hlater

end

end Sys2Proof.Machine
end

section
/-! SUPPORT. The units and the trains that take an image, in either order (R113, R139): what each record then holds. -/

namespace Sys2Proof.Machine

/-! ### Both orders -/

section
variable {ages : CUnit → List Nat} {held : Train → Held} {m : Image}

/-- The units and the trains take an image, in the order the world takes. -/
def unitsAndTrains (ages : CUnit → List Nat) (held : Train → Held) (m : Image) : State → State :=
  inAnyOrder [takeUnits ages m, takeTrains held m]

/-- What the units make of `K` and the trains keep. -/
theorem unitsAndTrains_units {K P : State → Prop} {s : State} (hworldK : ∀ u n, K u → K (u.setWorld n))
    (hK : ∀ u, K u → K (takeTrains held m u)) (hmake : ∀ u, K u → P (takeUnits ages m u))
    (hP : ∀ u, P u → P (takeTrains held m u)) (h : K s) : P (unitsAndTrains ages held m s) := by
  refine inAnyOrder_once (K := K) (f := takeUnits ages m) (l := [takeTrains held m]) (.refl _) hworldK (fun g hg u hu => ?_) hmake
    (fun g hg u hu => ?_) h
  · rw [List.mem_singleton.mp hg]
    exact hK u hu
  · rw [List.mem_singleton.mp hg]
    exact hP u hu

/-- What the trains make of `K` and the units keep. -/
theorem unitsAndTrains_trains {K P : State → Prop} {s : State} (hworldK : ∀ u n, K u → K (u.setWorld n))
    (hK : ∀ u, K u → K (takeUnits ages m u)) (hmake : ∀ u, K u → P (takeTrains held m u))
    (hP : ∀ u, P u → P (takeUnits ages m u)) (h : K s) : P (unitsAndTrains ages held m s) := by
  refine inAnyOrder_once (K := K) (f := takeTrains held m) (l := [takeUnits ages m]) (List.Perm.swap _ _ _) hworldK (fun g hg u hu => ?_) hmake
    (fun g hg u hu => ?_) h
  · rw [List.mem_singleton.mp hg]
    exact hK u hu
  · rw [List.mem_singleton.mp hg]
    exact hP u hu

/-- Of two acts one is first. -/
theorem inAnyOrder_pair (f g : State → State) (s : State) :
    ∃ n, inAnyOrder [f, g] s = g (f (s.setWorld n)) ∨ inAnyOrder [f, g] s = f (g (s.setWorld n)) := by
  obtain ⟨p, hp, n, he⟩ := inAnyOrder_cases [f, g] s
  have hpair : p = [f, g] ∨ p = [g, f] := by
    obtain ⟨a, b, rfl⟩ := List.length_eq_two.mp hp.length_eq
    rcases List.mem_pair.mp (hp.mem_iff.mp List.mem_cons_self) with ha | ha
    · rw [ha] at hp ⊢
      exact .inl (by rw [List.singleton_perm_singleton.mp ((List.perm_cons _).mp hp)])
    · rw [ha] at hp ⊢
      exact .inr (by rw [List.singleton_perm_singleton.mp ((List.perm_cons _).mp (hp.trans (List.Perm.swap _ _ _)))])
  rcases hpair with rfl | rfl
  · exact ⟨n, .inl he⟩
  · exact ⟨n, .inr he⟩

theorem unitsAndTrains_order (ages : CUnit → List Nat) (held : Train → Held) (m : Image) (s : State) :
    ∃ n, unitsAndTrains ages held m s = takeTrains held m (takeUnits ages m (s.setWorld n))
      ∨ unitsAndTrains ages held m s = takeUnits ages m (takeTrains held m (s.setWorld n)) :=
  inAnyOrder_pair (takeUnits ages m) (takeTrains held m) s
end

/-! ### The units (R113) -/

section
variable (ages : CUnit → List Nat) (held : Train → Held) (m : Image) (s : State)

theorem does_takeTrains_flow : Does flowParts s (takeTrains held m s) := by
  rw [takeTrains_eq]
  exact (dryKept_of_subset (List.Subset.refl flowParts) s).tested
    (fun t => trainKept_of_subset (List.Subset.refl flowParts) s (fun _ hu => hu) t) (acts_setDry s _ (by decide)).does

/-- The scheduler's records are the image's. -/
structure UnitsTaken (u : State) : Prop where
  units : ∀ i : Fin 6, u.duty.units[i] = (m.units[i]).unit (ages s.duty.units[i])
  roster : u.duty.roster = m.roster
  fuel : u.duty.fuel = 0

theorem takeUnits_taken : UnitsTaken ages m s (takeUnits ages m s) := by
  rw [takeUnits_eq]
  refine ⟨fun i => ?_, by rw [handInjection_duty]; rfl, by rw [handInjection_duty]; rfl⟩
  rw [handInjection_duty]
  exact unitsFrom_getElem ages m s i

theorem UnitsTaken.of_duty {u v : State} (h : UnitsTaken ages m s u) (hduty : v.duty = u.duty) : UnitsTaken ages m s v := by
  refine ⟨fun i => ?_, by rw [hduty]; exact h.roster, by rw [hduty]; exact h.fuel⟩
  rw [hduty]
  exact h.units i

theorem UnitsTaken.congr {u v : State} (h : UnitsTaken ages m v u) (hduty : v.duty = s.duty) : UnitsTaken ages m s u :=
  ⟨fun i => by rw [h.units i, hduty], h.roster, h.fuel⟩

theorem unitsAndTrains_unitsTaken : UnitsTaken ages m s (unitsAndTrains ages held m s) := by
  refine unitsAndTrains_units (K := fun u => u.duty = s.duty) (P := UnitsTaken ages m s) (fun _ _ h => h)
    (fun u hu => ?_) (fun u hu => (takeUnits_taken ages m u).congr _ _ _ hu) (fun u hu => hu.of_duty _ _ _ ?_) rfl
  · exact ((does_takeTrains_flow held m u).duty_eq (by decide)).trans hu
  · exact (does_takeTrains_flow held m u).duty_eq (by decide)

end

/-! ### A train record (R139) -/

/-- Two records that the moves of the beds of a train that is not in service do not tell apart. -/
structure Kin (x y : Train) : Prop where
  configured : y.configured = x.configured
  cfg : y.cfg = x.cfg
  service : y.service = x.service
  state : y.state = x.state
  water : y.water = x.water
  temp : y.temp = x.temp
  dew : y.dew = x.dew
  bedCap : y.bedCap = x.bedCap

theorem Kin.refl (x : Train) : Kin x x := ⟨rfl, rfl, rfl, rfl, rfl, rfl, rfl, rfl⟩

theorem Kin.trans {x y z : Train} (h : Kin x y) (h' : Kin y z) : Kin x z :=
  ⟨h'.configured.trans h.configured, h'.cfg.trans h.cfg, h'.service.trans h.service, h'.state.trans h.state, h'.water.trans h.water,
    h'.temp.trans h.temp, h'.dew.trans h.dew, h'.bedCap.trans h.bedCap⟩

theorem Kin.masked (x : Train) : Kin x x.masked := by
  unfold Train.masked
  split <;> exact ⟨rfl, rfl, rfl, rfl, rfl, rfl, rfl, rfl⟩

theorem Kin.swapped (x : Train) (i : Side) : Kin x (x.swapped i) := by cases i <;> exact ⟨rfl, rfl, rfl, rfl, rfl, rfl, rfl, rfl⟩

theorem Kin.takenUp (x : Train) (i : Side) : Kin x (x.takenUp i) := by cases i <;> exact ⟨rfl, rfl, rfl, rfl, rfl, rfl, rfl, rfl⟩

theorem Kin.flagged (x : Train) (p q : Bool) : Kin x ((x.defer p).degrade q) := ⟨rfl, rfl, rfl, rfl, rfl, rfl, rfl, rfl⟩

/-- What the beds' moves of a train that is not in service leave of the part, nothing being handed on: its record but for the
beds, and all else. -/
structure BedMove (t : Fin 2) (s u : State) : Prop where
  own : Kin s.dry.trains[t] u.dry.trains[t]
  others : ∀ i ≠ t, u.dry.trains[i] = s.dry.trains[i]
  figures : u.dry.gas = s.dry.gas ∧ u.dry.capacity = s.dry.capacity
  does : Does [.dry, .evq] s u

section
variable {t : Fin 2} {s u v : State} {x : Train}

theorem BedMove.refl (t : Fin 2) (s : State) : BedMove t s s := ⟨.refl _, fun _ _ => rfl, ⟨rfl, rfl⟩, .refl _ s⟩

theorem BedMove.put (h : BedMove t s u) (hx : Kin u.dry.trains[t] x) : BedMove t s (putTrain t x u) := by
  refine ⟨by rw [putTrain_own]; exact h.own.trans hx, fun i hi => ?_, h.figures, h.does.trans (acts_putTrain t x u (by decide)).does⟩
  rw [putTrain_other x (Ne.symm hi)]
  exact h.others i hi

theorem BedMove.raise (k : EventKind) (a : Option Nat) (b : Option Int) (h : BedMove t s u) : BedMove t s (Machine.raise k a b u) :=
  ⟨h.own, h.others, h.figures, h.does.trans (acts_raise u k a b (by decide)).does⟩

/-- Neither ONLINE nor OFF_SPEC: no loading of the mask assesses it. -/
def Train.asleep (x : Train) : Prop := x.state ≠ .online ∧ x.state ≠ .offSpec

theorem BedMove.loadMask (h : BedMove t s u) (hx : (s.dry.trains[t]).asleep) : BedMove t s (Machine.loadMask id t u) := by
  rw [loadMask_idle (by rw [h.own.state]; exact hx.1) (by rw [h.own.state]; exact hx.2)]
  exact h.put (.masked _)

theorem BedMove.swapBeds (i : Side) (hx : (s.dry.trains[t]).asleep) : BedMove t s (Machine.swapBeds id t i s) := by
  have hput : BedMove t s (putTrain t ((s.dry.trains[t]).swapped i) s) := (BedMove.refl t s).put (.swapped _ i)
  refine (BedMove.loadMask (u := if (s.dry.trains[t]).degraded then _ else _) ?_ hx).raise _ _ _
  exact (ite_self (c := (s.dry.trains[t]).degraded = true) (putTrain t ((s.dry.trains[t]).swapped i) s)).symm ▸ hput

theorem BedMove.takeUpBed (i : Side) (hx : (s.dry.trains[t]).asleep) : BedMove t s (Machine.takeUpBed id t i s) := by
  have hput : BedMove t s (putTrain t ((s.dry.trains[t]).takenUp i) s) := (BedMove.refl t s).put (.takenUp _ i)
  refine (BedMove.loadMask (u := if (s.dry.trains[t]).degraded then _ else _) ?_ hx).raise _ _ _
  exact (ite_self (c := (s.dry.trains[t]).degraded = true) (putTrain t ((s.dry.trains[t]).takenUp i) s)).symm ▸ hput

theorem BedMove.takeUp (hx : (s.dry.trains[t]).asleep) : BedMove t s (Machine.takeUp id t s) := by
  dsimp only [Machine.takeUp]
  split
  · exact .refl t s
  · split
    · exact .takeUpBed _ hx
    · exact .refl t s

theorem BedMove.flag (p q : Bool) (h : BedMove t s u) : BedMove t s (putTrain t (((u.dry.trains[t]).defer p).degrade q) u) := h.put (.flagged _ p q)

theorem BedMove.deferSwap (i : Side) (s : State) : BedMove t s (Machine.deferSwap t i s) := by
  dsimp only [Machine.deferSwap]
  split
  · exact .refl t s
  · exact ((BedMove.refl t s).flag true (s.dry.trains[t]).degraded).raise _ _ _

theorem BedMove.testSaturation (i : Side) (h : BedMove t s u) : BedMove t s (Machine.testSaturation id t i u) := by
  dsimp only [Machine.testSaturation]
  split
  · exact (h.flag (u.dry.trains[t]).deferred true).raise _ _ _
  · split
    · exact h.flag (u.dry.trains[t]).deferred false
    · exact h

theorem BedMove.bedTest (hx : (s.dry.trains[t]).asleep) : BedMove t s (Machine.bedTest id t s) := by
  dsimp only [Machine.bedTest]
  split
  · exact .refl t s
  · split
    · split
      · exact .swapBeds _ hx
      · exact .testSaturation _ (.deferSwap _ s)
    · exact .testSaturation _ ((BedMove.refl t s).flag false (s.dry.trains[t]).degraded)

theorem BedMove.trans (h : BedMove t s u) (h' : BedMove t u v) : BedMove t s v :=
  ⟨h.own.trans h'.own, fun i hi => (h'.others i hi).trans (h.others i hi),
    ⟨h'.figures.1.trans h.figures.1, h'.figures.2.trans h.figures.2⟩, h.does.trans h'.does⟩

theorem BedMove.tested (hx : (s.dry.trains[t]).asleep) : BedMove t s (Machine.bedTest id t (Machine.takeUp id t s)) := by
  have htaken : BedMove t s (Machine.takeUp id t s) := .takeUp hx
  exact htaken.trans (.bedTest ⟨by rw [htaken.own.state]; exact hx.1, by rw [htaken.own.state]; exact hx.2⟩)

end

end Sys2Proof.Machine
end

section
/-! SUPPORT. The beds of a train that takes an image (R139): what the record given holds, and what the flow then leaves of it. -/

namespace Sys2Proof.Machine

/-! ### The record given -/

/-- A bed's record at its full time. -/
def BedImage.timed (c : TrainCfg) (d : BedImage) : Bed :=
  ⟨d.state, d.load, if d.state = .heating then c.heating else if d.state = .cooling then c.cooling else 0⟩

/-- The higher-indexed bed as two ADSORBING ones leave it. -/
def TrainImage.higher (x : TrainImage) : Bed :=
  if x.lo.state = .adsorbing ∧ x.hi.state = .adsorbing then ⟨.heating, x.hi.load, x.cfg.heating⟩ else x.hi.timed x.cfg

/-- It, as two regenerating ones leave it. -/
def TrainImage.pairedHi (x : TrainImage) : Bed :=
  if ((x.lo.timed x.cfg).state = .heating ∨ (x.lo.timed x.cfg).state = .cooling) ∧ (x.higher.state = .heating ∨ x.higher.state = .cooling)
  then ⟨.ready, 0, 0⟩ else x.higher

/-- A READY bed holds no load. -/
def Bed.emptied (d : Bed) : Bed := if d.state = .ready then ⟨.ready, 0, 0⟩ else d

/-- The bed capacity formed from an image. -/
def TrainImage.capacity (m : Image) (x : TrainImage) (temp : Int) : Nat :=
  if x.configured = true then (match x.cfg.curve with
    | none => 0
    | some c => evalCurve m.curves[c] temp) else 0

/-- The beds and the bed capacity that R139 gives, where none is taken up or has reached its swap point. -/
theorem bedsTaken_iff (m : Image) (j : Fin 2) (temp : Int) (y : Train) : bedsTaken m j temp y ↔
    y.bedCap = (m.trains[j]).capacity m temp
    ∧ (((m.trains[j]).service = false ∨ ((m.trains[j]).lo.timed (m.trains[j]).cfg).state = .adsorbing ∨ (m.trains[j]).pairedHi.state = .adsorbing) →
      (∀ d : Bed, d = (m.trains[j]).lo.timed (m.trains[j]).cfg ∨ d = (m.trains[j]).pairedHi → d.state = .adsorbing →
        d.load * 1000 < (m.trains[j]).capacity m temp * 3600000000 * (m.trains[j]).cfg.swapPoint) →
      y.lo = ((m.trains[j]).lo.timed (m.trains[j]).cfg).emptied ∧ y.hi = (m.trains[j]).pairedHi.emptied ∧ y.deferred = false) := Iff.rfl

theorem BedImage.bed_eq (c : TrainCfg) (d : BedImage) : d.bed c = d.timed c := by
  obtain ⟨st, load⟩ := d
  cases st <;> rfl

theorem emptied_state (d : Bed) : d.emptied.state = d.state := by
  unfold Bed.emptied
  split
  · next h => exact h.symm
  · rfl

theorem regenerates_iff (d : Bed) : d.regenerates = true ↔ d.state = .heating ∨ d.state = .cooling := by
  simp [Bed.regenerates]

/-- A READY bed that was to regenerate is empty. -/
theorem emptied_ready (d : Bed) : ({ d with state := .ready } : Bed).emptied = ⟨.ready, 0, 0⟩ := rfl

section
variable (m : Image) (x : TrainImage) (h : Held)

theorem train_capacity : (x.train m h).bedCap = x.capacity m h.temp := by
  show (match x.cfg.curve with
    | none => 0
    | some c => if x.configured then evalCurve m.curves[c] h.temp else 0) = _
  unfold TrainImage.capacity
  cases x.cfg.curve with
  | none => exact (ite_self _).symm
  | some c => rfl

theorem train_fields : (x.train m h).configured = x.configured ∧ (x.train m h).cfg = x.cfg ∧ (x.train m h).service = x.service
    ∧ (x.train m h).state = (if x.service then .standby else .out) ∧ (x.train m h).held = h ∧ (x.train m h).deferred = false
    ∧ (x.train m h).share = 0 := ⟨rfl, rfl, rfl, rfl, rfl, rfl, rfl⟩

theorem train_asleep : (x.train m h).asleep := by
  obtain ⟨_, _, _, hstate, _⟩ := train_fields m x h
  rw [Train.asleep, hstate]
  split <;> exact ⟨nofun, nofun⟩

theorem train_lo : (x.train m h).lo = (x.lo.timed x.cfg).emptied := by
  rw [← BedImage.bed_eq]
  rfl

theorem train_hi : (x.train m h).hi = x.pairedHi.emptied := by
  have hhigher : (if x.lo.state = .adsorbing ∧ x.hi.state = .adsorbing then
      { x.hi.bed x.cfg with state := .heating, timer := x.cfg.heating } else x.hi.bed x.cfg) = x.higher := by
    rw [TrainImage.higher, BedImage.bed_eq]
    rfl
  have hgiven : (x.train m h).hi = (if (x.lo.bed x.cfg).regenerates && x.higher.regenerates then { x.higher with state := .ready }
      else x.higher : Bed).emptied := by
    rw [← hhigher]
    rfl
  rw [hgiven, TrainImage.pairedHi, BedImage.bed_eq]
  by_cases hboth : (x.lo.timed x.cfg).regenerates = true ∧ x.higher.regenerates = true
  · rw [if_pos (by rw [hboth.1, hboth.2]; rfl), if_pos ⟨(regenerates_iff _).mp hboth.1, (regenerates_iff _).mp hboth.2⟩, emptied_ready]
    rfl
  · rw [if_neg (by rw [Bool.and_eq_true]; exact hboth),
      if_neg fun hs => hboth ⟨(regenerates_iff _).mpr hs.1, (regenerates_iff _).mpr hs.2⟩]

end

/-! ### The record after the beds' tests -/

/-- What a train holds of its image record. -/
structure TrainTaken (m : Image) (j : Fin 2) (h : Held) (y : Train) : Prop where
  configured : y.configured = (m.trains[j]).configured
  cfg : y.cfg = (m.trains[j]).cfg
  service : y.service = (m.trains[j]).service
  held : y.held = h
  beds : bedsTaken m j h.temp y

theorem TrainTaken.of_body {m : Image} {j : Fin 2} {h : Held} {x y : Train} (hx : TrainTaken m j h x) (hy : y.body = x.body) :
    TrainTaken m j h y := by
  have ha := Alike.of_body hy
  refine ⟨ha.configured.trans hx.configured, ha.cfg.trans hx.cfg, ha.service.trans hx.service, ?_, ?_⟩
  · rw [← hx.held, Train.held, Train.held, ha.water, ha.temp, ha.dew]
  · rw [bedsTaken_iff, ha.bedCap, ha.lo, ha.hi, ha.deferred]
    exact (bedsTaken_iff m j h.temp x).mp hx.beds

section
variable {m : Image} {j : Fin 2} {h : Held} {s : State}

/-- A bed that is neither taken up nor beyond its swap point stays where it is. -/
theorem tested_stands (hs : s.dry.trains[j] = (m.trains[j]).train m h)
    (hads : (m.trains[j]).service = false ∨ ((m.trains[j]).lo.timed (m.trains[j]).cfg).state = .adsorbing ∨ (m.trains[j]).pairedHi.state = .adsorbing)
    (hbelow : ∀ d : Bed, d = (m.trains[j]).lo.timed (m.trains[j]).cfg ∨ d = (m.trains[j]).pairedHi → d.state = .adsorbing →
      d.load * 1000 < (m.trains[j]).capacity m h.temp * 3600000000 * (m.trains[j]).cfg.swapPoint) :
    ∃ p, hasBody j (((m.trains[j]).train m h).degrade p) (bedTest id j (takeUp id j s)) := by
  obtain ⟨_, hcfg, _, hstate, _, hdef, _⟩ := train_fields m m.trains[j] h
  have hlo := train_lo m m.trains[j] h
  have hhi := train_hi m m.trains[j] h
  have hcap := train_capacity m m.trains[j] h
  generalize (m.trains[j]).train m h = v at *
  have hbody (p : Bool) (hp : v.degraded = p) : hasBody j (v.degrade p) s := by
    rw [hasBody, hs, degrade_self hp]
  have hup : takeUp id j s = s := by
    rcases hads with hservice | hlead | hlead
    · exact takeUp_out _ _ (by rw [hs, hstate, hservice]; rfl)
    · refine takeUp_some _ _ (i := .lo) ?_
      rw [hs]
      exact if_pos (by rw [hlo, emptied_state]; exact hlead)
    · cases hfirst : v.adsorbing with
      | some i => exact takeUp_some _ _ (by rw [hs]; exact hfirst)
      | none => exact absurd (by rw [hhi, emptied_state]; exact hlead) ((Train.adsorbing_none v).mp hfirst).2
  rw [hup]
  cases hfirst : v.adsorbing with
  | none =>
    rw [bedTest_none _ _ (by rw [hs]; exact hfirst)]
    exact ⟨_, hbody _ rfl⟩
  | some i =>
    have hfull (d : Bed) (hd : d.state = .adsorbing) : d.emptied = d := if_neg (by rw [hd]; nofun)
    have hbed : (v.bed i).state = .adsorbing ∧ (v.bed i = (m.trains[j]).lo.timed (m.trains[j]).cfg ∨ v.bed i = (m.trains[j]).pairedHi) := by
      unfold Train.adsorbing at hfirst
      split at hfirst
      · next hl =>
        obtain rfl := Option.some.inj hfirst
        refine ⟨hl, .inl ?_⟩
        rw [hlo, emptied_state] at hl
        exact hlo.trans (hfull _ hl)
      · split at hfirst
        · next hl =>
          obtain rfl := Option.some.inj hfirst
          refine ⟨hl, .inr ?_⟩
          rw [hhi, emptied_state] at hl
          exact hhi.trans (hfull _ hl)
        · exact absurd hfirst nofun
    have hshort : reachedSwap v (v.bed i) = false := by
      have := hbelow (v.bed i) hbed.2 hbed.1
      rw [reachedSwap, Train.capUnits, hcap, hcfg]
      exact decide_eq_false (Nat.not_le.mpr this)
    have hstay := bedTest_stays_body (s := s) (t := j) (i := i) handFree_id (by rw [hs]; exact hfirst)
      (by rw [hs, hshort]; exact fun hr => absurd hr.1 nofun)
    rw [hs] at hstay
    refine ⟨v.saturated i, ?_⟩
    rw [hasBody] at hstay ⊢
    rw [hstay, Train.stayed, hshort]
    congr 2
    rw [Train.defer, ← hdef]

theorem tested_taken (hs : s.dry.trains[j] = (m.trains[j]).train m h) :
    TrainTaken m j h (bedTest id j (takeUp id j s)).dry.trains[j] := by
  obtain ⟨hconf, hcfg, hservice, _, hheld, hdef, _⟩ := train_fields m m.trains[j] h
  have hkin := (BedMove.tested (t := j) (s := s) (by rw [hs]; exact train_asleep m _ h)).own
  rw [hs] at hkin
  refine ⟨hkin.configured.trans hconf, hkin.cfg.trans hcfg, hkin.service.trans hservice, ?_, ?_⟩
  · rw [← hheld, Train.held, Train.held, hkin.water, hkin.temp, hkin.dew]
  · rw [bedsTaken_iff]
    refine ⟨hkin.bedCap.trans (train_capacity m _ h), fun hads hbelow => ?_⟩
    obtain ⟨p, hbody⟩ := tested_stands hs hads hbelow
    have ha := hbody.alike
    exact ⟨ha.lo.trans (train_lo m _ h), ha.hi.trans (train_hi m _ h), ha.deferred.trans hdef⟩

end

/-! ### Both trains, and the flow after them -/

/-- Both trains hold what the image gives them, at the values `h`. -/
def TrainsTaken (m : Image) (h : Fin 2 → Held) (s : State) : Prop := ∀ j : Fin 2, TrainTaken m j (h j) s.dry.trains[j]

theorem trainsTakenFree (m : Image) (h : Fin 2 → Held) : FlowFree (TrainsTaken m h) where
  raise _ _ _ _ _ hs := hs
  putTrain s t x hx hs j := by
    rw [putTrain_trains]
    split
    · next ht =>
      subst ht
      exact (hs t).of_body hx.body
    · exact hs j
  setFlow _ _ hs := hs
  recut s hs j := by
    rw [recut_trains]
    exact hs j
  setWorld _ _ hs := hs
  capacity _ _ hs := hs

/-- The part as the trains' records are set and their beds tested. -/
def trainsTested (held : Train → Held) (m : Image) (s : State) : State :=
  bothTrains (fun t u => bedTest id t (takeUp id t u)) (s.setDry { s.dry with trains := trainsFrom held m s, gas := 0 })

theorem takeTrains_tested (held : Train → Held) (m : Image) (s : State) :
    takeTrains held m s = followDirection handWithdrawal (handWithdrawal (trainsTested held m s)) := takeTrains_eq held m s

/-- What the tests of the beds of both trains leave of their records, and of all else. -/
structure BothTested (m : Image) (h : Fin 2 → Held) (s u : State) : Prop where
  kin : ∀ j : Fin 2, Kin ((m.trains[j]).train m (h j)) u.dry.trains[j]
  taken : TrainsTaken m h u
  figures : u.dry.gas = s.dry.gas ∧ u.dry.capacity = s.dry.capacity
  does : Does [.dry, .evq] s u

theorem bothTested {m : Image} {h : Fin 2 → Held} {s : State} (hgiven : ∀ j : Fin 2, s.dry.trains[j] = (m.trains[j]).train m (h j)) :
    BothTested m h s (bothTrains (fun t u => bedTest id t (takeUp id t u)) s) := by
  have hzero : TrainTaken m 0 (h 0) (bedTest id 0 (takeUp id 0 s)).dry.trains[(0 : Fin 2)] := tested_taken (hgiven 0)
  have hfirst : BedMove 0 s (bedTest id 0 (takeUp id 0 s)) := .tested (by rw [hgiven]; exact train_asleep m _ _)
  rw [bothTrains]
  generalize bedTest id 0 (takeUp id 0 s) = s1 at *
  have hsecond : s1.dry.trains[(1 : Fin 2)] = (m.trains[(1 : Fin 2)]).train m (h 1) := (hfirst.others 1 (by decide)).trans (hgiven 1)
  have hone : TrainTaken m 1 (h 1) (bedTest id 1 (takeUp id 1 s1)).dry.trains[(1 : Fin 2)] := tested_taken hsecond
  have hlast : BedMove 1 s1 (bedTest id 1 (takeUp id 1 s1)) := .tested (by rw [hsecond]; exact train_asleep m _ _)
  generalize bedTest id 1 (takeUp id 1 s1) = s2 at *
  have hkept := hlast.others 0 (by decide)
  have hkin0 := hfirst.own
  have hkin1 := hlast.own
  rw [hgiven] at hkin0
  rw [hsecond] at hkin1
  rw [← hkept] at hzero hkin0
  exact ⟨Fin.forall_fin_two.mpr ⟨hkin0, hkin1⟩, Fin.forall_fin_two.mpr ⟨hzero, hone⟩,
    ⟨hlast.figures.1.trans hfirst.figures.1, hlast.figures.2.trans hfirst.figures.2⟩, hfirst.does.trans hlast.does⟩

/-- The part as the trains' records are set. -/
def trainsSet (held : Train → Held) (m : Image) (s : State) : State := s.setDry { s.dry with trains := trainsFrom held m s, gas := 0 }

theorem trainsTested_spec (held : Train → Held) (m : Image) (s : State) :
    BothTested m (fun j => held s.dry.trains[j]) (trainsSet held m s) (trainsTested held m s) :=
  bothTested fun j => trainsFrom_getElem held m s j

theorem does_trainsTested (held : Train → Held) (m : Image) (s : State) : Does [.dry, .evq] s (trainsTested held m s) :=
  (acts_setDry s _ (by decide)).does.trans (trainsTested_spec held m s).does

theorem trainsTested_gas (held : Train → Held) (m : Image) (s : State) : (trainsTested held m s).dry.gas = 0 :=
  (trainsTested_spec held m s).figures.1

theorem trainsTested_capacity (held : Train → Held) (m : Image) (s : State) : (trainsTested held m s).dry.capacity = s.dry.capacity :=
  (trainsTested_spec held m s).figures.2

/-! ### After the units and the trains -/

section
variable (ages : CUnit → List Nat) (held : Train → Held) (m : Image) (s : State)

/-- What no move of the flow breaks and the tests establish, the trains' taking establishes. -/
theorem takeTrains_makes {P : State → Prop} (hP : FlowFree P) (h : P (trainsTested held m s)) : P (takeTrains held m s) := by
  rw [takeTrains_tested]
  exact followDirection_kept hP.dew hP.rest (hP.handWithdrawal h)

/-- The values that a train holds from reports are in its body. -/
theorem heldKept (h : Fin 2 → Held) : FlowFree (fun u => ∀ j : Fin 2, (u.dry.trains[j]).held = h j) where
  raise _ _ _ _ _ hs := hs
  putTrain s t x hx hs j := by
    have ha := Alike.of_body hx.body
    rw [putTrain_trains]
    split
    · next ht =>
      subst ht
      rw [← hs t, Train.held, Train.held, ha.water, ha.temp, ha.dew]
    · exact hs j
  setFlow _ _ hs := hs
  recut s hs j := by
    rw [recut_trains]
    exact hs j
  setWorld _ _ hs := hs
  capacity _ _ hs := hs

/-- A predicate that the flow keeps, the units' taking keeps, where their records do not bear on it. -/
theorem takeUnits_keeps {P : State → Prop} (hP : FlowFree P) (hduty : ∀ (u : State) (x : Duty), P u → P (u.setDuty x)) {u : State} (h : P u) :
    P (takeUnits ages m u) := by
  rw [takeUnits_eq]
  exact hP.handInjection (hduty _ _ (hduty _ _ h))

variable {held s}

/-- The trains hold what the image gives them, at the values `f` gives of what they held. -/
theorem unitsAndTrains_trainsTaken {f : Held → Held} (hheld : ∀ x : Train, held x = f x.held) :
    TrainsTaken m (fun j => held s.dry.trains[j]) (unitsAndTrains ages held m s) := by
  refine unitsAndTrains_trains (K := fun u => ∀ j : Fin 2, (u.dry.trains[j]).held = (s.dry.trains[j]).held)
    (P := TrainsTaken m (fun j => held s.dry.trains[j])) (fun _ _ h => h)
    (fun u hu => takeUnits_keeps ages m (heldKept _) (fun _ _ h => h) hu) (fun u hu => ?_)
    (fun u hu => takeUnits_keeps ages m (trainsTakenFree m _) (fun _ _ h => h) hu) (fun _ => rfl)
  refine takeTrains_makes held m u (trainsTakenFree m _) ?_
  have htaken := (trainsTested_spec held m u).taken
  have hsame : (fun j : Fin 2 => held u.dry.trains[j]) = fun j => held s.dry.trains[j] :=
    funext fun j => by rw [hheld, hheld, hu j]
  rw [hsame] at htaken
  exact htaken

variable (held s)

theorem unitsAndTrains_gas : (unitsAndTrains ages held m s).dry.gas = 0 :=
  unitsAndTrains_trains (K := fun _ => True) (P := fun u => u.dry.gas = 0) (fun _ _ _ => trivial) (fun _ _ => trivial)
    (fun u _ => takeTrains_makes (P := fun v => v.dry.gas = 0) held m u (gasFree 0) (trainsTested_gas held m u))
    (fun _ hu => takeUnits_keeps (P := fun v => v.dry.gas = 0) ages m (gasFree 0) (fun _ _ h => h) hu) trivial

theorem unitsAndTrains_shares : sharesStand (unitsAndTrains ages held m s) :=
  unitsAndTrains_trains (K := fun _ => True) (P := sharesStand) (fun _ _ _ => trivial) (fun _ _ => trivial)
    (fun _ _ => sharesStand_followDirection _ _) (fun _ hu => sharesStand_handInjection hu) trivial

theorem unitsAndTrains_injCurrent : injCurrent (unitsAndTrains ages held m s) :=
  unitsAndTrains_units (K := fun _ => True) (P := injCurrent) (fun _ _ _ => trivial) (fun _ _ => trivial)
    (fun _ _ => injCurrent_handInjection _)
    (fun u hu => injDry.tested (s := trainsSet held m u) (injTrain fun _ h => h) hu) trivial

theorem unitsAndTrains_wdrCurrent : wdrCurrent (unitsAndTrains ages held m s) :=
  unitsAndTrains_trains (K := fun _ => True) (P := wdrCurrent) (fun _ _ _ => trivial) (fun _ _ => trivial)
    (fun u _ => takeTrains_wdrCurrent held m u) (fun _ hu => wdrCurrent_handInjection hu) trivial

/-- The schedule is only recut. -/
theorem unitsAndTrains_recuts : recutsSince s (unitsAndTrains ages held m s) := by
  refine inAnyOrder_preserves (recutsSince s) _ (fun g hg u hu => ?_) (fun _ n hu => recutsSince_setWorld n hu) s (recutsSince_refl s)
  rcases List.mem_pair.mp hg with rfl | rfl
  · rw [takeUnits_eq]
    exact recutsSince_handInjection (recutsSince_rise (t := u) rfl rfl rfl (Nat.le_refl _) (Nat.le_refl _) hu)
  · rw [takeTrains_eq]
    refine (recutDry s).tested (fun t => ?_) (recutsSince_rise (t := u) rfl rfl rfl (Nat.le_refl _) (Nat.le_refl _) hu)
    exact .whole (recutDew s) (fun v _ _ h => recutsSince_rise (t := v) rfl rfl rfl (Nat.le_refl _) (Nat.le_refl _) h) fun _ h => h

end

end Sys2Proof.Machine
end

section
/-! SUPPORT. An image taken while the direction is HOLD (R99, R102, R141): no direction begins, no train leaves STANDBY, and the schedule
is recut where a declared capacity falls alone. -/

namespace Sys2Proof.Machine

/-! ### The flow in HOLD -/

/-- A predicate that holds in HOLD alone, and that the hand-overs cannot break there; an S of 0 stays. -/
structure HoldFree (P : State → Prop) : Prop where
  hold : ∀ s, P s → s.flow.dir = .hold
  raise : ∀ s k a b, P s → P (raise k a b s)
  setFlow : ∀ s x, x.dir = s.flow.dir → (s.flow.setpoint = 0 → x.setpoint = 0) → P s → P (s.setFlow x)
  reshare : ∀ s, P s → P (reshare s)
  setWorld : ∀ s n, P s → P (s.setWorld n)

theorem endAtZero_hold {s : State} (h : s.flow.dir = .hold) : endAtZero s = s := by
  dsimp only [endAtZero]
  rw [h]

namespace HoldFree

variable {P : State → Prop} (hP : HoldFree P) {s : State}
include hP

theorem stepCut (x : Int) (hset : s.flow.setpoint ≠ 0) (h : P s) : P (stepCut x s) := by
  have hcut : P (Machine.reshare (Machine.raise .stepCut none (some x)
      (s.setFlow { s.flow with setpoint := x, lastCut := some (s.flow.setpoint, x) }))) :=
    hP.reshare _ (hP.raise _ _ _ _ (hP.setFlow s _ rfl (fun hz => absurd hz hset) h))
  dsimp only [Machine.stepCut]
  rw [endAtZero_hold (hP.hold _ hcut)]
  exact hcut

theorem receiveInj (c : Nat) (h : P s) : P (receiveInj c s) := by
  have htaken : P (s.setFlow (limitT { s.flow with cInj := c })) := hP.setFlow s _ rfl id h
  by_cases hcut : c < s.flow.cInj ∧ (c : Int) < s.flow.setpoint
  · rw [receiveInj_cut hcut]
    refine hP.stepCut _ ?_ htaken
    show s.flow.setpoint ≠ 0
    omega
  · rw [receiveInj_rest hcut]
    exact htaken

theorem receiveWdr (c : Nat) (h : P s) : P (receiveWdr c s) := by
  have htaken : P (s.setFlow (limitT { s.flow with cWdr := c })) := hP.setFlow s _ rfl id h
  by_cases hcut : c < s.flow.cWdr ∧ s.flow.setpoint < -(c : Int)
  · rw [receiveWdr_cut hcut]
    refine hP.stepCut _ ?_ htaken
    show s.flow.setpoint ≠ 0
    omega
  · rw [receiveWdr_rest hcut]
    exact htaken

/-- A figure handed on, where the recut that a fall brings keeps the predicate. -/
theorem handed {p q : Prop} [Decidable p] [Decidable q] {receive : State → State} (hrecut : p → ∀ u, P u → P (recut u))
    (hreceive : ∀ u, P u → P (receive u)) (h : P s) :
    P (inAnyOrder ((if p then [recut] else []) ++ (if q then [] else [receive])) s) := by
  refine inAnyOrder_preserves P _ (fun f hf u hu => ?_) hP.setWorld _ h
  rcases List.mem_append.mp hf with hf | hf
  · split at hf
    · next hp =>
      rw [List.mem_singleton.mp hf]
      exact hrecut hp u hu
    · exact absurd hf List.not_mem_nil
  · split at hf
    · exact absurd hf List.not_mem_nil
    · rw [List.mem_singleton.mp hf]
      exact hreceive u hu

theorem handInjection (hrecut : declaredInjection s < s.duty.declared → ∀ u, P u → P (recut u))
    (h : P (s.setDuty { s.duty with declared := declaredInjection s, ready := readyInjection s })) : P (handInjection s) :=
  hP.handed hrecut (fun _ hu => hP.receiveInj _ hu) h

theorem handWithdrawal (hrecut : withdrawalCapacity s < s.dry.capacity → ∀ u, P u → P (recut u))
    (h : P (s.setDry { s.dry with capacity := withdrawalCapacity s })) : P (handWithdrawal s) :=
  hP.reshare _ (hP.handed hrecut (fun _ hu => hP.receiveWdr _ hu) h)

end HoldFree

/-! ### What stands -/

/-- The direction is HOLD, an S of 0 stands, and so do the trains but for their shares; the figures are `d` and `c`, and the
schedule stands but where `q` holds. -/
structure StandsInHold (q : Prop) (d c : Nat) (s u : State) : Prop where
  dir : u.flow.dir = .hold
  setpoint : s.flow.setpoint = 0 → u.flow.setpoint = 0
  trains : ∀ j : Fin 2, (u.dry.trains[j]).unshared = (s.dry.trains[j]).unshared
  figures : u.duty.declared = d ∧ u.dry.capacity = c
  sched : q ∨ u.sched = s.sched

section
variable {q : Prop} {d c : Nat} {s u : State}

theorem standsInHold_free (q : Prop) (d c : Nat) (s : State) : HoldFree (StandsInHold q d c s) where
  hold _ h := h.dir
  raise _ _ _ _ h := ⟨h.dir, h.setpoint, h.trains, h.figures, h.sched⟩
  setFlow _ _ hdir hset h := ⟨hdir.trans h.dir, fun hz => hset (h.setpoint hz), h.trains, h.figures, h.sched⟩
  reshare _ h := ⟨h.dir, h.setpoint, fun j => (unshared_reshare _ j).trans (h.trains j), h.figures, h.sched⟩
  setWorld _ _ h := ⟨h.dir, h.setpoint, h.trains, h.figures, h.sched⟩

theorem StandsInHold.recut (hq : q) (h : StandsInHold q d c s u) : StandsInHold q d c s (recut u) := by
  obtain ⟨hduty, _, hflow⟩ := recut_plant u
  exact ⟨by rw [hflow]; exact h.dir, by rw [hflow]; exact h.setpoint, fun j => by rw [recut_trains]; exact h.trains j,
    by rw [hduty, recut_dry]; exact h.figures, .inl hq⟩

/-- The injection capacities handed on. -/
theorem handInjection_inHold (h : s.flow.dir = .hold) :
    StandsInHold (declaredInjection s < s.duty.declared) (declaredInjection s) s.dry.capacity s (handInjection s) :=
  (standsInHold_free _ _ _ s).handInjection (fun hfall _ hu => hu.recut hfall) ⟨h, id, fun _ => rfl, ⟨rfl, rfl⟩, .inr rfl⟩

/-- The withdrawal capacity handed on. -/
theorem handWithdrawal_inHold (h : s.flow.dir = .hold) :
    StandsInHold (withdrawalCapacity s < s.dry.capacity) s.duty.declared (withdrawalCapacity s) s (handWithdrawal s) :=
  (standsInHold_free _ _ _ s).handWithdrawal (fun hfall _ hu => hu.recut hfall) ⟨h, id, fun _ => rfl, ⟨rfl, rfl⟩, .inr rfl⟩

/-- Trains that are not ONLINE have nothing to follow. -/
theorem followDirection_inHold {hand : Hand} (h : s.flow.dir = .hold) (hx : ∀ j : Fin 2, (s.dry.trains[j]).state ≠ .online) :
    followDirection hand s = reshare s := by
  dsimp only [followDirection]
  rw [h, sendStandby_of_ne (hx 0), sendStandby_of_ne (hx 1)]
  rfl

end

/-! ### The image taken -/

/-- What the taking of an image leaves in HOLD: no direction begins, an S of 0 stands, the schedule stands where its declared
capacity does not fall. -/
structure TakenInHold (s u : State) : Prop where
  dir : u.flow.dir = .hold
  setpoint : s.flow.setpoint = 0 → u.flow.setpoint = 0
  sched : s.duty.declared ≤ u.duty.declared → s.dry.capacity ≤ u.dry.capacity → u.sched = s.sched

/-- The states that an image gives the trains. -/
def statesGiven (m : Image) (u : State) : Prop := ∀ j : Fin 2, (u.dry.trains[j]).state = if (m.trains[j]).service then .standby else .out

section
variable (ages : CUnit → List Nat) (held : Train → Held) (m : Image) {s u v : State}

theorem takeUnits_inHold (h : s.flow.dir = .hold) : TakenInHold s (takeUnits ages m s) ∧ (takeUnits ages m s).dry.capacity = s.dry.capacity
    ∧ ∀ j : Fin 2, ((takeUnits ages m s).dry.trains[j]).unshared = (s.dry.trains[j]).unshared := by
  have hstands := handInjection_inHold
    (s := s.setDuty { s.duty with units := unitsFrom ages m s, roster := m.roster, fuel := 0 }) h
  rw [← takeUnits_eq] at hstands
  refine ⟨⟨hstands.dir, hstands.setpoint, fun hle _ => hstands.sched.resolve_left fun hfall => ?_⟩, hstands.figures.2, hstands.trains⟩
  rw [hstands.figures.1] at hle
  exact absurd hfall (Nat.not_lt.mpr hle)

theorem takeTrains_inHold (h : s.flow.dir = .hold) : TakenInHold s (takeTrains held m s) ∧ statesGiven m (takeTrains held m s) := by
  have htested := trainsTested_spec held m s
  have hdoes := does_trainsTested held m s
  have hcap := trainsTested_capacity held m s
  rw [takeTrains_tested]
  generalize trainsTested held m s = v at *
  have hflow : v.flow = s.flow := hdoes.flow_eq (by decide)
  have hstands := handWithdrawal_inHold (s := v) (by rw [hflow]; exact h)
  have hgiven (j : Fin 2) : ((handWithdrawal v).dry.trains[j]).state = if (m.trains[j]).service then .standby else .out := by
    have hstate : ((handWithdrawal v).dry.trains[j]).state = (v.dry.trains[j]).state := by rw [of_unshared (hstands.trains j)]
    rw [hstate, (htested.kin j).state]
    rfl
  have hoff (j : Fin 2) : ((handWithdrawal v).dry.trains[j]).state ≠ .online := by
    rw [hgiven j]
    split <;> nofun
  rw [followDirection_inHold hstands.dir hoff]
  refine ⟨⟨hstands.dir, fun hz => hstands.setpoint (by rw [hflow]; exact hz), fun _ hle => ?_⟩, fun j => ?_⟩
  · have hle' : v.dry.capacity ≤ withdrawalCapacity v := by
      rw [hcap, ← hstands.figures.2]
      exact hle
    exact (hstands.sched.resolve_left (Nat.not_lt.mpr hle')).trans (hdoes.sched_eq (by decide))
  · rw [reshare_trains]
    exact hgiven j

theorem TakenInHold.ofWorld {n : Nat} (h : TakenInHold (s.setWorld n) u) : TakenInHold s u := ⟨h.dir, h.setpoint, h.sched⟩

theorem TakenInHold.trans (h : TakenInHold s u) (h' : TakenInHold u v) (hd : u.duty.declared = v.duty.declared ∨ s.duty.declared = u.duty.declared)
    (hc : u.dry.capacity = v.dry.capacity ∨ s.dry.capacity = u.dry.capacity) : TakenInHold s v := by
  refine ⟨h'.dir, fun hz => h'.setpoint (h.setpoint hz), fun hle hle' => ?_⟩
  rw [h'.sched (by omega) (by omega), h.sched (by omega) (by omega)]

/-- In either order. -/
theorem unitsAndTrains_inHold (h : s.flow.dir = .hold) :
    TakenInHold s (unitsAndTrains ages held m s) ∧ statesGiven m (unitsAndTrains ages held m s) := by
  obtain ⟨n, he | he⟩ := unitsAndTrains_order ages held m s
  · obtain ⟨hunits, hcap, _⟩ := takeUnits_inHold ages m (s := s.setWorld n) h
    obtain ⟨htrains, hgiven⟩ := takeTrains_inHold held m hunits.dir
    have hduty := (does_takeTrains_flow held m (takeUnits ages m (s.setWorld n))).duty_eq (by decide)
    rw [he]
    exact ⟨(hunits.trans htrains (.inl (by rw [hduty])) (.inr hcap.symm)).ofWorld, hgiven⟩
  · obtain ⟨htrains, hgiven⟩ := takeTrains_inHold held m (s := s.setWorld n) h
    obtain ⟨hunits, hcap, hsame⟩ := takeUnits_inHold ages m htrains.dir
    have hduty := (does_takeTrains_flow held m (s.setWorld n)).duty_eq (by decide)
    rw [he]
    generalize takeTrains held m (s.setWorld n) = v at *
    generalize takeUnits ages m v = w at *
    have hboth : TakenInHold (s.setWorld n) w := htrains.trans hunits (.inr (by rw [hduty])) (.inl hcap.symm)
    refine ⟨hboth.ofWorld, fun j => ?_⟩
    rw [of_unshared (hsame j)]
    exact hgiven j
end

end Sys2Proof.Machine
end

section
/-! SUPPORT. What a restore and an adoption leave of the units, the trains, the flow and the schedule (R177, R180): O59, O60. -/

namespace Sys2Proof.Machine

/-- The units and the trains hold an image: their records, the accumulators, the shares and the capacities formed, the
schedule recut alone, and no direction begun from HOLD. -/
structure ImageHeld (h : Fin 2 → Held) (ages : CUnit → List Nat) (m : Image) (s t : State) : Prop where
  units : UnitsTaken ages m s t
  trains : TrainsTaken m h t
  gas : t.dry.gas = 0
  shares : sharesStand t
  capacities : injCurrent t ∧ wdrCurrent t
  asked : asked t.sched = asked (orderedSchedule m.schedule)
  fits : t.duty.declared < s.duty.declared ∨ t.dry.capacity < s.dry.capacity → laterHoursFit t
  hold : s.flow.dir = .hold → t.flow.dir = .hold ∧ (s.flow.setpoint = 0 → t.flow.setpoint = 0)
    ∧ (s.duty.declared ≤ t.duty.declared → s.dry.capacity ≤ t.dry.capacity → t.sched = orderedSchedule m.schedule) ∧ statesGiven m t

section
variable {h : Fin 2 → Held} {ages : CUnit → List Nat} {held : Train → Held} {m : Image} {s t u : State}

/-- Parts that bear on none of it. -/
theorem ImageHeld.of_parts (ht : ImageHeld h ages m s t) (hduty : u.duty = t.duty) (hdry : u.dry = t.dry) (hflow : u.flow = t.flow)
    (hsched : u.sched = t.sched) (hclock : u.clock = t.clock) (hsite : u.site = t.site) : ImageHeld h ages m s u where
  units := ht.units.of_duty _ _ _ hduty
  trains j := by
    rw [hdry]
    exact ht.trains j
  gas := by
    rw [hdry]
    exact ht.gas
  shares := sharesStand_congr (congrArg Flow.setpoint hflow) (congrArg Flow.dir hflow) (fun i => by rw [hdry]; exact .refl _)
    (fun i => by rw [hdry]) ht.shares
  capacities := ⟨injCurrent_congr hduty hsite (congrArg Flow.cInj hflow) ht.capacities.1, wdrCurrent_plant hdry hsite hflow ht.capacities.2⟩
  asked := by
    rw [hsched]
    exact ht.asked
  fits hfall := by
    rw [hduty, hdry] at hfall
    exact laterHoursFit_mono hclock hsched (by rw [hduty]) (by rw [hdry]) (ht.fits hfall)
  hold hdir := by
    rw [hflow, hsched, hduty, hdry, statesGiven, hdry]
    exact ht.hold hdir

/-- The response gathered makes it. -/
theorem imageHeld_of {F : State → State} (hunits : UnitsTaken ages m s (F s.gatheringEvents)) (htrains : TrainsTaken m h (F s.gatheringEvents))
    (hgas : (F s.gatheringEvents).dry.gas = 0) (hshares : sharesStand (F s.gatheringEvents)) (hinj : injCurrent (F s.gatheringEvents))
    (hwdr : wdrCurrent (F s.gatheringEvents)) (hrecuts : recutsSince s.gatheringEvents (F s.gatheringEvents))
    (hhold : s.flow.dir = .hold → TakenInHold s.gatheringEvents (F s.gatheringEvents) ∧ statesGiven m (F s.gatheringEvents))
    (hsched : s.sched = orderedSchedule m.schedule) : ImageHeld h ages m s (gathered F s) := by
  have hfollows : recutFollows s (gathered F s) := recutFollows_gathered hrecuts ⟨rfl, rfl, rfl⟩ rfl
  exact {
    units := hunits.of_duty _ _ _ rfl
    trains := htrains
    gas := hgas
    shares := hshares
    capacities := ⟨hinj, hwdr⟩
    asked := by rw [asked_of_follows hfollows, hsched]
    fits := fun hfall => hfollows.2.2 (hfall.imp id .inl)
    hold := fun hdir => ⟨(hhold hdir).1.dir, (hhold hdir).1.setpoint,
      fun hd hc => ((hhold hdir).1.sched hd hc).trans hsched, (hhold hdir).2⟩ }

theorem UnitsTaken.gathering {s u : State} (h : UnitsTaken ages m s.gatheringEvents u) : UnitsTaken ages m s u := ⟨h.units, h.roster, h.fuel⟩

theorem TrainsTaken.gathering {s u : State} (h : TrainsTaken m (fun j => held s.gatheringEvents.dry.trains[j]) u) :
    TrainsTaken m (fun j => held s.dry.trains[j]) u := h

theorem imageHeld_gathered {f : Held → Held} (hheld : ∀ x : Train, held x = f x.held) (hsched : s.sched = orderedSchedule m.schedule) :
    ImageHeld (fun j => held s.dry.trains[j]) ages m s (gathered (unitsAndTrains ages held m) s) :=
  imageHeld_of (unitsAndTrains_unitsTaken ages held m s.gatheringEvents).gathering
    (unitsAndTrains_trainsTaken ages m (s := s.gatheringEvents) hheld).gathering
    (unitsAndTrains_gas ages held m s.gatheringEvents) (unitsAndTrains_shares ages held m s.gatheringEvents)
    (unitsAndTrains_injCurrent ages held m s.gatheringEvents) (unitsAndTrains_wdrCurrent ages held m s.gatheringEvents)
    (unitsAndTrains_recuts ages held m s.gatheringEvents) (fun hdir => unitsAndTrains_inHold ages held m (s := s.gatheringEvents) hdir) hsched

/-- Of what the state was before that took the image's other values. -/
theorem ImageHeld.since (ht : ImageHeld h ages m u t) (hduty : u.duty = s.duty) (hdry : u.dry = s.dry) (hflow : u.flow = s.flow) :
    ImageHeld h ages m s t :=
  { ht with
    units := ht.units.congr _ _ _ hduty
    fits := fun hfall => ht.fits (by rw [hduty, hdry]; exact hfall)
    hold := fun hdir => by
      have hh := ht.hold (by rw [hflow]; exact hdir)
      rw [hflow, hduty, hdry] at hh
      exact hh }

end

section
variable (m : Image) (s : State)

/-- What both give the other blocks. -/
theorem takeImage_blocks : (takeImage m s).acct = acctOf m ∧ (takeImage m s).curves = m.curves ∧ (takeImage m s).site = m.site
    ∧ (takeImage m s).book = { s.book with
      entries := m.entries, nextArrival := m.nextArrival, confirmedThrough := m.confirmedThrough }
    ∧ (takeImage m s).settle = { s.settle with history := [], alloc := Vector.replicate 24 none }
    ∧ (takeImage m s).meter = s.meter.takeImage m ∧ (takeImage m s).clock = { s.clock with lastSettled := m.lastSettled } := by
  simp [takeImage]

theorem takeImage_plant : (takeImage m s).duty = s.duty ∧ (takeImage m s).dry = s.dry ∧ (takeImage m s).flow = s.flow
    ∧ (takeImage m s).sched = orderedSchedule m.schedule := by
  simp [takeImage]

theorem restoreBlocks_eq : restoreBlocks m s =
    (gathered (unitsAndTrains (fun _ => []) (fun _ => Held.restart) m) (takeImage m s)).setSup
      (gathered (unitsAndTrains (fun _ => []) (fun _ => Held.restart) m) (takeImage m s)).sup.armed := rfl

/-- The end of an adoption: the timer is set by the mode, and the commit begins. -/
def adoptionEnd (n : BitVec 32) (u : State) : State :=
  beginNumbered n ((u.setSup u.sup.reloaded).setStore { (u.setSup u.sup.reloaded).store with held := n - 1, unrestored := false })

theorem adopt_eq (n : BitVec 32) : adopt n m s =
    adoptionEnd n (gathered (unitsAndTrains (fun u => u.startAges) Train.held m) (noteCount (filteredCount s) (takeImage m s))) := by
  unfold adopt adoptionEnd unitsAndTrains
  rfl

theorem restoreBlocks_held : ImageHeld (fun _ => Held.restart) (fun _ => []) m s (restoreBlocks m s) := by
  obtain ⟨hduty, hdry, hflow, hsched⟩ := takeImage_plant m s
  have hheld := imageHeld_gathered (ages := fun _ => []) (held := fun _ => Held.restart) (f := fun _ => Held.restart) (fun _ => rfl) hsched
  rw [restoreBlocks_eq]
  generalize gathered (unitsAndTrains (fun _ => []) (fun _ => Held.restart) m) (takeImage m s) = u at *
  exact (hheld.since hduty hdry hflow).of_parts rfl rfl rfl rfl rfl rfl

theorem noteCount_plant (n : Nat) (u : State) : (noteCount n u).duty = u.duty ∧ (noteCount n u).dry = u.dry ∧ (noteCount n u).flow = u.flow
    ∧ (noteCount n u).sched = u.sched := ⟨rfl, rfl, rfl, rfl⟩

theorem adopt_held (n : BitVec 32) : ImageHeld (fun j => (s.dry.trains[j]).held) (fun u => u.startAges) m s (adopt n m s) := by
  obtain ⟨hduty, hdry, hflow, hsched⟩ := takeImage_plant m s
  obtain ⟨hduty', hdry', hflow', hsched'⟩ := noteCount_plant (filteredCount s) (takeImage m s)
  have hheld := imageHeld_gathered (ages := fun u => u.startAges) (held := Train.held) (f := id) (s := noteCount (filteredCount s) (takeImage m s))
    (fun _ => rfl) (hsched'.trans hsched)
  have hsame : (fun j : Fin 2 => Train.held (noteCount (filteredCount s) (takeImage m s)).dry.trains[j]) = fun j : Fin 2 => (s.dry.trains[j]).held := by
    rw [hdry', hdry]
  rw [hsame] at hheld
  rw [adopt_eq]
  generalize gathered (unitsAndTrains (fun u => u.startAges) Train.held m) (noteCount (filteredCount s) (takeImage m s)) = u at *
  exact (hheld.since (hduty'.trans hduty) (hdry'.trans hdry) (hflow'.trans hflow)).of_parts rfl rfl rfl rfl rfl rfl

end

/-- Records in order stay in order where none changes its key or its hour. -/
theorem ordered_of_asked {l rs : List SchedRec} (h : asked l = asked (orderedSchedule rs)) : l.Pairwise (fun r q => r.rank ≤ q.rank) := by
  have hranks (qs : List SchedRec) : qs.Pairwise (fun r q => r.rank ≤ q.rank) ↔ (asked qs).Pairwise (fun a b => a.1 ≤ b.1) := by
    rw [asked, List.pairwise_map]
  rw [hranks, h, ← hranks]
  exact (orderedSchedule_spec rs).2

theorem asked_perm {l rs : List SchedRec} (h : asked l = asked (orderedSchedule rs)) : List.Perm (asked l) (asked rs) := by
  rw [h]
  exact (orderedSchedule_spec rs).1.map _

/-! ### The default image (R181) -/

theorem default_unitImage (i : Fin 6) : Image.default.units[i] = CUnit.unconfigured.image := by
  show (mapVec CUnit.image (Vector.replicate 6 CUnit.unconfigured))[i] = _
  rw [Fin.getElem_fin, mapVec_getElem, Vector.getElem_replicate]

theorem default_trainImage (j : Fin 2) : Image.default.trains[j] = Train.unconfigured.image := by
  show (mapVec Train.image (Vector.replicate 2 Train.unconfigured))[j] = _
  rw [Fin.getElem_fin, mapVec_getElem, Vector.getElem_replicate]

theorem default_unit (i : Fin 6) (ages : List Nat) : (Image.default.units[i]).unit ages = { CUnit.unconfigured with startAges := ages } := by
  rw [default_unitImage]
  rfl

theorem default_train (j : Fin 2) (h : Held) : (Image.default.trains[j]).train Image.default h =
    { Train.unconfigured with water := h.water, temp := h.temp, dew := h.dew } := by
  rw [default_trainImage]
  rfl

/-- Trains that are OUT and adsorb with no bed are not tested. -/
theorem bothTested_idle {s : State} (h : ∀ i : Fin 2, (s.dry.trains[i]).state = .out ∧ (s.dry.trains[i]).adsorbing = none) :
    bothTrains (fun t u => bedTest id t (takeUp id t u)) s = s := by
  have hrest (i : Fin 2) : bedTest id i (takeUp id i s) = s := by
    rw [takeUp_out _ _ (h i).1, bedTest_none _ _ (h i).2]
  rw [bothTrains, hrest, hrest]

/-- A record of a train that is OUT and adsorbs with no bed stands as the image gives it, but for its share. -/
theorem takeTrains_idle {held : Train → Held} {m : Image} {s : State} {v : Fin 2 → Train}
    (hv : ∀ j : Fin 2, (m.trains[j]).train m (held s.dry.trains[j]) = v j) (hidle : ∀ j, (v j).state = .out ∧ (v j).adsorbing = none) (j : Fin 2) :
    ((takeTrains held m s).dry.trains[j]).unshared = (v j).unshared := by
  have hset (i : Fin 2) : (trainsSet held m s).dry.trains[i] = v i := (trainsFrom_getElem held m s i).trans (hv i)
  have htested : trainsTested held m s = trainsSet held m s := bothTested_idle (s := trainsSet held m s) fun i => by rw [hset]; exact hidle i
  have hfollows : Follows j (fun u => (u.dry.trains[j]).unshared = (v j).unshared) :=
    (shareFree_unshared (v j)).aside.resting fun _ hu => rests_of_unshared (by rw [Train.inService, (hidle j).1]; rfl) hu
  rw [takeTrains_tested, htested]
  exact hfollows.follow (fun _ hu => hfollows.hand hu) (hfollows.hand (by rw [hset]))

end Sys2Proof.Machine
end

section
/-! SUPPORT. The restore (R177, R181): what the default image leaves, and the store: O59. -/

namespace Sys2Proof.Machine

/-! ### The default image in the units and the trains -/

theorem Follows.handInjection {P : State → Prop} {t : Fin 2} (hP : Follows t P) {s : State}
    (h : P (s.setDuty { s.duty with declared := declaredInjection s, ready := readyInjection s })) : P (handInjection s) :=
  handInjection_preserves P s hP.recut (fun _ _ hu => hP.flow.receiveInj _ (hP.setFlow _ _ hu)) hP.setWorld h

/-- Trains that the image gives OUT, with no bed ADSORBING, stand as given but for their shares. -/
theorem unitsAndTrains_idle {ages : CUnit → List Nat} {held : Train → Held} {m : Image} {s : State} {f : Held → Held} {v : Fin 2 → Train}
    (hheld : ∀ x : Train, held x = f x.held) (hv : ∀ j : Fin 2, (m.trains[j]).train m (held s.dry.trains[j]) = v j)
    (hidle : ∀ j, (v j).state = .out ∧ (v j).adsorbing = none) (j : Fin 2) :
    ((unitsAndTrains ages held m s).dry.trains[j]).unshared = (v j).unshared := by
  have hfollows : Follows j (fun u => (u.dry.trains[j]).unshared = (v j).unshared) :=
    (shareFree_unshared (v j)).aside.resting fun _ hu => rests_of_unshared (by rw [Train.inService, (hidle j).1]; rfl) hu
  refine unitsAndTrains_trains (K := fun u => ∀ i : Fin 2, (u.dry.trains[i]).held = (s.dry.trains[i]).held)
    (P := fun u => (u.dry.trains[j]).unshared = (v j).unshared) (fun _ _ h => h)
    (fun u hu => takeUnits_keeps ages m (heldKept _) (fun _ _ h => h) hu)
    (fun u hu => takeTrains_idle (fun i => by rw [hheld, hu i, ← hheld]; exact hv i) hidle j) (fun u hu => ?_) (fun _ => rfl)
  rw [takeUnits_eq]
  exact hfollows.handInjection hu

/-- A train of the default image, at the values held. -/
def Train.default (h : Held) : Train := { Train.unconfigured with water := h.water, temp := h.temp, dew := h.dew }

theorem default_given (j : Fin 2) (h : Held) : (Image.default.trains[j]).train Image.default h = Train.default h := by
  rw [default_train]
  rfl

theorem default_idle (h : Held) : (Train.default h).state = .out ∧ (Train.default h).adsorbing = none := ⟨rfl, rfl⟩

section
variable (s : State)

theorem gathered_trains (F : State → State) (s : State) : (gathered F s).dry.trains = (F s.gatheringEvents).dry.trains := rfl

theorem gathered_default (ages : CUnit → List Nat) {held : Train → Held} {f : Held → Held} (hheld : ∀ x : Train, held x = f x.held) (j : Fin 2) :
    ((gathered (unitsAndTrains ages held Image.default) s).dry.trains[j]).unshared = (Train.default (held s.dry.trains[j])).unshared := by
  have hdry : s.gatheringEvents.dry = s.dry := rfl
  have hidle := unitsAndTrains_idle (ages := ages) (s := s.gatheringEvents) (v := fun i => Train.default (held s.gatheringEvents.dry.trains[i])) hheld
    (fun i => default_given i _) (fun i => default_idle _) j
  rw [gathered_trains, hidle, hdry]

theorem setSup_trains (x : Supervision) (u : State) : (u.setSup x).dry.trains = u.dry.trains := rfl

theorem adoptionEnd_trains (n : BitVec 32) (u : State) : (adoptionEnd n u).dry.trains = u.dry.trains := rfl

theorem restoreBlocks_default (j : Fin 2) :
    ((restoreBlocks Image.default s).dry.trains[j]).unshared = (Train.default Held.restart).unshared := by
  rw [restoreBlocks_eq, setSup_trains]
  exact gathered_default (takeImage Image.default s) (fun _ => []) (held := fun _ => Held.restart) (f := fun _ => Held.restart) (fun _ => rfl) j

theorem adopt_default (n : BitVec 32) (j : Fin 2) :
    ((adopt n Image.default s).dry.trains[j]).unshared = (Train.default (s.dry.trains[j]).held).unshared := by
  have hdry : (noteCount (filteredCount s) (takeImage Image.default s)).dry = s.dry :=
    (noteCount_plant _ _).2.1.trans (takeImage_plant Image.default s).2.1
  have hgiven := gathered_default (noteCount (filteredCount s) (takeImage Image.default s)) (fun u => u.startAges) (held := Train.held) (f := id)
    (fun _ => rfl) j
  rw [hdry] at hgiven
  rw [adopt_eq, adoptionEnd_trains]
  exact hgiven

end

/-! ### The other blocks -/

/-- The blocks that take an image's values as they stand, but for the book's statistics and the supervision timer. -/
structure BlocksHeld (m : Image) (s t : State) : Prop where
  acct : t.acct = acctOf m
  curves : t.curves = m.curves
  site : t.site = m.site
  entries : t.book.entries = m.entries
  nextArrival : t.book.nextArrival = m.nextArrival
  confirmedThrough : t.book.confirmedThrough = m.confirmedThrough
  settle : t.settle = { s.settle with history := [], alloc := Vector.replicate 24 none }
  meter : t.meter = s.meter.takeImage m
  clock : t.clock = { s.clock with lastSettled := m.lastSettled }

theorem blocksHeld_restore (m : Image) (s : State) : BlocksHeld m s (restoreBlocks m s) ∧ (restoreBlocks m s).book.stats = s.book.stats := by
  obtain ⟨hacct, hcurves, hsite, hbook, hsettle, hmeter, hclock⟩ := takeImage_blocks m s
  have hd := does_restoreBlocks_after m s
  have hb := (hd.book_eq (by decide)).trans hbook
  exact ⟨⟨(hd.acct_eq (by decide)).trans hacct, (hd.curves_eq (by decide)).trans hcurves, (hd.site_eq (by decide)).trans hsite,
    by rw [hb], by rw [hb], by rw [hb], (hd.settle_eq (by decide)).trans hsettle, (hd.meter_eq (by decide)).trans hmeter,
    (hd.clock_eq (by decide)).trans hclock⟩, by rw [hb]⟩

theorem noteCount_book (n : Nat) (u : State) : (noteCount n u).book.entries = u.book.entries ∧ (noteCount n u).book.nextArrival = u.book.nextArrival
    ∧ (noteCount n u).book.confirmedThrough = u.book.confirmedThrough := ⟨rfl, rfl, rfl⟩

theorem adoptionEnd_book (n : BitVec 32) (u : State) : (adoptionEnd n u).book = u.book := rfl

theorem blocksHeld_adopt (n : BitVec 32) (m : Image) (s : State) : BlocksHeld m s (adopt n m s) := by
  obtain ⟨hacct, hcurves, hsite, hbook, hsettle, hmeter, hclock⟩ := takeImage_blocks m s
  have hd := does_adopt_after n m s
  have hb : (adopt n m s).book = (noteCount (filteredCount s) (takeImage m s)).book := by
    rw [adopt_eq, adoptionEnd_book]
    exact (does_takeUnitsAndTrains _ (fun u => u.startAges) Train.held m).book_eq (by decide)
  obtain ⟨hentries, hnext, hthrough⟩ := noteCount_book (filteredCount s) (takeImage m s)
  exact ⟨(hd.acct_eq (by decide)).trans hacct, (hd.curves_eq (by decide)).trans hcurves, (hd.site_eq (by decide)).trans hsite,
    by rw [hb, hentries, hbook], by rw [hb, hnext, hbook], by rw [hb, hthrough, hbook], (hd.settle_eq (by decide)).trans hsettle,
    (hd.meter_eq (by decide)).trans hmeter, (hd.clock_eq (by decide)).trans hclock⟩

/-! ### The default image held -/

/-- What the default image holds outside the units and the trains. -/
theorem default_blocks : (∀ i : Fin 24, (acctOf Image.default).slots[i] = none) ∧ (acctOf Image.default).alert = .armed
    ∧ (∀ i : Fin 16, Image.default.curves[i] = []) ∧ Image.default.site = Site.default ∧ Image.default.schedule = []
    ∧ Image.default.base = ⟨0, 0, false⟩ ∧ Image.default.roster.toList = [0, 1, 2, 3, 4, 5] := by
  refine ⟨fun i => ?_, rfl, fun i => ?_, rfl, rfl, rfl, rfl⟩
  · show (Vector.replicate 24 none)[i] = _
    rw [Fin.getElem_fin, Vector.getElem_replicate]
  · show (Vector.replicate 16 [])[i] = _
    rw [Fin.getElem_fin, Vector.getElem_replicate]

theorem asked_nil {l : List SchedRec} (h : asked l = asked (orderedSchedule [])) : l = [] :=
  List.map_eq_nil_iff.mp h

theorem default_holds {h : Fin 2 → Held} {ages : CUnit → List Nat} {s t : State} (ht : ImageHeld h ages Image.default s t)
    (hb : BlocksHeld Image.default s t) (htrains : ∀ j : Fin 2, (t.dry.trains[j]).unshared = (Train.default (h j)).unshared)
    (hsup : t.sup.mode = 0 ∧ t.sup.timeout = 60 ∧ t.sup.timer = none) : holdsDefaultImage t := by
  obtain ⟨hslots, halert, hcurves, hsite, hsched, hbase, hroster⟩ := default_blocks
  have hasked := ht.asked
  rw [hsched] at hasked
  have hunits (i : Fin 6) : t.duty.units[i] = { CUnit.unconfigured with startAges := (t.duty.units[i]).startAges } := by
    rw [ht.units.units i, default_unit]
  have hrecord (j : Fin 2) : t.dry.trains[j] = Train.default (h j) := by
    have hgiven := of_unshared (htrains j)
    have hshare : (t.dry.trains[j]).share = 0 := share_out ht.shares (by rw [hgiven]; rfl)
    rw [hgiven, hshare]
    rfl
  have hkept (j : Fin 2) : t.dry.trains[j] = { Train.unconfigured with
      water := (t.dry.trains[j]).water, temp := (t.dry.trains[j]).temp, dew := (t.dry.trains[j]).dew } := by
    rw [hrecord j]
    rfl
  refine ⟨⟨by rw [hb.acct]; exact hslots, by rw [hb.acct]; rfl, by rw [hb.acct]; exact halert, by rw [hb.acct]; rfl, by rw [hb.acct]; rfl,
    by rw [hb.acct]; rfl, by rw [hb.acct]; rfl, by rw [hb.acct]; rfl⟩, by rw [hb.curves]; exact hcurves, hb.site.trans hsite,
    hb.entries, hb.nextArrival, hb.confirmedThrough, asked_nil hasked, by rw [hb.settle], fun i => ?_, ?_, by rw [hb.clock]; rfl, hsup,
    hunits, by rw [ht.units.roster]; exact hroster, ht.units.fuel, hkept, ht.gas⟩
  · rw [hb.settle]
    show (Vector.replicate 24 none)[i] = _
    rw [Fin.getElem_fin, Vector.getElem_replicate]
  · rw [hb.meter]
    exact ⟨hbase, hbase, rfl, rfl⟩

end Sys2Proof.Machine
end

section
/-! SUPPORT. The end of a restore and of a commit (R176, R177): O59. -/

namespace Sys2Proof.Machine

section
variable {s : State} {n : BitVec 32} {m : Image}

/-! ### The supervision timer armed (R170) -/

theorem armed_fields (x : Supervision) : x.armed.mode = x.mode ∧ x.armed.timeout = x.timeout ∧ (x.mode = 0 → x.armed.timer = none)
    ∧ (x.mode = 2 → x.armed.timer = some x.timeout)
    ∧ (x.mode = 1 → x.armed.timer = if x.firstFrame = true then some x.timeout else none)
    ∧ (x.mode = 3 → x.armed.timer = if x.firstFrame = true then some x.timeout else some 600)
    ∧ ∀ k : Nat, x.armed.timer = some k → x.armed.loaded = k := by
  refine ⟨rfl, rfl, fun hm => ?_, fun hm => ?_, fun hm => ?_, fun hm => ?_, fun k hk => ?_⟩
  · unfold Supervision.armed
    rw [hm]
    rfl
  · unfold Supervision.armed
    rw [hm]
    rfl
  · unfold Supervision.armed
    rw [hm]
    rfl
  · unfold Supervision.armed
    rw [hm]
    rfl
  · unfold Supervision.armed at hk ⊢
    dsimp only at hk ⊢
    rw [hk]
    rfl

/-! ### What a read does -/

theorem exec_restoreRead (readOk : Bool) (s : State) : exec (.restoreReadDone readOk) s = .next (restoreRead readOk s) := rfl

theorem restoreRead_passes {first : Bool} (hphase : s.store.phase = .restoring first)
    (hcopy : (s.store.copies[s.store.mark]).written = some (n, m)) :
    restoreRead true s = (restoreBlocks m s).setStore { s.store with
      copies := setVec s.store.copies s.store.mark (.whole n m), phase := .idle, held := n } := by
  have hstore := restoreBlocks_store s m
  dsimp only [restoreRead]
  rw [hphase, hcopy]
  dsimp only
  rw [hstore]

/-- The read fails: no commit found the copy whole, or it came back damaged. -/
theorem restoreRead_fails {readOk first : Bool} (hphase : s.store.phase = .restoring first)
    (hfail : s.store.copies[s.store.mark] = .notWhole ∨ readOk = false) : restoreRead readOk s =
      if first then raise .storeUnrestored none none ((failMarked (restoreBlocks Image.default s)).setStore
        { (failMarked (restoreBlocks Image.default s)).store with phase := .idle, held := 0, unrestored := true })
      else s.setStore { s.store with phase := .restoring true } := by
  dsimp only [restoreRead]
  rw [hphase]
  dsimp only
  split
  · next hw =>
    rcases hfail with hnot | hread
    · rw [hnot] at hw
      exact absurd hw nofun
    · exact absurd hread nofun
  · rfl

theorem restoreRead_idle (readOk : Bool) (h : restoring s = false) : restoreRead readOk s = s := by
  dsimp only [restoreRead]
  split
  · next hphase =>
    rw [restoring, hphase] at h
    exact absurd h nofun
  · rfl

/-! ### The part as the restore leaves it -/

theorem share_inHold {x y : Train} {f : Flow} {b : Bool} (hx : x.state = .standby ∨ x.state = .out) : shareOf f b x y = 0 := by
  unfold shareOf
  rcases hx with hx | hx <;> rw [hx]

/-- What a restore leaves of a train record. -/
theorem restored_train {t : State} (ht : ImageHeld (fun _ => Held.restart) (fun _ => []) m s t) (j : Fin 2) :
    (t.dry.trains[j]).configured = (m.trains[j]).configured ∧ (t.dry.trains[j]).water = 0 ∧ (t.dry.trains[j]).temp = 0
    ∧ (t.dry.trains[j]).dew = -600 ∧ bedsTaken m j 0 t.dry.trains[j] := by
  have hj := ht.trains j
  exact ⟨hj.configured, congrArg Held.water hj.held, congrArg Held.temp hj.held, congrArg Held.dew hj.held, hj.beds⟩

theorem restored_hold {t : State} (ht : ImageHeld (fun _ => Held.restart) (fun _ => []) m s t) (hflow : s.flow = State.reset.flow)
    (hdeclared : s.duty.declared = 0) (hcap : s.dry.capacity = 0) : List.Perm t.sched m.schedule ∧ t.flow.dir = .hold ∧ t.flow.setpoint = 0
    ∧ ∀ j : Fin 2, (t.dry.trains[j]).state = (if (m.trains[j]).service = true then .standby else .out) ∧ (t.dry.trains[j]).share = 0 := by
  obtain ⟨hdir, hset, hsched, hstates⟩ := ht.hold (by rw [hflow]; rfl)
  refine ⟨?_, hdir, hset (by rw [hflow]; rfl), fun j => ⟨hstates j, ?_⟩⟩
  · rw [hsched (by rw [hdeclared]; exact Nat.zero_le _) (by rw [hcap]; exact Nat.zero_le _)]
    exact (orderedSchedule_spec m.schedule).1
  · have hidle (i : Fin 2) : (t.dry.trains[i]).state = .standby ∨ (t.dry.trains[i]).state = .out := by
      rw [hstates i]
      split
      · exact .inl rfl
      · exact .inr rfl
    have hshares := ht.shares
    rw [sharesStand, flowShares_eq, sharesOf_eq, share_inHold (hidle 0), share_inHold (hidle 1)] at hshares
    fin_cases j
    · exact hshares.1
    · exact hshares.2

end

theorem BlocksHeld.ofStore {m : Image} {s u : State} (x : Store) (h : BlocksHeld m s u) : BlocksHeld m s (u.setStore x) :=
  ⟨h.acct, h.curves, h.site, h.entries, h.nextArrival, h.confirmedThrough, h.settle, h.meter, h.clock⟩

theorem ImageHeld.ofStore {h : Fin 2 → Held} {ages : CUnit → List Nat} {m : Image} {s u : State} (x : Store) (ht : ImageHeld h ages m s u) :
    ImageHeld h ages m s (u.setStore x) := ht.of_parts rfl rfl rfl rfl rfl rfl

/-- A read that finds the copy whole. -/
theorem restore_passes (s : State) (first : Bool) (n : BitVec 32) (m : Image) (hphase : s.store.phase = .restoring first)
    (hcopy : (s.store.copies[s.store.mark]).written = some (n, m)) : ∃ t : State, exec (.restoreReadDone true) s = .next t
      ∧ t.store = { s.store with copies := setVec s.store.copies s.store.mark (.whole n m), phase := .idle, held := n }
      ∧ ImageHeld (fun _ => Held.restart) (fun _ => []) m s t ∧ BlocksHeld m s t ∧ t.book.stats = s.book.stats
      ∧ t.sup = { s.sup with mode := m.supMode, timeout := m.supTimeout }.armed ∧ t.link = s.link ∧ t.pending = s.pending := by
  have hheld := restoreBlocks_held m s
  obtain ⟨hblocks, hstats⟩ := blocksHeld_restore m s
  have hsup := restoreBlocks_sup s m
  have hlink := (does_restoreBlocks s m).link_eq (by decide)
  have hpending := (does_restoreBlocks s m).pending_eq (by decide)
  refine ⟨_, by rw [exec_restoreRead, restoreRead_passes hphase hcopy], ?_⟩
  generalize restoreBlocks m s = u at *
  exact ⟨rfl, hheld.ofStore _, hblocks.ofStore _, hstats, hsup, hlink, hpending⟩

end Sys2Proof.Machine
end

section
/-! SUPPORT. The restore that fails, and O59. -/

namespace Sys2Proof.Machine

/-- The parts that a failed restore writes after the blocks. -/
def failParts : List Part := [.store, .world, .evq]

section
variable {s u t : State}

theorem does_failMarked_end (u : State) : Does failParts u (failMarked u) := (does_failMarked u).mono (by decide)

theorem BlocksHeld.after {m : Image} (h : BlocksHeld m s u) (hd : Does failParts u t) : BlocksHeld m s t where
  acct := (hd.acct_eq (by decide)).trans h.acct
  curves := (hd.curves_eq (by decide)).trans h.curves
  site := (hd.site_eq (by decide)).trans h.site
  entries := by rw [hd.book_eq (by decide), h.entries]
  nextArrival := by rw [hd.book_eq (by decide), h.nextArrival]
  confirmedThrough := by rw [hd.book_eq (by decide), h.confirmedThrough]
  settle := (hd.settle_eq (by decide)).trans h.settle
  meter := (hd.meter_eq (by decide)).trans h.meter
  clock := (hd.clock_eq (by decide)).trans h.clock

theorem ImageHeld.after {h : Fin 2 → Held} {ages : CUnit → List Nat} {m : Image} (hu : ImageHeld h ages m s u) (hd : Does failParts u t) :
    ImageHeld h ages m s t :=
  hu.of_parts (hd.duty_eq (by decide)) (hd.dry_eq (by decide)) (hd.flow_eq (by decide)) (hd.sched_eq (by decide)) (hd.clock_eq (by decide))
    (hd.site_eq (by decide))

theorem gasTime_settled {n : Nat} (h : t.clock = { s.clock with lastSettled := n }) : gasTime t = gasTime s := by
  rw [gasTime, gasTime, h]

/-- The part as a restore that has failed twice ends. -/
def unrestoredEnd (u : State) : State :=
  raise .storeUnrestored none none ((failMarked u).setStore { (failMarked u).store with phase := .idle, held := 0, unrestored := true })

theorem does_unrestoredEnd (u : State) : Does failParts u (unrestoredEnd u) :=
  ((does_failMarked_end u).trans (acts_setStore _ _ (by decide)).does).trans (acts_raise _ _ _ _ (by decide)).does

theorem failMarked_store {x : Store} (hx : u.store = x) : (failMarked u).store.mark = x.mark
    ∧ (∀ (n : BitVec 32) (m : Image), x.copies[x.mark] = .whole n m →
      ∃ d : Nat, (failMarked u).store.copies = setVec x.copies x.mark (.failed n m d))
    ∧ ((∀ (n : BitVec 32) (m : Image), x.copies[x.mark] ≠ .whole n m) → (failMarked u).store.copies = x.copies) := by
  subst hx
  obtain ⟨n, m, hcopy, he⟩ | ⟨hnone, he⟩ := failMarked_cases u
  · rw [he]
    refine ⟨rfl, fun n' m' hcopy' => ⟨u.world, ?_⟩, fun hnot => absurd hcopy (hnot n m)⟩
    obtain ⟨rfl, rfl⟩ := Copy.whole.inj (hcopy.symm.trans hcopy')
    rfl
  · rw [he]
    exact ⟨rfl, fun n m hcopy => absurd hcopy (hnone n m), fun _ => rfl⟩

theorem unrestoredEnd_evq (u : State) : (unrestoredEnd u).evq = u.evq.pushAll [⟨gasTime u, .storeUnrestored, none, none⟩] := by
  have hd : Does failParts u ((failMarked u).setStore { (failMarked u).store with phase := .idle, held := 0, unrestored := true }) :=
    (does_failMarked_end u).trans (acts_setStore _ _ (by decide)).does
  have hevq : (failMarked u).evq = u.evq := by
    obtain ⟨n, m, _, he⟩ | ⟨_, he⟩ := failMarked_cases u
    · rw [he]
      rfl
    · rw [he]
  rw [unrestoredEnd, raise_eq, State.setEvq_evq, State.setStore_evq, hevq, hd.gasTime (by decide)]

end

/-- A second read that fails. -/
theorem restore_unrestored (s : State) (readOk : Bool) (hphase : s.store.phase = .restoring true)
    (hfail : s.store.copies[s.store.mark] = .notWhole ∨ readOk = false) : ∃ (t : State) (l : List Raised),
      exec (.restoreReadDone readOk) s = .next t
      ∧ (isUnrestored t = true ∧ t.store.phase = .idle ∧ t.store.held = 0 ∧ t.store.mark = s.store.mark)
      ∧ (∀ (n : BitVec 32) (m : Image), s.store.copies[s.store.mark] = .whole n m →
          ∃ d : Nat, t.store.copies = setVec s.store.copies s.store.mark (.failed n m d))
      ∧ ((∀ (n : BitVec 32) (m : Image), s.store.copies[s.store.mark] ≠ .whole n m) → t.store.copies = s.store.copies)
      ∧ ImageHeld (fun _ => Held.restart) (fun _ => []) Image.default s t ∧ BlocksHeld Image.default s t ∧ holdsDefaultImage t
      ∧ t.book.stats = s.book.stats ∧ t.link = s.link ∧ t.pending = s.pending
      ∧ t.evq = s.evq.pushAll (l ++ [⟨gasTime s, .storeUnrestored, none, none⟩]) := by
  have hheld := restoreBlocks_held Image.default s
  obtain ⟨hblocks, hstats⟩ := blocksHeld_restore Image.default s
  have hsup := restoreBlocks_sup s Image.default
  have hlink := (does_restoreBlocks s Image.default).link_eq (by decide)
  have hpending := (does_restoreBlocks s Image.default).pending_eq (by decide)
  have hstore := restoreBlocks_store s Image.default
  have htrains := restoreBlocks_default s
  obtain ⟨l, hl⟩ := (does_restoreBlocks s Image.default).appends
  refine ⟨unrestoredEnd (restoreBlocks Image.default s), l, by rw [exec_restoreRead, restoreRead_fails hphase hfail]; rfl, ?_⟩
  generalize restoreBlocks Image.default s = u at *
  have hd := does_unrestoredEnd u
  obtain ⟨hmark, hwhole, hother⟩ := failMarked_store hstore
  have hend := hheld.after hd
  refine ⟨⟨rfl, rfl, rfl, hmark⟩, hwhole, hother, hend, hblocks.after hd, ?_, by rw [hd.book_eq (by decide)]; exact hstats,
    (hd.link_eq (by decide)).trans hlink, (hd.pending_eq (by decide)).trans hpending, ?_⟩
  · refine default_holds hend (hblocks.after hd) (fun j => ?_) ?_
    · rw [hd.dry_eq (by decide)]
      exact htrains j
    · rw [hd.sup_eq (by decide), hsup]
      exact ⟨rfl, rfl, rfl⟩
  · rw [unrestoredEnd_evq, hl, ← pushAll_append, gasTime_settled hblocks.clock]

/-- Settles O59: both blocks that form capacities take the image in either order, which the flow follows; what fails leaves the
default image. -/
theorem restoreAndCommitEnd : Obligations.RestoreAndCommitEnd := by
  refine ⟨fun s first n m hphase hcopy => ?_, fun s readOk hfail => ⟨fun hphase => ?_, fun hphase => ?_⟩,
    fun s readOk h => by rw [exec_restoreRead, restoreRead_idle readOk h], fun s => ⟨fun n m hphase => ⟨?_, ?_⟩, fun whole h => ?_⟩⟩
  · have hwritten : (s.store.copies[s.store.mark]).written = some (n, m) := by
      rcases hcopy with hc | ⟨d, hc⟩ <;> rw [hc] <;> rfl
    obtain ⟨t, hexec, hstore, hheld, hb, hstats, hsup, hlink, hpending⟩ := restore_passes s first n m hphase hwritten
    obtain ⟨hmode, htimeout, hnone, htwo, hone, hthree, hloaded⟩ := armed_fields { s.sup with mode := m.supMode, timeout := m.supTimeout }
    rw [← hsup] at hmode htimeout hnone htwo hone hthree hloaded
    exact ⟨t, hexec, hstore, hb.acct, hb.curves, hb.site, hb.entries, hb.nextArrival, hb.confirmedThrough, hb.clock,
      by rw [hb.meter]; rfl, by rw [hb.meter]; rfl, hheld.units.roster, fun i => by rw [hheld.units.units i]; exact ⟨rfl, rfl⟩,
      fun j => ⟨(hheld.trains j).cfg, (hheld.trains j).service⟩, hmode, htimeout, hnone, htwo, hone, hthree, hloaded,
      ordered_of_asked hheld.asked, hstats, hb.settle, hheld.units.fuel, hheld.gas, fun i => hheld.units.units i, restored_train hheld,
      (capacitiesCurrent_iff t).mpr hheld.capacities, hlink, hpending, restored_hold hheld⟩
  · rw [exec_restoreRead, restoreRead_fails hphase hfail]
    rfl
  · obtain ⟨t, l, hexec, ⟨hun, hidle, hzero, hmark⟩, hwhole, hother, hheld, hb, hdefault, hstats, hlink, hpending, hevq⟩ :=
      restore_unrestored s readOk hphase hfail
    refine ⟨t, l, hexec, hun, hidle, hzero, hmark, hwhole, hother, hdefault, fun i => by rw [hheld.units.units i]; rfl, fun j => ?_,
      hstats, by rw [hb.settle], (capacitiesCurrent_iff t).mpr hheld.capacities, hlink, hpending, hevq⟩
    obtain ⟨_, hwater, htemp, hdew, _⟩ := restored_train hheld j
    exact ⟨hwater, htemp, hdew⟩
  · show Host.Outcome.next (endCommit true s) = _
    rw [endCommit, hphase]
    rfl
  · show Host.Outcome.next (endCommit false s) = _
    rw [endCommit, hphase]
    rfl
  · show Host.Outcome.next (endCommit whole s) = _
    unfold endCommit
    split
    · next hphase =>
      rw [committing, hphase] at h
      exact absurd h nofun
    · rfl

end Sys2Proof.Machine
end

section
/-! SUPPORT. The consistency of an image (R180), as it lists it: O60. -/

namespace Sys2Proof.Machine

section
variable {m : Image}

/-! ### Accounts -/

theorem inventorySum_records (m : Image) : inventorySum m.slots = (m.records.map (fun a => a.inventory)).sum := by
  rw [inventorySum_eq, Image.records]
  induction m.slots.toList with
  | nil => rfl
  | cons o l ih =>
    cases o with
    | none => simpa [heldBy] using ih
    | some a => simpa [heldBy] using ih

theorem shippers_nodup (l : List Account) :
    pairs (fun a c => decide (a.shipper ≠ c.shipper)) l = true ↔ (l.map (fun a => a.shipper)).Nodup := by
  rw [pairs_iff, List.Nodup, List.pairwise_map]
  simp only [decide_eq_true_eq]

/-! ### Curves -/

theorem writes_iff (o : Option (Fin 16)) : m.conf.writes o ↔ ∀ c : Fin 16, o = some c → m.curves[c] ≠ [] := Iff.rfl

theorem all_vec {α : Type} {n : Nat} (v : Vector α n) (p : α → Bool) : v.toList.all p = true ↔ ∀ i : Fin n, p v[i] = true := by
  rw [Vector.all_toList, Vector.all_eq_true, Fin.forall_iff]
  rfl

theorem curvesNamed_iff : m.curvesNamed = true ↔ ∀ c : Fin 16, ((∃ a ∈ m.records, a.injCurve = some c ∨ a.wdrCurve = some c)
    ∨ (∃ i : Fin 6, (m.units[i]).configured = true ∧ (m.units[i]).cfg.curve = some c)
    ∨ ∃ j : Fin 2, (m.trains[j]).configured = true ∧ (m.trains[j]).cfg.curve = some c) → m.curves[c] ≠ [] := by
  rw [Image.curvesNamed, Bool.and_eq_true, Bool.and_eq_true, all_vec, all_vec]
  simp only [List.all_eq_true, Bool.and_eq_true, Bool.or_eq_true, Bool.not_eq_true', written_iff, writes_iff]
  constructor
  · rintro ⟨⟨hrecords, hunits⟩, htrains⟩ c (⟨a, ha, hc | hc⟩ | ⟨i, hconf, hc⟩ | ⟨j, hconf, hc⟩)
    · exact (hrecords a ha).1 c hc
    · exact (hrecords a ha).2 c hc
    · exact (hunits i).resolve_left (by rw [hconf]; nofun) c hc
    · exact (htrains j).resolve_left (by rw [hconf]; nofun) c hc
  · intro h
    refine ⟨⟨fun a ha => ⟨fun c hc => h c (.inl ⟨a, ha, .inl hc⟩), fun c hc => h c (.inl ⟨a, ha, .inr hc⟩)⟩, fun i => ?_⟩, fun j => ?_⟩
    · cases hconf : (m.units[i]).configured
      · exact .inl rfl
      · exact .inr fun c hc => h c (.inr (.inl ⟨i, hconf, hc⟩))
    · cases hconf : (m.trains[j]).configured
      · exact .inl rfl
      · exact .inr fun c hc => h c (.inr (.inr ⟨j, hconf, hc⟩))

theorem roster_iff : (List.finRange 6).all (fun i => m.roster.toList.contains i) = true ↔ ∀ i : Fin 6, i ∈ m.roster.toList := by
  simp only [List.all_eq_true, List.contains_iff_mem, List.mem_finRange, true_implies]

/-! ### Book and schedule -/

/-- An entry holds an hour. -/
def Entry.runs (e : Entry) : Prop := e.next ≤ e.last

theorem apart_iff_hours {e f : Entry} (he : e.runs) (hf : f.runs) : e.apart f = true ↔
    (e.slot = f.slot → e.dir = f.dir → e.cls = f.cls → ∀ h : Nat, ¬(e.holds h = true ∧ f.holds h = true)) := by
  rw [Entry.clear_iff, Entry.clear, hasKey_iff]
  simp only [holds_iff]
  constructor
  · intro h hslot hdir hcls k hk
    have := h ⟨hslot.symm, hdir.symm, hcls.symm⟩
    omega
  · rintro h ⟨hslot, hdir, hcls⟩
    have hcommon := h hslot.symm hdir.symm hcls.symm (max e.next f.next)
    unfold Entry.runs at he hf
    omega

theorem entriesApart_iff {es : List Entry} (h : ∀ e ∈ es, e.runs) : pairs Entry.apart es = true ↔
    es.Pairwise (fun e f => e.slot = f.slot → e.dir = f.dir → e.cls = f.cls → ∀ h : Nat, ¬(e.holds h = true ∧ f.holds h = true)) := by
  rw [pairs_iff]
  exact List.Pairwise.iff_of_mem fun he hf => apart_iff_hours (h _ he) (h _ hf)

theorem keysApart_iff (rs : List SchedRec) : pairs SchedRec.apart rs = true ↔ (rs.map (fun r => (r.hour, r.slot, r.dir, r.cls))).Nodup := by
  rw [pairs_iff, List.Nodup, List.pairwise_map]
  simp only [SchedRec.apart, Bool.not_eq_true', Bool.and_eq_false_iff, decide_eq_false_iff_not, ne_eq, Prod.mk.injEq, not_and_or, or_assoc]

theorem confirmedApart_iff (e : Entry) (r : SchedRec) : (!(e.hasKey r.slot r.dir r.cls && e.holds r.hour)) = true ↔
    (e.slot = r.slot → e.dir = r.dir → e.cls = r.cls → e.holds r.hour = false) := by
  rw [Bool.not_eq_true', Bool.and_eq_false_iff]
  constructor
  · rintro (h | h) hslot hdir hcls
    · rw [hasKey_iff.mpr ⟨hslot, hdir, hcls⟩] at h
      exact absurd h nofun
    · exact h
  · intro h
    by_cases hkey : e.hasKey r.slot r.dir r.cls = true
    · obtain ⟨hslot, hdir, hcls⟩ := hasKey_iff.mp hkey
      exact .inr (h hslot hdir hcls)
    · exact .inl (Bool.eq_false_of_not_eq_true hkey)

theorem hoursAfter_iff {e : Entry} (he : e.runs) (k : Nat) : k < e.next ↔ ∀ h : Nat, e.holds h = true → k < h := by
  simp only [holds_iff]
  exact ⟨fun h n hn => by omega, fun h => h e.next ⟨Nat.le_refl _, he⟩⟩

theorem inRange_runs (h : m.inRange = true) : ∀ e ∈ m.entries, e.runs := by
  intro e he
  simp only [Image.inRange, Bool.and_eq_true, List.all_eq_true, and_assoc] at h
  obtain ⟨_, _, _, _, _, _, _, _, _, _, _, _, hentries, _⟩ := h
  have hrange := hentries e he
  simp only [Entry.inRange, Bool.and_eq_true, decide_eq_true_eq, and_assoc] at hrange
  exact hrange.2.2.2.1

/-- The consistency of R180, in the order of its list. -/
theorem consistent_iff (m : Image) : m.consistent = true ↔ m.inRange = true
      ∧ (∀ a ∈ m.records, 0 ≤ a.inventory ∧ a.inventory ≤ a.spaceRight) ∧ (m.records.map (fun a => a.shipper)).Nodup
      ∧ (m.records.map (fun a => a.inventory)).sum + m.sba = m.opening + m.booked - m.charged
      ∧ (∀ c : Fin 16, ((∃ a ∈ m.records, a.injCurve = some c ∨ a.wdrCurve = some c)
          ∨ (∃ i : Fin 6, (m.units[i]).configured = true ∧ (m.units[i]).cfg.curve = some c)
          ∨ ∃ j : Fin 2, (m.trains[j]).configured = true ∧ (m.trains[j]).cfg.curve = some c) → m.curves[c] ≠ [])
      ∧ (∀ i : Fin 6, i ∈ m.roster.toList)
      ∧ m.entries.Pairwise (fun e f => e.slot = f.slot → e.dir = f.dir → e.cls = f.cls →
          ∀ h : Nat, ¬(e.holds h = true ∧ f.holds h = true))
      ∧ (∀ e ∈ m.entries, ∀ r ∈ m.schedule, e.slot = r.slot → e.dir = r.dir → e.cls = r.cls → e.holds r.hour = false)
      ∧ (∀ r ∈ m.schedule, r.confirmed ≤ r.requested)
      ∧ (m.schedule.map (fun r => (r.hour, r.slot, r.dir, r.cls))).Nodup ∧ m.schedule.length ≤ 480
      ∧ (∀ r ∈ m.schedule, r.hour ≤ m.confirmedThrough)
      ∧ ∀ e ∈ m.entries, ∀ h : Nat, e.holds h = true → m.confirmedThrough < h := by
  have hruns (h : m.inRange = true) := inRange_runs h
  rw [Image.consistent]
  simp only [Bool.and_eq_true, and_assoc]
  refine and_congr_right fun hrange => ?_
  rw [shippers_nodup, curvesNamed_iff, roster_iff, entriesApart_iff (hruns hrange), keysApart_iff, balances, inventorySum_records]
  simp only [List.all_eq_true, Bool.and_eq_true, decide_eq_true_eq, confirmedApart_iff]
  have hafter : (∀ e ∈ m.entries, m.confirmedThrough < e.next) ↔ ∀ e ∈ m.entries, ∀ h : Nat, e.holds h = true → m.confirmedThrough < h :=
    forall₂_congr fun e he => hoursAfter_iff (hruns hrange e he) _
  rw [hafter]

end

end Sys2Proof.Machine
end

section
/-! SUPPORT. Trains that follow the direction while an image is taken (R140, R141, R153): O60. -/

namespace Sys2Proof.Machine

/-- The state of a train as an image gives it, whichever way the direction goes: OUT out of service, and in service
STANDBY or ONLINE, where its mask keeps it from leaving the specification. -/
structure FitsService (x : TrainImage) (y : Train) : Prop where
  cfg : y.cfg = x.cfg
  out : x.service = false → y.state = .out
  inside : x.service = true → y.state ≠ .out
  masked : x.service = true → x.cfg.maskChoice ≠ 0 → y.state = .online ∨ y.state = .standby

theorem FitsService.congr {x : TrainImage} {y z : Train} (h : FitsService x y) (hcfg : z.cfg = y.cfg) (hstate : z.state = y.state) :
    FitsService x z := by
  refine ⟨hcfg.trans h.cfg, ?_, ?_, ?_⟩ <;> rw [hstate]
  · exact h.out
  · exact h.inside
  · exact h.masked

/-- A train not OUT moves into ONLINE or STANDBY. -/
theorem FitsService.move {x : TrainImage} {y z : Train} (h : FitsService x y) (hcfg : z.cfg = y.cfg) (hin : y.state ≠ .out)
    (hz : z.state = .online ∨ z.state = .standby ∨ x.cfg.maskChoice = 0 ∧ z.state = .offSpec) : FitsService x z := by
  have hservice : x.service = true := by
    cases hs : x.service
    · exact absurd (h.out hs) hin
    · rfl
  refine ⟨hcfg.trans h.cfg, fun hs => absurd (hservice.symm.trans hs) nofun, fun _ => ?_, fun _ hmask => ?_⟩
  · rcases hz with hz | hz | ⟨_, hz⟩ <;> rw [hz] <;> nofun
  · rcases hz with hz | hz | ⟨hzero, _⟩
    · exact .inl hz
    · exact .inr hz
    · exact absurd hzero hmask

/-- Both trains fit. -/
def allFit (m : Image) (s : State) : Prop := ∀ j : Fin 2, FitsService m.trains[j] s.dry.trains[j]

/-- The trains fit, those of `S` are not STANDBY while the part withdraws, and none is ONLINE while it does not. -/
structure InStep (m : Image) (S : Fin 2 → Prop) (s : State) : Prop where
  fit : allFit m s
  on : s.flow.dir = .withdrawing → ∀ j : Fin 2, S j → (s.dry.trains[j]).state ≠ .standby
  off : s.flow.dir ≠ .withdrawing → ∀ j : Fin 2, (s.dry.trains[j]).state ≠ .online

section
variable {m : Image} {S : Fin 2 → Prop} {s u : State} {t : Fin 2} {x : Train}

theorem allFit_put (h : allFit m s) (hx : FitsService m.trains[t] x) : allFit m (putTrain t x s) := by
  intro j
  rw [putTrain_trains]
  split
  · next ht =>
    subst ht
    exact hx
  · exact h j

theorem InStep.congr (h : InStep m S s) (hdir : u.flow.dir = s.flow.dir)
    (htrains : ∀ j : Fin 2, (u.dry.trains[j]).cfg = (s.dry.trains[j]).cfg ∧ (u.dry.trains[j]).state = (s.dry.trains[j]).state) : InStep m S u := by
  refine ⟨fun j => (h.fit j).congr (htrains j).1 (htrains j).2, fun hd j hj => ?_, fun hd j => ?_⟩
  · rw [(htrains j).2]
    exact h.on (hdir ▸ hd) j hj
  · rw [(htrains j).2]
    exact h.off (hdir ▸ hd) j

theorem InStep.put (h : InStep m S s) (hcfg : x.cfg = (s.dry.trains[t]).cfg) (hstate : x.state = (s.dry.trains[t]).state) :
    InStep m S (putTrain t x s) := by
  refine h.congr rfl fun j => ?_
  rw [putTrain_trains]
  split
  · next ht =>
    subst ht
    exact ⟨hcfg, hstate⟩
  · exact ⟨rfl, rfl⟩

theorem InStep.reshare (h : InStep m S s) : InStep m S (reshare s) :=
  h.congr rfl fun j => by rw [reshare_trains]; exact ⟨rfl, rfl⟩

theorem InStep.recut (h : InStep m S s) : InStep m S (recut s) :=
  h.congr (by rw [(recut_plant s).2.2]) fun j => by rw [recut_trains]; exact ⟨rfl, rfl⟩

theorem InStep.raise (k : EventKind) (a : Option Nat) (b : Option Int) (h : InStep m S s) : InStep m S (Machine.raise k a b s) :=
  h.congr rfl fun _ => ⟨rfl, rfl⟩

theorem InStep.mono {S' : Fin 2 → Prop} (h : InStep m S s) (hS : ∀ j, S' j → S j) : InStep m S' s :=
  ⟨h.fit, fun hd j hj => h.on hd j (hS j hj), h.off⟩

/-! ### Following the direction (R141) -/

/-- What hands the withdrawal capacity on and keeps the trains in step. -/
def keepsStep (m : Image) (hand : Hand) : Prop := ∀ (S : Fin 2 → Prop) (u : State), InStep m S u → InStep m S (hand u)

theorem keepsStep_handAtZero (m : Image) : keepsStep m handWithdrawalAtZero := by
  intro S u h
  refine h.congr ?_ fun j => by rw [handAtZero_trains]; exact ⟨rfl, rfl⟩
  dsimp only [handWithdrawalAtZero]
  split
  · show (recut _).flow.dir = _
    rw [(recut_plant _).2.2]
    rfl
  · rfl

theorem InStep.dewWarning (h : InStep m S s) : InStep m S (dewWarning t s) := by
  dsimp only [Machine.dewWarning]
  split_ifs
  · exact h.put rfl rfl
  · refine InStep.raise _ _ _ (InStep.put h ?_ ?_) <;> rfl
  · exact h

variable {hand : Hand} (hhand : keepsStep m hand)
include hhand

/-- A train of mask choice 0 that is ONLINE is assessed at once. -/
theorem InStep.assessed (h : InStep m S s) (hon : (s.dry.trains[t]).state = .online) (hmask : (s.dry.trains[t]).mask = 0)
    (hzero : (m.trains[t]).cfg.maskChoice = 0) : InStep m S (assess hand t s) := by
  have hwdr : s.flow.dir = .withdrawing := by
    by_contra hd
    exact h.off hd t hon
  rw [assess_unmasked_online hmask hon]
  refine InStep.dewWarning ?_
  by_cases hleaves : (s.dry.trains[t]).leaves
  · have hput : InStep m S (putTrain t { s.dry.trains[t] with state := .offSpec, excursion := none } s) := by
      refine ⟨allFit_put h.fit ((h.fit t).move rfl (by rw [hon]; nofun) (.inr (.inr ⟨hzero, rfl⟩))), fun _ j hj => ?_, fun hd => absurd hwdr hd⟩
      rw [putTrain_trains]
      split
      · nofun
      · exact h.on hwdr j hj
    rw [assessSpec_leaves hleaves]
    exact (hhand _ _ hput.reshare).raise _ _ _
  · rw [assessSpec_rests hleaves]
    exact h.put rfl rfl

theorem InStep.bringOnline (h : InStep m S s) (t : Fin 2) : InStep m (fun j => S j ∨ j = t) (bringOnline hand t s) := by
  by_cases hgo : (s.dry.trains[t]).state = .standby ∧ s.flow.dir = .withdrawing
  · obtain ⟨hstandby, hwdr⟩ := hgo
    have hput : InStep m (fun j => S j ∨ j = t) (putTrain t { s.dry.trains[t] with state := .online } s) := by
      refine ⟨allFit_put h.fit ((h.fit t).move rfl (by rw [hstandby]; nofun) (.inl rfl)), fun _ j hj => ?_, fun hd => absurd hwdr hd⟩
      rw [putTrain_trains]
      split
      · nofun
      · next ht => exact h.on hwdr j (hj.resolve_right fun he => ht he.symm)
    have honline := hput.reshare
    have hown : ((Machine.reshare (putTrain t { s.dry.trains[t] with state := .online } s)).dry.trains[t]).state = .online := by
      rw [reshare_trains, putTrain_own]
    dsimp only [Machine.bringOnline]
    rw [if_pos (by rw [hstandby, hwdr]; rfl)]
    generalize Machine.reshare (putTrain t { s.dry.trains[t] with state := .online } s) = v at *
    have hkeeps := Train.masked_keeps v.dry.trains[t]
    have hcfg : (v.dry.trains[t]).masked.cfg = (v.dry.trains[t]).cfg := (Kin.masked v.dry.trains[t]).cfg
    have hmasked : InStep m (fun j => S j ∨ j = t) (putTrain t (v.dry.trains[t]).masked v) := honline.put hcfg hkeeps.1
    dsimp only [loadMask]
    split
    · next hzero =>
      refine hmasked.assessed hhand (by rw [putTrain_own, hkeeps.1, hown]) (by rw [putTrain_own, masked_mask, hzero]) ?_
      rw [← (honline.fit t).cfg]
      exact hzero
    · exact hmasked
  · have hstays : Machine.bringOnline hand t s = s := by
      by_cases hstandby : (s.dry.trains[t]).state = .standby
      · exact bringOnline_elsewhere fun hd => hgo ⟨hstandby, hd⟩
      · exact bringOnline_of_ne hstandby
    rw [hstays]
    refine ⟨h.fit, fun hd j hj => ?_, h.off⟩
    rcases hj with hj | rfl
    · exact h.on hd j hj
    · exact fun hstandby => hgo ⟨hstandby, hd⟩

omit hhand in
theorem allFit_send (h : allFit m s) (t : Fin 2) : allFit m (sendStandby t s) ∧ (sendStandby t s).flow = s.flow
    ∧ ((sendStandby t s).dry.trains[t]).state ≠ .online ∧ ∀ i : Fin 2, (s.dry.trains[i]).state ≠ .online → ((sendStandby t s).dry.trains[i]).state ≠ .online := by
  by_cases hon : (s.dry.trains[t]).state = .online
  · have hsent : sendStandby t s = putTrain t { s.dry.trains[t] with state := .standby, excursion := none } s := by
      dsimp only [sendStandby]
      rw [if_pos (beq_iff_eq.mpr hon)]
    rw [hsent]
    refine ⟨allFit_put h ((h t).move rfl (by rw [hon]; nofun) (.inr (.inl rfl))), rfl, by rw [putTrain_own]; nofun, fun i hi => ?_⟩
    rw [putTrain_trains]
    split
    · nofun
    · exact hi
  · rw [sendStandby_of_ne hon]
    exact ⟨h, rfl, hon, fun _ hi => hi⟩

/-- Trains that fit are in step once they have followed the direction. -/
theorem allFit_follow (h : allFit m s) : InStep m (fun _ => True) (followDirection hand s) := by
  dsimp only [followDirection]
  split
  · next hwdr =>
    have hnone : InStep m (fun _ => False) s := ⟨h, fun _ _ hj => absurd hj id, fun hd => absurd (beq_iff_eq.mp hwdr) hd⟩
    refine (((hnone.bringOnline hhand 0).bringOnline hhand 1).mono fun j _ => ?_).reshare
    fin_cases j
    · exact .inl (.inr rfl)
    · exact .inr rfl
  · next hdir =>
    have hoff : s.flow.dir ≠ .withdrawing := fun hd => hdir (beq_iff_eq.mpr hd)
    obtain ⟨hfit, hflow, hzero, _⟩ := allFit_send h 0
    obtain ⟨hfit', hflow', hone, hkeeps⟩ := allFit_send hfit 1
    have hdir' : (sendStandby 1 (sendStandby 0 s)).flow.dir = s.flow.dir := by rw [hflow', hflow]
    refine InStep.reshare ⟨hfit', fun hd => absurd (hdir'.symm.trans hd) hoff, fun _ j => ?_⟩
    fin_cases j
    · exact hkeeps 0 hzero
    · exact hone

end

/-! ### The direction machine and the hand-overs (R99, R102 to R105) -/

section
variable {m : Image} {S : Fin 2 → Prop} {s : State}

theorem allFit_enterDir (d : FlowDir) (h : allFit m s) : InStep m (fun _ => True) (enterDir d s) :=
  allFit_follow (keepsStep_handAtZero m) h

theorem allFit_setFlow (x : Flow) (h : allFit m s) : allFit m (s.setFlow x) := h

theorem allFit_raise (k : EventKind) (a : Option Nat) (b : Option Int) (h : allFit m s) : allFit m (raise k a b s) := h

theorem allFit_turned (h : allFit m s) : InStep m (fun _ => True) (turned s) :=
  allFit_follow (keepsStep_handAtZero m) (allFit_raise _ _ _ (allFit_setFlow _ h))

theorem allFit_enterTurnaround (h : allFit m s) : InStep m (fun _ => True) (enterTurnaround s) := by
  have hturn := allFit_turned h
  by_cases hhold : s.site.turnHold = 0
  · rw [enterTurnaround_expired hhold]
    exact allFit_enterDir _ (allFit_setFlow _ hturn.fit)
  · rw [enterTurnaround_held hhold]
    exact hturn

theorem InStep.endAtZero (h : InStep m S s) : InStep m S (endAtZero s) := by
  have hleave (d : Prop) [Decidable d] : InStep m S (if d then enterDir .hold s else enterTurnaround s) := by
    split
    · exact (allFit_enterDir _ h.fit).mono fun _ _ => trivial
    · exact (allFit_enterTurnaround h.fit).mono fun _ _ => trivial
  dsimp only [Machine.endAtZero]
  split
  case h_1 =>
    split
    · exact hleave _
    · exact h
  case h_2 =>
    split
    · exact hleave _
    · exact h
  case h_3 => exact h
  case h_4 => exact h

theorem InStep.setFlow (x : Flow) (hdir : x.dir = s.flow.dir) (h : InStep m S s) : InStep m S (s.setFlow x) := h.congr hdir fun _ => ⟨rfl, rfl⟩

theorem InStep.stepCut (x : Int) (h : InStep m S s) : InStep m S (stepCut x s) :=
  InStep.endAtZero (InStep.reshare (InStep.raise _ _ _ (InStep.setFlow _ (by rfl) h)))

theorem InStep.receiveInj (c : Nat) (h : InStep m S s) : InStep m S (receiveInj c s) := by
  have htaken : InStep m S (s.setFlow (limitT { s.flow with cInj := c })) := InStep.setFlow _ rfl h
  dsimp only [Machine.receiveInj]
  split
  · exact htaken.stepCut _
  · exact htaken

theorem InStep.receiveWdr (c : Nat) (h : InStep m S s) : InStep m S (receiveWdr c s) := by
  have htaken : InStep m S (s.setFlow (limitT { s.flow with cWdr := c })) := InStep.setFlow _ rfl h
  dsimp only [Machine.receiveWdr]
  split
  · exact htaken.stepCut _
  · exact htaken

theorem keepsStep_hand (m : Image) : keepsStep m handWithdrawal := fun S s h =>
  handWithdrawal_preserves (InStep m S) s (fun _ hu => hu.recut) (fun c _ hu => hu.receiveWdr c) (fun _ hu => hu.reshare)
    (fun _ _ hu => hu.congr rfl fun _ => ⟨rfl, rfl⟩) (h.congr rfl fun _ => ⟨rfl, rfl⟩)

theorem InStep.handInjection (h : InStep m S (s.setDuty { s.duty with declared := declaredInjection s, ready := readyInjection s })) :
    InStep m S (handInjection s) :=
  handInjection_preserves (InStep m S) s (fun _ hu => hu.recut) (fun c _ hu => hu.receiveInj c)
    (fun _ _ hu => hu.congr rfl fun _ => ⟨rfl, rfl⟩) h

end

/-! ### The image taken -/

/-- The state that the image gives a train fits. -/
theorem fits_given {m : Image} {j : Fin 2} {h : Held} {y : Train} (hy : Kin ((m.trains[j]).train m h) y) : FitsService m.trains[j] y := by
  obtain ⟨_, hcfg, _, hstate, _⟩ := train_fields m m.trains[j] h
  have hown := hy.state.trans hstate
  refine ⟨hy.cfg.trans hcfg, fun hs => ?_, fun hs => ?_, fun hs _ => .inr ?_⟩ <;> rw [hown, hs]
  · rfl
  · nofun
  · rfl

theorem takeTrains_inStep (held : Train → Held) (m : Image) (s : State) : InStep m (fun _ => True) (takeTrains held m s) := by
  have hkin := (trainsTested_spec held m s).kin
  rw [takeTrains_tested]
  generalize trainsTested held m s = v at *
  have hasleep (j : Fin 2) : (v.dry.trains[j]).state ≠ .online := by
    rw [(hkin j).state]
    exact (train_asleep m _ _).1
  have hnone : InStep m (fun _ => False) v := ⟨fun j => fits_given (hkin j), fun _ _ hj => absurd hj id, fun _ j => hasleep j⟩
  exact allFit_follow (keepsStep_hand m) (keepsStep_hand m _ _ hnone).fit

theorem unitsAndTrains_inStep (ages : CUnit → List Nat) (held : Train → Held) (m : Image) (s : State) :
    InStep m (fun _ => True) (unitsAndTrains ages held m s) := by
  refine unitsAndTrains_trains (K := fun _ => True) (P := InStep m fun _ => True) (fun _ _ _ => trivial) (fun _ _ => trivial)
    (fun u _ => takeTrains_inStep held m u) (fun u hu => ?_) trivial
  rw [takeUnits_eq]
  exact InStep.handInjection (hu.congr rfl fun _ => ⟨rfl, rfl⟩)

theorem inStep_gathered {m : Image} {S : Fin 2 → Prop} {F : State → State} {s : State} (h : InStep m S (F s.gatheringEvents)) :
    InStep m S (gathered F s) := h.congr rfl fun _ => ⟨rfl, rfl⟩

theorem inStep_adoptionEnd {m : Image} {S : Fin 2 → Prop} (n : BitVec 32) {u : State} (h : InStep m S u) : InStep m S (adoptionEnd n u) :=
  h.congr rfl fun _ => ⟨rfl, rfl⟩

theorem adopt_inStep (n : BitVec 32) (m : Image) (s : State) : InStep m (fun _ => True) (adopt n m s) := by
  rw [adopt_eq]
  exact inStep_adoptionEnd n (inStep_gathered (unitsAndTrains_inStep _ _ m _))

end Sys2Proof.Machine
end

section
/-! SUPPORT. STORE LOAD, the adoption of its image and of the default image (R175, R180, R181), and O60. -/

namespace Sys2Proof.Machine

/-! ### The adoption -/

section
variable (n : BitVec 32) (m : Image) (s : State)

theorem adoptionEnd_store (u : State) : (adoptionEnd n u).store =
    { u.store with held := n - 1, unrestored := false, phase := .committing n (snapshot (adoptionEnd n u)) } := rfl

theorem adopt_store : (adopt n m s).store =
    { s.store with held := n - 1, unrestored := false, phase := .committing n (snapshot (adopt n m s)) } := by
  have hstore : (gathered (unitsAndTrains (fun u => u.startAges) Train.held m) (noteCount (filteredCount s) (takeImage m s))).store = s.store :=
    ((does_takeUnitsAndTrains _ (fun u => u.startAges) Train.held m).store_eq (by decide)).trans
      (((does_noteCount (takeImage m s) (filteredCount s)).store_eq (by decide)).trans ((does_takeImage s m).store_eq (by decide)))
  rw [adopt_eq]
  generalize gathered (unitsAndTrains (fun u => u.startAges) Train.held m) (noteCount (filteredCount s) (takeImage m s)) = u at *
  rw [adoptionEnd_store, hstore]

/-- The state of a train in step with the direction, as its mask choice leaves it. -/
theorem InStep.states {m : Image} {t : State} (h : InStep m (fun _ => True) t) (j : Fin 2) :
    ((m.trains[j]).service = false → (t.dry.trains[j]).state = .out)
    ∧ ((m.trains[j]).service = true → (t.dry.trains[j]).state ≠ .out
      ∧ (t.flow.dir = .withdrawing → (t.dry.trains[j]).state ≠ .standby)
      ∧ (t.flow.dir ≠ .withdrawing → (t.dry.trains[j]).state ≠ .online)
      ∧ ((m.trains[j]).cfg.maskChoice ≠ 0 → (t.dry.trains[j]).state = (if t.flow.dir = .withdrawing then .online else .standby))) := by
  refine ⟨(h.fit j).out, fun hs => ⟨(h.fit j).inside hs, fun hd => h.on hd j trivial, fun hd => h.off hd j, fun hmask => ?_⟩⟩
  rcases (h.fit j).masked hs hmask with hst | hst
  · by_cases hd : t.flow.dir = .withdrawing
    · rw [if_pos hd, hst]
    · exact absurd hst (h.off hd j)
  · by_cases hd : t.flow.dir = .withdrawing
    · exact absurd hst (h.on hd j trivial)
    · rw [if_neg hd, hst]

/-- What an adoption leaves of a train. -/
theorem adopted_train {m : Image} {s t : State} {ages : CUnit → List Nat} (ht : ImageHeld (fun j => (s.dry.trains[j]).held) ages m s t)
    (hstep : InStep m (fun _ => True) t) (j : Fin 2) :
    (t.dry.trains[j]).configured = (m.trains[j]).configured ∧ (t.dry.trains[j]).cfg = (m.trains[j]).cfg
    ∧ (t.dry.trains[j]).service = (m.trains[j]).service ∧ (t.dry.trains[j]).water = (s.dry.trains[j]).water
    ∧ (t.dry.trains[j]).temp = (s.dry.trains[j]).temp ∧ (t.dry.trains[j]).dew = (s.dry.trains[j]).dew
    ∧ bedsTaken m j (s.dry.trains[j]).temp (t.dry.trains[j])
    ∧ ((m.trains[j]).service = false → (t.dry.trains[j]).state = .out)
    ∧ ((m.trains[j]).service = true → (t.dry.trains[j]).state ≠ .out
      ∧ (t.flow.dir = .withdrawing → (t.dry.trains[j]).state ≠ .standby)
      ∧ (t.flow.dir ≠ .withdrawing → (t.dry.trains[j]).state ≠ .online)
      ∧ ((m.trains[j]).cfg.maskChoice ≠ 0 → (t.dry.trains[j]).state = (if t.flow.dir = .withdrawing then .online else .standby))) := by
  have hj := ht.trains j
  obtain ⟨hout, hin⟩ := hstep.states j
  exact ⟨hj.configured, hj.cfg, hj.service, congrArg Held.water hj.held, congrArg Held.temp hj.held, congrArg Held.dew hj.held, hj.beds, hout, hin⟩

/-- What the blocks, the units, the trains and the link watch hold after an adoption. -/
structure Adopted (n : BitVec 32) (m : Image) (s t : State) : Prop where
  held : ImageHeld (fun j => (s.dry.trains[j]).held) (fun u => u.startAges) m s t
  step : InStep m (fun _ => True) t
  blocks : BlocksHeld m s t
  sup : t.sup = { s.sup with mode := m.supMode, timeout := m.supTimeout }.reloaded
  does : Does storeParts s t
  store : t.store = { s.store with held := n - 1, unrestored := false, phase := .committing n (snapshot t) }

theorem adopt_adopted : Adopted n m s (adopt n m s) :=
  ⟨adopt_held m s n, adopt_inStep n m s, blocksHeld_adopt n m s, adopt_sup s m n, does_adopt s n m, adopt_store n m s⟩

end

/-! ### The requests -/

section
variable {s : State} {b : Block}

theorem reqStoreLoad_taken (hfall : inFallback s = false) (hcommit : committing s = false) (hlen : b.length = 33) (hk : fieldW b 0 ≤ 383) :
    reqStoreLoad b s = taken (out1 (fieldW b 0))
      (s.setStore { s.store with buffer := writeWords (32 * fieldW b 0) (b.drop 1) s.store.buffer }) :=
  checked_ok _ _ (by simp [hlen, hfall, hcommit, hk])

theorem reqStoreLoadEnd_taken {m : Image} (hfall : inFallback s = false) (hset : settling s = false) (hcommit : committing s = false)
    (hclock : clockIsUnset s = true) (hcrc : crcHolds (bufferWords s.store.buffer) = true)
    (hread : imageRead (bufferWords s.store.buffer) = some m) (hm : m.consistent = true) : reqStoreLoadEnd [] s =
      taken (out2 (numberRead (bufferWords s.store.buffer) + 1).toNat)
        (adopt (numberRead (bufferWords s.store.buffer) + 1) m (s.setStore { s.store with buffer := [] })) := by
  unfold reqStoreLoadEnd
  generalize bufferWords s.store.buffer = ws at *
  have hnone : firstFailure [(([] : Block).length == 0, .badLength), (!inFallback s, .fallback), (!settling s && !committing s, .busy),
      (clockIsUnset s, .state), (crcHolds ws, .range)] = none :=
    firstFailure_none.mpr (by simp [hfall, hset, hcommit, hclock, hcrc])
  dsimp only
  rw [hnone, hread]
  dsimp only
  rw [checked_ok _ _ (by simp [hm])]

theorem reqStoreInitialize_taken (hfall : inFallback s = false) (hcommit : committing s = false) (hun : isUnrestored s = true) :
    reqStoreInitialize [] s = taken (out2 1) (adopt 1 Image.default s) :=
  checked_ok _ _ (by simp [hfall, hcommit, hun])

theorem reqStoreInitialize_refused (hfall : inFallback s = false) (hcommit : committing s = false) (hun : isUnrestored s = false) :
    reqStoreInitialize [] s = refuse .state s := by
  rw [reqStoreInitialize, checked]
  have hfirst : firstFailure [(([] : Block).length == 0, Status.badLength), (!inFallback s, .fallback), (!committing s, .busy),
      (isUnrestored s, .state)] = some .state := by simp [firstFailure, hfall, hcommit, hun]
  rw [hfirst]

/-- A block of words written into the buffer. -/
theorem buffer_written (k : Nat) (hk : k ≤ 383) (hlen : b.length = 33) {m : List Host.Cell} (hwf : bufferWf m = true) :
    (∀ i : Nat, i < 32 → readWord (32 * k + i) (writeWords (32 * k) (b.drop 1) m) = b.getD (i + 1) 0)
    ∧ ∀ j : Nat, (j < 32 * k ∨ 32 * k + 32 ≤ j) → readWord j (writeWords (32 * k) (b.drop 1) m) = readWord j m := by
  have hdrop : (b.drop 1).length = 32 := by rw [List.length_drop, hlen]
  refine ⟨fun i hi => ?_, fun j hj => readWord_writeWords_ne _ _ _ _ (by rw [hdrop]; exact hj)⟩
  rw [readWord_writeWords (32 * k) i (b.drop 1) m (by omega) (by omega) hwf, List.getElem_drop, List.getD_eq_getElem b 0 (by omega)]
  congr 1
  exact Nat.add_comm 1 i

end

theorem load_unfolds (b : Block) (s : State) : exec (.storeLoad b) s = .next (serve 0x51 (reqStoreLoad b) s)
    ∧ exec (.storeLoadEnd b) s = .next (serve 0x52 (reqStoreLoadEnd b) s)
    ∧ exec (.storeInitialize b) s = .next (serve 0x53 (reqStoreInitialize b) s) := ⟨rfl, rfl, rfl⟩

/-- The image of the buffer adopted, the buffer cleared before. -/
theorem Adopted.of_cleared {n : BitVec 32} {m : Image} {s t : State} {x : Store} (h : Adopted n m (s.setStore x) t) :
    ImageHeld (fun j => (s.dry.trains[j]).held) (fun u => u.startAges) m s t ∧ BlocksHeld m s t
    ∧ t.sup = { s.sup with mode := m.supMode, timeout := m.supTimeout }.reloaded
    ∧ t.store = { x with held := n - 1, unrestored := false, phase := .committing n (snapshot t) } ∧ Does storeParts s t :=
  ⟨h.held.since rfl rfl rfl, ⟨h.blocks.acct, h.blocks.curves, h.blocks.site, h.blocks.entries, h.blocks.nextArrival, h.blocks.confirmedThrough,
    h.blocks.settle, h.blocks.meter, h.blocks.clock⟩, h.sup, h.store, (acts_setStore s x (by decide)).does.trans h.does⟩

/-- Settles O60: the words of a block are written one by one, and an adoption, like a restore, gives the blocks their values, after
which units and trains follow in either order. -/
theorem storeLoadAndAdoption : Obligations.StoreLoadAndAdoption := by
  refine ⟨fun s b c _ => keepsItsChecks_all c s, fun s b hr hfall hcommit hlen hk hwf => ?_,
    fun s m hr hfall hset hcommit hclock hcrc hread hm => ?_, fun s hr hfall hcommit => ⟨fun hun => ?_, fun hun => ?_, consistent_iff⟩⟩
  · obtain ⟨hin, hout⟩ := buffer_written (fieldW b 0) hk hlen hwf
    exact ⟨_, exec_taken (load_unfolds b s).1 hr (reqStoreLoad_taken hfall hcommit hlen hk), hin, hout, rfl,
      (acts_setStore (ps := [.store]) s _ (by decide)).parts⟩
  · have hexec := exec_taken (load_unfolds [] s).2.1 hr (reqStoreLoadEnd_taken hfall hset hcommit hclock hcrc hread hm)
    generalize numberRead (bufferWords s.store.buffer) = k at *
    intro n
    have hadopted := adopt_adopted n m (s.setStore { s.store with buffer := [] })
    have hstep := hadopted.step
    obtain ⟨hheld, hb, hsup, hstore, hdoes⟩ := hadopted.of_cleared
    generalize adopt n m (s.setStore { s.store with buffer := [] }) = t at *
    obtain ⟨_, hmode, htimeout, htimer, hloaded⟩ := reloaded_fields { s.sup with mode := m.supMode, timeout := m.supTimeout }
    rw [← hsup] at hmode htimeout htimer hloaded
    refine ⟨t, hexec, hstore, hb.acct, hb.curves, hb.site, hb.entries, hb.nextArrival, hb.confirmedThrough, hb.clock, hb.meter,
      hheld.units.roster, hheld.units.fuel, hheld.gas, by rw [hb.settle], fun i => ?_, ordered_of_asked hheld.asked, asked_perm hheld.asked,
      fun hdir hd hc => ?_, hheld.fits, fun i => hheld.units.units i, adopted_train hheld hstep, hmode, htimeout, htimer, hloaded,
      changesOnly_mono hdoes.parts (by decide)⟩
    · rw [hb.settle]
      show (Vector.replicate 24 none)[i] = _
      rw [Fin.getElem_fin, Vector.getElem_replicate]
    · rw [(hheld.hold hdir).2.2.1 hd hc]
      exact (orderedSchedule_spec m.schedule).1
  · exact exec_answer (load_unfolds [] s).2.2 hr (reqStoreInitialize_refused hfall hcommit hun)
  · have hexec := exec_taken (load_unfolds [] s).2.2 hr (reqStoreInitialize_taken hfall hcommit hun)
    obtain ⟨hheld, _, hb, hsup, hdoes, hstore⟩ := adopt_adopted 1 Image.default s
    have htrains := adopt_default s 1
    generalize adopt 1 Image.default s = t at *
    refine ⟨t, hexec, hstore, default_holds hheld hb htrains ?_, fun i => by rw [hheld.units.units i]; rfl, fun j => ?_,
      by rw [hb.meter]; rfl, by rw [hb.settle], hb.clock, (capacitiesCurrent_iff t).mpr hheld.capacities,
      changesOnly_mono hdoes.parts (by decide)⟩
    · rw [hsup]
      exact ⟨rfl, rfl, rfl⟩
    · have hj := hheld.trains j
      exact ⟨congrArg Held.water hj.held, congrArg Held.temp hj.held, congrArg Held.dew hj.held⟩

end Sys2Proof.Machine
end

section
/-! SUPPORT. A second of a train's beds (R146 to R151), bed by bed: O51. -/

namespace Sys2Proof.Machine

/-! ### A bed's second -/

/-- A bed whose phase has run for a second, but for the end of a COOLING (R150). -/
def Bed.advanced (b : Bed) (cooling : Nat) : Bed :=
  match b.state with
  | .heating => if b.timer ≤ 1 then { b with state := .cooling, timer := cooling } else { b with timer := b.timer - 1 }
  | .cooling => { b with timer := b.timer - 1 }
  | _ => b

/-- A bed in the last second of its COOLING. -/
def Bed.cools (b : Bed) : Prop := b.state = .cooling ∧ b.timer ≤ 1

/-- A train whose bed `j` has advanced. -/
def Train.advanced (x : Train) (j : Side) : Train := x.setBed j ((x.bed j).advanced x.cfg.cooling)

/-- Step 3 for bed `j` of a train that the step finds as `x` (R150). -/
def tick (x : Train) (i : Fin 2) (j : Side) (u : State) : State := if (x.bed j).regenerates then bedTimer i j u else u

/-- Step 3 for both beds of a train. -/
def timed (x : Train) (i : Fin 2) (u : State) : State := tick x i .hi (tick x i .lo u)

theorem bedTimers_eq {s : State} {x y : Train} (hx : s.dry.trains[(0 : Fin 2)] = x) (hy : s.dry.trains[(1 : Fin 2)] = y) :
    bedTimers s = timed y 1 (timed x 0 s) := by
  rw [← hx, ← hy]
  rfl

theorem advanced_heating {b : Bed} {n : Nat} (h : b.state = .heating) (hle : b.timer ≤ 1) : b.advanced n = ⟨.cooling, b.load, n⟩ := by
  unfold Bed.advanced
  rw [h]
  exact if_pos hle

theorem advanced_runs {b : Bed} {n : Nat} (h : b.state = .heating ∨ b.state = .cooling) (hlt : 1 < b.timer) :
    b.advanced n = { b with timer := b.timer - 1 } := by
  unfold Bed.advanced
  rcases h with h | h <;> rw [h]
  exact if_neg (by omega)

theorem advanced_rests {b : Bed} {n : Nat} (h : b.regenerates = false) : b.advanced n = b := by
  have hne : ¬(b.state = .heating ∨ b.state = .cooling) := fun hb => absurd ((regenerates_iff _).mpr hb) (by rw [h]; nofun)
  unfold Bed.advanced
  split
  · next hb => exact absurd (.inl hb) hne
  · next hb => exact absurd (.inr hb) hne
  · rfl

/-- A regenerating bed that does not end its COOLING goes on to regenerate. -/
theorem advanced_regenerates {b : Bed} {n : Nat} (h : b.regenerates = true) (hcool : ¬b.cools) : (b.advanced n).regenerates = true := by
  by_cases hle : b.timer ≤ 1
  · rcases (regenerates_iff _).mp h with hb | hb
    · rw [advanced_heating hb hle]
      rfl
    · exact absurd ⟨hb, hle⟩ hcool
  · rw [advanced_runs ((regenerates_iff _).mp h) (by omega)]
    exact h

theorem advanced_ready {b : Bed} {n : Nat} (hcool : ¬b.cools) : (b.advanced n).state = .ready ↔ b.state = .ready := by
  cases h : b.regenerates
  · rw [advanced_rests h]
  · have hadv := (regenerates_iff _).mp (advanced_regenerates (n := n) h hcool)
    have hb := (regenerates_iff _).mp h
    constructor <;> intro hr
    · rw [hr] at hadv
      exact absurd hadv (by decide)
    · rw [hr] at hb
      exact absurd hb (by decide)

section
variable {x : Train} {u : State} {i : Fin 2} {j : Side}

theorem setBed_self (x : Train) (j : Side) : x.setBed j (x.bed j) = x := by cases j <;> rfl

theorem tick_rests (h : (x.bed j).regenerates = false) : tick x i j u = u := by
  rw [tick, h]
  rfl

theorem tick_cools (hbed : (u.dry.trains[i]).bed j = x.bed j) (h : (x.bed j).cools) : tick x i j u = endCooling i j u := by
  have hregen : (x.bed j).regenerates = true := (regenerates_iff _).mpr (.inr h.1)
  have hstate : ((u.dry.trains[i]).bed j).state = .cooling := by rw [hbed]; exact h.1
  rw [tick, if_pos hregen]
  dsimp only [bedTimer]
  rw [hstate]
  dsimp only
  exact if_pos (by rw [hbed]; exact h.2)

theorem tick_advances (hbed : (u.dry.trains[i]).bed j = x.bed j) (h : ¬(x.bed j).cools) :
    tick x i j u = putTrain i ((u.dry.trains[i]).advanced j) u := by
  cases hregen : (x.bed j).regenerates
  · rw [tick_rests hregen, Train.advanced, advanced_rests (by rw [hbed]; exact hregen), setBed_self, putTrain_self]
  · rw [tick, if_pos hregen, Train.advanced]
    dsimp only [bedTimer, endHeating, Bed.advanced]
    rcases (regenerates_iff _).mp hregen with hb | hb <;> rw [hbed, hb] <;> dsimp only
    · split <;> rfl
    · rw [if_neg fun hle => h ⟨hb, hle⟩]

end

/-! ### What the beds' moves leave of a regenerating bed -/

theorem adsorbing_eq {x : Train} {k : Side} (h : x.adsorbing = some k) : (x.bed k).state = .adsorbing := by
  rw [Train.adsorbing] at h
  split at h
  · next hlo =>
    obtain rfl := Option.some.inj h
    exact hlo
  · split at h
    · next hhi =>
      obtain rfl := Option.some.inj h
      exact hhi
    · exact absurd h nofun

theorem readyBed_eq {x : Train} {k : Side} (h : x.readyBed = some k) : (x.bed k).state = .ready := by
  rw [Train.readyBed] at h
  split at h
  · next hlo =>
    obtain rfl := Option.some.inj h
    exact hlo
  · split at h
    · next hhi =>
      obtain rfl := Option.some.inj h
      exact hhi
    · exact absurd h nofun

theorem side_cases (j k : Side) : j = k ∨ j = k.partner := by cases j <;> cases k <;> decide

theorem not_adsorbing_of_regenerates {b : Bed} (h : b.regenerates = true) : b.state ≠ .adsorbing := by
  rcases (regenerates_iff _).mp h with hb | hb <;> rw [hb] <;> nofun

theorem not_ready_of_regenerates {b : Bed} (h : b.regenerates = true) : b.state ≠ .ready := by
  rcases (regenerates_iff _).mp h with hb | hb <;> rw [hb] <;> nofun

section
variable {u : State} {i : Fin 2} {j : Side} {b : Bed}

/-- A regenerating bed is left alone by its train's test. -/
theorem bedTest_keepsBed (hb : b.regenerates = true) (h : (u.dry.trains[i]).bed j = b) :
    ((bedTest handWithdrawal i u).dry.trains[i]).bed j = b := by
  cases hads : (u.dry.trains[i]).adsorbing with
  | none => rw [bedTest_none u i hads, h]
  | some k =>
    have hk := adsorbing_eq hads
    have hj : j = k.partner := (side_cases j k).resolve_left fun he =>
      not_adsorbing_of_regenerates hb (by rw [← h, he]; exact hk)
    have hstay := bedTest_stays_body handFree_withdrawal hads fun hs => not_ready_of_regenerates hb (by rw [← h, hj]; exact hs.2)
    rw [hstay.alike.bed, stayed_bed, h]

theorem takeUp_keepsBed (hb : b.regenerates = true) (h : (u.dry.trains[i]).bed j = b) :
    ((takeUp handWithdrawal i u).dry.trains[i]).bed j = b := by
  by_cases hout : (u.dry.trains[i]).state = .out
  · rw [takeUp_out u i hout, h]
  · cases hads : (u.dry.trains[i]).adsorbing with
    | some k => rw [takeUp_some u i hads, h]
    | none =>
      cases hready : (u.dry.trains[i]).readyBed with
      | none => rw [takeUp_none u i hready, h]
      | some k =>
        have hk := readyBed_eq hready
        have hj : j = k.partner := (side_cases j k).resolve_left fun he =>
          not_ready_of_regenerates hb (by rw [← h, he]; exact hk)
        rw [takeUp_takes u i hout hads hready, (takeUpBed_spec handFree_withdrawal u i k).1.1.alike.bed, hj, (takenUp_beds _ k).2, ← hj, h]

theorem endCooling_keepsBed (hb : b.regenerates = true) (h : (u.dry.trains[i]).bed j = b) :
    ((endCooling i j.partner u).dry.trains[i]).bed j = b := by
  rw [endCooling_eq]
  refine takeUp_keepsBed hb (bedTest_keepsBed hb ?_)
  have hother := (cooled_beds u.dry.trains[i] j.partner).2
  rw [Side.partner_partner] at hother
  rw [cooledDown_train, hother, h]

theorem setBed_other (x : Train) (j : Side) (b : Bed) : (x.setBed j.partner b).bed j = x.bed j := by cases j <;> rfl

/-- And by its partner's second. -/
theorem tick_keepsBed {x : Train} (hpartner : (u.dry.trains[i]).bed j.partner = x.bed j.partner) (hb : b.regenerates = true)
    (h : (u.dry.trains[i]).bed j = b) : ((tick x i j.partner u).dry.trains[i]).bed j = b := by
  by_cases hcool : (x.bed j.partner).cools
  · rw [tick_cools hpartner hcool]
    exact endCooling_keepsBed hb h
  · rw [tick_advances hpartner hcool, putTrain_own, Train.advanced, setBed_other, h]

end

end Sys2Proof.Machine
end

section
/-! SUPPORT. A second of a train's beds (R146 to R151): what step 3 and the test leave of the train. O51. -/

namespace Sys2Proof.Machine

/-- The bed `j` stands at or beyond the swap point (R148). -/
def Train.reaches (x : Train) (j : Side) : Prop := x.bedCap * 3600000000 * x.cfg.swapPoint ≤ (x.bed j).load * 1000

theorem reachedSwap_iff (x : Train) (j : Side) : reachedSwap x (x.bed j) = true ↔ x.reaches j := by
  rw [reachedSwap, decide_eq_true_iff]
  rfl

theorem reaches_congr {x y : Train} {j : Side} (hcap : y.bedCap = x.bedCap) (hcfg : y.cfg = x.cfg) (hbed : y.bed j = x.bed j) :
    y.reaches j ↔ x.reaches j := by rw [Train.reaches, Train.reaches, hcap, hcfg, hbed]

theorem bedPermille_congr {x y : Train} {b : Bed} (hcap : y.bedCap = x.bedCap) : bedPermille y b = bedPermille x b := by
  rw [bedPermille, bedPermille, Train.capUnits, Train.capUnits, hcap]

section
variable {x : Train} {u w : State} {i : Fin 2} {j : Side}

/-! ### The one bed that can run beside an adsorbing one -/

/-- A train as `x`, but for the bed beside bed `j`, which has advanced. -/
structure GoesOn (x : Train) (j : Side) (y : Train) : Prop where
  own : y.bed j = x.bed j
  partner : y.bed j.partner = (x.bed j.partner).advanced x.cfg.cooling
  cfg : y.cfg = x.cfg
  bedCap : y.bedCap = x.bedCap
  degraded : y.degraded = x.degraded
  deferred : y.deferred = x.deferred

theorem GoesOn.alike {y z : Train} (h : GoesOn x j y) (hz : Alike y z) : GoesOn x j z :=
  ⟨(hz.bed j).trans h.own, (hz.bed _).trans h.partner, hz.cfg.trans h.cfg, hz.bedCap.trans h.bedCap, hz.degraded.trans h.degraded,
    hz.deferred.trans h.deferred⟩

theorem goesOn_advanced (x : Train) (j : Side) : GoesOn x j (x.advanced j.partner) := by
  cases j <;> exact ⟨rfl, rfl, rfl, rfl, rfl, rfl⟩

theorem advanced_alike {y : Train} (h : Alike x y) (k : Side) : Alike (x.advanced k) (y.advanced k) := by
  have hbed : (y.bed k).advanced y.cfg.cooling = (x.bed k).advanced x.cfg.cooling := by rw [h.bed, h.cfg]
  rw [Train.advanced, Train.advanced, hbed]
  obtain ⟨hconf, hcfg, hservice, hdeg, hdef, hwater, htemp, hdew, hcap, hlo, hhi⟩ := h
  cases k
  · exact ⟨hconf, hcfg, hservice, hdeg, hdef, hwater, htemp, hdew, hcap, rfl, hhi⟩
  · exact ⟨hconf, hcfg, hservice, hdeg, hdef, hwater, htemp, hdew, hcap, hlo, rfl⟩

theorem rests_of_adsorbing {b : Bed} (h : b.state = .adsorbing) : b.regenerates = false := by
  cases hb : b.regenerates
  · rfl
  · exact absurd h (not_adsorbing_of_regenerates hb)

theorem rests_of_ready {b : Bed} (h : b.state = .ready) : b.regenerates = false := by
  cases hb : b.regenerates
  · rfl
  · exact absurd h (not_ready_of_regenerates hb)

/-- GoesOn a bed that does not regenerate, step 3 is the partner's. -/
theorem timed_partner (h : (x.bed j).regenerates = false) : timed x i u = tick x i j.partner u := by
  cases j
  · exact congrArg (tick x i .hi) (tick_rests h)
  · exact tick_rests h

theorem timed_advances (hu : hasBody i x u) (h : (x.bed j).regenerates = false) (hcool : ¬(x.bed j.partner).cools) :
    timed x i u = putTrain i ((u.dry.trains[i]).advanced j.partner) u := by
  rw [timed_partner h, tick_advances (hu.alike.bed _) hcool]

theorem timed_beside (hu : hasBody i x u) (h : (x.bed j).regenerates = false) (hcool : ¬(x.bed j.partner).cools) :
    GoesOn x j (timed x i u).dry.trains[i] := by
  rw [timed_advances hu h hcool, putTrain_own]
  exact (goesOn_advanced x j).alike (advanced_alike hu.alike _)

theorem does_timed (x : Train) (i : Fin 2) (u : State) : Does flowParts u (timed x i u) := by
  have htick (j : Side) (v : State) (h : Does flowParts u v) : Does flowParts u (tick x i j v) := by
    rw [tick]
    split
    · exact (flowTrain u i).bedTimer j h
    · exact h
  exact htick _ _ (htick _ _ (.refl _ u))

/-- The one bed beside it whose COOLING ends. -/
theorem timed_cools (hu : hasBody i x u) (h : (x.bed j.partner).regenerates = false) (hcool : (x.bed j).cools) :
    timed x i u = endCooling i j u := by
  rw [timed_partner h, Side.partner_partner, tick_cools (hu.alike.bed j) hcool]

/-! ### The test after it -/

/-- The bed that adsorbs, its partner not, as the test finds them. -/
structure AdsorbsBeside (x : Train) (j : Side) : Prop where
  own : (x.bed j).state = .adsorbing
  partner : (x.bed j.partner).state ≠ .adsorbing

theorem AdsorbsBeside.adsorbing (h : AdsorbsBeside x j) : x.adsorbing = some j := adsorbing_some h.own h.partner

/-- The test of an adsorbing bed that swaps. -/
structure TestSwaps (i : Fin 2) (j : Side) (w v : State) : Prop where
  heats : (v.dry.trains[i]).bed j = ⟨.heating, ((w.dry.trains[i]).bed j).load, (w.dry.trains[i]).cfg.heating⟩
  adsorbs : (v.dry.trains[i]).bed j.partner = ⟨.adsorbing, 0, 0⟩
  degraded : (v.dry.trains[i]).degraded = false
  deferred : (v.dry.trains[i]).deferred = false
  told : toldBetween w v [swapTold w i j.partner]

theorem bedTest_testSwaps (h : AdsorbsBeside w.dry.trains[i] j) (hreach : (w.dry.trains[i]).reaches j)
    (hready : ((w.dry.trains[i]).bed j.partner).state = .ready) : TestSwaps i j w (bedTest handWithdrawal i w) := by
  obtain ⟨⟨hbody, _⟩, htold⟩ := swapBeds_spec handFree_withdrawal w i j
  obtain ⟨hheats, hadsorbs⟩ := swapped_beds w.dry.trains[i] j
  rw [bedTest_swaps w i h.adsorbing ((reachedSwap_iff _ j).mpr hreach) hready]
  exact ⟨(hbody.alike.bed j).trans hheats, (hbody.alike.bed _).trans hadsorbs, hbody.alike.degraded, hbody.alike.deferred, htold⟩

/-- The test of an adsorbing bed that stays. -/
structure TestStays (i : Fin 2) (j : Side) (w v : State) : Prop where
  beds : ∀ k, (v.dry.trains[i]).bed k = (w.dry.trains[i]).bed k
  degraded : (v.dry.trains[i]).degraded = (w.dry.trains[i]).saturated j
  deferred : (v.dry.trains[i]).deferred = true ↔ (w.dry.trains[i]).reaches j
  defers : (w.dry.trains[i]).reaches j → (w.dry.trains[i]).deferred = false → toldBetween w v [deferTold w i j]
  degrades : (w.dry.trains[i]).saturated j = true → (w.dry.trains[i]).degraded = false → toldBetween w v [degradedTold w i]

theorem bedTest_testStays (h : (w.dry.trains[i]).adsorbing = some j)
    (hstay : ¬((w.dry.trains[i]).reaches j ∧ ((w.dry.trains[i]).bed j.partner).state = .ready)) : TestStays i j w (bedTest handWithdrawal i w) := by
  have hstay' : ¬(reachedSwap w.dry.trains[i] ((w.dry.trains[i]).bed j) = true ∧ ((w.dry.trains[i]).bed j.partner).state = .ready) :=
    fun hs => hstay ⟨(reachedSwap_iff _ j).mp hs.1, hs.2⟩
  have hbody := (bedTest_stays_body handFree_withdrawal h hstay').alike
  refine ⟨fun k => (hbody.bed k).trans (stayed_bed _ j k), hbody.degraded.trans (stayed_degraded _ j), ?_, fun hreach hdef => ?_,
    bedTest_stays_degrades handFree_withdrawal h hstay'⟩
  · rw [hbody.deferred, stayed_deferred, reachedSwap_iff]
  · exact bedTest_stays_defers handFree_withdrawal h hstay' ((reachedSwap_iff _ j).mpr hreach) hdef

/-! ### A bed cooled beside an adsorbing one that stays -/

/-- The part after the cooled bed's partner is tested for the first time. -/
theorem endCooling_firstTest (hp : ((u.dry.trains[i]).bed j.partner).state = .adsorbing) (hreach : ¬(u.dry.trains[i]).reaches j.partner) :
    endCooling i j u = bedTest handWithdrawal i (cooledDown u i j) ∧ TestStays i j.partner (cooledDown u i j) (endCooling i j u) := by
  obtain ⟨hbed, hpartner⟩ := cooled_beds u.dry.trains[i] j
  obtain ⟨hcfg, hcap, _⟩ := cooled_fields u.dry.trains[i] j
  have hads : ((cooledDown u i j).dry.trains[i]).adsorbing = some j.partner := by
    rw [cooledDown_train]
    exact adsorbing_some (by rw [hpartner]; exact hp) (by rw [Side.partner_partner, hbed]; nofun)
  have hstays := bedTest_testStays hads fun h => hreach (by
    have hr := h.1
    rw [cooledDown_train] at hr
    exact (reaches_congr hcap hcfg hpartner).mp hr)
  have hkept : ((bedTest handWithdrawal i (cooledDown u i j)).dry.trains[i]).adsorbing = some j.partner := by
    have hb := hstays.beds j.partner
    have hb' := hstays.beds j
    rw [cooledDown_train] at hb hb'
    refine adsorbing_some ?_ ?_
    · rw [hb, hpartner, hp]
    · rw [Side.partner_partner, hb', hbed]
      nofun
  have heq : endCooling i j u = bedTest handWithdrawal i (cooledDown u i j) := by
    rw [endCooling_eq, takeUp_some _ _ hkept]
  exact ⟨heq, heq ▸ hstays⟩

end

end Sys2Proof.Machine
end

section
/-! SUPPORT. What a second leaves of a train's beds (R146 to R151): the cases of a bed and its partner. O51. -/

namespace Sys2Proof.Machine

/-! ### The configuration stands -/

section
variable (c : TrainCfg) (i : Fin 2)

theorem cfg_putTrain {u : State} {t : Fin 2} {y : Train} (hy : y.cfg = (u.dry.trains[t]).cfg) (h : (u.dry.trains[i]).cfg = c) :
    ((putTrain t y u).dry.trains[i]).cfg = c := by
  rw [putTrain_trains]
  split
  · next hti =>
    subst hti
    exact hy.trans h
  · exact h

theorem cfgFree : FlowFree (fun u => (u.dry.trains[i]).cfg = c) where
  raise _ _ _ _ _ h := h
  putTrain _ _ _ hx h := cfg_putTrain c i (body_cfg hx.body).1 h
  setFlow _ _ h := h
  recut _ h := by
    rw [recut_trains]
    exact h
  setWorld _ _ h := h
  capacity _ _ h := h

theorem cfgTrain (t : Fin 2) : TrainKept handWithdrawal t (fun u => (u.dry.trains[i]).cfg = c) (fun u => (u.dry.trains[i]).cfg = c) :=
  .whole (cfgFree c i).toDewFree (fun _ _ hx h => cfg_putTrain c i hx.cfg h) fun _ h => (cfgFree c i).handWithdrawal h

end

/-- An adsorbing bed that stays, as its train was found. -/
structure Stood (x : Train) (i : Fin 2) (j : Side) (u v : State) : Prop where
  bed : (v.dry.trains[i]).bed j = x.bed j
  degraded : (v.dry.trains[i]).degraded = x.saturated j
  deferred : (v.dry.trains[i]).deferred = true ↔ x.reaches j
  defers : x.reaches j → x.deferred = false → toldBetween u v
    [⟨gasTime u, .bedSwapDeferred, some i.val, some (bedPermille x (x.bed j) : Int)⟩]
  degrades : x.saturated j = true → x.degraded = false → toldBetween u v
    [⟨gasTime u, .trainDegraded, some i.val, some (x.degradedContribution : Int)⟩]

/-- The beds of train `i` as `x` has them in `u`, where step 3 comes to them, and in `v`, after the train's test. -/
structure BedsRun (x : Train) (i : Fin 2) (u v : State) : Prop where
  runs : ∀ j, (x.bed j).regenerates = true → ¬(x.bed j).cools → (v.dry.trains[i]).bed j = (x.bed j).advanced x.cfg.cooling
  both : ∀ j, (x.bed j).state = .adsorbing → (x.bed j.partner).state = .adsorbing → (v.dry.trains[i]).bed j = x.bed j
  cooledSwaps : ∀ j, (x.bed j).cools → (x.bed j.partner).state = .adsorbing → x.reaches j.partner →
    (v.dry.trains[i]).bed j = ⟨.adsorbing, 0, 0⟩ ∧ (v.dry.trains[i]).bed j.partner = ⟨.heating, (x.bed j.partner).load, x.cfg.heating⟩
    ∧ toldBetween u v [swapTold u i j]
  cooledStays : ∀ j, (x.bed j).cools → (x.bed j.partner).state = .adsorbing → ¬x.reaches j.partner → (v.dry.trains[i]).bed j = ⟨.ready, 0, 0⟩
  cooledOut : ∀ j, (x.bed j).cools → (x.bed j.partner).state = .ready → (u.dry.trains[i]).state = .out →
    (v.dry.trains[i]).bed j = ⟨.ready, 0, 0⟩ ∧ (v.dry.trains[i]).bed j.partner = x.bed j.partner
  cooledTakes : ∀ j, (x.bed j).cools → (x.bed j.partner).state = .ready → (u.dry.trains[i]).state ≠ .out →
    0 < x.bedCap * 3600000000 * x.cfg.swapPoint →
    (v.dry.trains[i]).lo = ⟨.adsorbing, 0, 0⟩ ∧ (v.dry.trains[i]).hi = (if j = .hi then ⟨.ready, 0, 0⟩ else x.bed j.partner)
    ∧ toldBetween u v [swapTold u i .lo]
  swaps : ∀ j, (x.bed j).state = .adsorbing → (x.bed j.partner).state = .ready → x.reaches j →
    (v.dry.trains[i]).bed j = ⟨.heating, (x.bed j).load, x.cfg.heating⟩ ∧ (v.dry.trains[i]).bed j.partner = ⟨.adsorbing, 0, 0⟩
    ∧ (v.dry.trains[i]).degraded = false ∧ (v.dry.trains[i]).deferred = false ∧ toldBetween u v [swapTold u i j.partner]
  stays : ∀ j, (x.bed j).state = .adsorbing → (x.bed j.partner).state ≠ .adsorbing →
    ¬(x.reaches j ∧ ((x.bed j.partner).state = .ready ∨ (x.bed j.partner).cools)) →
    Stood x i j u v

section
variable {x : Train} {u w : State} {i : Fin 2} {j : Side} (hu : hasBody i x u) (hw : hasBody i (timed x i u).dry.trains[i] w)
  (hdoes : Does flowParts (timed x i u) w)
include hu

/-! ### Bed by bed -/

theorem timed_runs (hregen : (x.bed j).regenerates = true) (hcool : ¬(x.bed j).cools) :
    ((timed x i u).dry.trains[i]).bed j = (x.bed j).advanced x.cfg.cooling := by
  have htick {v : State} (hv : (v.dry.trains[i]).bed j = x.bed j) (hcfg : (v.dry.trains[i]).cfg = x.cfg) :
      ((tick x i j v).dry.trains[i]).bed j = (x.bed j).advanced x.cfg.cooling := by
    rw [tick_advances hv hcool, putTrain_own, Train.advanced, setBed_bed, hv, hcfg]
  have hbed := hu.alike.bed
  cases j
  · exact tick_keepsBed (j := .lo) (by
      rw [tick_advances (hbed .lo) hcool, putTrain_own]
      exact hbed .hi) (advanced_regenerates hregen hcool) (htick (hbed .lo) hu.alike.cfg)
  · have hcfg : ((tick x i .lo u).dry.trains[i]).cfg = x.cfg := by
      by_cases hlo : (x.bed .lo).cools
      · rw [tick_cools (hbed .lo) hlo]
        exact (cfgTrain x.cfg i i).endCooling .lo (s := u) hu.alike.cfg
      · rw [tick_advances (hbed .lo) hlo, putTrain_own]
        exact hu.alike.cfg
    exact htick (tick_keepsBed (j := .hi) (hbed .lo) hregen (hbed .hi)) hcfg

include hw

theorem run_runs (hregen : (x.bed j).regenerates = true) (hcool : ¬(x.bed j).cools) :
    ((bedTest handWithdrawal i w).dry.trains[i]).bed j = (x.bed j).advanced x.cfg.cooling :=
  bedTest_keepsBed (advanced_regenerates hregen hcool) ((hw.alike.bed j).trans (timed_runs hu hregen hcool))

theorem run_both (h : (x.bed j).state = .adsorbing) (hp : (x.bed j.partner).state = .adsorbing) :
    ((bedTest handWithdrawal i w).dry.trains[i]).bed j = x.bed j := by
  have hrest := rests_of_adsorbing hp
  have hgo := (timed_beside hu (rests_of_adsorbing h) fun hc => absurd hp (by rw [hc.1]; nofun)).alike hw.alike
  have hown := hgo.own
  have hpartner := hgo.partner.trans (advanced_rests hrest)
  have hall (k : Side) : ((w.dry.trains[i]).bed k).state = .adsorbing := by
    rcases side_cases k j with rfl | rfl
    · rw [hown, h]
    · rw [hpartner, hp]
  have hlo : (w.dry.trains[i]).adsorbing = some .lo := if_pos (hall .lo)
  have hstay := bedTest_testStays hlo fun hs => absurd (hall Side.lo.partner) (by rw [hs.2]; nofun)
  rw [hstay.beds, hown]

/-! ### A bed that cools -/

variable (hcool : (x.bed j).cools)
include hcool

theorem run_cooledSwaps (hp : (x.bed j.partner).state = .adsorbing) (hreach : x.reaches j.partner) :
    ((bedTest handWithdrawal i w).dry.trains[i]).bed j = ⟨.adsorbing, 0, 0⟩
    ∧ ((bedTest handWithdrawal i w).dry.trains[i]).bed j.partner = ⟨.heating, (x.bed j.partner).load, x.cfg.heating⟩
    ∧ toldBetween u (timed x i u) [swapTold u i j] := by
  have halike := hu.alike
  obtain ⟨⟨hads, hheat⟩, htold⟩ := (cooled_endCooling u i j).swaps (by rw [halike.bed]; exact hp)
    ((reaches_congr halike.bedCap halike.cfg (halike.bed _)).mpr hreach)
  rw [timed_cools hu (rests_of_adsorbing hp) hcool] at hw ⊢
  rw [halike.bed, halike.cfg] at hheat
  have hown := (hw.alike.bed j).trans hads
  have hpartner := (hw.alike.bed j.partner).trans hheat
  have hstay := bedTest_testStays (w := w) (i := i) (adsorbing_some (by rw [hown]) (by rw [hpartner]; nofun))
    fun hs => absurd hs.2 (by rw [hpartner]; nofun)
  exact ⟨(hstay.beds j).trans hown, (hstay.beds _).trans hpartner, htold⟩

/-- A bed that cools beside an adsorbing one below its swap point. -/
theorem run_cooledStays (hp : (x.bed j.partner).state = .adsorbing) (hreach : ¬x.reaches j.partner) :
    TestStays i j.partner (cooledDown u i j) (timed x i u) ∧ TestStays i j.partner w (bedTest handWithdrawal i w)
    ∧ (w.dry.trains[i]).bed j = ⟨.ready, 0, 0⟩ ∧ (w.dry.trains[i]).bed j.partner = x.bed j.partner
    ∧ (w.dry.trains[i]).bedCap = x.bedCap ∧ (w.dry.trains[i]).cfg = x.cfg := by
  have halike := hu.alike
  have hp' : ((u.dry.trains[i]).bed j.partner).state = .adsorbing := by rw [halike.bed]; exact hp
  have hreach' : ¬(u.dry.trains[i]).reaches j.partner := fun h => hreach ((reaches_congr halike.bedCap halike.cfg (halike.bed _)).mp h)
  obtain ⟨_, hfirst⟩ := endCooling_firstTest (j := j) hp' hreach'
  have hbody := (endCooling_stays (j := j) hp' hreach').alike
  obtain ⟨hbed, hother⟩ := cooled_beds u.dry.trains[i] j
  obtain ⟨hcfg, hcap, _⟩ := cooled_fields u.dry.trains[i] j
  rw [timed_cools hu (rests_of_adsorbing hp) hcool] at hw ⊢
  have hown : (w.dry.trains[i]).bed j = ⟨.ready, 0, 0⟩ := (hw.alike.bed j).trans ((hbody.bed j).trans ((stayed_bed _ _ j).trans hbed))
  have hpartner : (w.dry.trains[i]).bed j.partner = x.bed j.partner :=
    (hw.alike.bed _).trans ((hbody.bed _).trans ((stayed_bed _ _ _).trans (hother.trans (halike.bed _))))
  obtain ⟨_, hstayedCfg, hstayedCap⟩ := (stayed_fields ((u.dry.trains[i]).cooled j) j.partner).1
  have hbedCap : (w.dry.trains[i]).bedCap = x.bedCap :=
    hw.alike.bedCap.trans (hbody.bedCap.trans (hstayedCap.trans (hcap.trans halike.bedCap)))
  have hconfig : (w.dry.trains[i]).cfg = x.cfg := hw.alike.cfg.trans (hbody.cfg.trans (hstayedCfg.trans (hcfg.trans halike.cfg)))
  refine ⟨hfirst, bedTest_testStays ?_ fun h => hreach ((reaches_congr hbedCap hconfig hpartner).mp h.1), hown, hpartner, hbedCap, hconfig⟩
  exact adsorbing_some (by rw [hpartner]; exact hp) (by rw [Side.partner_partner, hown]; nofun)

theorem run_cooledOut (hp : (x.bed j.partner).state = .ready) (hout : (u.dry.trains[i]).state = .out) :
    bedTest handWithdrawal i w = w ∧ (w.dry.trains[i]).bed j = ⟨.ready, 0, 0⟩ ∧ (w.dry.trains[i]).bed j.partner = x.bed j.partner := by
  have halike := hu.alike
  obtain ⟨hown, hpartner⟩ := (cooled_endCooling u i j).out (by rw [halike.bed, hp]; nofun) hout
  rw [timed_cools hu (rests_of_ready hp) hcool] at hw
  have hown' := (hw.alike.bed j).trans hown
  have hpartner' := ((hw.alike.bed _).trans hpartner).trans (halike.bed _)
  exact ⟨bedTest_none _ _ (adsorbing_none (j := j) (by rw [hown']; nofun) (by rw [hpartner', hp]; nofun)), hown', hpartner'⟩

/-- A bed that cools beside a READY one: the lower one adsorbs. -/
theorem run_cooledTakes (hp : (x.bed j.partner).state = .ready) (hout : (u.dry.trains[i]).state ≠ .out)
    (hcap : 0 < x.bedCap * 3600000000 * x.cfg.swapPoint) :
    ((bedTest handWithdrawal i w).dry.trains[i]).lo = ⟨.adsorbing, 0, 0⟩
    ∧ ((bedTest handWithdrawal i w).dry.trains[i]).hi = (if j = .hi then ⟨.ready, 0, 0⟩ else x.bed j.partner)
    ∧ toldBetween u (timed x i u) [swapTold u i .lo] := by
  have halike := hu.alike
  have hp' : ((u.dry.trains[i]).bed j.partner).state = .ready := by rw [halike.bed]; exact hp
  have hready : ((u.dry.trains[i]).cooled j).readyBed = some .lo := by
    cases j
    · exact readyBed_cooled (.inl rfl)
    · exact readyBed_cooled_lo rfl hp'
  obtain ⟨⟨hbody, _⟩, htold⟩ := endCooling_takes (by rw [hp']; nofun) hout hready
  have hbeds : ((u.dry.trains[i]).cooled j).bed .hi = if j = .hi then ⟨.ready, 0, 0⟩ else x.bed j.partner := by
    cases j
    · exact halike.bed .hi
    · rfl
  rw [timed_cools hu (rests_of_ready hp) hcool] at hw ⊢
  have hown := (hw.alike.bed .lo).trans ((hbody.alike.bed .lo).trans (takenUp_beds _ .lo).1)
  have hpartner := (hw.alike.bed .hi).trans ((hbody.alike.bed .hi).trans ((takenUp_beds _ .lo).2.trans hbeds))
  obtain ⟨hcfg, hbedCap, _⟩ := cooled_fields u.dry.trains[i] j
  have hlow : ¬(w.dry.trains[i]).reaches .lo := by
    rw [Train.reaches, hw.alike.bedCap, hw.alike.cfg, hbody.alike.bedCap, hbody.alike.cfg, hown]
    have hb : ((u.dry.trains[i]).cooled j |>.takenUp .lo).bedCap = x.bedCap := hbedCap.trans halike.bedCap
    have hc : ((u.dry.trains[i]).cooled j |>.takenUp .lo).cfg = x.cfg := (takenUp_cfg _ _).trans (hcfg.trans halike.cfg)
    rw [hb, hc]
    exact Nat.not_le.mpr (by simpa using hcap)
  have hhi : ((w.dry.trains[i]).bed .hi).state ≠ .adsorbing := by
    rw [hpartner]
    split
    · nofun
    · rw [hp]
      nofun
  have hstay := bedTest_testStays (w := w) (i := i) (adsorbing_some (j := .lo) (by rw [hown]) hhi) fun h => hlow h.1
  exact ⟨(hstay.beds .lo).trans hown, (hstay.beds .hi).trans hpartner, htold⟩

end

section
variable {x : Train} {u w : State} {i : Fin 2} {j : Side} (hu : hasBody i x u) (hw : hasBody i (timed x i u).dry.trains[i] w)
include hu hw

/-! ### An adsorbing bed -/

theorem run_goesOn (h : (x.bed j).state = .adsorbing) (hcool : ¬(x.bed j.partner).cools) : GoesOn x j w.dry.trains[i] :=
  (timed_beside hu (rests_of_adsorbing h) hcool).alike hw.alike

theorem run_swaps (h : (x.bed j).state = .adsorbing) (hp : (x.bed j.partner).state = .ready) (hreach : x.reaches j) :
    TestSwaps i j w (bedTest handWithdrawal i w) ∧ GoesOn x j w.dry.trains[i] ∧ timed x i u = u := by
  have hrest := rests_of_ready hp
  have hgo := run_goesOn hu hw h fun hc => absurd hp (by rw [hc.1]; nofun)
  have hpartner := hgo.partner.trans (advanced_rests hrest)
  refine ⟨bedTest_testSwaps ⟨by rw [hgo.own]; exact h, by rw [hpartner, hp]; nofun⟩
    ((reaches_congr hgo.bedCap hgo.cfg hgo.own).mpr hreach) (by rw [hpartner, hp]), hgo, ?_⟩
  rw [timed_partner (rests_of_adsorbing h), tick_rests hrest]

/-- An adsorbing bed beside one that neither adsorbs nor cools stays, where it does not swap. -/
theorem run_stays (h : (x.bed j).state = .adsorbing) (hp : (x.bed j.partner).state ≠ .adsorbing) (hcool : ¬(x.bed j.partner).cools)
    (hstay : ¬(x.reaches j ∧ (x.bed j.partner).state = .ready)) : TestStays i j w (bedTest handWithdrawal i w) ∧ GoesOn x j w.dry.trains[i] := by
  have hgo := run_goesOn hu hw h hcool
  refine ⟨bedTest_testStays (adsorbing_some (by rw [hgo.own]; exact h) ?_) fun hs => hstay ⟨(reaches_congr hgo.bedCap hgo.cfg hgo.own).mp hs.1,
    (advanced_ready hcool).mp (hgo.partner ▸ hs.2)⟩, hgo⟩
  rw [hgo.partner]
  cases hr : (x.bed j.partner).regenerates
  · rw [advanced_rests hr]
    exact hp
  · exact not_adsorbing_of_regenerates (advanced_regenerates hr hcool)

end

end Sys2Proof.Machine
end

section
/-! SUPPORT. What a second leaves of a train's beds, gathered (R146 to R151). O51. -/

namespace Sys2Proof.Machine

section
variable {x : Train} {u w v : State} {i : Fin 2} {j : Side}

theorem deferTold_of (hdoes : Does flowParts u w) (hcap : (w.dry.trains[i]).bedCap = x.bedCap) (hbed : (w.dry.trains[i]).bed j = x.bed j) :
    deferTold w i j = ⟨gasTime u, .bedSwapDeferred, some i.val, some (bedPermille x (x.bed j) : Int)⟩ := by
  rw [deferTold, hdoes.gasTime (by decide), hbed, bedPermille_congr hcap]

theorem degradedTold_of (hdoes : Does flowParts u w) (hcfg : (w.dry.trains[i]).cfg = x.cfg) :
    degradedTold w i = ⟨gasTime u, .trainDegraded, some i.val, some (x.degradedContribution : Int)⟩ := by
  rw [degradedTold, hdoes.gasTime (by decide), degradedContribution_congr hcfg]

/-- A test whose train stands as it was found, but for the bed beside. -/
theorem stood_of_goesOn (hdoes : Does flowParts u w) (hgo : GoesOn x j w.dry.trains[i]) (h : TestStays i j w v) : Stood x i j u v := by
  refine ⟨(h.beds j).trans hgo.own, h.degraded.trans (saturated_congr hgo.bedCap hgo.own),
    h.deferred.trans (reaches_congr hgo.bedCap hgo.cfg hgo.own), fun hreach hdef => ?_, fun hsat hdeg => ?_⟩
  · rw [← deferTold_of hdoes hgo.bedCap hgo.own]
    exact (h.defers ((reaches_congr hgo.bedCap hgo.cfg hgo.own).mpr hreach) (hgo.deferred.trans hdef)).before hdoes
  · rw [← degradedTold_of hdoes hgo.cfg]
    exact (h.degrades ((saturated_congr hgo.bedCap hgo.own).trans hsat) (hgo.degraded.trans hdeg)).before hdoes

variable (hu : hasBody i x u) (hw : hasBody i (timed x i u).dry.trains[i] w) (hdoes : Does flowParts (timed x i u) w)
include hu hw hdoes

omit hu hw in
theorem told_timed {es : List Raised} (h : toldBetween u (timed x i u) es) : toldBetween u (bedTest handWithdrawal i w) es :=
  (h.after hdoes).after ((flowTrain w i).bedTest (.refl _ w))

/-- A bed that cools beside an adsorbing one that stays. -/
theorem stood_of_cooled (hp : (x.bed j).state = .adsorbing) (hcool : (x.bed j.partner).cools) (hreach : ¬x.reaches j) :
    Stood x i j u (bedTest handWithdrawal i w) := by
  have hj := Side.partner_partner j
  obtain ⟨hfirst, hsecond, _, hown, hcap, hcfg⟩ := run_cooledStays (j := j.partner) hu hw hcool (by rw [hj]; exact hp) (by rw [hj]; exact hreach)
  rw [hj] at hfirst hsecond hown
  have halike := hu.alike
  have hdown := does_cooledDown u i j.partner
  obtain ⟨_, hother⟩ := cooled_beds u.dry.trains[i] j.partner
  rw [hj] at hother
  obtain ⟨hcfg', hcap', _⟩ := cooled_fields u.dry.trains[i] j.partner
  have hdeg : ((u.dry.trains[i]).cooled j.partner).degraded = x.degraded := by
    refine Eq.trans ?_ halike.degraded
    cases j <;> rfl
  refine ⟨(hsecond.beds j).trans hown, hsecond.degraded.trans (saturated_congr hcap hown), hsecond.deferred.trans (reaches_congr hcap hcfg hown),
    fun h => absurd h hreach, fun hsat hdegraded => ?_⟩
  have hrow := cooledDown_train u i j.partner
  have htold := hfirst.degrades (by rw [hrow, saturated_congr (hcap'.trans halike.bedCap) (hother.trans (halike.bed j))]; exact hsat)
    (by rw [hrow, hdeg]; exact hdegraded)
  rw [degradedTold_of (x := x) hdown (by rw [hrow, hcfg']; exact halike.cfg)] at htold
  exact told_timed hdoes (htold.before hdown)

theorem bedsRun : BedsRun x i u (bedTest handWithdrawal i w) := by
  have hgone : Does flowParts u w := (does_timed x i u).trans hdoes
  refine ⟨fun j => run_runs hu hw, fun j => run_both hu hw, fun j hcool hp hreach => ?_, fun j hcool hp hreach => ?_, fun j hcool hp hout => ?_,
    fun j hcool hp hout hcap => ?_, fun j h hp hreach => ?_, fun j h hp hstay => ?_⟩
  · obtain ⟨hown, hpartner, htold⟩ := run_cooledSwaps hu hw hcool hp hreach
    exact ⟨hown, hpartner, told_timed hdoes htold⟩
  · obtain ⟨_, hsecond, hown, _⟩ := run_cooledStays hu hw hcool hp hreach
    exact (hsecond.beds j).trans hown
  · obtain ⟨hrest, hown, hpartner⟩ := run_cooledOut hu hw hcool hp hout
    rw [hrest]
    exact ⟨hown, hpartner⟩
  · obtain ⟨hlo, hhi, htold⟩ := run_cooledTakes hu hw hcool hp hout hcap
    exact ⟨hlo, hhi, told_timed hdoes htold⟩
  · obtain ⟨⟨hheats, hads, hdeg, hdef, htold⟩, hgo, _⟩ := run_swaps hu hw h hp hreach
    rw [hgo.own, hgo.cfg] at hheats
    rw [swapTold_congr i _ hgone] at htold
    exact ⟨hheats, hads, hdeg, hdef, htold.before hgone⟩
  · by_cases hcool : (x.bed j.partner).cools
    · exact stood_of_cooled hu hw hdoes h hcool fun hr => hstay ⟨hr, .inr hcool⟩
    · obtain ⟨htest, hgo⟩ := run_stays hu hw h hp hcool fun hs => hstay ⟨hs.1, .inl hs.2⟩
      exact stood_of_goesOn hgone hgo htest

end

end Sys2Proof.Machine
end

section
/-! SUPPORT. A second of the beds in which no bed begins to adsorb and no DEGRADED flag changes: nothing is handed on, no mask is
loaded (R146 to R152). O51. -/

namespace Sys2Proof.Machine

/-! ### A part that stands but for its beds -/

/-- A train record but for its beds and their deferred swap. -/
def Train.still (x : Train) : Train := { x with lo := Bed.fresh, hi := Bed.fresh, deferred := false }

/-- What stands but for the beds, their deferred swaps, the gas and the events. -/
structure Still (s u : State) : Prop where
  does : Does [.dry, .evq] s u
  capacity : u.dry.capacity = s.dry.capacity
  trains : ∀ i : Fin 2, (u.dry.trains[i]).still = (s.dry.trains[i]).still

theorem of_still {x y : Train} (h : y.still = x.still) : y = { x with lo := y.lo, hi := y.hi, deferred := y.deferred } := by
  calc y = { y.still with lo := y.lo, hi := y.hi, deferred := y.deferred } := rfl
    _ = { x.still with lo := y.lo, hi := y.hi, deferred := y.deferred } := by rw [h]
    _ = { x with lo := y.lo, hi := y.hi, deferred := y.deferred } := rfl

section
variable {s u v w : State} {i : Fin 2} {j : Side} {x y : Train}

theorem Still.refl (s : State) : Still s s := ⟨.refl _ s, rfl, fun _ => rfl⟩

theorem Still.trans (h : Still s u) (h' : Still u v) : Still s v :=
  ⟨h.does.trans h'.does, h'.capacity.trans h.capacity, fun i => (h'.trains i).trans (h.trains i)⟩

theorem still_putTrain (hy : y.still = (u.dry.trains[i]).still) : Still u (putTrain i y u) := by
  refine ⟨(acts_putTrain i y u (by decide)).does, rfl, fun k => ?_⟩
  rw [putTrain_trains]
  split
  · next hi =>
    subst hi
    exact hy
  · rfl

theorem still_raise (k : EventKind) (a : Option Nat) (b : Option Int) (u : State) : Still u (raise k a b u) :=
  ⟨(acts_raise u k a b (by decide)).does, rfl, fun _ => rfl⟩

theorem still_setBed (x : Train) (j : Side) (b : Bed) : (x.setBed j b).still = x.still := by cases j <;> rfl

theorem still_cooledDown (u : State) (i : Fin 2) (j : Side) : Still u (cooledDown u i j) := still_putTrain (still_setBed _ j _)

theorem still_flagged (u : State) (i : Fin 2) (j : Side) : Still u (flagged u i j) := by
  rw [flagged]
  split
  · cases hdef : (u.dry.trains[i]).deferred
    · rw [deferSwap_clear u i j hdef]
      exact (still_putTrain (y := (u.dry.trains[i]).defer true) rfl).trans (still_raise _ _ _ _)
    · rw [deferSwap_set u i j hdef]
      exact .refl u
  · exact still_putTrain (y := (u.dry.trains[i]).defer false) rfl

/-! ### A test that changes no flag -/

theorem still_bedTest (h : (w.dry.trains[i]).adsorbing = some j)
    (hstay : ¬((w.dry.trains[i]).reaches j ∧ ((w.dry.trains[i]).bed j.partner).state = .ready))
    (hdeg : ((bedTest handWithdrawal i w).dry.trains[i]).degraded = (w.dry.trains[i]).degraded) : Still w (bedTest handWithdrawal i w) := by
  have hsat := (bedTest_testStays h hstay).degraded.symm.trans hdeg
  rw [bedTest_stays w i h fun hs => hstay ⟨(reachedSwap_iff _ j).mp hs.1, hs.2⟩, testSaturation_rests]
  · exact still_flagged w i j
  · rw [saturated_flagged, flagged_train, defer_degraded]
    exact hsat

/-! ### A train that comes to adsorb goes on to -/

theorem adsorbing_ne_none (h : (x.bed j).state = .adsorbing) : x.adsorbing ≠ none := by
  intro hnone
  obtain ⟨hlo, hhi⟩ := (Train.adsorbing_none x).mp hnone
  cases j
  · exact hlo h
  · exact hhi h

theorem adsorbs_bedTest (h : (w.dry.trains[i]).adsorbing ≠ none) : ((bedTest handWithdrawal i w).dry.trains[i]).adsorbing ≠ none := by
  obtain ⟨k, hk⟩ := Option.ne_none_iff_exists'.mp h
  by_cases hswap : (w.dry.trains[i]).reaches k ∧ ((w.dry.trains[i]).bed k.partner).state = .ready
  · have hsw := bedTest_testSwaps ⟨adsorbing_eq hk, by rw [hswap.2]; nofun⟩ hswap.1 hswap.2
    exact adsorbing_ne_none (j := k.partner) (by rw [hsw.adsorbs])
  · exact adsorbing_ne_none (j := k) (by rw [(bedTest_testStays hk hswap).beds]; exact adsorbing_eq hk)

theorem adsorbs_takeUp (h : (w.dry.trains[i]).adsorbing ≠ none) : ((takeUp handWithdrawal i w).dry.trains[i]).adsorbing ≠ none := by
  obtain ⟨k, hk⟩ := Option.ne_none_iff_exists'.mp h
  rw [takeUp_some w i hk]
  exact h

theorem adsorbs_tick (hbed : (u.dry.trains[i]).bed j = x.bed j) (h : (u.dry.trains[i]).adsorbing ≠ none) :
    ((tick x i j u).dry.trains[i]).adsorbing ≠ none := by
  cases hregen : (x.bed j).regenerates
  · rw [tick_rests hregen]
    exact h
  · obtain ⟨k, hk⟩ := Option.ne_none_iff_exists'.mp h
    have hads := adsorbing_eq hk
    have hkj : k = j.partner := (side_cases k j).resolve_left fun he =>
      not_adsorbing_of_regenerates hregen (by rw [← hbed, ← he]; exact hads)
    by_cases hcool : (x.bed j).cools
    · rw [tick_cools hbed hcool, endCooling_eq]
      refine adsorbs_takeUp (adsorbs_bedTest (adsorbing_ne_none (j := j.partner) ?_))
      rw [cooledDown_train, (cooled_beds _ j).2, ← hkj]
      exact hads
    · rw [tick_advances hbed hcool]
      refine adsorbing_ne_none (j := j.partner) ?_
      rw [putTrain_own, Train.advanced, setBed_partner, ← hkj]
      exact hads

/-- Where no bed adsorbs before and after its second, nothing is handed on. -/
theorem still_tick (hbed : (x.bed j).regenerates = true → (u.dry.trains[i]).bed j = x.bed j) (hnone : (u.dry.trains[i]).adsorbing = none)
    (hend : ((tick x i j u).dry.trains[i]).adsorbing = none) : Still u (tick x i j u) := by
  cases hregen : (x.bed j).regenerates
  · rw [tick_rests hregen]
    exact .refl u
  · by_cases hcool : (x.bed j).cools
    · obtain ⟨hlo, hhi⟩ := (Train.adsorbing_none _).mp hnone
      have hp : ((u.dry.trains[i]).bed j.partner).state ≠ .adsorbing := by cases j <;> assumption
      obtain ⟨hnone', htest⟩ := bedTest_cooled_none hp
      rw [tick_cools (hbed hregen) hcool, endCooling_eq, htest] at hend ⊢
      refine (still_cooledDown u i j).trans ?_
      by_cases hout : ((cooledDown u i j).dry.trains[i]).state = .out
      · rw [takeUp_out _ _ hout]
        exact .refl _
      · cases hready : ((cooledDown u i j).dry.trains[i]).readyBed with
        | none =>
          rw [takeUp_none _ _ hready]
          exact .refl _
        | some k =>
          rw [takeUp_takes _ _ hout hnone' hready] at hend
          have hbody := (takeUpBed_spec handFree_withdrawal (cooledDown u i j) i k).1.1.alike
          exact absurd hend (adsorbing_ne_none (j := k) (by rw [hbody.bed, (takenUp_beds _ k).1]))
    · rw [tick_advances (hbed hregen) hcool]
      exact still_putTrain (still_setBed _ j _)

/-! ### A train in which nothing begins -/

/-- No bed begins to adsorb, and DEGRADED stands. -/
structure Rests (x y : Train) : Prop where
  degraded : y.degraded = x.degraded
  beds : ∀ j, (y.bed j).state = .adsorbing → (x.bed j).state = .adsorbing

variable (hu : hasBody i x u) (hw : hasBody i (timed x i u).dry.trains[i] w) (hrest : Rests x (bedTest handWithdrawal i w).dry.trains[i])
include hu hw hrest

theorem still_idle (hnone : x.adsorbing = none) : Still u (timed x i u) ∧ Still w (bedTest handWithdrawal i w) := by
  have hend : ((bedTest handWithdrawal i w).dry.trains[i]).adsorbing = none := by
    by_contra hne
    obtain ⟨k, hk⟩ := Option.ne_none_iff_exists'.mp hne
    exact adsorbing_ne_none (hrest.beds k (adsorbing_eq hk)) hnone
  have hmid : (w.dry.trains[i]).adsorbing = none := by
    by_contra hne
    exact adsorbs_bedTest hne hend
  have htimed : ((timed x i u).dry.trains[i]).adsorbing = none := hw.alike.adsorbing.symm.trans hmid
  have hstart : (u.dry.trains[i]).adsorbing = none := hu.alike.adsorbing.trans hnone
  have hbed := hu.alike.bed
  have hhi (hr : (x.bed .hi).regenerates = true) : ((tick x i .lo u).dry.trains[i]).bed .hi = x.bed .hi :=
    tick_keepsBed (j := .hi) (hbed .lo) hr (hbed .hi)
  have hlo : ((tick x i .lo u).dry.trains[i]).adsorbing = none := by
    by_contra hne
    cases hr : (x.bed .hi).regenerates
    · rw [timed, tick_rests hr] at htimed
      exact hne htimed
    · exact adsorbs_tick (hhi hr) hne htimed
  refine ⟨(still_tick (fun _ => hbed .lo) hstart hlo).trans (still_tick hhi hlo htimed), ?_⟩
  rw [bedTest_none _ _ hmid]
  exact .refl w

theorem still_beside (h : (x.bed j).state = .adsorbing) (hcool : ¬(x.bed j.partner).cools) :
    Still u (timed x i u) ∧ Still w (bedTest handWithdrawal i w) := by
  have hgo := run_goesOn hu hw h hcool
  have hads : ((w.dry.trains[i]).bed j).state = .adsorbing := by rw [hgo.own]; exact h
  refine ⟨by rw [timed_advances hu (rests_of_adsorbing h) hcool]; exact still_putTrain (still_setBed _ _ _), ?_⟩
  obtain ⟨k, hk⟩ := Option.ne_none_iff_exists'.mp (adsorbing_ne_none hads)
  refine still_bedTest hk (fun hs => ?_) (hrest.degraded.trans hgo.degraded.symm)
  have hkj : k = j := (side_cases k j).resolve_right fun he => by
    have hready := hs.2
    rw [he, Side.partner_partner, hads] at hready
    exact absurd hready nofun
  rw [hkj] at hs
  have hready : (x.bed j.partner).state = .ready := (advanced_ready hcool).mp (hgo.partner ▸ hs.2)
  have hsw := bedTest_testSwaps ⟨hads, by rw [hs.2]; nofun⟩ hs.1 hs.2
  have hbegins := hrest.beds j.partner (by rw [hsw.adsorbs])
  rw [hready] at hbegins
  exact absurd hbegins nofun

theorem still_cooled (h : (x.bed j).state = .adsorbing) (hcool : (x.bed j.partner).cools) :
    Still u (timed x i u) ∧ Still w (bedTest handWithdrawal i w) := by
  have hj := Side.partner_partner j
  by_cases hreach : x.reaches j
  · obtain ⟨hads, _⟩ := run_cooledSwaps (j := j.partner) hu hw hcool (by rw [hj]; exact h) (by rw [hj]; exact hreach)
    have hbegins := hrest.beds j.partner (by rw [hads])
    rw [hcool.1] at hbegins
    exact absurd hbegins nofun
  · obtain ⟨hfirst, hsecond, hready, hown, hcap, hcfg⟩ := run_cooledStays (j := j.partner) hu hw hcool (by rw [hj]; exact h) (by rw [hj]; exact hreach)
    rw [hj] at hfirst hsecond hown
    have hsat : x.saturated j = x.degraded := by
      rw [← hrest.degraded, hsecond.degraded, saturated_congr hcap hown]
    have hrow := cooledDown_train u i j.partner
    obtain ⟨_, hcap', _⟩ := cooled_fields u.dry.trains[i] j.partner
    obtain ⟨hdown, hother⟩ := cooled_beds u.dry.trains[i] j.partner
    rw [hj] at hother
    have hdeg : ((u.dry.trains[i]).cooled j.partner).degraded = x.degraded := by
      refine Eq.trans ?_ hu.alike.degraded
      cases j <;> rfl
    have hads : ((u.dry.trains[i]).bed j.partner.partner).state = .adsorbing := by rw [hj, hu.alike.bed]; exact h
    have hlow : ¬(u.dry.trains[i]).reaches j.partner.partner := by
      rw [hj, reaches_congr hu.alike.bedCap hu.alike.cfg (hu.alike.bed j)]
      exact hreach
    have htimed : timed x i u = bedTest handWithdrawal i (cooledDown u i j.partner) :=
      (timed_cools hu (by rw [hj]; exact rests_of_adsorbing h) hcool).trans (endCooling_firstTest hads hlow).1
    have htimedDeg : ((timed x i u).dry.trains[i]).degraded = x.degraded := by
      rw [hfirst.degraded, hrow, saturated_congr (hcap'.trans hu.alike.bedCap) (hother.trans (hu.alike.bed j)), hsat]
    constructor
    · rw [htimed] at htimedDeg ⊢
      refine (still_cooledDown u i j.partner).trans (still_bedTest (j := j) ?_ (fun hs => ?_) ?_)
      · rw [hrow]
        exact adsorbing_some (by rw [hother, hu.alike.bed]; exact h) (by rw [hdown]; nofun)
      · have hr := hs.1
        rw [hrow] at hr
        obtain ⟨hcfg', _, _⟩ := cooled_fields u.dry.trains[i] j.partner
        exact hreach ((reaches_congr (hcap'.trans hu.alike.bedCap) (hcfg'.trans hu.alike.cfg) (hother.trans (hu.alike.bed j))).mp hr)
      · rw [htimedDeg, hrow, hdeg]
    · refine still_bedTest (j := j) (adsorbing_some (by rw [hown]; exact h) (by rw [hready]; nofun)) (fun hs => ?_) ?_
      · exact hreach ((reaches_congr hcap hcfg hown).mp hs.1)
      · rw [hrest.degraded, hw.alike.degraded, htimedDeg]

/-- A second in which nothing begins hands nothing on. -/
theorem still_run : Still u (timed x i u) ∧ Still w (bedTest handWithdrawal i w) := by
  cases hads : x.adsorbing with
  | none => exact still_idle hu hw hrest hads
  | some j =>
    by_cases hcool : (x.bed j.partner).cools
    · exact still_cooled hu hw hrest (adsorbing_eq hads) hcool
    · exact still_beside hu hw hrest (adsorbing_eq hads) hcool

end

end Sys2Proof.Machine
end

section
/-! SUPPORT. The mask and the dew-point timers of a second in which the other train's do not end (R146, R152 to R155). O51. -/

namespace Sys2Proof.Machine

/-! ### One train's timers -/

/-- A train whose mask timer has run for a second. -/
def Train.maskCounted (x : Train) : Train := { x with mask := x.mask - 1 }

/-- A train whose excursion timer has run for a second. -/
def Train.excursionCounted (x : Train) : Train := { x with excursion := x.excursion.map (· - 1) }

/-- A train whose recovery timer has run for a second. -/
def Train.recoveryCounted (x : Train) : Train := { x with recovery := x.recovery.map (· - 1) }

section
variable {u : State} {t : Fin 2}

theorem lastSecond_iff {n : Nat} : lastSecond (some n) = true ↔ n ≤ 1 := by rw [lastSecond, decide_eq_true_iff]

theorem maskCounted_zero {x : Train} (h : x.mask = 0) : x.maskCounted = x := by
  cases x
  subst h
  rfl

theorem excursionCounted_none {x : Train} (h : x.excursion = none) : x.excursionCounted = x := by
  cases x
  subst h
  rfl

theorem recoveryCounted_none {x : Train} (h : x.recovery = none) : x.recoveryCounted = x := by
  cases x
  subst h
  rfl

theorem maskTimer_counts (h : (u.dry.trains[t]).mask ≠ 1) : maskTimer t u = putTrain t (u.dry.trains[t]).maskCounted u := by
  dsimp only [maskTimer]
  by_cases hz : (u.dry.trains[t]).mask = 0
  · rw [if_pos hz, maskCounted_zero hz, putTrain_self]
  · rw [if_neg hz, if_neg h]
    rfl

theorem maskTimer_ends (h : (u.dry.trains[t]).mask = 1) : maskTimer t u = endMask t u := by
  dsimp only [maskTimer]
  rw [if_neg (by rw [h]; decide), if_pos h]

theorem excursionTimer_counts (h : lastSecond (u.dry.trains[t]).excursion = false) :
    excursionTimer t u = putTrain t (u.dry.trains[t]).excursionCounted u := by
  cases hrun : (u.dry.trains[t]).excursion with
  | none =>
    rw [excursionCounted_none hrun, putTrain_self]
    dsimp only [excursionTimer]
    rw [hrun]
  | some n =>
    have hlong : ¬n ≤ 1 := fun hle => absurd (lastSecond_iff.mpr hle) (by rw [← hrun, h]; nofun)
    dsimp only [excursionTimer, Train.excursionCounted]
    rw [hrun]
    exact if_neg hlong

theorem excursionTimer_ends (h : lastSecond (u.dry.trains[t]).excursion = true) : excursionTimer t u = takeExcursion handWithdrawal t u := by
  dsimp only [excursionTimer]
  cases hexc : (u.dry.trains[t]).excursion with
  | none =>
    rw [hexc] at h
    exact absurd h nofun
  | some n =>
    rw [hexc] at h
    exact if_pos (lastSecond_iff.mp h)

theorem recoveryTimer_counts (h : lastSecond (u.dry.trains[t]).recovery = false) :
    recoveryTimer t u = putTrain t (u.dry.trains[t]).recoveryCounted u := by
  cases hrun : (u.dry.trains[t]).recovery with
  | none =>
    rw [recoveryCounted_none hrun, putTrain_self]
    dsimp only [recoveryTimer]
    rw [hrun]
  | some n =>
    have hlong : ¬n ≤ 1 := fun hle => absurd (lastSecond_iff.mpr hle) (by rw [← hrun, h]; nofun)
    dsimp only [recoveryTimer, Train.recoveryCounted]
    rw [hrun]
    exact if_neg hlong

theorem recoveryTimer_ends (h : lastSecond (u.dry.trains[t]).recovery = true) : recoveryTimer t u = takeRecovery handWithdrawal t u := by
  dsimp only [recoveryTimer]
  cases hrec : (u.dry.trains[t]).recovery with
  | none =>
    rw [hrec] at h
    exact absurd h nofun
  | some n =>
    rw [hrec] at h
    exact if_pos (lastSecond_iff.mp h)

end

/-! ### Both trains' -/

/-- Steps 4 to 6 of the second (R146). -/
def timersRun (u : State) : State := bothTrains recoveryTimer (bothTrains excursionTimer (bothTrains maskTimer u))

/-- What holds after a train's part and the other's, in either order. -/
theorem both_of {f : Fin 2 → State → State} {i k : Fin 2} (hik : i ≠ k) {P A B Q : State → Prop} (hi : ∀ u, P u → A (f i u))
    (hk : ∀ u, P u → B (f k u)) (hik' : ∀ u, A u → Q (f k u)) (hki' : ∀ u, B u → Q (f i u)) {u : State} (h : P u) : Q (bothTrains f u) := by
  have hcases : i = 0 ∧ k = 1 ∨ i = 1 ∧ k = 0 := by omega
  rcases hcases with ⟨rfl, rfl⟩ | ⟨rfl, rfl⟩
  · exact hik' _ (hi _ h)
  · exact hki' _ (hk _ h)

/-- What holds of the timers of a train that end no more in this second: its mask's, the dew point's, the recovery's alone. -/
def noneEnds (x : Train) : Prop := x.mask ≠ 1 ∧ lastSecond x.excursion = false ∧ lastSecond x.recovery = false

def noDewEnds (x : Train) : Prop := lastSecond x.excursion = false ∧ lastSecond x.recovery = false

def noRecoveryEnds (x : Train) : Prop := lastSecond x.recovery = false

/-- From `s` only timers have run: train `i` stands at `z`, of train `k` holds `C`. -/
structure Counting (s : State) (i k : Fin 2) (z : Train) (C : Train → Prop) (u : State) : Prop where
  does : Does [.dry, .evq] s u
  own : u.dry.trains[i] = z
  other : C u.dry.trains[k]
  current : wdrCurrent s → wdrCurrent u

section
variable {s u : State} {i k : Fin 2} {z z' y : Train} {C C' : Train → Prop} (hik : i ≠ k)

theorem Counting.flow (h : Counting s i k z C u) : u.flow = s.flow := h.does.flow_eq (by decide)

include hik

theorem Counting.putOwn (h : Counting s i k z C u) (hz : z'.figure = z.figure) : Counting s i k z' C (putTrain i z' u) := by
  refine ⟨h.does.trans (acts_putTrain i z' u (by decide)).does, putTrain_own z', ?_, fun hs => wdrCurrent_putTrain ?_ (h.current hs)⟩
  · rw [putTrain_other z' hik]
    exact h.other
  · rw [h.own, hz]

theorem Counting.putOther (h : Counting s i k z C u) (hy : y.figure = (u.dry.trains[k]).figure) (hC : C' y) :
    Counting s i k z C' (putTrain k y u) := by
  refine ⟨h.does.trans (acts_putTrain k y u (by decide)).does, ?_, by rw [putTrain_own]; exact hC, fun hs =>
    wdrCurrent_putTrain hy (h.current hs)⟩
  rw [putTrain_other y (Ne.symm hik)]
  exact h.own

theorem Counting.maskOther (h : Counting s i k z noneEnds u) : Counting s i k z noDewEnds (maskTimer k u) := by
  rw [maskTimer_counts h.other.1]
  exact h.putOther hik rfl h.other.2

theorem Counting.excursionOther (h : Counting s i k z noDewEnds u) : Counting s i k z noRecoveryEnds (excursionTimer k u) := by
  rw [excursionTimer_counts h.other.1]
  exact h.putOther hik rfl h.other.2

theorem Counting.recoveryOther (h : Counting s i k z noRecoveryEnds u) : Counting s i k z (fun _ => True) (recoveryTimer k u) := by
  rw [recoveryTimer_counts h.other]
  exact h.putOther hik rfl trivial

theorem Counting.maskOwn (h : Counting s i k z C u) (hm : z.mask ≠ 1) : Counting s i k z.maskCounted C (maskTimer i u) := by
  rw [maskTimer_counts (by rw [h.own]; exact hm), h.own]
  exact h.putOwn hik rfl

theorem Counting.excursionOwn (h : Counting s i k z C u) (hm : lastSecond z.excursion = false) :
    Counting s i k z.excursionCounted C (excursionTimer i u) := by
  rw [excursionTimer_counts (by rw [h.own]; exact hm), h.own]
  exact h.putOwn hik rfl

theorem Counting.recoveryOwn (h : Counting s i k z C u) (hm : lastSecond z.recovery = false) :
    Counting s i k z.recoveryCounted C (recoveryTimer i u) := by
  rw [recoveryTimer_counts (by rw [h.own]; exact hm), h.own]
  exact h.putOwn hik rfl

/-! #### The stages without an end -/

/-- The mask's stage, whatever the mask of train `i` does without handing on. -/
theorem Counting.maskStage (hown : ∀ C u, Counting s i k z C u → Counting s i k z' C (maskTimer i u)) (h : Counting s i k z noneEnds u) :
    Counting s i k z' noDewEnds (bothTrains maskTimer u) :=
  both_of hik (P := Counting s i k z noneEnds) (fun v hv => hown noneEnds v hv) (fun _ hv => hv.maskOther hik)
    (fun _ hv => hv.maskOther hik) (fun v hv => hown noDewEnds v hv) h

theorem Counting.excursionStage (h : Counting s i k z noDewEnds u) (hm : lastSecond z.excursion = false) :
    Counting s i k z.excursionCounted noRecoveryEnds (bothTrains excursionTimer u) :=
  both_of hik (P := Counting s i k z noDewEnds) (fun _ hv => hv.excursionOwn hik hm) (fun _ hv => hv.excursionOther hik)
    (fun _ hv => hv.excursionOther hik) (fun _ hv => hv.excursionOwn hik hm) h

theorem Counting.recoveryStage (h : Counting s i k z noRecoveryEnds u) (hm : lastSecond z.recovery = false) :
    Counting s i k z.recoveryCounted (fun _ => True) (bothTrains recoveryTimer u) :=
  both_of hik (P := Counting s i k z noRecoveryEnds) (fun _ hv => hv.recoveryOwn hik hm) (fun _ hv => hv.recoveryOther hik)
    (fun _ hv => hv.recoveryOther hik) (fun _ hv => hv.recoveryOwn hik hm) h

end

/-! ### A train that leaves specification -/

/-- Train `i` has left specification as `z`, which the event `e` has told. -/
structure Gone (s : State) (i : Fin 2) (z : Train) (e : Raised) (u : State) : Prop where
  off : z.state = .offSpec
  own : (u.dry.trains[i]).unshared = z.unshared
  told : toldBetween s u [e]

section
variable {s u : State} {i k : Fin 2} {z : Train} {C : Train → Prop} {e : Raised} (hik : i ≠ k)

/-- What the other train does does not reach it. -/
theorem Gone.other {f : State → State} (hf : ∀ P : State → Prop, TrainKept handWithdrawal k P P → ∀ v, P v → P (f v)) (hik : i ≠ k)
    (h : Gone s i z e u) : Gone s i z e (f u) := by
  have hrest : z.inService = false := by rw [Train.inService, h.off]; rfl
  refine ⟨h.off, hf _ ((shareFree_unshared z).train (Ne.symm hik) fun v hv => ?_) u h.own, h.told.after (hf _ (flowTrain u k) u (.refl _ u))⟩
  exact (unshared_hand (rests_of_unshared hrest hv)).trans hv

theorem Gone.putOwn {z' : Train} (h : Gone s i z e u) (hoff : z'.state = .offSpec) : Gone s i z' e (putTrain i z' u) :=
  ⟨hoff, by rw [putTrain_own], h.told.after (acts_putTrain i z' u (ps := flowParts) (by decide)).does⟩

theorem Gone.excursionOwn (h : Gone s i z e u) (hexc : z.excursion = none) : Gone s i z e (excursionTimer i u) := by
  have hnone : (u.dry.trains[i]).excursion = none := by rw [of_unshared h.own]; exact hexc
  have hsame : excursionTimer i u = u := by
    dsimp only [excursionTimer]
    rw [hnone]
  rw [hsame]
  exact h

theorem Gone.recoveryOwn (h : Gone s i z e u) (hrec : lastSecond z.recovery = false) : Gone s i z.recoveryCounted e (recoveryTimer i u) := by
  have hown := of_unshared h.own
  rw [recoveryTimer_counts (by rw [hown]; exact hrec)]
  refine ⟨h.off, ?_, h.told.after (acts_putTrain i _ u (ps := flowParts) (by decide)).does⟩
  rw [putTrain_own, hown]
  rfl

include hik

theorem Gone.excursionStage (h : Gone s i z e u) (hexc : z.excursion = none) : Gone s i z e (bothTrains excursionTimer u) := by
  have hother (v : State) (hv : Gone s i z e v) := hv.other (fun _ hP _ hw => hP.excursionTimer hw) hik
  exact both_of hik (P := Gone s i z e) (fun _ hv => hv.excursionOwn hexc) hother hother (fun _ hv => hv.excursionOwn hexc) h

theorem Gone.recoveryStage (h : Gone s i z e u) (hrec : lastSecond z.recovery = false) :
    Gone s i z.recoveryCounted e (bothTrains recoveryTimer u) := by
  have hother (z : Train) (v : State) (hv : Gone s i z e v) := hv.other (fun _ hP _ hw => hP.recoveryTimer hw) hik
  exact both_of hik (P := Gone s i z e) (fun _ hv => hv.recoveryOwn hrec) (hother z) (hother _) (fun _ hv => hv.recoveryOwn hrec) h

/-- The event of a train that leaves specification. -/
def goneTold (s : State) (i : Fin 2) (z : Train) : Raised := ⟨gasTime s, .offSpec, some i.val, some z.dew⟩

omit hik in
theorem Counting.excursionEnds (h : Counting s i k z C u) (hexc : lastSecond z.excursion = true) :
    Gone s i z.left (goneTold s i z) (excursionTimer i u) := by
  have htold := told_takeExcursion i u
  have hrow := excursed_train i u
  rw [h.own, h.does.gasTime (by decide)] at htold
  rw [h.own] at hrow
  rw [excursionTimer_ends (by rw [h.own]; exact hexc)]
  exact ⟨rfl, hrow, htold.before (h.does.mono (qs := flowParts) (by decide))⟩

theorem Counting.excursionStage_ends (h : Counting s i k z noDewEnds u) (hexc : lastSecond z.excursion = true) :
    Gone s i z.left (goneTold s i z) (bothTrains excursionTimer u) :=
  both_of hik (P := Counting s i k z noDewEnds) (fun _ hv => hv.excursionEnds hexc) (fun _ hv => hv.excursionOther hik)
    (fun _ hv => hv.other (fun _ hP _ hw => hP.excursionTimer hw) hik) (fun _ hv => hv.excursionEnds hexc) h

end

/-! ### A train that comes back -/

/-- Train `i` has come back from `z`. -/
structure CameBack (s : State) (i : Fin 2) (z : Train) (u : State) : Prop where
  state : (u.dry.trains[i]).state = backState s.flow.dir
  mask : (u.dry.trains[i]).mask = z.cfg.maskChoice
  recovery : (u.dry.trains[i]).recovery = none
  told : toldBetween s u [⟨gasTime s, .onSpec, some i.val, some z.dew⟩]

section
variable {s u : State} {i k : Fin 2} {z : Train} {C : Train → Prop} (hik : i ≠ k)
include hik

theorem CameBack.recoveryOther (h : CameBack s i z u) (hk : noRecoveryEnds u.dry.trains[k]) : CameBack s i z (recoveryTimer k u) := by
  rw [recoveryTimer_counts hk]
  have hown := putTrain_other (s := u) (u.dry.trains[k]).recoveryCounted (Ne.symm hik)
  exact ⟨by rw [hown]; exact h.state, by rw [hown]; exact h.mask, by rw [hown]; exact h.recovery,
    h.told.after (acts_putTrain k _ u (ps := flowParts) (by decide)).does⟩

omit hik in
theorem Counting.recoveryEnds (h : Counting s i k z C u) (hrec : lastSecond z.recovery = true) (hoff : z.state = .offSpec) (hcur : wdrCurrent s)
    (hstays : ¬(z.cfg.maskChoice = 0 ∧ z.cfg.spec < z.dew ∧ z.cfg.excursionDelay = 0)) :
    CameBack s i z (recoveryTimer i u) ∧ ∀ j ≠ i, ((recoveryTimer i u).dry.trains[j]).unshared = (u.dry.trains[j]).unshared := by
  have hback := takeRecovery_calm (t := i) (h.current hcur) (by rw [h.own, Train.inService, hoff]; rfl) (by rw [h.own]; exact hstays)
  have htold := told_takeRecovery i u
  obtain ⟨hstate, hmask, hnone, _, hothers⟩ := hback
  rw [h.own, h.does.gasTime (by decide)] at htold
  rw [h.flow] at hstate
  rw [h.own] at hmask
  rw [recoveryTimer_ends (by rw [h.own]; exact hrec)]
  exact ⟨⟨hstate, hmask, hnone, htold.before (h.does.mono (qs := flowParts) (by decide))⟩, hothers⟩

theorem Counting.recoveryStage_ends (h : Counting s i k z noRecoveryEnds u) (hrec : lastSecond z.recovery = true) (hoff : z.state = .offSpec)
    (hcur : wdrCurrent s) (hstays : ¬(z.cfg.maskChoice = 0 ∧ z.cfg.spec < z.dew ∧ z.cfg.excursionDelay = 0)) :
    CameBack s i z (bothTrains recoveryTimer u) := by
  refine both_of hik (P := Counting s i k z noRecoveryEnds) (A := fun v => CameBack s i z v ∧ noRecoveryEnds v.dry.trains[k])
    (fun v hv => ?_) (fun _ hv => hv.recoveryOther hik) (fun _ hv => hv.1.recoveryOther hik hv.2)
    (fun _ hv => (hv.recoveryEnds hrec hoff hcur hstays).1) h
  obtain ⟨hback, hothers⟩ := hv.recoveryEnds hrec hoff hcur hstays
  refine ⟨hback, ?_⟩
  have hsame := of_unshared (hothers k (Ne.symm hik))
  rw [noRecoveryEnds, hsame]
  exact hv.other

end

end Sys2Proof.Machine
end

section
/-! SUPPORT. A mask's last second among the timers of a second, and what the timers leave of a train (R146, R152 to R155). O51. -/

namespace Sys2Proof.Machine

section
variable {s u v : State} {i k : Fin 2} {z z' : Train} {C : Train → Prop} (hik : i ≠ k)
include hik

/-! ### A mask's last second -/

theorem Counting.toDry (h : Counting s i k z C u) (hdoes : Does [.dry, .evq] u v) (hdry : v.dry = (putTrain i z' u).dry) (hz : z'.figure = z.figure) :
    Counting s i k z' C v := by
  have hput := h.putOwn hik hz
  refine ⟨h.does.trans hdoes, by rw [hdry]; exact hput.own, by rw [hdry]; exact hput.other, fun hs => ?_⟩
  exact wdrCurrent_plant hdry (hdoes.same (p := .site) (by decide)) (hdoes.flow_eq (by decide)) (hput.current hs)

/-- A train whose dew point is not assessed. -/
theorem Counting.unmaskIdle (h : Counting s i k z C u) (hm : z.mask = 1) (hst : z.state ≠ .online ∧ z.state ≠ .offSpec) :
    Counting s i k z.unmasked C (maskTimer i u) := by
  rw [maskTimer_ends (by rw [h.own]; exact hm), endMask_idle (by rw [h.own]; exact hst.1) (by rw [h.own]; exact hst.2), unmaskedAt, h.own]
  exact h.putOwn hik rfl

/-- One that is assessed in ONLINE and stays. -/
theorem Counting.unmaskStays (h : Counting s i k z C u) (hm : z.mask = 1) (hon : z.state = .online) (hin : ¬z.leaves) :
    Counting s i k z.unmasked.excursionSet.armedSet C (maskTimer i u) := by
  have hown : (unmaskedAt u i).dry.trains[i] = z.unmasked := by rw [unmaskedAt_train, h.own]
  obtain ⟨hacts, hdry⟩ := assess_stays (hand := handWithdrawal) (s := unmaskedAt u i) (t := i) (by rw [hown]; rfl) (by rw [hown]; exact hon)
    (by rw [hown]; exact hin)
  rw [hown, unmaskedAt, putTrain_putTrain] at hdry
  rw [maskTimer_ends (by rw [h.own]; exact hm), endMask_eq]
  exact h.toDry hik (acts_unmaskedAt.does.trans hacts.does) hdry rfl

/-- One that is assessed in OFF_SPEC and waits. -/
theorem Counting.unmaskWaits (h : Counting s i k z C u) (hm : z.mask = 1) (hoff : z.state = .offSpec) (hout : ¬z.returns) :
    Counting s i k z.unmasked.armedSet.recoverySet C (maskTimer i u) := by
  have hown : (unmaskedAt u i).dry.trains[i] = z.unmasked := by rw [unmaskedAt_train, h.own]
  obtain ⟨hacts, hdry⟩ := assess_waits (hand := handWithdrawal) (s := unmaskedAt u i) (t := i) (by rw [hown]; rfl) (by rw [hown]; exact hoff)
    (by rw [hown]; exact hout)
  rw [hown, unmaskedAt, putTrain_putTrain] at hdry
  rw [maskTimer_ends (by rw [h.own]; exact hm), endMask_eq]
  exact h.toDry hik (acts_unmaskedAt.does.trans hacts.does) hdry rfl

omit hik in
/-- One that is assessed in ONLINE and leaves. -/
theorem Counting.unmaskLeaves (h : Counting s i k z C u) (hm : z.mask = 1) (hon : z.state = .online) (hout : z.leaves) :
    Gone s i z.unmasked.left.armedSet (goneTold s i z) (maskTimer i u) := by
  have hown : (unmaskedAt u i).dry.trains[i] = z.unmasked := by rw [unmaskedAt_train, h.own]
  have hrow := assess_leaves_train (s := unmaskedAt u i) (t := i) (by rw [hown]; rfl) (by rw [hown]; exact hon) (by rw [hown]; exact hout)
  have htold := told_endMask_leaves (t := i) (s := u) (by rw [h.own]; exact hon) (by rw [h.own]; exact hout)
  rw [hown] at hrow
  rw [h.own, h.does.gasTime (by decide)] at htold
  rw [maskTimer_ends (by rw [h.own]; exact hm)]
  exact ⟨rfl, hrow, htold.before (h.does.mono (qs := flowParts) (by decide))⟩

theorem Counting.maskStage_leaves (h : Counting s i k z noneEnds u) (hm : z.mask = 1) (hon : z.state = .online) (hout : z.leaves) :
    Gone s i z.unmasked.left.armedSet (goneTold s i z) (bothTrains maskTimer u) :=
  both_of hik (P := Counting s i k z noneEnds) (fun _ hv => hv.unmaskLeaves hm hon hout) (fun _ hv => hv.maskOther hik)
    (fun _ hv => hv.other (fun _ hP _ hw => hP.maskTimer hw) hik) (fun _ hv => hv.unmaskLeaves hm hon hout) h

/-! ### The stages after the mask's -/

section
variable (hown : ∀ C u, Counting s i k z C u → Counting s i k z' C (maskTimer i u)) (h : Counting s i k z noneEnds u)
include hown h

theorem Counting.runs (hexc : lastSecond z'.excursion = false) (hrec : lastSecond z'.recovery = false) :
    (timersRun u).dry.trains[i] = z'.excursionCounted.recoveryCounted := by
  rw [timersRun]
  exact (((h.maskStage hik hown).excursionStage hik hexc).recoveryStage hik hrec).own

theorem Counting.runs_leaves (hexc : lastSecond z'.excursion = true) (hrec : lastSecond z'.recovery = false) :
    Gone s i z'.left.recoveryCounted (goneTold s i z') (timersRun u) := by
  rw [timersRun]
  exact ((h.maskStage hik hown).excursionStage_ends hik hexc).recoveryStage hik hrec

theorem Counting.runs_returns (hexc : lastSecond z'.excursion = false) (hrec : lastSecond z'.recovery = true) (hoff : z'.state = .offSpec)
    (hcur : wdrCurrent s) (hstays : ¬(z'.cfg.maskChoice = 0 ∧ z'.cfg.spec < z'.dew ∧ z'.cfg.excursionDelay = 0)) :
    CameBack s i z'.excursionCounted (timersRun u) := by
  rw [timersRun]
  exact ((h.maskStage hik hown).excursionStage hik hexc).recoveryStage_ends hik hrec hoff hcur hstays

end

theorem Counting.runs_masked (h : Counting s i k z noneEnds u) (hm : z.mask = 1) (hon : z.state = .online) (hout : z.leaves)
    (hrec : lastSecond z.recovery = false) : Gone s i z.unmasked.left.armedSet.recoveryCounted (goneTold s i z) (timersRun u) := by
  rw [timersRun]
  exact ((h.maskStage_leaves hik hm hon hout).excursionStage hik rfl).recoveryStage hik hrec

end

/-! ### What the timers leave of a train -/

/-- What the timers of a second leave of train `i`, which stood at `x`: its mask running, and its mask in its last second. -/
structure TimersRun (s : State) (i : Fin 2) (x : Train) (v : State) : Prop where
  mask : x.mask ≠ 1 → lastSecond x.recovery = false → (v.dry.trains[i]).mask = x.mask - 1
  excursion : x.mask ≠ 1 → lastSecond x.recovery = false → ∀ n : Nat, x.excursion = some n → 1 < n →
    (v.dry.trains[i]).excursion = some (n - 1) ∧ (v.dry.trains[i]).state = x.state
  leaves : x.mask ≠ 1 → lastSecond x.recovery = false → lastSecond x.excursion = true →
    (v.dry.trains[i]).state = .offSpec ∧ (v.dry.trains[i]).excursion = none ∧ toldBetween s v [goneTold s i x]
  recovery : x.mask ≠ 1 → lastSecond x.excursion = false → ∀ n : Nat, x.recovery = some n → 1 < n →
    (v.dry.trains[i]).recovery = some (n - 1) ∧ (v.dry.trains[i]).state = x.state
  returns : x.mask ≠ 1 → lastSecond x.excursion = false → lastSecond x.recovery = true → x.state = .offSpec → wdrCurrent s →
    ¬(x.cfg.maskChoice = 0 ∧ x.cfg.spec < x.dew ∧ x.cfg.excursionDelay = 0) → CameBack s i x v
  idle : x.mask = 1 → x.excursion = none → x.recovery = none → x.state ≠ .online → x.state ≠ .offSpec →
    (v.dry.trains[i]).mask = 0 ∧ (v.dry.trains[i]).state = x.state
  stays : x.mask = 1 → x.excursion = none → x.recovery = none → x.state = .online → (x.cfg.spec < x.dew → 1 < x.cfg.excursionDelay) →
    (v.dry.trains[i]).mask = 0 ∧ (v.dry.trains[i]).state = .online
    ∧ (v.dry.trains[i]).excursion = if x.cfg.spec < x.dew then some (x.cfg.excursionDelay - 1) else none
  goes : x.mask = 1 → x.excursion = none → x.recovery = none → x.state = .online → x.cfg.spec < x.dew → x.cfg.excursionDelay ≤ 1 →
    (v.dry.trains[i]).mask = 0 ∧ (v.dry.trains[i]).state = .offSpec ∧ toldBetween s v [goneTold s i x]
  waits : x.mask = 1 → x.excursion = none → x.recovery = none → x.state = .offSpec → (x.dew < x.cfg.warn → 1 < x.cfg.recoveryDelay) →
    (v.dry.trains[i]).mask = 0 ∧ (v.dry.trains[i]).state = .offSpec
    ∧ (v.dry.trains[i]).recovery = if x.dew < x.cfg.warn then some (x.cfg.recoveryDelay - 1) else none

theorem lastSecond_long {n : Nat} (h : 1 < n) : lastSecond (some n) = false := decide_eq_false (by omega)

theorem Gone.fields {s u : State} {i : Fin 2} {z : Train} {e : Raised} (h : Gone s i z e u) : (u.dry.trains[i]).state = .offSpec
    ∧ (u.dry.trains[i]).mask = z.mask ∧ (u.dry.trains[i]).excursion = z.excursion := by
  rw [of_unshared h.own]
  exact ⟨h.off, rfl, rfl⟩

theorem excursionSet_runs {x : Train} (hexc : x.excursion = none) (hlong : x.cfg.spec < x.dew → 1 < x.cfg.excursionDelay) :
    lastSecond x.excursionSet.excursion = false
    ∧ x.excursionSet.excursion.map (· - 1) = if x.cfg.spec < x.dew then some (x.cfg.excursionDelay - 1) else none := by
  rw [Train.excursionSet, hexc]
  dsimp only
  split
  · next hs => exact ⟨lastSecond_long (hlong hs), rfl⟩
  · exact ⟨rfl, rfl⟩

theorem recoverySet_runs {x : Train} (hrec : x.recovery = none) (hlong : x.dew < x.cfg.warn → 1 < x.cfg.recoveryDelay) :
    lastSecond x.recoverySet.recovery = false
    ∧ x.recoverySet.recovery.map (· - 1) = if x.dew < x.cfg.warn then some (x.cfg.recoveryDelay - 1) else none := by
  rw [Train.recoverySet, hrec]
  dsimp only
  split
  · next hs => exact ⟨lastSecond_long (hlong hs), rfl⟩
  · exact ⟨rfl, rfl⟩

theorem not_leaves {x : Train} (hlong : x.cfg.spec < x.dew → 1 < x.cfg.excursionDelay) : ¬x.leaves := by
  rintro ⟨hs, _, hd⟩
  have := hlong hs
  omega

theorem not_returns {x : Train} (hlong : x.dew < x.cfg.warn → 1 < x.cfg.recoveryDelay) : ¬x.returns := by
  rintro ⟨hs, _, hd⟩
  have := hlong hs
  omega

section
variable {s u : State} {i k : Fin 2} {x : Train} (hik : i ≠ k) (h : Counting s i k x noneEnds u)
include hik h

theorem timers_stays (hm : x.mask = 1) (hexc : x.excursion = none) (hrec : lastSecond x.recovery = false) (hon : x.state = .online)
    (hlong : x.cfg.spec < x.dew → 1 < x.cfg.excursionDelay) :
    (timersRun u).dry.trains[i] = x.unmasked.excursionSet.armedSet.excursionCounted.recoveryCounted :=
  Counting.runs (z' := x.unmasked.excursionSet.armedSet) hik (fun _ _ hv => hv.unmaskStays hik hm hon (not_leaves hlong)) h
    (excursionSet_runs (x := x.unmasked) hexc hlong).1 hrec

theorem timers_waits (hm : x.mask = 1) (hexc : lastSecond x.excursion = false) (hrec : x.recovery = none) (hoff : x.state = .offSpec)
    (hlong : x.dew < x.cfg.warn → 1 < x.cfg.recoveryDelay) :
    (timersRun u).dry.trains[i] = x.unmasked.armedSet.recoverySet.excursionCounted.recoveryCounted :=
  Counting.runs (z' := x.unmasked.armedSet.recoverySet) hik (fun _ _ hv => hv.unmaskWaits hik hm hoff (not_returns hlong)) h hexc
    (recoverySet_runs (x := x.unmasked.armedSet) hrec hlong).1

theorem timers_goes (hm : x.mask = 1) (hexc : x.excursion = none) (hrec : lastSecond x.recovery = false) (hon : x.state = .online)
    (hspec : x.cfg.spec < x.dew) (hdelay : x.cfg.excursionDelay ≤ 1) :
    ∃ z : Train, z.mask = 0 ∧ Gone s i z (goneTold s i x) (timersRun u) := by
  by_cases hzero : x.cfg.excursionDelay = 0
  · exact ⟨x.unmasked.left.armedSet.recoveryCounted, rfl, h.runs_masked hik hm hon ⟨hspec, hexc, hzero⟩ hrec⟩
  · refine ⟨x.unmasked.excursionSet.armedSet.left.recoveryCounted, rfl, Counting.runs_leaves (z' := x.unmasked.excursionSet.armedSet) hik
      (fun _ _ hv => hv.unmaskStays hik hm hon fun hl => hzero hl.2.2) h ?_ hrec⟩
    have hset : x.unmasked.excursionSet.armedSet.excursion = some x.cfg.excursionDelay := by
      have hstart : x.unmasked.excursionSet.armedSet.excursion =
          if x.cfg.spec < x.dew then some (x.excursion.getD x.cfg.excursionDelay) else none := rfl
      rw [hstart, if_pos hspec, hexc]
      rfl
    rw [hset]
    exact lastSecond_iff.mpr hdelay

theorem timers_counts (hm : x.mask ≠ 1) (hexc : lastSecond x.excursion = false) (hrec : lastSecond x.recovery = false) :
    (timersRun u).dry.trains[i] = x.maskCounted.excursionCounted.recoveryCounted :=
  Counting.runs (z' := x.maskCounted) hik (fun _ _ hv => hv.maskOwn hik hm) h hexc hrec

theorem timers_leaves (hm : x.mask ≠ 1) (hexc : lastSecond x.excursion = true) (hrec : lastSecond x.recovery = false) :
    Gone s i x.maskCounted.left.recoveryCounted (goneTold s i x) (timersRun u) :=
  Counting.runs_leaves (z' := x.maskCounted) hik (fun _ _ hv => hv.maskOwn hik hm) h hexc hrec

theorem timers_returns (hm : x.mask ≠ 1) (hexc : lastSecond x.excursion = false) (hrec : lastSecond x.recovery = true) (hoff : x.state = .offSpec)
    (hcur : wdrCurrent s) (hstays : ¬(x.cfg.maskChoice = 0 ∧ x.cfg.spec < x.dew ∧ x.cfg.excursionDelay = 0)) :
    CameBack s i x (timersRun u) := by
  obtain ⟨hstate, hmask, hnone, htold⟩ := Counting.runs_returns (z' := x.maskCounted) hik (fun _ _ hv => hv.maskOwn hik hm) h hexc hrec
    hoff hcur hstays
  exact ⟨hstate, hmask, hnone, htold⟩

theorem timers_idle (hm : x.mask = 1) (hexc : lastSecond x.excursion = false) (hrec : lastSecond x.recovery = false)
    (hst : x.state ≠ .online ∧ x.state ≠ .offSpec) : (timersRun u).dry.trains[i] = x.unmasked.excursionCounted.recoveryCounted :=
  Counting.runs (z' := x.unmasked) hik (fun _ _ hv => hv.unmaskIdle hik hm hst) h hexc hrec

theorem timers_run : TimersRun s i x (timersRun u) := by
  have hnone {o : Option Nat} (ho : o = none) : lastSecond o = false := by rw [ho]; rfl
  have hlong {o : Option Nat} {n : Nat} (ho : o = some n) (hn : 1 < n) : lastSecond o = false := by rw [ho]; exact lastSecond_long hn
  refine ⟨fun hm hrec => ?_, fun hm hrec n hn hlt => ?_, fun hm hrec hexc => ?_, fun hm hexc n hn hlt => ?_,
    fun hm hexc hrec hoff hcur hstays => timers_returns hik h hm hexc hrec hoff hcur hstays, fun hm hexc hrec hon hoff => ?_,
    fun hm hexc hrec hon hd => ?_, fun hm hexc hrec hon hspec hdelay => ?_, fun hm hexc hrec hoff hd => ?_⟩
  · cases hexc : lastSecond x.excursion
    · rw [timers_counts hik h hm hexc hrec]
      rfl
    · exact (timers_leaves hik h hm hexc hrec).fields.2.1
  · rw [timers_counts hik h hm (hlong hn hlt) hrec]
    exact ⟨congrArg (Option.map (· - 1)) hn, rfl⟩
  · have hgone := timers_leaves hik h hm hexc hrec
    exact ⟨hgone.fields.1, hgone.fields.2.2, hgone.told⟩
  · rw [timers_counts hik h hm hexc (hlong hn hlt)]
    exact ⟨congrArg (Option.map (· - 1)) hn, rfl⟩
  · rw [timers_idle hik h hm (hnone hexc) (hnone hrec) ⟨hon, hoff⟩]
    exact ⟨rfl, rfl⟩
  · rw [timers_stays hik h hm hexc (hnone hrec) hon hd]
    exact ⟨rfl, hon, (excursionSet_runs (x := x.unmasked) hexc hd).2⟩
  · obtain ⟨z, hz, hgone⟩ := timers_goes hik h hm hexc (hnone hrec) hon hspec hdelay
    exact ⟨hgone.fields.2.1.trans hz, hgone.fields.1, hgone.told⟩
  · rw [timers_waits hik h hm (hnone hexc) hrec hoff hd]
    exact ⟨rfl, hoff, (recoverySet_runs (x := x.unmasked.armedSet) hrec hd).2⟩

end

end Sys2Proof.Machine
end

section
/-! SUPPORT. A second of the drying supervisor, train by train: what each train keeps of the other's part (R146), and the mask that a
swap loads (R148, R152). O51. -/

namespace Sys2Proof.Machine

/-! ### What is kept -/

section
variable {P : State → Prop} {i : Fin 2} {u : State}

theorem TrainKept.timed (hP : TrainKept handWithdrawal i P P) (x : Train) (h : P u) : P (Machine.timed x i u) := by
  have htick (j : Side) {v : State} (hv : P v) : P (tick x i j v) := by
    rw [tick]
    split
    · exact hP.bedTimer j hv
    · exact hv
  exact htick .hi (htick .lo h)

theorem DewKept.excursionTimer (hP : DewKept handWithdrawal i P) (h : P u) : P (Machine.excursionTimer i u) := by
  cases hlast : lastSecond (u.dry.trains[i]).excursion
  · rw [excursionTimer_counts hlast]
    exact hP.quiet u _ ⟨rfl, .inl rfl, .inl rfl⟩ rfl rfl h
  · rw [excursionTimer_ends hlast]
    exact hP.takeExcursion h

theorem DewKept.recoveryTimer (hP : DewKept handWithdrawal i P) (h : P u) : P (Machine.recoveryTimer i u) := by
  cases hlast : lastSecond (u.dry.trains[i]).recovery
  · rw [recoveryTimer_counts hlast]
    exact hP.quiet u _ ⟨rfl, .inl rfl, .inl rfl⟩ rfl rfl h
  · rw [recoveryTimer_ends hlast]
    exact hP.takeRecovery h

/-- What the timers of both trains keep. -/
theorem timersRun_keeps {k : Fin 2} (hik : i ≠ k) (hmask : ∀ v, P v → P (maskTimer i v)) (hdew : DewKept handWithdrawal i P)
    (hother : TrainKept handWithdrawal k P P) (h : P u) : P (timersRun u) := by
  have hm := both_of (f := maskTimer) hik hmask (fun _ hv => hother.maskTimer hv) (fun _ hv => hother.maskTimer hv) hmask h
  have he := both_of (f := Machine.excursionTimer) (P := P) (A := P) (B := P) (Q := P) hik (fun _ hv => hdew.excursionTimer hv)
    (fun _ hv => hother.excursionTimer hv) (fun _ hv => hother.excursionTimer hv) (fun _ hv => hdew.excursionTimer hv) hm
  exact both_of (f := Machine.recoveryTimer) (P := P) (A := P) (B := P) (Q := P) hik (fun _ hv => hdew.recoveryTimer hv)
    (fun _ hv => hother.recoveryTimer hv) (fun _ hv => hother.recoveryTimer hv) (fun _ hv => hdew.recoveryTimer hv) he

theorem hasBody_put {b y : Train} (hy : y.body = (u.dry.trains[i]).body) (h : hasBody i b u) : hasBody i b (putTrain i y u) := by
  rw [hasBody, putTrain_own]
  exact hy.trans h

theorem hasBody_maskTimer {b : Train} (h : hasBody i b u) : hasBody i b (maskTimer i u) := by
  by_cases hm : (u.dry.trains[i]).mask = 1
  · rw [maskTimer_ends hm, endMask_eq]
    exact ((bodyFree i b).dew i).assess (hasBody_put rfl h)
  · rw [maskTimer_counts hm]
    exact hasBody_put rfl h

/-- The timers leave a train's body. -/
theorem timersRun_body {k : Fin 2} (hik : i ≠ k) {b : Train} (h : hasBody i b u) : hasBody i b (timersRun u) :=
  timersRun_keeps hik (fun _ hv => hasBody_maskTimer hv) ((bodyFree i b).dew i) (otherKept hik b) h

theorem does_timersRun (u : State) : Does flowParts u (timersRun u) :=
  timersRun_keeps (i := 0) (k := 1) (by decide) (fun _ hv => (flowTrain u 0).maskTimer hv) (flowTrain u 0).toDewKept (flowTrain u 1) (.refl _ u)

/-! #### A train that is OUT -/

theorem outKept {k : Fin 2} (hik : k ≠ i) : TrainKept handWithdrawal k (fun u => (u.dry.trains[i]).state = .out) (fun u => (u.dry.trains[i]).state = .out) := by
  have hQ : ShareFree (fun y => y.state = .out) := fun _ _ hy => hy
  exact hQ.train hik fun v hv => ((hQ.aside (t := i)).resting fun w hw => by rw [Train.inService, hw]; rfl).hand (s := v) hv

theorem inKept {k : Fin 2} (hik : k ≠ i) : TrainKept handWithdrawal k (fun u => (u.dry.trains[i]).state ≠ .out) (fun u => (u.dry.trains[i]).state ≠ .out) := by
  have hQ : ShareFree (fun y => y.state ≠ .out) := fun _ _ hy => hy
  have haside : Aside i (fun u => (u.dry.trains[i]).state ≠ .out) := hQ.aside
  have hdew (hand : Hand) (hhand : ∀ s : State, (s.dry.trains[i]).state ≠ .out → ((hand s).dry.trains[i]).state ≠ .out) :
      DewKept hand i (fun u => (u.dry.trains[i]).state ≠ .out) :=
    { raise := fun _ _ _ _ _ _ h => h
      quiet := fun s x _ hst _ h => by rw [putTrain_own, hst]; exact h
      leave := fun s x _ hst _ => hhand _ (hQ.reshare (by rw [putTrain_own]; exact hst))
      join := fun s x _ _ hst _ => hQ.reshare (by rw [putTrain_own, hst]; nofun)
      reshare := fun _ h => hQ.reshare h }
  have hfollows : Follows i (fun u => (u.dry.trains[i]).state ≠ .out) :=
    { haside with
      bring := fun hand hhand _ h => (hdew hand hhand).bringOnline h
      send := fun s h => by
        dsimp only [sendStandby]
        split
        · rw [putTrain_own]
          nofun
        · exact h }
  exact hQ.train hik fun v hv => hfollows.hand (s := v) hv

end

/-! ### The mask that a swap loads -/

section
variable {d : FlowDir} {i k t : Fin 2} {u w : State} {Q Q' : Train → Prop}

/-- The direction is not `d` any more, and S is 0: so it stays. -/
def strayed (d : FlowDir) (u : State) : Prop := u.flow.dir ≠ d ∧ u.flow.setpoint = 0

theorem strayed_eq (d : FlowDir) (t : Fin 2) : whileDir d t (fun _ => False) = strayed d := by
  funext u
  rw [whileDir, strayed]
  simp

theorem strayedTrain (d : FlowDir) (t : Fin 2) : TrainKept handWithdrawal t (strayed d) (strayed d) := by
  rw [← strayed_eq d (t + 1)]
  exact whileDirTrain (fun _ _ hy => hy) (by omega)

/-- While the direction is `d`, or it has strayed. -/
theorem dirKept (d : FlowDir) (i t : Fin 2) : TrainKept handWithdrawal t (whileDir d i fun _ => True) (whileDir d i fun _ => True) :=
  whileDirTrain (j := t + 1) (Q := fun _ => True) (fun _ _ _ => trivial) (by omega)

theorem whileDir_own {f : State → State} (hf : ∀ v, Q v.dry.trains[i] → (f v).flow = v.flow ∧ Q' (f v).dry.trains[i])
    (hstray : ∀ v, strayed d v → strayed d (f v)) (h : whileDir d i Q u) : whileDir d i Q' (f u) := by
  rcases h with ⟨hdir, hq⟩ | hs
  · obtain ⟨hflow, hq'⟩ := hf u hq
    exact .inl ⟨(congrArg Flow.dir hflow).trans hdir, hq'⟩
  · exact .inr (hstray u hs)

theorem whileDir_hand_if {p : Prop} [Decidable p] (hQ : ShareFree Q) (h : whileDir d i Q u) :
    whileDir d i Q (if p then handWithdrawal u else u) := by
  split
  · exact whileDir_hand hQ h
  · exact h

/-- A mask just loaded: its timer at `n`, the dew-point timers stopped. -/
def freshMask (n : Nat) (x : Train) : Prop := x.mask = n ∧ x.excursion = none ∧ x.recovery = none

theorem freshMask_share (n : Nat) : ShareFree (freshMask n) := fun _ _ h => h

theorem masked_fresh {x : Train} (h : x.cfg.maskChoice ≠ 0) : freshMask x.cfg.maskChoice x.masked := by
  rw [Train.masked, if_neg h]
  exact ⟨rfl, rfl, rfl⟩

theorem freshMask_swapBeds {j : Side} {n : Nat} (hn : n ≠ 0) (hchoice : (w.dry.trains[i]).cfg.maskChoice = n)
    (h : whileDir d i (fun _ => True) w) : whileDir d i (freshMask n) (swapBeds handWithdrawal i j w) := by
  have hQ : ShareFree (fun y => y.cfg.maskChoice = n) := fun _ _ hy => hy
  have hput : whileDir d i (fun y => y.cfg.maskChoice = n) (putTrain i ((w.dry.trains[i]).swapped j) w) := by
    refine h.imp (fun hd => ⟨hd.1, ?_⟩) id
    rw [putTrain_own]
    exact (congrArg TrainCfg.maskChoice (swapped_cfg _ j)).trans hchoice
  have hhanded := whileDir_hand_if (p := (w.dry.trains[i]).degraded = true) hQ hput
  have hload : whileDir d i (freshMask n) (loadMask handWithdrawal i (if (w.dry.trains[i]).degraded then
      handWithdrawal (putTrain i ((w.dry.trains[i]).swapped j) w) else putTrain i ((w.dry.trains[i]).swapped j) w)) := by
    refine whileDir_own (fun v hv => ?_) (fun v hv => (strayedTrain d i).loadMask hv) hhanded
    have hne : (v.dry.trains[i]).cfg.maskChoice ≠ 0 := by rw [hv]; exact hn
    dsimp only [loadMask]
    rw [if_neg hne, putTrain_own]
    exact ⟨rfl, hv ▸ masked_fresh hne⟩
  exact hload

theorem freshMask_timersRun {n : Nat} (hik : i ≠ k) (hn : n ≠ 1) (h : whileDir d i (freshMask n) u) :
    whileDir d i (freshMask (n - 1)) (timersRun u) := by
  have hkept (m : Nat) : TrainKept handWithdrawal k (whileDir d i (freshMask m)) (whileDir d i (freshMask m)) :=
    whileDirTrain (freshMask_share m) (Ne.symm hik)
  have hstray := strayedTrain d i
  have hmask (v : State) (hv : whileDir d i (freshMask n) v) : whileDir d i (freshMask (n - 1)) (maskTimer i v) := by
    refine whileDir_own (fun a ha => ?_) (fun a ha => hstray.maskTimer ha) hv
    rw [maskTimer_counts (by rw [ha.1]; exact hn), putTrain_own]
    exact ⟨rfl, congrArg (· - 1) ha.1, ha.2⟩
  have hexc (v : State) (hv : whileDir d i (freshMask (n - 1)) v) : whileDir d i (freshMask (n - 1)) (excursionTimer i v) := by
    refine whileDir_own (fun a ha => ?_) (fun a ha => hstray.excursionTimer ha) hv
    rw [excursionTimer_counts (by rw [ha.2.1]; rfl), excursionCounted_none ha.2.1, putTrain_self]
    exact ⟨rfl, ha⟩
  have hrec (v : State) (hv : whileDir d i (freshMask (n - 1)) v) : whileDir d i (freshMask (n - 1)) (recoveryTimer i v) := by
    refine whileDir_own (fun a ha => ?_) (fun a ha => hstray.recoveryTimer ha) hv
    rw [recoveryTimer_counts (by rw [ha.2.2]; rfl), recoveryCounted_none ha.2.2, putTrain_self]
    exact ⟨rfl, ha⟩
  have hstage := both_of hik hmask (fun _ hv => (hkept n).maskTimer hv) (fun _ hv => (hkept _).maskTimer hv) hmask h
  have hstage' := both_of hik hexc (fun _ hv => (hkept _).excursionTimer hv) (fun _ hv => (hkept _).excursionTimer hv) hexc hstage
  exact both_of hik hrec (fun _ hv => (hkept _).recoveryTimer hv) (fun _ hv => (hkept _).recoveryTimer hv) hrec hstage'

/-! #### A mask choice of 0 -/

/-- A train that has no mask to load and none running. -/
def maskless (i : Fin 2) (u : State) : Prop := (u.dry.trains[i]).mask = 0 ∧ (u.dry.trains[i]).cfg.maskChoice = 0

theorem masklessFree (i : Fin 2) : FlowFree (maskless i) where
  raise _ _ _ _ _ h := h
  putTrain s t x hx h := by
    rw [maskless, putTrain_trains]
    split
    · next hti =>
      subst hti
      refine ⟨hx.mask.elim (fun hm => hm.trans h.1) fun hm => hm.trans h.2, ?_⟩
      rw [(body_cfg hx.body).1]
      exact h.2
    · exact h
  setFlow _ _ h := h
  recut s h := by
    rw [maskless, recut_trains]
    exact h
  setWorld _ _ h := h
  capacity _ _ h := h

theorem masklessOther (hik : i ≠ k) : TrainKept handWithdrawal k (maskless i) (maskless i) :=
  ShareFree.train (Q := fun y => y.mask = 0 ∧ y.cfg.maskChoice = 0) (fun _ _ h => h) (Ne.symm hik) fun _ h => (masklessFree i).handWithdrawal h

theorem maskless_timersRun (hik : i ≠ k) (h : maskless i u) : maskless i (timersRun u) := by
  refine timersRun_keeps hik (fun v hv => ?_) ((masklessFree i).dew i) (masklessOther hik) h
  rw [maskTimer_counts (by rw [hv.1]; decide), maskCounted_zero hv.1, putTrain_self]
  exact hv

/-- The mask that a train's swap loads, a second on, while the direction stands. -/
theorem swap_mask {j : Side} {v : State} {n : Nat} (hik : i ≠ k) (hchoice : (w.dry.trains[i]).cfg.maskChoice = n) (hn : n ≠ 1)
    (hw : whileDir d i (fun _ => True) w) (hv : ∀ P : State → Prop, TrainKept handWithdrawal k P P → P (swapBeds handWithdrawal i j w) → P v)
    (hdir : (timersRun v).flow.dir = d) : ((timersRun v).dry.trains[i]).mask = n - 1 := by
  by_cases hz : n = 0
  · have hmask := (swapBeds_spec handFree_withdrawal w i j).1
    have hload : maskless i (swapBeds handWithdrawal i j w) := by
      have hcfg := hmask.1.alike.cfg
      rw [swapped_cfg] at hcfg
      have hload := hmask.2
      rw [swapped_cfg] at hload
      exact ⟨hload.trans (hchoice.trans hz), by rw [hcfg]; exact hchoice.trans hz⟩
    have hend := maskless_timersRun hik (hv _ (masklessOther hik) hload)
    rw [hend.1, hz]
  · have hload := freshMask_swapBeds (j := j) hz hchoice hw
    have hend := freshMask_timersRun hik hn (hv _ (whileDirTrain (freshMask_share n) (Ne.symm hik)) hload)
    rcases hend with ⟨_, hq⟩ | ⟨hne, _⟩
    · exact hq.1
    · exact absurd hdir hne

end

end Sys2Proof.Machine
end

section
/-! SUPPORT. The second of the drying supervisor in its stages (R146): what each train finds and leaves. O51. -/

namespace Sys2Proof.Machine

/-! ### The stages -/

/-- A train whose adsorbing bed has been loaded (R147). -/
def Train.loaded (x : Train) : Train := { x with lo := loadedBed x x.lo, hi := loadedBed x x.hi }

/-- The part as step 3 begins. -/
def begun (s : State) : State := loadBeds (accrueGas s)

/-- Step 3 for train A. -/
def timedA (s : State) : State := timed (s.dry.trains[(0 : Fin 2)]).loaded 0 (begun s)

/-- Step 3 for train B. -/
def timedB (s : State) : State := timed (s.dry.trains[(1 : Fin 2)]).loaded 1 (timedA s)

/-- The test of train A. -/
def testedA (s : State) : State := bedTest handWithdrawal 0 (timedB s)

/-- The test of train B. -/
def testedB (s : State) : State := bedTest handWithdrawal 1 (testedA s)

section
variable {s : State} {i k : Fin 2}

theorem begun_train (s : State) (i : Fin 2) : (begun s).dry.trains[i] = (s.dry.trains[i]).loaded := loadBeds_train (accrueGas s) i

theorem bothTrains_bedTest (u : State) :
    bothTrains (bedTest handWithdrawal) u = bedTest handWithdrawal 1 (bedTest handWithdrawal 0 u) := rfl

theorem loadBeds_begun (s : State) : loadBeds (accrueGas s) = begun s := rfl

theorem dryingSecond_eq (s : State) : dryingSecond s = timersRun (testedB s) := by
  have htimed : bedTimers (begun s) = timedB s := bedTimers_eq (begun_train s 0) (begun_train s 1)
  rw [dryingSecond, loadBeds_begun, htimed, bothTrains_bedTest, timersRun, testedB, testedA]

theorem does_begun (s : State) : Does flowParts s (begun s) :=
  (acts_setDry s _ (by decide)).does.trans (acts_setDry (accrueGas s) _ (by decide)).does

theorem still_begun (s : State) : Still s (begun s) := by
  refine ⟨(acts_setDry s _ (by decide)).does.trans (acts_setDry (accrueGas s) _ (by decide)).does, rfl, fun i => ?_⟩
  rw [begun_train]
  rfl

/-- The stages of train `i`: `u` before its step 3, `w` before its test, both as the other train `k` leaves them. -/
structure Stages (s : State) (i k : Fin 2) (u w : State) : Prop where
  found : hasBody i (s.dry.trains[i]).loaded u
  out : (u.dry.trains[i]).state = .out ↔ (s.dry.trains[i]).state = .out
  before : Does flowParts s u
  between : hasBody i (timed (s.dry.trains[i]).loaded i u).dry.trains[i] w
  meanwhile : Does flowParts (timed (s.dry.trains[i]).loaded i u) w
  dir : whileDir s.flow.dir i (fun _ => True) w
  after : ∀ P : State → Prop, TrainKept handWithdrawal k P P → P (bedTest handWithdrawal i w) → P (testedB s)

theorem dir_timedA (s : State) : whileDir s.flow.dir i (fun _ => True) (timedA s) := (dirKept s.flow.dir i 0).timed _ (.inl ⟨rfl, trivial⟩)

theorem dir_timedB (s : State) : whileDir s.flow.dir i (fun _ => True) (timedB s) := (dirKept s.flow.dir i 1).timed _ (dir_timedA s)

theorem stagesA (s : State) : Stages s 0 1 (begun s) (timedB s) where
  found := congrArg Train.body (begun_train s 0)
  out := by rw [begun_train]; rfl
  before := does_begun s
  between := (otherKept (t := 0) (i := 1) (by decide) (timedA s).dry.trains[(0 : Fin 2)]).timed _ rfl
  meanwhile := (flowTrain (timedA s) 1).timed _ (.refl _ _)
  dir := dir_timedB s
  after _ hP h := hP.bedTest h

theorem stagesB (s : State) : Stages s 1 0 (timedA s) (testedA s) where
  found := (otherKept (t := 1) (i := 0) (by decide) (s.dry.trains[(1 : Fin 2)]).loaded).timed _ (congrArg Train.body (begun_train s 1))
  out := by
    have hrow : ((begun s).dry.trains[(1 : Fin 2)]).state = (s.dry.trains[(1 : Fin 2)]).state := by rw [begun_train]; rfl
    constructor
    · intro hout
      by_contra hne
      exact (inKept (i := 1) (k := 0) (by decide)).timed (s.dry.trains[(0 : Fin 2)]).loaded (u := begun s) (by rw [hrow]; exact hne) hout
    · intro hout
      exact (outKept (i := 1) (k := 0) (by decide)).timed _ (hrow.trans hout)
  before := (does_begun s).trans (does_timed _ 0 _)
  between := (otherKept (t := 1) (i := 0) (by decide) (timedB s).dry.trains[(1 : Fin 2)]).bedTest (s := timedB s) rfl
  meanwhile := (flowTrain (timedB s) 0).bedTest (.refl _ _)
  dir := (dirKept s.flow.dir 1 0).bedTest (dir_timedB s)
  after _ _ h := h

theorem stages_of (hik : i ≠ k) (s : State) : ∃ u w, Stages s i k u w := by
  have hcases : i = 0 ∧ k = 1 ∨ i = 1 ∧ k = 0 := by omega
  rcases hcases with ⟨rfl, rfl⟩ | ⟨rfl, rfl⟩
  · exact ⟨_, _, stagesA s⟩
  · exact ⟨_, _, stagesB s⟩

/-! ### From a train's test to the end -/

section
variable {u w : State} (hik : i ≠ k) (h : Stages s i k u w)
include hik h

theorem Stages.body : hasBody i (bedTest handWithdrawal i w).dry.trains[i] (dryingSecond s) := by
  rw [dryingSecond_eq]
  exact timersRun_body hik (h.after _ (otherKept hik _) rfl)

omit hik in
theorem Stages.does : Does flowParts (bedTest handWithdrawal i w) (dryingSecond s) := by
  rw [dryingSecond_eq]
  exact (h.after _ (flowTrain _ k) (.refl _ _)).trans (does_timersRun _)

/-- A train's beds, from the second's beginning to its end. -/
theorem Stages.bedsRun : BedsRun (s.dry.trains[i]).loaded i s (dryingSecond s) := by
  have hbody := (h.body hik).alike
  have hdoes := h.does
  have hclock := h.before.gasTime (by decide)
  have htold {es : List Raised} (he : toldBetween u (bedTest handWithdrawal i w) es) : toldBetween s (dryingSecond s) es :=
    (he.after hdoes).before h.before
  have hswap (j : Side) : swapTold u i j = swapTold s i j := swapTold_congr i j h.before
  obtain ⟨hruns, hboth, hcooledSwaps, hcooledStays, hcooledOut, hcooledTakes, hswaps, hstays⟩ := Machine.bedsRun h.found h.between h.meanwhile
  simp only [hswap, h.out, ne_eq] at hcooledSwaps hcooledOut hcooledTakes hswaps
  refine ⟨fun j a b => (hbody.bed j).trans (hruns j a b), fun j a b => (hbody.bed j).trans (hboth j a b), fun j a b c => ?_,
    fun j a b c => (hbody.bed j).trans (hcooledStays j a b c), fun j a b c => ?_, fun j a b c d => ?_, fun j a b c => ?_, fun j a b c => ?_⟩
  · obtain ⟨hown, hpartner, ht⟩ := hcooledSwaps j a b c
    exact ⟨(hbody.bed j).trans hown, (hbody.bed _).trans hpartner, htold ht⟩
  · obtain ⟨hown, hpartner⟩ := hcooledOut j a b c
    exact ⟨(hbody.bed j).trans hown, (hbody.bed _).trans hpartner⟩
  · obtain ⟨hlo, hhi, ht⟩ := hcooledTakes j a b c d
    exact ⟨hbody.lo.trans hlo, hbody.hi.trans hhi, htold ht⟩
  · obtain ⟨hown, hpartner, hdeg, hdef, ht⟩ := hswaps j a b c
    exact ⟨(hbody.bed j).trans hown, (hbody.bed _).trans hpartner, hbody.degraded.trans hdeg, hbody.deferred.trans hdef, htold ht⟩
  · obtain ⟨hbed, hdeg, hdef, hdefers, hdegrades⟩ := hstays j a b c
    rw [hclock] at hdefers hdegrades
    exact ⟨(hbody.bed j).trans hbed, hbody.degraded.trans hdeg, by rw [hbody.deferred]; exact hdef,
      fun p q => htold (hdefers p q), fun p q => htold (hdegrades p q)⟩

/-- The mask of a train whose bed swaps at its test. -/
theorem Stages.swapMask {j : Side} (hj : ((s.dry.trains[i]).loaded.bed j).state = .adsorbing)
    (hp : ((s.dry.trains[i]).loaded.bed j.partner).state = .ready) (hreach : (s.dry.trains[i]).loaded.reaches j)
    (hchoice : (s.dry.trains[i]).cfg.maskChoice ≠ 1) (hdir : (dryingSecond s).flow.dir = s.flow.dir) :
    ((dryingSecond s).dry.trains[i]).mask = (s.dry.trains[i]).cfg.maskChoice - 1 := by
  obtain ⟨_, hgo, _⟩ := run_swaps h.found h.between hj hp hreach
  have hready := hgo.partner.trans (advanced_rests (rests_of_ready hp))
  have htest : bedTest handWithdrawal i w = swapBeds handWithdrawal i j w := by
    refine bedTest_swaps w i (adsorbing_some (by rw [hgo.own]; exact hj) (by rw [hready, hp]; nofun)) ?_ (by rw [hready]; exact hp)
    exact (reachedSwap_iff _ j).mpr ((reaches_congr hgo.bedCap hgo.cfg hgo.own).mpr hreach)
  have hcfg : (w.dry.trains[i]).cfg.maskChoice = (s.dry.trains[i]).cfg.maskChoice := congrArg TrainCfg.maskChoice hgo.cfg
  rw [dryingSecond_eq] at hdir ⊢
  refine swap_mask (j := j) hik hcfg hchoice h.dir (fun P hP hs => h.after P hP ?_) hdir
  rw [htest]
  exact hs

/-- A train in which nothing begins hands nothing on. -/
theorem Stages.still (hrest : Rests (s.dry.trains[i]).loaded (dryingSecond s).dry.trains[i]) :
    Still u (timed (s.dry.trains[i]).loaded i u) ∧ Still w (bedTest handWithdrawal i w) := by
  have hbody := (h.body hik).alike
  refine still_run h.found h.between ⟨hbody.degraded.symm.trans hrest.degraded, fun j hj => hrest.beds j ?_⟩
  rw [hbody.bed]
  exact hj

end

/-- A second in which nothing begins, up to the timers. -/
theorem still_testedB (hrest : ∀ i : Fin 2, Rests (s.dry.trains[i]).loaded (dryingSecond s).dry.trains[i]) : Still s (testedB s) := by
  obtain ⟨htimedA, htestedA⟩ := (stagesA s).still (by decide) (hrest 0)
  obtain ⟨htimedB, htestedB⟩ := (stagesB s).still (by decide) (hrest 1)
  exact ((((still_begun s).trans htimedA).trans htimedB).trans htestedA).trans htestedB

theorem still_figure {x y : Train} (h : y.still = x.still) : y.figure = x.figure := by rw [of_still h]; rfl

theorem Still.wdrCurrent {u : State} (h : Still s u) (hs : wdrCurrent s) : Machine.wdrCurrent u :=
  wdrCurrent_congr h.capacity (congrArg Flow.cWdr (h.does.flow_eq (by decide))) (h.does.same (p := .site) (by decide))
    (fun i => still_figure (h.trains i)) hs

/-- The timers of a second in which nothing begins. -/
theorem still_timers (hik : i ≠ k) (h : Still s (testedB s)) (hk : noneEnds s.dry.trains[k]) :
    TimersRun s i (testedB s).dry.trains[i] (dryingSecond s) := by
  rw [dryingSecond_eq]
  refine timers_run hik ⟨h.does, rfl, ?_, h.wdrCurrent⟩
  rw [noneEnds, of_still (h.trains k)]
  exact hk

/-- Gas that stands at `n`. -/
def gasIs (n : Nat) (u : State) : Prop := u.dry.gas = n

theorem gasIsTrain (n : Nat) (t : Fin 2) : TrainKept handWithdrawal t (gasIs n) (gasIs n) := gasTrain n t

theorem gas_kept {n : Nat} (h : gasIs n (begun s)) : gasIs n (dryingSecond s) := by
  have hP := gasIsTrain n
  have htested : gasIs n (testedB s) := by
    rw [testedB, testedA, timedB, timedA]
    exact (hP 1).bedTest ((hP 0).bedTest ((hP 1).timed _ ((hP 0).timed _ h)))
  rw [dryingSecond_eq]
  exact timersRun_keeps (i := 0) (k := 1) (by decide) (fun _ hv => (hP 0).maskTimer hv) (hP 0).toDewKept (hP 1) htested

end

end Sys2Proof.Machine
end

section
/-! SUPPORT. The supervisor's second (R146 to R155). O51. -/

namespace Sys2Proof.Machine

/-! ### The beds, as the second finds them -/

/-- The load of an adsorbing bed after a second (R147). -/
def Train.filled (x : Train) (d : Bed) : Nat :=
  if d.load < x.bedCap * 3600000000 then min (d.load + x.share * x.water) (x.bedCap * 3600000000) else d.load

theorem loadedBed_adsorbing {x : Train} {b : Bed} (h : b.state = .adsorbing) : loadedBed x b = { b with load := x.filled b } := by
  rw [loadedBed, Train.filled, Train.capUnits]
  split
  · next hlt => rw [if_pos hlt.2]
  · next hge => rw [if_neg fun hlt => hge ⟨h, hlt⟩]

theorem loadedBed_rests {x : Train} {b : Bed} (h : b.state ≠ .adsorbing) : loadedBed x b = b := if_neg fun hads => h hads.1

section
variable {x : Train} {j : Side}

theorem loaded_bed (x : Train) (j : Side) : x.loaded.bed j = loadedBed x (x.bed j) := by cases j <;> rfl

theorem loaded_state (x : Train) (j : Side) : (x.loaded.bed j).state = (x.bed j).state := by rw [loaded_bed, loadedBed_state]

theorem loaded_adsorbing (h : (x.bed j).state = .adsorbing) : x.loaded.bed j = { x.bed j with load := x.filled (x.bed j) } := by
  rw [loaded_bed, loadedBed_adsorbing h]

theorem loaded_rests (h : (x.bed j).state ≠ .adsorbing) : x.loaded.bed j = x.bed j := by rw [loaded_bed, loadedBed_rests h]

theorem loaded_reaches (h : (x.bed j).state = .adsorbing) :
    x.loaded.reaches j ↔ x.bedCap * 3600000000 * x.cfg.swapPoint ≤ x.filled (x.bed j) * 1000 := by
  rw [Train.reaches, loaded_adsorbing h]
  rfl

theorem loaded_saturated (h : (x.bed j).state = .adsorbing) :
    x.loaded.saturated j = decide (x.bedCap * 3600000000 ≤ x.filled (x.bed j)) := by
  rw [Train.saturated, loaded_adsorbing h, Train.capUnits]
  rfl

theorem loaded_cools : (x.loaded.bed j).cools ↔ (x.bed j).state = .cooling ∧ (x.bed j).timer ≤ 1 := by
  by_cases h : (x.bed j).state = .adsorbing
  · rw [loaded_adsorbing h]
    rfl
  · rw [loaded_rests h]
    rfl

theorem bedPermille_int (x : Train) (b : Bed) :
    (bedPermille x b : Int) = if x.bedCap * 3600000000 = 0 then 1000 else ((b.load * 1000 / (x.bedCap * 3600000000) : Nat) : Int) := by
  rw [bedPermille, Train.capUnits]
  split <;> rfl

end

section
variable {x : Train} {i : Fin 2} {j : Side} {g v : State}

/-- An adsorbing bed keeps its load, and heats its full time where it begins to. -/
theorem BedsRun.adsorbs (h : BedsRun x i g v) (hj : (x.bed j).state = .adsorbing) : ((v.dry.trains[i]).bed j).load = (x.bed j).load
    ∧ (((v.dry.trains[i]).bed j).state = .heating → ((v.dry.trains[i]).bed j).timer = x.cfg.heating) := by
  have hsame (he : (v.dry.trains[i]).bed j = x.bed j) : ((v.dry.trains[i]).bed j).load = (x.bed j).load
      ∧ (((v.dry.trains[i]).bed j).state = .heating → ((v.dry.trains[i]).bed j).timer = x.cfg.heating) := by
    rw [he]
    exact ⟨rfl, fun hh => absurd (hj.symm.trans hh) nofun⟩
  have hheats (he : (v.dry.trains[i]).bed j = ⟨.heating, (x.bed j).load, x.cfg.heating⟩) :
      ((v.dry.trains[i]).bed j).load = (x.bed j).load
      ∧ (((v.dry.trains[i]).bed j).state = .heating → ((v.dry.trains[i]).bed j).timer = x.cfg.heating) := by
    rw [he]
    exact ⟨rfl, fun _ => rfl⟩
  by_cases hp : (x.bed j.partner).state = .adsorbing
  · exact hsame (h.both j hj hp)
  · by_cases hready : x.reaches j ∧ (x.bed j.partner).state = .ready
    · exact hheats (h.swaps j hj hready.2 hready.1).1
    · by_cases hcool : x.reaches j ∧ (x.bed j.partner).cools
      · have hswap := h.cooledSwaps j.partner hcool.2
        rw [Side.partner_partner] at hswap
        exact hheats (hswap hj hcool.1).2.1
      · exact hsame (h.stays j hj hp fun hs => hs.2.elim (fun hr => hready ⟨hs.1, hr⟩) fun hc => hcool ⟨hs.1, hc⟩).bed

/-- What a second leaves of bed `j` of a train that it finds as `x` (R147 to R151); `R` holds of the events it raises, `M` of the mask
that a swap loads. -/
theorem bedClaims {R : Raised → Prop} {M : Prop} (h : BedsRun x.loaded i g v) (hx : g.dry.trains[i] = x)
    (hR : ∀ k a b, toldBetween g v [⟨gasTime g, k, a, b⟩] → R ⟨gasTime g, k, a, b⟩)
    (hM : (x.loaded.bed j).state = .adsorbing → (x.loaded.bed j.partner).state = .ready → x.loaded.reaches j → M) :
    ((x.bed j).state = .adsorbing → ((v.dry.trains[i]).bed j).load = x.filled (x.bed j)
      ∧ (((v.dry.trains[i]).bed j).state = .heating → ((v.dry.trains[i]).bed j).timer = x.cfg.heating))
    ∧ (((x.bed j).state = .heating ∨ (x.bed j).state = .cooling) → 1 < (x.bed j).timer →
      (v.dry.trains[i]).bed j = { x.bed j with timer := (x.bed j).timer - 1 })
    ∧ ((x.bed j).state = .heating → (x.bed j).timer ≤ 1 → (v.dry.trains[i]).bed j = ⟨.cooling, (x.bed j).load, x.cfg.cooling⟩)
    ∧ ((x.bed j).state = .cooling ∧ (x.bed j).timer ≤ 1 → (x.bed j.partner).state = .adsorbing →
      (x.bedCap * 3600000000 * x.cfg.swapPoint ≤ x.filled (x.bed j.partner) * 1000 → (v.dry.trains[i]).bed j = ⟨.adsorbing, 0, 0⟩
        ∧ (v.dry.trains[i]).bed j.partner = ⟨.heating, x.filled (x.bed j.partner), x.cfg.heating⟩ ∧ R (swapTold g i j))
      ∧ (¬x.bedCap * 3600000000 * x.cfg.swapPoint ≤ x.filled (x.bed j.partner) * 1000 → (v.dry.trains[i]).bed j = ⟨.ready, 0, 0⟩))
    ∧ ((x.bed j).state = .cooling ∧ (x.bed j).timer ≤ 1 → (x.bed j.partner).state = .ready →
      (x.state = .out → (v.dry.trains[i]).bed j = ⟨.ready, 0, 0⟩ ∧ (v.dry.trains[i]).bed j.partner = x.bed j.partner)
      ∧ (x.state ≠ .out → 0 < x.bedCap * 3600000000 * x.cfg.swapPoint → (v.dry.trains[i]).lo = ⟨.adsorbing, 0, 0⟩
        ∧ (v.dry.trains[i]).hi = (if j = .hi then ⟨.ready, 0, 0⟩ else x.bed j.partner) ∧ R (swapTold g i .lo)))
    ∧ ((x.bed j).state = .adsorbing → (x.bed j.partner).state ≠ .adsorbing →
      (x.bedCap * 3600000000 * x.cfg.swapPoint ≤ x.filled (x.bed j) * 1000 → (x.bed j.partner).state = .ready →
        (v.dry.trains[i]).bed j = ⟨.heating, x.filled (x.bed j), x.cfg.heating⟩ ∧ (v.dry.trains[i]).bed j.partner = ⟨.adsorbing, 0, 0⟩
        ∧ (v.dry.trains[i]).degraded = false ∧ (v.dry.trains[i]).deferred = false ∧ R (swapTold g i j.partner) ∧ M)
      ∧ (¬(x.bedCap * 3600000000 * x.cfg.swapPoint ≤ x.filled (x.bed j) * 1000
          ∧ ((x.bed j.partner).state = .ready ∨ (x.bed j.partner).state = .cooling ∧ (x.bed j.partner).timer ≤ 1)) →
        (v.dry.trains[i]).bed j = { x.bed j with load := x.filled (x.bed j) }
        ∧ (v.dry.trains[i]).degraded = decide (x.bedCap * 3600000000 ≤ x.filled (x.bed j))
        ∧ (v.dry.trains[i]).deferred = decide (x.bedCap * 3600000000 * x.cfg.swapPoint ≤ x.filled (x.bed j) * 1000)
        ∧ (x.bedCap * 3600000000 * x.cfg.swapPoint ≤ x.filled (x.bed j) * 1000 → x.deferred = false →
          R ⟨gasTime g, .bedSwapDeferred, some i.val, some (if x.bedCap * 3600000000 = 0 then 1000
            else ((x.filled (x.bed j) * 1000 / (x.bedCap * 3600000000) : Nat) : Int))⟩)
        ∧ (decide (x.bedCap * 3600000000 ≤ x.filled (x.bed j)) = true → x.degraded = false →
          R ⟨gasTime g, .trainDegraded, some i.val, some ((x.cfg.nominal * x.cfg.degradedFactor / 1000 : Nat) : Int)⟩))) := by
  have hswap (k : Side) (ht : toldBetween g v [swapTold g i k]) : R (swapTold g i k) := hR _ _ _ ht
  have hregen {k : Side} (hk : (x.bed k).state = .heating ∨ (x.bed k).state = .cooling) :
      x.loaded.bed k = x.bed k ∧ (x.loaded.bed k).regenerates = true := by
    have hsame : x.loaded.bed k = x.bed k := loaded_rests (by rcases hk with hk | hk <;> rw [hk] <;> nofun)
    exact ⟨hsame, by rw [hsame]; exact (regenerates_iff _).mpr hk⟩
  refine ⟨fun hj => ?_, fun hj hlt => ?_, fun hj hle => ?_, fun hj hp => ⟨fun hreach => ?_, fun hreach => ?_⟩,
    fun hj hp => ⟨fun hout => ?_, fun hout hcap => ?_⟩, fun hj hp => ⟨fun hreach hready => ?_, fun hstay => ?_⟩⟩
  · have hads := h.adsorbs (j := j) ((loaded_state x j).trans hj)
    rw [loaded_adsorbing hj] at hads
    exact hads
  · obtain ⟨hsame, hruns⟩ := hregen hj
    rw [h.runs j hruns fun hc => absurd (loaded_cools.mp hc).2 (by omega), hsame, advanced_runs hj hlt]
  · obtain ⟨hsame, hruns⟩ := hregen (.inl hj)
    rw [h.runs j hruns fun hc => absurd (hj.symm.trans (loaded_cools.mp hc).1) nofun, hsame, advanced_heating hj hle]
    rfl
  · obtain ⟨hown, hpartner, ht⟩ := h.cooledSwaps j (loaded_cools.mpr hj) ((loaded_state x _).trans hp) ((loaded_reaches hp).mpr hreach)
    rw [loaded_adsorbing hp] at hpartner
    exact ⟨hown, hpartner, hswap j ht⟩
  · exact h.cooledStays j (loaded_cools.mpr hj) ((loaded_state x _).trans hp) fun hr => hreach ((loaded_reaches hp).mp hr)
  · obtain ⟨hown, hpartner⟩ := h.cooledOut j (loaded_cools.mpr hj) ((loaded_state x _).trans hp) (by rw [hx]; exact hout)
    rw [loaded_rests (by rw [hp]; nofun)] at hpartner
    exact ⟨hown, hpartner⟩
  · obtain ⟨hlo, hhi, ht⟩ := h.cooledTakes j (loaded_cools.mpr hj) ((loaded_state x _).trans hp) (by rw [hx]; exact hout) hcap
    rw [loaded_rests (by rw [hp]; nofun)] at hhi
    exact ⟨hlo, hhi, hswap .lo ht⟩
  · have hown := (loaded_state x j).trans hj
    have hother := (loaded_state x j.partner).trans hready
    have hr := (loaded_reaches hj).mpr hreach
    obtain ⟨hheats, hads, hdeg, hdef, ht⟩ := h.swaps j hown hother hr
    rw [loaded_adsorbing hj] at hheats
    exact ⟨hheats, hads, hdeg, hdef, hswap _ ht, hM hown hother hr⟩
  · obtain ⟨hbed, hdeg, hdef, hdefers, hdegrades⟩ := h.stays j ((loaded_state x j).trans hj) (by rw [loaded_state]; exact hp) fun hs =>
      hstay ⟨(loaded_reaches hj).mp hs.1, by
        rw [loaded_state] at hs
        exact hs.2.imp_right loaded_cools.mp⟩
    rw [loaded_saturated hj] at hdeg hdegrades
    rw [loaded_reaches hj] at hdef hdefers
    rw [bedPermille_int] at hdefers
    rw [loaded_adsorbing hj] at hbed hdefers
    refine ⟨hbed, hdeg, ?_, fun hr hd => hR _ _ _ (hdefers hr hd), fun hr hd => hR _ _ _ (hdegrades hr hd)⟩
    rw [Bool.eq_iff_iff, hdef, decide_eq_true_iff]

end

end Sys2Proof.Machine
end

section
/-! SUPPORT. The supervisor's second (R146 to R155): O51. -/

namespace Sys2Proof.Machine

theorem exec_dryingSecond (s : State) : exec .dryingSecond s = .next (gathered dryingSecond s) := rfl

section
variable {s v : State} {i k : Fin 2} {x z : Train}

theorem TimersRun.of_still (hz : z.still = x.still) (h : TimersRun s i z v) : TimersRun s i x v := by
  rw [Machine.of_still hz] at h
  refine ⟨h.mask, h.excursion, h.leaves, h.recovery, fun hm hexc hrec hoff hcur hstays => ?_, h.idle, h.stays, h.goes, h.waits⟩
  obtain ⟨hstate, hmask, hnone, htold⟩ := h.returns hm hexc hrec hoff hcur hstays
  exact ⟨hstate, hmask, hnone, htold⟩

/-- What the timers of a second leave of a train that it finds as `x` (R152 to R155); `R` holds of the events of its kinds that it raises. -/
theorem timerClaims {R : EventKind → Prop} (h : TimersRun s i x v) (hcur : capacitiesCurrent s = true → wdrCurrent s)
    (hR : ∀ e, toldBetween s v [⟨gasTime s, e, some i.val, some x.dew⟩] → R e) :
    (x.mask ≠ 1 → lastSecond x.recovery = false → (v.dry.trains[i]).mask = x.mask - 1
      ∧ (∀ n : Nat, x.excursion = some n → 1 < n → (v.dry.trains[i]).excursion = some (n - 1) ∧ (v.dry.trains[i]).state = x.state)
      ∧ (x.state = .online → lastSecond x.excursion = true → (v.dry.trains[i]).state = .offSpec ∧ (v.dry.trains[i]).excursion = none
        ∧ divert v i = true ∧ R .offSpec))
    ∧ (x.mask ≠ 1 → lastSecond x.excursion = false →
      (∀ n : Nat, x.recovery = some n → 1 < n → (v.dry.trains[i]).recovery = some (n - 1) ∧ (v.dry.trains[i]).state = x.state)
      ∧ (x.state = .offSpec → lastSecond x.recovery = true → capacitiesCurrent s = true → setpointSafe s.flow = true →
        ¬(x.cfg.maskChoice = 0 ∧ x.cfg.spec < x.dew ∧ x.cfg.excursionDelay = 0) →
        (v.dry.trains[i]).state = (if s.flow.dir = .withdrawing then .online else .standby) ∧ (v.dry.trains[i]).mask = x.cfg.maskChoice
        ∧ (v.dry.trains[i]).recovery = none ∧ divert v i = false ∧ R .onSpec))
    ∧ (x.mask = 1 → x.excursion = none → x.recovery = none →
      ((x.state = .standby ∨ x.state = .out) → (v.dry.trains[i]).mask = 0 ∧ (v.dry.trains[i]).state = x.state)
      ∧ (x.state = .online → (v.dry.trains[i]).mask = 0
        ∧ (x.dew ≤ x.cfg.spec → (v.dry.trains[i]).state = .online ∧ (v.dry.trains[i]).excursion = none)
        ∧ (x.cfg.spec < x.dew → 1 < x.cfg.excursionDelay →
          (v.dry.trains[i]).state = .online ∧ (v.dry.trains[i]).excursion = some (x.cfg.excursionDelay - 1))
        ∧ (x.cfg.spec < x.dew → x.cfg.excursionDelay ≤ 1 → (v.dry.trains[i]).state = .offSpec ∧ R .offSpec))
      ∧ (x.state = .offSpec →
        (x.cfg.warn ≤ x.dew → (v.dry.trains[i]).mask = 0 ∧ (v.dry.trains[i]).state = .offSpec ∧ (v.dry.trains[i]).recovery = none)
        ∧ (x.dew < x.cfg.warn → 1 < x.cfg.recoveryDelay →
          (v.dry.trains[i]).mask = 0 ∧ (v.dry.trains[i]).state = .offSpec ∧ (v.dry.trains[i]).recovery = some (x.cfg.recoveryDelay - 1)))) := by
  refine ⟨fun hm hrec => ⟨h.mask hm hrec, h.excursion hm hrec, fun _ hexc => ?_⟩, fun hm hexc => ⟨h.recovery hm hexc, fun hoff hrec hc _ hin => ?_⟩,
    fun hm hexc hrec => ⟨fun hst => ?_, fun hon => ⟨?_, fun hdry => ?_, fun hspec hlong => ?_, fun hspec hshort => ?_⟩,
      fun hoff => ⟨fun hwarn => ?_, fun hdry hlong => ?_⟩⟩⟩
  · obtain ⟨hstate, hnone, htold⟩ := h.leaves hm hrec hexc
    exact ⟨hstate, hnone, beq_iff_eq.mpr hstate, hR _ htold⟩
  · obtain ⟨hstate, hmask, hnone, htold⟩ := h.returns hm hexc hrec hoff (hcur hc) hin
    refine ⟨hstate, hmask, hnone, ?_, hR _ htold⟩
    rw [divert, hstate]
    exact backState_ne_offSpec _
  · exact h.idle hm hexc hrec (by rcases hst with hst | hst <;> rw [hst] <;> nofun) (by rcases hst with hst | hst <;> rw [hst] <;> nofun)
  · by_cases hlong : x.cfg.spec < x.dew → 1 < x.cfg.excursionDelay
    · exact (h.stays hm hexc hrec hon hlong).1
    · obtain ⟨hspec, hshort⟩ := Classical.not_imp.mp hlong
      exact (h.goes hm hexc hrec hon hspec (Nat.not_lt.mp hshort)).1
  · obtain ⟨_, hstate, hset⟩ := h.stays hm hexc hrec hon fun hs => absurd hs (Int.not_lt.mpr hdry)
    rw [if_neg (Int.not_lt.mpr hdry)] at hset
    exact ⟨hstate, hset⟩
  · obtain ⟨_, hstate, hset⟩ := h.stays hm hexc hrec hon fun _ => hlong
    rw [if_pos hspec] at hset
    exact ⟨hstate, hset⟩
  · obtain ⟨_, hstate, htold⟩ := h.goes hm hexc hrec hon hspec hshort
    exact ⟨hstate, hR _ htold⟩
  · obtain ⟨hmask, hstate, hset⟩ := h.waits hm hexc hrec hoff fun hs => absurd hs (Int.not_lt.mpr hwarn)
    rw [if_neg (Int.not_lt.mpr hwarn)] at hset
    exact ⟨hmask, hstate, hset⟩
  · obtain ⟨hmask, hstate, hset⟩ := h.waits hm hexc hrec hoff fun _ => hlong
    rw [if_pos hdry] at hset
    exact ⟨hmask, hstate, hset⟩

/-- A second in which no bed begins to adsorb and DEGRADED stands finds the trains at rest. -/
theorem rests_of_quiet (hdeg : (v.dry.trains[i]).degraded = (s.dry.trains[i]).degraded)
    (hbeds : ∀ j, ((v.dry.trains[i]).bed j).state = .adsorbing → ((s.dry.trains[i]).bed j).state = .adsorbing) :
    Rests (s.dry.trains[i]).loaded v.dry.trains[i] :=
  ⟨hdeg, fun j hj => (loaded_state _ j).trans (hbeds j hj)⟩

/-- What the second leaves of a train's beds, and of the mask that a swap at its test loads. -/
theorem secondRun (s : State) (i : Fin 2) : BedsRun (s.dry.trains[i]).loaded i s (dryingSecond s)
    ∧ ∀ j, ((s.dry.trains[i]).loaded.bed j).state = .adsorbing → ((s.dry.trains[i]).loaded.bed j.partner).state = .ready →
      (s.dry.trains[i]).loaded.reaches j → (dryingSecond s).flow.dir = s.flow.dir → (s.dry.trains[i]).cfg.maskChoice ≠ 1 →
      ((dryingSecond s).dry.trains[i]).mask = (s.dry.trains[i]).cfg.maskChoice - 1 := by
  have hik : i ≠ i + 1 := by omega
  obtain ⟨_, _, hstages⟩ := stages_of hik s
  exact ⟨hstages.bedsRun hik, fun j hj hp hr hdir hchoice => hstages.swapMask hik hj hp hr hchoice hdir⟩

/-- What the timers leave of a train in a second in which nothing begins. -/
theorem secondTimers (hik : i ≠ k) (hrest : ∀ i : Fin 2, Rests (s.dry.trains[i]).loaded (dryingSecond s).dry.trains[i])
    (hk : noneEnds s.dry.trains[k]) : TimersRun s i s.dry.trains[i] (dryingSecond s) := by
  have hstill := still_testedB hrest
  exact (still_timers hik hstill hk).of_still (hstill.trains i)

theorem secondGas (s : State) : gasIs (s.dry.gas + (s.dry.trains.toList.map Train.regeneration).sum) (dryingSecond s) := by
  have hbegun : gasIs (s.dry.gas + (s.dry.trains.toList.map Train.regeneration).sum) (begun s) := rfl
  exact gas_kept hbegun

/-- The rest of the part in a second. -/
theorem secondRow (s : State) : recutFollows s (gathered dryingSecond s)
    ∧ s.changesOnly [.world, .dry, .flow, .sched, .evq] (gathered dryingSecond s) :=
  ⟨gathered_recutFlow fun u => (recutDry u).dryingSecond (recutsSince_refl u),
    gathered_drying ((dryKept_of_subset (List.Subset.refl flowParts) s.gatheringEvents).dryingSecond (.refl _ _))⟩

end

/-- Settles O51: each train's beds run, end their phases and are tested, whatever the other train's part brings; a second in which nothing
begins hands nothing on up to the timers, each of which then runs or ends. -/
theorem dryingSecondAccruesAndLoads : Obligations.DryingSecondAccruesAndLoads := by
  intro s
  have hgas := secondGas s.gatheringEvents
  have hrun := secondRun s.gatheringEvents
  have htimers := fun i k hik => secondTimers (s := s.gatheringEvents) (i := i) (k := k) hik
  obtain ⟨hrecut, hparts⟩ := secondRow s
  refine ⟨gathered dryingSecond s, exec_dryingSecond s, ?_⟩
  generalize dryingSecond = f at *
  refine ⟨hgas, fun i j => ?_, fun hquiet i k hik => ?_, hrecut, hparts⟩
  · obtain ⟨hbeds, hmask⟩ := hrun i
    exact bedClaims (x := s.dry.trains[i]) (g := s.gatheringEvents) (v := f s.gatheringEvents) (R := fun e => ∃ l m : List Raised, (gathered f s).evq =
        s.evq.pushAll (l ++ e :: m)) (j := j) hbeds rfl
      (fun _ _ _ ht => gathered_tells ht) (hmask j)
  · intro x y other raised hmask hexc hrec
    have hrest (i : Fin 2) := rests_of_quiet (s := s.gatheringEvents) (v := f s.gatheringEvents) (hquiet i).1 (hquiet i).2
    exact timerClaims (s := s.gatheringEvents) (v := f s.gatheringEvents) (x := s.dry.trains[i]) (R := fun e => ∃ l m : List Raised, (gathered f s).evq =
        s.evq.pushAll (l ++ ⟨gasTime s, e, some i.val, some (s.dry.trains[i]).dew⟩ :: m))
      (htimers i k hik hrest ⟨hmask, hexc, hrec⟩) (fun hc => ((capacitiesCurrent_iff _).mp hc).2) fun e ht => gathered_tells ht

end Sys2Proof.Machine
end
